-- ==== Sys2Proof/Word.lean ====
section
/-! DEFINITION. Words of the part and the plainest arithmetic on them (00_scope R4, R9). -/

namespace Sys2Proof

/-- A 32-bit register, instruction word or literal. -/
abbrev Word := BitVec 32

/-- A byte of memory. -/
abbrev Byte := BitVec 8

/-- A virtual address, a program counter or a 64-bit register pair. -/
abbrev DWord := BitVec 64

end Sys2Proof
end

