-- ==== Sys2Proof/Syntax.lean ====
section
/-! DEFINITION. The steps of the part: one constructor for each row of spec/opcode_table.json.

First the instruction words; their arguments are the fields of the word that the opcode table gives, under the table's names,
and a field that names an even register pair or an aligned quad holds the register number without its low zero bits.
The C bit belongs to the framing of a word in a D-packet (R31) and the literal to the slot after it (R37): neither is here.
Then the steps of the part's engines, processors, links and inputs, which have no encoding; what such a step acts on (a team,
a queue, an operation in flight) and what an input brings stands in the machine's state, in the entry of the agenda that
names the step (`State.arg`). -/

namespace Sys2Proof

/-- A step of the part (02_encoding R44; spec/opcode_table.json). -/
inductive Instr where
  /-- NOP (R33). -/
  | nop
  /-- IADD (R116). -/
  | iadd (d a b : BitVec 7)
  /-- ISUB (R116). -/
  | isub (d a b : BitVec 7)
  /-- IMUL (R116). -/
  | imul (d a b : BitVec 7)
  /-- IMULH_I32 (R116). -/
  | imulhI32 (d a b : BitVec 7)
  /-- IMULH_N32 (R116). -/
  | imulhN32 (d a b : BitVec 7)
  /-- AND (R116). -/
  | and (d a b : BitVec 7)
  /-- OR (R116). -/
  | or (d a b : BitVec 7)
  /-- XOR (R116). -/
  | xor (d a b : BitVec 7)
  /-- SHL (R116). -/
  | shl (d a b : BitVec 7)
  /-- SHR (R116). -/
  | shr (d a b : BitVec 7)
  /-- SAR (R116). -/
  | sar (d a b : BitVec 7)
  /-- IMIN_I32 (R116). -/
  | iminI32 (d a b : BitVec 7)
  /-- IMAX_I32 (R116). -/
  | imaxI32 (d a b : BitVec 7)
  /-- IMIN_N32 (R116). -/
  | iminN32 (d a b : BitVec 7)
  /-- IMAX_N32 (R116). -/
  | imaxN32 (d a b : BitVec 7)
  /-- IADDS_I32 (R116). -/
  | iaddsI32 (d a b : BitVec 7)
  /-- IADD_VS (R116). -/
  | iaddVs (d a : BitVec 7) (s : BitVec 6)
  /-- ISUB_VS (R116). -/
  | isubVs (d a : BitVec 7) (s : BitVec 6)
  /-- IMUL_VS (R116). -/
  | imulVs (d a : BitVec 7) (s : BitVec 6)
  /-- IMULH_I32_VS (R116). -/
  | imulhI32Vs (d a : BitVec 7) (s : BitVec 6)
  /-- IMULH_N32_VS (R116). -/
  | imulhN32Vs (d a : BitVec 7) (s : BitVec 6)
  /-- AND_VS (R116). -/
  | andVs (d a : BitVec 7) (s : BitVec 6)
  /-- OR_VS (R116). -/
  | orVs (d a : BitVec 7) (s : BitVec 6)
  /-- XOR_VS (R116). -/
  | xorVs (d a : BitVec 7) (s : BitVec 6)
  /-- SHL_VS (R116). -/
  | shlVs (d a : BitVec 7) (s : BitVec 6)
  /-- SHR_VS (R116). -/
  | shrVs (d a : BitVec 7) (s : BitVec 6)
  /-- SAR_VS (R116). -/
  | sarVs (d a : BitVec 7) (s : BitVec 6)
  /-- IMIN_I32_VS (R116). -/
  | iminI32Vs (d a : BitVec 7) (s : BitVec 6)
  /-- IMAX_I32_VS (R116). -/
  | imaxI32Vs (d a : BitVec 7) (s : BitVec 6)
  /-- IMIN_N32_VS (R116). -/
  | iminN32Vs (d a : BitVec 7) (s : BitVec 6)
  /-- IMAX_N32_VS (R116). -/
  | imaxN32Vs (d a : BitVec 7) (s : BitVec 6)
  /-- IADDS_I32_VS (R116). -/
  | iaddsI32Vs (d a : BitVec 7) (s : BitVec 6)
  /-- MOVS (R117). -/
  | movs (d : BitVec 7) (s : BitVec 6)
  /-- IMACS (R117). -/
  | imacs (d a : BitVec 7) (s : BitVec 6)
  /-- IADDI (R118). -/
  | iaddi (d a : BitVec 7) (i : BitVec 8)
  /-- ANDI (R118). -/
  | andi (d a : BitVec 7) (i : BitVec 8)
  /-- ORI (R118). -/
  | ori (d a : BitVec 7) (i : BitVec 8)
  /-- XORI (R118). -/
  | xori (d a : BitVec 7) (i : BitVec 8)
  /-- SHLI (R118). -/
  | shli (d a : BitVec 7) (i : BitVec 5)
  /-- SHRI (R118). -/
  | shri (d a : BitVec 7) (i : BitVec 5)
  /-- SARI (R118). -/
  | sari (d a : BitVec 7) (i : BitVec 5)
  /-- MOVI (R118). -/
  | movi (d : BitVec 7) (i : BitVec 8)
  /-- SETP (R119). -/
  | setp (p : BitVec 3) (t : BitVec 4) (a b : BitVec 7) (k : BitVec 4)
  /-- PAND (R120). -/
  | pand (d a b : BitVec 3) (x y : BitVec 1)
  /-- POR (R120). -/
  | por (d a b : BitVec 3) (x y : BitVec 1)
  /-- PXOR (R120). -/
  | pxor (d a b : BitVec 3) (x y : BitVec 1)
  /-- PMOV (R120). -/
  | pmov (d a : BitVec 3) (x : BitVec 1)
  /-- PFROMM (R120). -/
  | pfromm (d : BitVec 3) (m : BitVec 4)
  /-- SEL (R121). -/
  | sel (d a b : BitVec 7) (n : BitVec 1) (p : BitVec 3)
  /-- FADD (R132). -/
  | fadd (d a b : BitVec 7)
  /-- FSUB (R132). -/
  | fsub (d a b : BitVec 7)
  /-- FMUL (R132). -/
  | fmul (d a b : BitVec 7)
  /-- FMIN (R132). -/
  | fmin (d a b : BitVec 7)
  /-- FMAX (R132). -/
  | fmax (d a b : BitVec 7)
  /-- FFMA (R132). -/
  | ffma (d a b : BitVec 7)
  /-- HADD2 (R132). -/
  | hadd2 (d a b : BitVec 7)
  /-- HMUL2 (R132). -/
  | hmul2 (d a b : BitVec 7)
  /-- HFMA2 (R132). -/
  | hfma2 (d a b : BitVec 7)
  /-- BADD2 (R132). -/
  | badd2 (d a b : BitVec 7)
  /-- BMUL2 (R132). -/
  | bmul2 (d a b : BitVec 7)
  /-- BFMA2 (R132). -/
  | bfma2 (d a b : BitVec 7)
  /-- HMIN2 (R132). -/
  | hmin2 (d a b : BitVec 7)
  /-- HMAX2 (R132). -/
  | hmax2 (d a b : BitVec 7)
  /-- FADDS (R134). -/
  | fadds (d a : BitVec 7) (s : BitVec 6)
  /-- FSUBS (R134). -/
  | fsubs (d a : BitVec 7) (s : BitVec 6)
  /-- FMULS (R134). -/
  | fmuls (d a : BitVec 7) (s : BitVec 6)
  /-- FFMAS (R134). -/
  | ffmas (d a : BitVec 7) (s : BitVec 6)
  /-- FMINS (R134). -/
  | fmins (d a : BitVec 7) (s : BitVec 6)
  /-- FMAXS (R134). -/
  | fmaxs (d a : BitVec 7) (s : BitVec 6)
  /-- HFMA2S (R134). -/
  | hfma2s (d a : BitVec 7) (s : BitVec 6)
  /-- BFMA2S (R134). -/
  | bfma2s (d a : BitVec 7) (s : BitVec 6)
  /-- CVT_F32_I32 (R135). -/
  | cvtF32I32 (d a : BitVec 7) (r : BitVec 2)
  /-- CVT_F32_N32 (R135). -/
  | cvtF32N32 (d a : BitVec 7) (r : BitVec 2)
  /-- CVT_I32_F32 (R135). -/
  | cvtI32F32 (d a : BitVec 7) (r : BitVec 2) (s : BitVec 1)
  /-- CVT_N32_F32 (R135). -/
  | cvtN32F32 (d a : BitVec 7) (r : BitVec 2) (s : BitVec 1)
  /-- CVT_F16_F32 (R135). -/
  | cvtF16F32 (d a : BitVec 7) (r : BitVec 2) (s : BitVec 1)
  /-- CVT_F32_F16 (R135). -/
  | cvtF32F16 (d a : BitVec 7)
  /-- CVT_BF16_F32 (R135). -/
  | cvtBf16F32 (d a : BitVec 7) (r : BitVec 2) (s : BitVec 1)
  /-- CVT_F32_BF16 (R135). -/
  | cvtF32Bf16 (d a : BitVec 7)
  /-- CVT_DM8_F32 (R135). -/
  | cvtDm8F32 (d a : BitVec 7) (s : BitVec 1)
  /-- CVT_F32_DM8 (R135). -/
  | cvtF32Dm8 (d a : BitVec 7) (r : BitVec 2)
  /-- CVT_E4M3_F32 (R135). -/
  | cvtE4m3F32 (d a : BitVec 7) (r : BitVec 2) (s : BitVec 1)
  /-- CVT_F32_E4M3 (R135). -/
  | cvtF32E4m3 (d a : BitVec 7)
  /-- CVT_E5M2_F32 (R135). -/
  | cvtE5m2F32 (d a : BitVec 7) (r : BitVec 2) (s : BitVec 1)
  /-- CVT_F32_E5M2 (R135). -/
  | cvtF32E5m2 (d a : BitVec 7)
  /-- FABS (R135). -/
  | fabs (d a : BitVec 7)
  /-- FNEG (R135). -/
  | fneg (d a : BitVec 7)
  /-- POPC (R135). -/
  | popc (d a : BitVec 7)
  /-- CLZ (R135). -/
  | clz (d a : BitVec 7)
  /-- BREV (R135). -/
  | brev (d a : BitVec 7)
  /-- SX8 (R135). -/
  | sx8 (d a : BitVec 7)
  /-- SX16 (R135). -/
  | sx16 (d a : BitVec 7)
  /-- ZX8 (R135). -/
  | zx8 (d a : BitVec 7)
  /-- ZX16 (R135). -/
  | zx16 (d a : BitVec 7)
  /-- RCP (R137). -/
  | rcp (d a : BitVec 7)
  /-- RSQ (R137). -/
  | rsq (d a : BitVec 7)
  /-- SQRT (R137). -/
  | sqrt (d a : BitVec 7)
  /-- EXP2 (R137). -/
  | exp2 (d a : BitVec 7)
  /-- LOG2 (R137). -/
  | log2 (d a : BitVec 7)
  /-- SINRV (R137). -/
  | sinrv (d a : BitVec 7)
  /-- COSRV (R137). -/
  | cosrv (d a : BitVec 7)
  /-- TANH (R137). -/
  | tanh (d a : BitVec 7)
  /-- MOV (R122). -/
  | mov (d a : BitVec 7)
  /-- RFAL (R123). -/
  | rfal (a : BitVec 7) (k : BitVec 6)
  /-- RLANE (R123). -/
  | rlane (l : BitVec 6) (a : BitVec 7) (k : BitVec 6)
  /-- LANEID (R122). -/
  | laneid (d : BitVec 7)
  /-- TID (R122). -/
  | tid (d : BitVec 7)
  /-- RDTSR (R109). -/
  | rdtsr (d : BitVec 7) (k : BitVec 6)
  /-- WRTSR (R109). -/
  | wrtsr (a : BitVec 7) (k : BitVec 6)
  /-- SHFL (R169). -/
  | shfl (d a b : BitVec 7)
  /-- SHFLUP (R169). -/
  | shflup (d a b : BitVec 7)
  /-- SHFLDN (R169). -/
  | shfldn (d a b : BitVec 7)
  /-- SHFLX (R169). -/
  | shflx (d a b : BitVec 7)
  /-- VANY (R170). -/
  | vany (p q : BitVec 3)
  /-- VALL (R170). -/
  | vall (p q : BitVec 3)
  /-- BALLOT (R170). -/
  | ballot (s : BitVec 6) (q : BitVec 3)
  /-- REDADD_I32 (R171). -/
  | redaddI32 (d a : BitVec 7)
  /-- REDADD_F32 (R171). -/
  | redaddF32 (d a : BitVec 7)
  /-- REDMAX_F32 (R171). -/
  | redmaxF32 (d a : BitVec 7)
  /-- REDMIN_F32 (R171). -/
  | redminF32 (d a : BitVec 7)
  /-- SCANADD_I32 (R171). -/
  | scanaddI32 (d a : BitVec 7)
  /-- SCANADD_F32 (R171). -/
  | scanaddF32 (d a : BitVec 7)
  /-- RREAD (R115). -/
  | rread (d a b : BitVec 7)
  /-- RWRITE (R115). -/
  | rwrite (d a b : BitVec 7)
  /-- RAND (R140). -/
  | rand (d a : BitVec 7) (s : BitVec 5)
  /-- RANDF (R140). -/
  | randf (d a : BitVec 7) (s : BitVec 5)
  /-- RAND4 (R140). -/
  | rand4 (d : BitVec 5) (a : BitVec 7) (s : BitVec 5)
  /-- SADD (R124). -/
  | sadd (d a b : BitVec 6)
  /-- SSUB (R124). -/
  | ssub (d a b : BitVec 6)
  /-- SMUL (R124). -/
  | smul (d a b : BitVec 6)
  /-- SMULH_I32 (R124). -/
  | smulhI32 (d a b : BitVec 6)
  /-- SMULH_N32 (R124). -/
  | smulhN32 (d a b : BitVec 6)
  /-- SAND (R124). -/
  | sand (d a b : BitVec 6)
  /-- SOR (R124). -/
  | sor (d a b : BitVec 6)
  /-- SXOR (R124). -/
  | sxor (d a b : BitVec 6)
  /-- SSHL (R124). -/
  | sshl (d a b : BitVec 6)
  /-- SSHR (R124). -/
  | sshr (d a b : BitVec 6)
  /-- SSAR (R124). -/
  | ssar (d a b : BitVec 6)
  /-- SMIN_I32 (R124). -/
  | sminI32 (d a b : BitVec 6)
  /-- SMAX_I32 (R124). -/
  | smaxI32 (d a b : BitVec 6)
  /-- SMIN_N32 (R124). -/
  | sminN32 (d a b : BitVec 6)
  /-- SMAX_N32 (R124). -/
  | smaxN32 (d a b : BitVec 6)
  /-- SMOV (R124). -/
  | smov (d a : BitVec 6)
  /-- SADD64 (R124). -/
  | sadd64 (d a b : BitVec 5)
  /-- SSUB64 (R124). -/
  | ssub64 (d a b : BitVec 5)
  /-- SSHL64 (R124). -/
  | sshl64 (d a : BitVec 5) (b : BitVec 6)
  /-- SSHR64 (R124). -/
  | sshr64 (d a : BitVec 5) (b : BitVec 6)
  /-- SMULW (R124). -/
  | smulw (d : BitVec 5) (a b : BitVec 6)
  /-- SADDI (R125). -/
  | saddi (d a : BitVec 6) (i : BitVec 13)
  /-- SLUI (R125). -/
  | slui (d : BitVec 6) (i : BitVec 19)
  /-- SADDI64 (R125). -/
  | saddi64 (d a : BitVec 5) (i : BitVec 13)
  /-- SCMP (R126). -/
  | scmp (q : BitVec 3) (t : BitVec 4) (a b : BitVec 6) (k : BitVec 4)
  /-- QAND (R127). -/
  | qand (d a b : BitVec 3) (x y : BitVec 1)
  /-- QOR (R127). -/
  | qor (d a b : BitVec 3) (x y : BitVec 1)
  /-- QXOR (R127). -/
  | qxor (d a b : BitVec 3) (x y : BitVec 1)
  /-- QMOV (R127). -/
  | qmov (d a : BitVec 3) (x : BitVec 1)
  /-- SSRR (R128). -/
  | ssrr (s : BitVec 6) (r : BitVec 12)
  /-- SSRW (R128). -/
  | ssrw (s : BitVec 6) (r : BitVec 12)
  /-- JOIN (R164). -/
  | join (m : BitVec 4)
  /-- LEAVE (R164). -/
  | leave (m : BitVec 4)
  /-- WAITM (R166). -/
  | waitm (m : BitVec 4)
  /-- MSET (R164). -/
  | mset (m : BitVec 4) (s : BitVec 5)
  /-- MGET (R164). -/
  | mget (m : BitVec 4) (s : BitVec 5)
  /-- MAND (R164). -/
  | mand (m n : BitVec 4)
  /-- MOR (R164). -/
  | mor (m n : BitVec 4)
  /-- MANDN (R164). -/
  | mandn (m n : BitVec 4)
  /-- MPOPC (R164). -/
  | mpopc (m : BitVec 4) (s : BitVec 6)
  /-- MSELF (R164). -/
  | mself (s : BitVec 5)
  /-- BRA (R151). -/
  | bra (o : BitVec 25)
  /-- BRP (R151). -/
  | brp (n : BitVec 1) (p : BitVec 3) (o : BitVec 21)
  /-- BRQ (R151). -/
  | brq (n : BitVec 1) (q : BitVec 3) (o : BitVec 21)
  /-- CALL (R152). -/
  | call (o : BitVec 25)
  /-- CALLR (R154). -/
  | callr (a : BitVec 6)
  /-- JMPR (R154). -/
  | jmpr (a : BitVec 6)
  /-- RET (R155). -/
  | ret
  /-- EXIT (R156). -/
  | exit
  /-- REFORM_G (R158). -/
  | reformG
  /-- REFORM_T (R158). -/
  | reformT
  /-- YIELD (R161). -/
  | yield
  /-- LD (R198). -/
  | ld (v : BitVec 7) (s : BitVec 5) (i : BitVec 7) (w : BitVec 3) (h : BitVec 2)
  /-- ST (R198). -/
  | st (v : BitVec 7) (s : BitVec 5) (i : BitVec 7) (w : BitVec 3) (h : BitVec 2)
  /-- ATOM (R200). -/
  | atom (d : BitVec 7) (s : BitVec 5) (i : BitVec 7) (o : BitVec 4) (r : BitVec 1)
  /-- RED (R200). -/
  | red (d : BitVec 7) (s : BitVec 5) (i : BitVec 7) (o : BitVec 4) (r : BitVec 1)
  /-- FENCE_ACQ (R208). -/
  | fenceAcq (g : BitVec 3)
  /-- FENCE_REL (R208). -/
  | fenceRel (g : BitVec 3)
  /-- FENCE_AR (R208). -/
  | fenceAr (g : BitVec 3)
  /-- DRAIN_NT (R218). -/
  | drainNt (g : BitVec 3)
  /-- ALIASFENCE (R219). -/
  | aliasfence (g : BitVec 3)
  /-- PREFETCH (R202). -/
  | prefetch (s : BitVec 5) (i : BitVec 7)
  /-- WBL (R202). -/
  | wbl (s : BitVec 5) (i : BitVec 7)
  /-- INVL (R202). -/
  | invl (s : BitVec 5) (i : BitVec 7)
  /-- TCHAIN (R250). -/
  | tchain (d : BitVec 6) (s : BitVec 5)
  /-- TAGWAIT_ALL (R251). -/
  | tagwaitAll (s : BitVec 5)
  /-- TAGWAIT_ANY (R251). -/
  | tagwaitAny (s : BitVec 5)
  /-- TAGFIRST (R251). -/
  | tagfirst (d : BitVec 6) (s : BitVec 5)
  /-- TAGCLR (R251). -/
  | tagclr (s : BitVec 5)
  /-- QPOP (R252). -/
  | qpop (v : BitVec 7) (q : BitVec 2)
  /-- TCANCEL (R253). -/
  | tcancel (s : BitVec 6)
  /-- OCLAIM (R260). -/
  | oclaim (d : BitVec 6)
  /-- ORELEASE (R261). -/
  | orelease (s : BitVec 6)
  /-- OFENCE (R262). -/
  | ofence
  /-- MMA (R266). -/
  | mma (h : BitVec 5) (a : BitVec 3) (x y : BitVec 5) (v : BitVec 3) (z : BitVec 1)
  /-- MWAIT (R273). -/
  | mwait (a : BitVec 3)
  /-- MDRAIN (R276). -/
  | mdrain (a : BitVec 3) (s : BitVec 5)
  /-- MZERO (R274). -/
  | mzero (a : BitVec 3)
  /-- MLOAD (R278). -/
  | mload (a : BitVec 3) (s : BitVec 5)
  /-- CVSET (R267). -/
  | cvset (v : BitVec 3) (s : BitVec 6)
  /-- ARRIVE (R286). -/
  | arrive (g : BitVec 3) (b d : BitVec 6)
  /-- WAITB (R292). -/
  | waitb (g : BitVec 3) (b k d : BitVec 6)
  /-- SYNC (R292). -/
  | sync (g : BitVec 3) (b d : BitVec 6)
  /-- ARRIVEX (R287). -/
  | arrivex (g : BitVec 3) (b k d : BitVec 6)
  /-- TKWAIT (R369). -/
  | tkwait
  /-- TKPASS (R369). -/
  | tkpass
  /-- TKDONE (R369). -/
  | tkdone
  /-- ENSURE (R304). -/
  | ensure (s : BitVec 6)
  /-- ELSEBY (R305). -/
  | elseby
  /-- ELSEERROR (R305). -/
  | elseerror
  /-- ACCEPT (R305). -/
  | accept
  /-- REJECT (R305). -/
  | reject
  /-- CONVJOIN (R316). -/
  | convjoin (s : BitVec 6)
  /-- CONVLEAVE (R316). -/
  | convleave
  /-- RBSTAT (R306). -/
  | rbstat (d : BitVec 6)
  /-- FORK (R323). -/
  | fork (d s : BitVec 6)
  /-- WDONE (R324). -/
  | wdone (s : BitVec 6)
  /-- CHOOSE (R325). -/
  | choose (d s : BitVec 6)
  /-- WABORT (R324). -/
  | wabort
  /-- WSTAT (R326). -/
  | wstat (d : BitVec 5) (s : BitVec 6)
  /-- MIGRATE (R341). -/
  | migrate (k : BitVec 2)
  /-- EQPT (R340). -/
  | eqpt (i : BitVec 16)
  /-- KLAUNCH (R364). -/
  | klaunch (k : BitVec 5) (q : BitVec 6)
  /-- TRAP (R399). -/
  | trap (i : BitVec 8)
  /-- RTT (R399). -/
  | rtt
  /-- ICINV (R399). -/
  | icinv (k l : BitVec 5)
  /-- BKPT (R399). -/
  | bkpt
  /-- PACKET_ISSUE (R27). Arguments: team squad : Nat. -/
  | packetIssue
  /-- RESULT_WRITEBACK (R49). Arguments: op : Nat. -/
  | resultWriteback
  /-- STORE_ACCEPT (R25). Arguments: op : Nat. -/
  | storeAccept
  /-- FENCE_COMPLETE (R208). Arguments: op : Nat. -/
  | fenceComplete
  /-- HANDLER_ENTRY (R397). Arguments: team gid lane : Nat. -/
  | handlerEntry
  /-- TRAY_AGED (R159). Arguments: team tray : Nat. -/
  | trayAged
  /-- TRAY_DRAW (R159). Arguments: core sched : Nat. -/
  | trayDraw
  /-- REPLAY (R188). Arguments: ctx idx : Nat. -/
  | replay
  /-- CHUNK_PACKET_LIMIT (R221). Arguments: lam : Nat. -/
  | chunkPacketLimit
  /-- CHUNK_QUIET_PERIOD (R221). Arguments: lam : Nat. -/
  | chunkQuietPeriod
  /-- CHUNK_COMMIT_GRANT (R224). Arguments: lam : Nat. -/
  | chunkCommitGrant
  /-- SIGNATURE_BROADCAST_APPLY (R224). Arguments: flight die : Nat. -/
  | signatureBroadcastApply
  /-- EXTERNAL_WRITE_SIGNATURE (R225). Arguments: die : Nat. -/
  | externalWriteSignature
  /-- ATOMIC_REQUEST_PERFORM (R201). Arguments: op : Nat. -/
  | atomicRequestPerform
  /-- PAGE_MOVE (R191). Arguments: ctx va dst : Nat; ctx va for an unmap; one more after dst for a correctable failure. -/
  | pageMove
  /-- ECC_ERROR_REPORT (R190). Arguments: ctx va : Nat. -/
  | eccErrorReport
  /-- SHOOTDOWN (R184). Arguments: ctx len : Nat. -/
  | shootdown
  /-- SHOOTDOWN_COMPLETE (R184). Arguments: ctx : Nat. -/
  | shootdownComplete
  /-- HOST_MEM_READ (R192). Arguments: pa len : Nat. -/
  | hostMemRead
  /-- HOST_MEM_WRITE (R192). Arguments: pa len val : Nat. -/
  | hostMemWrite
  /-- HOST_ERROR_COMPLETION (R406). Arguments: op : Nat, poisoned : Bool. -/
  | hostErrorCompletion
  /-- TRANSLATE (R193). Arguments: ctx va len : Nat. -/
  | translate
  /-- PERMIT (R193). Arguments: ctx va rights : Nat. -/
  | permit
  /-- REVOKE_ANSWER (R194). Arguments: ctx va agent : Nat. -/
  | revokeAnswer
  /-- COPY_ENTRY (R241). Arguments: team h : Nat. -/
  | copyEntry
  /-- COPY_COMPLETE (R241). Arguments: team copy : Nat. -/
  | copyComplete
  /-- LOOP_ENTRY (R242). Arguments: team h : Nat. -/
  | loopEntry
  /-- IFTAG_ENTRY (R243). Arguments: team h : Nat. -/
  | iftagEntry
  /-- SETTAG_ENTRY (R243). Arguments: team h : Nat. -/
  | settagEntry
  /-- QFEED_ENTRY (R244). Arguments: team h : Nat. -/
  | qfeedEntry
  /-- QFEED_RESUME (R244). Arguments: team h : Nat. -/
  | qfeedResume
  /-- END_ENTRY (R240). Arguments: team h : Nat. -/
  | endEntry
  /-- MATRIX_OP_START (R271). Arguments: core : Nat. -/
  | matrixOpStart
  /-- MATRIX_OP_COMPLETE (R271). Arguments: op : Nat. -/
  | matrixOpComplete
  /-- MZERO_COMPLETE (R274). Arguments: op : Nat. -/
  | mzeroComplete
  /-- DRAIN_COMPLETE (R276). Arguments: op : Nat. -/
  | drainComplete
  /-- MLOAD_COMPLETE (R278). Arguments: op : Nat. -/
  | mloadComplete
  /-- BARRIER_RELEASE (R289). Arguments: bar : Nat. -/
  | barrierRelease
  /-- POD_BARRIER_ARRIVAL (R413). Arguments: ctx id module count : Nat. -/
  | podBarrierArrival
  /-- POD_BARRIER_COMPLETION (R413). Arguments: ctx id : Nat. -/
  | podBarrierCompletion
  /-- WATCHDOG_TIMEOUT (R294). Arguments: ctx : Nat. -/
  | watchdogTimeout
  /-- RB_CYCLE_LIMIT (R311). Arguments: team : Nat. -/
  | rbCycleLimit
  /-- RB_RESTORE (R310). Arguments: team : Nat. -/
  | rbRestore
  /-- RB_COMMIT_COMPLETE (R309). Arguments: team : Nat. -/
  | rbCommitComplete
  /-- FORK_COMPLETE (R323). Arguments: team : Nat. -/
  | forkComplete
  /-- RIVAL_DONE (R324). Arguments: team : Nat. -/
  | rivalDone
  /-- RIVAL_TIME_SHARE (R328). Arguments: team : Nat. -/
  | rivalTimeShare
  /-- RIVAL_PLACE (R328). Arguments: team core : Nat. -/
  | rivalPlace
  /-- PARENT_RESUME (R328). Arguments: team : Nat. -/
  | parentResume
  /-- MIGRATION_PERFORM (R343). Arguments: team core : Nat. -/
  | migrationPerform
  /-- MIGRATION_TIMEOUT (R344). Arguments: team : Nat. -/
  | migrationTimeout
  /-- THERMAL_MIGRATION (R346). Arguments: team core : Nat. -/
  | thermalMigration
  /-- KERNEL_LOAD (R348). Arguments: img : Nat. -/
  | kernelLoad
  /-- KERNEL_UNLOAD (R348). Arguments: img : Nat. -/
  | kernelUnload
  /-- FEATURE_ACCEPT (R355). Arguments: v : BitVec 256. -/
  | featureAccept
  /-- CORE_GRANT (R382). Arguments: core : Nat. -/
  | coreGrant
  /-- GROUP_RETIRE (R143). Arguments: team gid : Nat. -/
  | groupRetire
  /-- LAUNCH_COMPLETE (R363). Arguments: launch : Nat. -/
  | launchComplete
  /-- BAKERY_TURN_BEGIN (R367). Arguments: team : Nat. -/
  | bakeryTurnBegin
  /-- DOORBELL (R373). Arguments: ctx q : Nat, v : DWord. -/
  | doorbell
  /-- QUPDATE (R371). Arguments: ctx : Nat, v : DWord. -/
  | qupdate
  /-- QUEUE_PACKET_TAKE (R376). Arguments: ctx q : Nat. -/
  | queuePacketTake
  /-- NOP_PACKET (R375). Arguments: ctx q pk : Nat. -/
  | nopPacket
  /-- LAUNCH (R359). Arguments: ctx q pk : Nat. -/
  | launch
  /-- WAITSIG (R378). Arguments: ctx q pk : Nat. -/
  | waitsig
  /-- WAITSIG_REREAD (R378). Arguments: ctx q pk : Nat. -/
  | waitsigReread
  /-- WAITSIG_TIMEOUT (R378). Arguments: ctx q pk : Nat. -/
  | waitsigTimeout
  /-- SIGNAL (R379). Arguments: ctx q pk : Nat. -/
  | signal
  /-- COPY_PACKET (R380). Arguments: ctx q pk : Nat. -/
  | copyPacket
  /-- COPY_PACKET_COMPLETE (R380). Arguments: ctx q pk : Nat. -/
  | copyPacketComplete
  /-- TIMESTAMP (R381). Arguments: ctx q pk : Nat. -/
  | timestamp
  /-- FENCE_PACKET (R377). Arguments: ctx q pk : Nat. -/
  | fencePacket
  /-- FENCE_PACKET_COMPLETE (R377). Arguments: ctx q pk : Nat. -/
  | fencePacketComplete
  /-- KLAUNCH_DELIVERY (R374). Arguments: op : Nat. -/
  | klaunchDelivery
  /-- PRIORITY_AGING (R384). Arguments: ctx q : Nat. -/
  | priorityAging
  /-- CORE_RECLAIM (R386). Arguments: ctx count : Nat. -/
  | coreReclaim
  /-- PREEMPT_STOP_REQUEST (R400). Arguments: core : Nat. -/
  | preemptStopRequest
  /-- TEAM_SAVE_COMPLETE (R401). Arguments: team : Nat. -/
  | teamSaveComplete
  /-- TEAM_RESTORE (R403). Arguments: team core : Nat. -/
  | teamRestore
  /-- CREATE (R391). Arguments: ctx : Nat. -/
  | create
  /-- ENABLE (R391). Arguments: ctx : Nat. -/
  | enable
  /-- TERMINATE (R391). Arguments: ctx : Nat. -/
  | terminate
  /-- RELEASE (R391). Arguments: ctx : Nat. -/
  | release
  /-- CONTEXT_RESOURCES_FREED (R392). Arguments: ctx : Nat. -/
  | contextResourcesFreed
  /-- TQREAD (R395). Arguments: ctx : Nat, v : DWord. -/
  | tqread
  /-- REGISTER_WRITE (R390). Arguments: page ctx off : Nat, v : DWord. -/
  | registerWrite
  /-- LINK_ENABLE (R404). Arguments: link : Nat. -/
  | linkEnable
  /-- LINK_TRAINED (R404). Arguments: link result : Nat. -/
  | linkTrained
  /-- LINK_RETRY_RATE (R404). Arguments: link retries : Nat. -/
  | linkRetryRate
  /-- LINK_DISABLE (R404). Arguments: link : Nat. -/
  | linkDisable
  /-- FLIT_RECEIVE (R409). Arguments: port : Nat. -/
  | flitReceive
  /-- PROOFER_AUDIT (R415). Arguments: chan : Nat. -/
  | prooferAudit
  /-- REMOTE_POD_ACCESS (R411). Arguments: req : Nat. -/
  | remotePodAccess
  /-- POWER_ON (R419). -/
  | powerOn
  /-- WARM_RESET (R419). -/
  | warmReset
  /-- ATTESTATION_REQUEST (R421). Arguments: nonce : BitVec 256. -/
  | attestationRequest
  /-- PPS_EDGE (R422). Arguments: sec ns : Nat. -/
  | ppsEdge
  /-- PPS_LOSS (R422). -/
  | ppsLoss
  /-- POWER_LIMIT_SET (R423). Arguments: watts : Nat. -/
  | powerLimitSet
  /-- CONTEXT_POWER_CAP_SET (R423). Arguments: ctx watts : Nat. -/
  | contextPowerCapSet
  /-- L_CORE_THERMAL_THROTTLE (R424). Arguments: core temp : Nat. -/
  | lCoreThermalThrottle
  /-- THROTTLE_CLOCK_RISE (R424). Arguments: core temp : Nat. -/
  | throttleClockRise
  /-- HBM_THERMAL_THROTTLE (R424). Arguments: stack temp : Nat. -/
  | hbmThermalThrottle
  /-- TEMP_CRITICAL (R424). Arguments: temp : Nat. -/
  | tempCritical
  /-- HEARTBEAT_MISS (R425). Arguments: proc ms : Nat. -/
  | heartbeatMiss
  /-- HBM_STACK_BELOW_90_C (R424). Arguments: stack temp : Nat. -/
  | hbmStackBelow90C
  /-- IEEE_1588_TIME_OF_DAY (R422). Arguments: sec ns : Nat. -/
  | ieee1588TimeOfDay
  deriving DecidableEq, Repr

end Sys2Proof
end

