-- ==== Sys2Proof/WellFormed.lean ====
section
/-! DEFINITION. The field values of an instruction word that raise `ILLOP` although every fixed bit is right
(02_encoding Table 9, R37, R46, and the field checks of each chapter). A check that needs the state (a feature, a mode,
a run-time value) is not here. -/

namespace Sys2Proof

/-- Why a field value is not an instruction. -/
inductive FieldError where
  /-- A scalar destination names `s63` (R37, R123, R128, R164). -/
  | literalDest
  /-- A field that may carry no literal names `s63` (R125, R303). -/
  | literalSource
  /-- A pair field names register 62 (R37), or is odd where its low bit is written. -/
  | badPair
  /-- A vector pair or quad field is not aligned (R104, R119, R198, R200). -/
  | misalignedVector
  /-- A `SETP` or `SCMP` type or condition is unassigned, or does not fit the type (R119, R126). -/
  | badCompare
  /-- A lane mask number of 12 to 15 (R120, R164). -/
  | badMask
  /-- A per-thread special register that is unassigned, or is written though RO (R109). -/
  | badThreadRegister
  /-- A special-register number that is unassigned, or is written though RO (R110, R128). -/
  | badSpecialRegister
  /-- A width or an atomic operation that is unassigned or not allowed (R198, R200). -/
  | badAccess
  /-- A scope above 4 (R207, R292). -/
  | badScope
  /-- A barrier identifier beyond its scope's range (R283, R292). -/
  | badBarrier
  /-- A matrix shape above 7, or an odd accumulator with a pair shape (R268). -/
  | badShape
  /-- `MIGRATE` with k = 3 (R339). -/
  | badKind
  deriving DecidableEq, Repr

/-- The special-register numbers of Table 4 (05_thread R110). -/
def assignedSr (n : Nat) : Bool :=
  n ≤ 6 || (8 ≤ n && n ≤ 0x13) || n == 0x18 || n == 0x19 || n == 0x20 || (0x28 ≤ n && n ≤ 0x32)

/-- The special registers of Table 4 that `SSRW` may name (05_thread R110). -/
def writableSr (n : Nat) : Bool :=
  n == 0x12 || n == 0x13 || n == 0x18 || n == 0x19 || n == 0x32

/-- How many barrier identifiers each scope has (12_barrier Table 1, R283). -/
def barrierCount (scope : Nat) : Nat :=
  if scope = 0 then 16 else if scope = 1 then 32 else if scope = 2 then 64 else if scope = 3 then 64
  else if scope = 4 then 16 else 0

/-- The shapes that write a pair of tiles (11_tile_matrix Table 3, R268). -/
def pairShape (h : Nat) : Bool := h == 0 || h == 1 || h == 4 || h == 6

/-- One check: the error when the condition is broken. -/
def FieldError.unless (ok : Bool) (e : FieldError) : Option FieldError := if ok then none else some e

open FieldError in
/-- A pair field (given without its low zero bit) must not be register 62 (R37). -/
def pairOk (k : BitVec 5) : Option FieldError := FieldError.unless (k != 31#5) badPair

open FieldError in
/-- A scalar destination must not be `s63` (R37). -/
def destOk (k : BitVec 6) : Option FieldError := FieldError.unless (k != 63#6) literalDest

open FieldError in
/-- A mask number is 0 to 11 (R163). -/
def maskOk (m : BitVec 4) : Option FieldError := FieldError.unless (m.toNat < 12) badMask

open FieldError in
/-- The fields of a barrier word (R292). -/
def barOk (g : BitVec 3) (b d : BitVec 6) : Option FieldError :=
  FieldError.unless (g.toNat < 5) badScope <|> FieldError.unless (b.toNat < barrierCount g.toNat) badBarrier <|> destOk d

open FieldError in
/-- The data register and width of `LD` and `ST` (R198, Table 7). -/
def accessOk (v : BitVec 7) (s : BitVec 5) (w : BitVec 3) : Option FieldError :=
  FieldError.unless (w != 7#3) badAccess <|> pairOk s
    <|> FieldError.unless (!(w == 3#3) || v.toNat % 2 == 0) misalignedVector
    <|> FieldError.unless (!(w == 4#3) || v.toNat % 4 == 0) misalignedVector

open FieldError in
/-- The operation, the `.r` bit and the data register of `ATOM` and `RED` (R200). -/
def atomOk (d : BitVec 7) (s : BitVec 5) (o : BitVec 4) (r : BitVec 1) (red : Bool) : Option FieldError :=
  FieldError.unless (o != 15#4) badAccess
    <|> FieldError.unless (r == 0#1 || (11 ≤ o.toNat && o.toNat ≤ 13)) badAccess
    <|> FieldError.unless (!(red && o == 10#4)) badAccess
    <|> FieldError.unless (!(o == 1#4 || o == 10#4) || d.toNat % 2 == 0) misalignedVector
    <|> pairOk s

namespace Instr

open FieldError in
/-- The first field check that a word breaks; none for a legal word and for every step that has no encoding. -/
def fieldError : Instr → Option FieldError
  | setp _ t a b k =>
      FieldError.unless (t.toNat < 7) badCompare <|> FieldError.unless (k.toNat < 8) badCompare
        <|> FieldError.unless (k.toNat < 6 || (2 ≤ t.toNat && t.toNat ≤ 4)) badCompare
        <|> FieldError.unless (t.toNat < 5 || (a.toNat % 2 == 0 && b.toNat % 2 == 0)) misalignedVector
  | pfromm _ m => maskOk m
  | rfal _ k => destOk k
  | rlane _ _ k => destOk k
  | rdtsr _ k => FieldError.unless (k.toNat ≤ 16) badThreadRegister
  | wrtsr _ k => FieldError.unless (2 ≤ k.toNat && k.toNat ≤ 15) badThreadRegister
  | ballot s _ => FieldError.unless (s.toNat % 2 == 0 && s != 62#6) badPair
  | rand _ _ s => pairOk s
  | randf _ _ s => pairOk s
  | rand4 _ _ s => pairOk s
  | sadd d _ _ | ssub d _ _ | smul d _ _ | smulhI32 d _ _ | smulhN32 d _ _ | sand d _ _ | sor d _ _ | sxor d _ _
  | sshl d _ _ | sshr d _ _ | ssar d _ _ | sminI32 d _ _ | smaxI32 d _ _ | sminN32 d _ _ | smaxN32 d _ _
  | smov d _ => destOk d
  | sadd64 d a b | ssub64 d a b => pairOk d <|> pairOk a <|> pairOk b
  | sshl64 d a _ | sshr64 d a _ => pairOk d <|> pairOk a
  | smulw d _ _ => pairOk d
  | saddi d a _ => destOk d <|> FieldError.unless (a != 63#6) literalSource
  | slui d _ => destOk d
  | saddi64 d a _ => pairOk d <|> pairOk a
  | scmp _ t a b k =>
      FieldError.unless (t == 0#4 || t == 1#4 || t == 5#4 || t == 6#4) badCompare
        <|> FieldError.unless (k.toNat < 6) badCompare
        <|> FieldError.unless (t.toNat < 5 || (a.toNat % 2 == 0 && a != 62#6 && b.toNat % 2 == 0 && b != 62#6)) badPair
  | ssrr s r => destOk s <|> FieldError.unless (assignedSr r.toNat) badSpecialRegister
  | ssrw _ r => FieldError.unless (writableSr r.toNat) badSpecialRegister
  | join m | leave m | waitm m => maskOk m
  | mset m s | mget m s => maskOk m <|> pairOk s
  | mand m n | mor m n | mandn m n => maskOk m <|> maskOk n
  | mpopc m s => maskOk m <|> destOk s
  | mself s => pairOk s
  | ld v s _ w _ | st v s _ w _ => accessOk v s w
  | atom d s _ o r => atomOk d s o r false
  | red d s _ o r => atomOk d s o r true
  | fenceAcq g | fenceRel g | fenceAr g | drainNt g | aliasfence g => FieldError.unless (g.toNat < 5) badScope
  | prefetch s _ | wbl s _ | invl s _ => pairOk s
  | tchain d s | tagfirst d s => destOk d <|> pairOk s
  | tagwaitAll s | tagwaitAny s | tagclr s => pairOk s
  | oclaim d => destOk d
  | mma h a _ _ _ _ =>
      FieldError.unless (h.toNat < 8) badShape <|> FieldError.unless (!(pairShape h.toNat) || a.toNat % 2 == 0) badShape
  | mdrain _ s | mload _ s => pairOk s
  | arrive g b d | sync g b d => barOk g b d
  | waitb g b _ d | arrivex g b _ d => barOk g b d
  | ensure s => FieldError.unless (s != 63#6) literalSource
  | rbstat d => destOk d
  | fork d _ | choose d _ => destOk d
  | wstat d _ => pairOk d
  | migrate k => FieldError.unless (k != 3#2) badKind
  | klaunch k _ => pairOk k
  | icinv k l => pairOk k <|> pairOk l
  | _ => none

/-- A word that no field check refuses. -/
def wf (i : Instr) : Bool := i.fieldError.isNone

end Instr

end Sys2Proof
end

