-- ==== Sys2Proof/Decode.lean ====
section
/-! DEFINITION. Decoding an instruction word, rejecting by name, and the encoder (02_encoding R30, R33, R43 to R47). -/

namespace Sys2Proof

/-- Why a word, or the bytes of one, is not an instruction (R46). -/
inductive DecodeError where
  /-- Fewer than four bytes. -/
  | short
  /-- OP = 0 in a word other than `0x0000_0000` (R33). -/
  | nopBits
  /-- A major opcode that Table 9 leaves unassigned. -/
  | unassignedMajor
  /-- Major 0x0F, reserved for integer division (R46). -/
  | reservedMajor
  /-- Major 0x3F, never assigned (R47). -/
  | neverMajor
  /-- A sub-op that Table 9 does not list, or a must-be-zero bit that is not zero (R43). -/
  | noSuchWord
  /-- A field value that raises `ILLOP`. -/
  | field (e : FieldError)
  deriving DecidableEq, Repr

/-- Bits lo to lo + n - 1 of a word, as a field of n bits (R4). -/
def fld (w lo n : Nat) : BitVec n := BitVec.ofNat n (w / 2 ^ lo)

/-- One row of the opcode map: the fixed bits of bits 24:0, each as (low bit, width, value), and the word's meaning. -/
structure OpRow where
  fixed : List (Nat × Nat × Nat)
  make : Nat → Instr

/-- Whether bits 24:0 of a word have a row's fixed bits. -/
def OpRow.holds (r : OpRow) (w : Nat) : Bool := r.fixed.all fun f => w / 2 ^ f.1 % 2 ^ f.2.1 == f.2.2

/-- The rows of major 0x01 (Table 9). -/
def rows01 : List OpRow := [
  ⟨[(0, 4, 0)], fun w => .iadd (fld w 18 7) (fld w 11 7) (fld w 4 7)⟩,
  ⟨[(0, 4, 1)], fun w => .isub (fld w 18 7) (fld w 11 7) (fld w 4 7)⟩,
  ⟨[(0, 4, 2)], fun w => .imul (fld w 18 7) (fld w 11 7) (fld w 4 7)⟩,
  ⟨[(0, 4, 3)], fun w => .imulhI32 (fld w 18 7) (fld w 11 7) (fld w 4 7)⟩,
  ⟨[(0, 4, 4)], fun w => .imulhN32 (fld w 18 7) (fld w 11 7) (fld w 4 7)⟩,
  ⟨[(0, 4, 5)], fun w => .and (fld w 18 7) (fld w 11 7) (fld w 4 7)⟩,
  ⟨[(0, 4, 6)], fun w => .or (fld w 18 7) (fld w 11 7) (fld w 4 7)⟩,
  ⟨[(0, 4, 7)], fun w => .xor (fld w 18 7) (fld w 11 7) (fld w 4 7)⟩,
  ⟨[(0, 4, 8)], fun w => .shl (fld w 18 7) (fld w 11 7) (fld w 4 7)⟩,
  ⟨[(0, 4, 9)], fun w => .shr (fld w 18 7) (fld w 11 7) (fld w 4 7)⟩,
  ⟨[(0, 4, 10)], fun w => .sar (fld w 18 7) (fld w 11 7) (fld w 4 7)⟩,
  ⟨[(0, 4, 11)], fun w => .iminI32 (fld w 18 7) (fld w 11 7) (fld w 4 7)⟩,
  ⟨[(0, 4, 12)], fun w => .imaxI32 (fld w 18 7) (fld w 11 7) (fld w 4 7)⟩,
  ⟨[(0, 4, 13)], fun w => .iminN32 (fld w 18 7) (fld w 11 7) (fld w 4 7)⟩,
  ⟨[(0, 4, 14)], fun w => .imaxN32 (fld w 18 7) (fld w 11 7) (fld w 4 7)⟩,
  ⟨[(0, 4, 15)], fun w => .iaddsI32 (fld w 18 7) (fld w 11 7) (fld w 4 7)⟩]

/-- The rows of major 0x02 (Table 9). -/
def rows02 : List OpRow := [
  ⟨[(8, 3, 0)], fun w => .iaddi (fld w 18 7) (fld w 11 7) (fld w 0 8)⟩,
  ⟨[(8, 3, 1)], fun w => .andi (fld w 18 7) (fld w 11 7) (fld w 0 8)⟩,
  ⟨[(8, 3, 2)], fun w => .ori (fld w 18 7) (fld w 11 7) (fld w 0 8)⟩,
  ⟨[(8, 3, 3)], fun w => .xori (fld w 18 7) (fld w 11 7) (fld w 0 8)⟩,
  ⟨[(5, 6, 32)], fun w => .shli (fld w 18 7) (fld w 11 7) (fld w 0 5)⟩,
  ⟨[(5, 6, 40)], fun w => .shri (fld w 18 7) (fld w 11 7) (fld w 0 5)⟩,
  ⟨[(5, 6, 48)], fun w => .sari (fld w 18 7) (fld w 11 7) (fld w 0 5)⟩,
  ⟨[(8, 10, 7)], fun w => .movi (fld w 18 7) (fld w 0 8)⟩]

/-- The rows of major 0x03 (Table 9). -/
def rows03 : List OpRow := [
  ⟨[(0, 5, 0)], fun w => .iaddVs (fld w 18 7) (fld w 11 7) (fld w 5 6)⟩,
  ⟨[(0, 5, 1)], fun w => .isubVs (fld w 18 7) (fld w 11 7) (fld w 5 6)⟩,
  ⟨[(0, 5, 2)], fun w => .imulVs (fld w 18 7) (fld w 11 7) (fld w 5 6)⟩,
  ⟨[(0, 5, 3)], fun w => .imulhI32Vs (fld w 18 7) (fld w 11 7) (fld w 5 6)⟩,
  ⟨[(0, 5, 4)], fun w => .imulhN32Vs (fld w 18 7) (fld w 11 7) (fld w 5 6)⟩,
  ⟨[(0, 5, 5)], fun w => .andVs (fld w 18 7) (fld w 11 7) (fld w 5 6)⟩,
  ⟨[(0, 5, 6)], fun w => .orVs (fld w 18 7) (fld w 11 7) (fld w 5 6)⟩,
  ⟨[(0, 5, 7)], fun w => .xorVs (fld w 18 7) (fld w 11 7) (fld w 5 6)⟩,
  ⟨[(0, 5, 8)], fun w => .shlVs (fld w 18 7) (fld w 11 7) (fld w 5 6)⟩,
  ⟨[(0, 5, 9)], fun w => .shrVs (fld w 18 7) (fld w 11 7) (fld w 5 6)⟩,
  ⟨[(0, 5, 10)], fun w => .sarVs (fld w 18 7) (fld w 11 7) (fld w 5 6)⟩,
  ⟨[(0, 5, 11)], fun w => .iminI32Vs (fld w 18 7) (fld w 11 7) (fld w 5 6)⟩,
  ⟨[(0, 5, 12)], fun w => .imaxI32Vs (fld w 18 7) (fld w 11 7) (fld w 5 6)⟩,
  ⟨[(0, 5, 13)], fun w => .iminN32Vs (fld w 18 7) (fld w 11 7) (fld w 5 6)⟩,
  ⟨[(0, 5, 14)], fun w => .imaxN32Vs (fld w 18 7) (fld w 11 7) (fld w 5 6)⟩,
  ⟨[(0, 5, 15)], fun w => .iaddsI32Vs (fld w 18 7) (fld w 11 7) (fld w 5 6)⟩,
  ⟨[(11, 7, 0), (0, 5, 16)], fun w => .movs (fld w 18 7) (fld w 5 6)⟩,
  ⟨[(0, 5, 17)], fun w => .imacs (fld w 18 7) (fld w 11 7) (fld w 5 6)⟩]

/-- The rows of major 0x04 (Table 9). -/
def rows04 : List OpRow := [
  ⟨[], fun w => .setp (fld w 22 3) (fld w 18 4) (fld w 11 7) (fld w 4 7) (fld w 0 4)⟩]

/-- The rows of major 0x05 (Table 9). -/
def rows05 : List OpRow := [
  ⟨[(22, 3, 0), (0, 11, 0)], fun w => .pand (fld w 19 3) (fld w 16 3) (fld w 13 3) (fld w 12 1) (fld w 11 1)⟩,
  ⟨[(22, 3, 1), (0, 11, 0)], fun w => .por (fld w 19 3) (fld w 16 3) (fld w 13 3) (fld w 12 1) (fld w 11 1)⟩,
  ⟨[(22, 3, 2), (0, 11, 0)], fun w => .pxor (fld w 19 3) (fld w 16 3) (fld w 13 3) (fld w 12 1) (fld w 11 1)⟩,
  ⟨[(22, 3, 3), (13, 3, 0), (0, 12, 0)], fun w => .pmov (fld w 19 3) (fld w 16 3) (fld w 12 1)⟩,
  ⟨[(22, 3, 4), (11, 8, 0), (0, 7, 0)], fun w => .pfromm (fld w 19 3) (fld w 7 4)⟩]

/-- The rows of major 0x06 (Table 9). -/
def rows06 : List OpRow := [
  ⟨[], fun w => .sel (fld w 18 7) (fld w 11 7) (fld w 4 7) (fld w 3 1) (fld w 0 3)⟩]

/-- The rows of major 0x07 (Table 9). -/
def rows07 : List OpRow := [
  ⟨[(0, 4, 0)], fun w => .fadd (fld w 18 7) (fld w 11 7) (fld w 4 7)⟩,
  ⟨[(0, 4, 1)], fun w => .fsub (fld w 18 7) (fld w 11 7) (fld w 4 7)⟩,
  ⟨[(0, 4, 2)], fun w => .fmul (fld w 18 7) (fld w 11 7) (fld w 4 7)⟩,
  ⟨[(0, 4, 3)], fun w => .fmin (fld w 18 7) (fld w 11 7) (fld w 4 7)⟩,
  ⟨[(0, 4, 4)], fun w => .fmax (fld w 18 7) (fld w 11 7) (fld w 4 7)⟩,
  ⟨[(0, 4, 5)], fun w => .ffma (fld w 18 7) (fld w 11 7) (fld w 4 7)⟩,
  ⟨[(0, 4, 6)], fun w => .hadd2 (fld w 18 7) (fld w 11 7) (fld w 4 7)⟩,
  ⟨[(0, 4, 7)], fun w => .hmul2 (fld w 18 7) (fld w 11 7) (fld w 4 7)⟩,
  ⟨[(0, 4, 8)], fun w => .hfma2 (fld w 18 7) (fld w 11 7) (fld w 4 7)⟩,
  ⟨[(0, 4, 9)], fun w => .badd2 (fld w 18 7) (fld w 11 7) (fld w 4 7)⟩,
  ⟨[(0, 4, 10)], fun w => .bmul2 (fld w 18 7) (fld w 11 7) (fld w 4 7)⟩,
  ⟨[(0, 4, 11)], fun w => .bfma2 (fld w 18 7) (fld w 11 7) (fld w 4 7)⟩,
  ⟨[(0, 4, 12)], fun w => .hmin2 (fld w 18 7) (fld w 11 7) (fld w 4 7)⟩,
  ⟨[(0, 4, 13)], fun w => .hmax2 (fld w 18 7) (fld w 11 7) (fld w 4 7)⟩]

/-- The rows of major 0x08 (Table 9). -/
def rows08 : List OpRow := [
  ⟨[(0, 5, 0)], fun w => .fadds (fld w 18 7) (fld w 11 7) (fld w 5 6)⟩,
  ⟨[(0, 5, 1)], fun w => .fsubs (fld w 18 7) (fld w 11 7) (fld w 5 6)⟩,
  ⟨[(0, 5, 2)], fun w => .fmuls (fld w 18 7) (fld w 11 7) (fld w 5 6)⟩,
  ⟨[(0, 5, 3)], fun w => .ffmas (fld w 18 7) (fld w 11 7) (fld w 5 6)⟩,
  ⟨[(0, 5, 4)], fun w => .fmins (fld w 18 7) (fld w 11 7) (fld w 5 6)⟩,
  ⟨[(0, 5, 5)], fun w => .fmaxs (fld w 18 7) (fld w 11 7) (fld w 5 6)⟩,
  ⟨[(0, 5, 6)], fun w => .hfma2s (fld w 18 7) (fld w 11 7) (fld w 5 6)⟩,
  ⟨[(0, 5, 7)], fun w => .bfma2s (fld w 18 7) (fld w 11 7) (fld w 5 6)⟩]

/-- The rows of major 0x09 (Table 9). -/
def rows09 : List OpRow := [
  ⟨[(4, 7, 0), (0, 2, 0)], fun w => .cvtF32I32 (fld w 18 7) (fld w 11 7) (fld w 2 2)⟩,
  ⟨[(4, 7, 1), (0, 2, 0)], fun w => .cvtF32N32 (fld w 18 7) (fld w 11 7) (fld w 2 2)⟩,
  ⟨[(4, 7, 2), (0, 1, 0)], fun w => .cvtI32F32 (fld w 18 7) (fld w 11 7) (fld w 2 2) (fld w 1 1)⟩,
  ⟨[(4, 7, 3), (0, 1, 0)], fun w => .cvtN32F32 (fld w 18 7) (fld w 11 7) (fld w 2 2) (fld w 1 1)⟩,
  ⟨[(4, 7, 4), (0, 1, 0)], fun w => .cvtF16F32 (fld w 18 7) (fld w 11 7) (fld w 2 2) (fld w 1 1)⟩,
  ⟨[(0, 11, 80)], fun w => .cvtF32F16 (fld w 18 7) (fld w 11 7)⟩,
  ⟨[(4, 7, 6), (0, 1, 0)], fun w => .cvtBf16F32 (fld w 18 7) (fld w 11 7) (fld w 2 2) (fld w 1 1)⟩,
  ⟨[(0, 11, 112)], fun w => .cvtF32Bf16 (fld w 18 7) (fld w 11 7)⟩,
  ⟨[(2, 9, 32), (0, 1, 0)], fun w => .cvtDm8F32 (fld w 18 7) (fld w 11 7) (fld w 1 1)⟩,
  ⟨[(4, 7, 9), (0, 2, 0)], fun w => .cvtF32Dm8 (fld w 18 7) (fld w 11 7) (fld w 2 2)⟩,
  ⟨[(4, 7, 10), (0, 1, 0)], fun w => .cvtE4m3F32 (fld w 18 7) (fld w 11 7) (fld w 2 2) (fld w 1 1)⟩,
  ⟨[(0, 11, 176)], fun w => .cvtF32E4m3 (fld w 18 7) (fld w 11 7)⟩,
  ⟨[(4, 7, 12), (0, 1, 0)], fun w => .cvtE5m2F32 (fld w 18 7) (fld w 11 7) (fld w 2 2) (fld w 1 1)⟩,
  ⟨[(0, 11, 208)], fun w => .cvtF32E5m2 (fld w 18 7) (fld w 11 7)⟩,
  ⟨[(0, 11, 224)], fun w => .fabs (fld w 18 7) (fld w 11 7)⟩,
  ⟨[(0, 11, 240)], fun w => .fneg (fld w 18 7) (fld w 11 7)⟩,
  ⟨[(0, 11, 256)], fun w => .popc (fld w 18 7) (fld w 11 7)⟩,
  ⟨[(0, 11, 272)], fun w => .clz (fld w 18 7) (fld w 11 7)⟩,
  ⟨[(0, 11, 288)], fun w => .brev (fld w 18 7) (fld w 11 7)⟩,
  ⟨[(0, 11, 304)], fun w => .sx8 (fld w 18 7) (fld w 11 7)⟩,
  ⟨[(0, 11, 320)], fun w => .sx16 (fld w 18 7) (fld w 11 7)⟩,
  ⟨[(0, 11, 336)], fun w => .zx8 (fld w 18 7) (fld w 11 7)⟩,
  ⟨[(0, 11, 352)], fun w => .zx16 (fld w 18 7) (fld w 11 7)⟩]

/-- The rows of major 0x0A (Table 9). -/
def rows0A : List OpRow := [
  ⟨[(0, 11, 0)], fun w => .rcp (fld w 18 7) (fld w 11 7)⟩,
  ⟨[(0, 11, 1)], fun w => .rsq (fld w 18 7) (fld w 11 7)⟩,
  ⟨[(0, 11, 2)], fun w => .sqrt (fld w 18 7) (fld w 11 7)⟩,
  ⟨[(0, 11, 3)], fun w => .exp2 (fld w 18 7) (fld w 11 7)⟩,
  ⟨[(0, 11, 4)], fun w => .log2 (fld w 18 7) (fld w 11 7)⟩,
  ⟨[(0, 11, 5)], fun w => .sinrv (fld w 18 7) (fld w 11 7)⟩,
  ⟨[(0, 11, 6)], fun w => .cosrv (fld w 18 7) (fld w 11 7)⟩,
  ⟨[(0, 11, 7)], fun w => .tanh (fld w 18 7) (fld w 11 7)⟩]

/-- The rows of major 0x0B (Table 9). -/
def rows0B : List OpRow := [
  ⟨[(0, 11, 0)], fun w => .mov (fld w 18 7) (fld w 11 7)⟩,
  ⟨[(18, 7, 0), (6, 5, 1)], fun w => .rfal (fld w 11 7) (fld w 0 6)⟩,
  ⟨[(24, 1, 0), (6, 5, 2)], fun w => .rlane (fld w 18 6) (fld w 11 7) (fld w 0 6)⟩,
  ⟨[(0, 18, 192)], fun w => .laneid (fld w 18 7)⟩,
  ⟨[(0, 18, 256)], fun w => .tid (fld w 18 7)⟩,
  ⟨[(6, 12, 5)], fun w => .rdtsr (fld w 18 7) (fld w 0 6)⟩,
  ⟨[(18, 7, 0), (6, 5, 6)], fun w => .wrtsr (fld w 11 7) (fld w 0 6)⟩]

/-- The rows of major 0x0C (Table 9). -/
def rows0C : List OpRow := [
  ⟨[(0, 4, 0)], fun w => .shfl (fld w 18 7) (fld w 11 7) (fld w 4 7)⟩,
  ⟨[(0, 4, 1)], fun w => .shflup (fld w 18 7) (fld w 11 7) (fld w 4 7)⟩,
  ⟨[(0, 4, 2)], fun w => .shfldn (fld w 18 7) (fld w 11 7) (fld w 4 7)⟩,
  ⟨[(0, 4, 3)], fun w => .shflx (fld w 18 7) (fld w 11 7) (fld w 4 7)⟩,
  ⟨[(21, 4, 0), (14, 4, 0), (0, 11, 4)], fun w => .vany (fld w 18 3) (fld w 11 3)⟩,
  ⟨[(21, 4, 0), (14, 4, 0), (0, 11, 5)], fun w => .vall (fld w 18 3) (fld w 11 3)⟩,
  ⟨[(24, 1, 0), (14, 4, 0), (0, 11, 6)], fun w => .ballot (fld w 18 6) (fld w 11 3)⟩,
  ⟨[(0, 11, 7)], fun w => .redaddI32 (fld w 18 7) (fld w 11 7)⟩,
  ⟨[(0, 11, 8)], fun w => .redaddF32 (fld w 18 7) (fld w 11 7)⟩,
  ⟨[(0, 11, 9)], fun w => .redmaxF32 (fld w 18 7) (fld w 11 7)⟩,
  ⟨[(0, 11, 10)], fun w => .redminF32 (fld w 18 7) (fld w 11 7)⟩,
  ⟨[(0, 11, 11)], fun w => .scanaddI32 (fld w 18 7) (fld w 11 7)⟩,
  ⟨[(0, 11, 12)], fun w => .scanaddF32 (fld w 18 7) (fld w 11 7)⟩]

/-- The rows of major 0x0D (Table 9). -/
def rows0D : List OpRow := [
  ⟨[(0, 4, 0)], fun w => .rread (fld w 18 7) (fld w 11 7) (fld w 4 7)⟩,
  ⟨[(0, 4, 1)], fun w => .rwrite (fld w 18 7) (fld w 11 7) (fld w 4 7)⟩]

/-- The rows of major 0x0E (Table 9). -/
def rows0E : List OpRow := [
  ⟨[(0, 6, 0)], fun w => .rand (fld w 18 7) (fld w 11 7) (fld w 6 5)⟩,
  ⟨[(0, 6, 1)], fun w => .randf (fld w 18 7) (fld w 11 7) (fld w 6 5)⟩,
  ⟨[(18, 2, 0), (0, 6, 2)], fun w => .rand4 (fld w 20 5) (fld w 11 7) (fld w 6 5)⟩]

/-- The rows of major 0x10 (Table 9). -/
def rows10 : List OpRow := [
  ⟨[(0, 7, 0)], fun w => .sadd (fld w 19 6) (fld w 13 6) (fld w 7 6)⟩,
  ⟨[(0, 7, 1)], fun w => .ssub (fld w 19 6) (fld w 13 6) (fld w 7 6)⟩,
  ⟨[(0, 7, 2)], fun w => .smul (fld w 19 6) (fld w 13 6) (fld w 7 6)⟩,
  ⟨[(0, 7, 3)], fun w => .smulhI32 (fld w 19 6) (fld w 13 6) (fld w 7 6)⟩,
  ⟨[(0, 7, 4)], fun w => .smulhN32 (fld w 19 6) (fld w 13 6) (fld w 7 6)⟩,
  ⟨[(0, 7, 5)], fun w => .sand (fld w 19 6) (fld w 13 6) (fld w 7 6)⟩,
  ⟨[(0, 7, 6)], fun w => .sor (fld w 19 6) (fld w 13 6) (fld w 7 6)⟩,
  ⟨[(0, 7, 7)], fun w => .sxor (fld w 19 6) (fld w 13 6) (fld w 7 6)⟩,
  ⟨[(0, 7, 8)], fun w => .sshl (fld w 19 6) (fld w 13 6) (fld w 7 6)⟩,
  ⟨[(0, 7, 9)], fun w => .sshr (fld w 19 6) (fld w 13 6) (fld w 7 6)⟩,
  ⟨[(0, 7, 10)], fun w => .ssar (fld w 19 6) (fld w 13 6) (fld w 7 6)⟩,
  ⟨[(0, 7, 11)], fun w => .sminI32 (fld w 19 6) (fld w 13 6) (fld w 7 6)⟩,
  ⟨[(0, 7, 12)], fun w => .smaxI32 (fld w 19 6) (fld w 13 6) (fld w 7 6)⟩,
  ⟨[(0, 7, 13)], fun w => .sminN32 (fld w 19 6) (fld w 13 6) (fld w 7 6)⟩,
  ⟨[(0, 7, 14)], fun w => .smaxN32 (fld w 19 6) (fld w 13 6) (fld w 7 6)⟩,
  ⟨[(0, 13, 15)], fun w => .smov (fld w 19 6) (fld w 13 6)⟩,
  ⟨[(19, 1, 0), (13, 1, 0), (0, 8, 16)], fun w => .sadd64 (fld w 20 5) (fld w 14 5) (fld w 8 5)⟩,
  ⟨[(19, 1, 0), (13, 1, 0), (0, 8, 17)], fun w => .ssub64 (fld w 20 5) (fld w 14 5) (fld w 8 5)⟩,
  ⟨[(19, 1, 0), (13, 1, 0), (0, 7, 18)], fun w => .sshl64 (fld w 20 5) (fld w 14 5) (fld w 7 6)⟩,
  ⟨[(19, 1, 0), (13, 1, 0), (0, 7, 19)], fun w => .sshr64 (fld w 20 5) (fld w 14 5) (fld w 7 6)⟩,
  ⟨[(19, 1, 0), (0, 7, 20)], fun w => .smulw (fld w 20 5) (fld w 13 6) (fld w 7 6)⟩]

/-- The rows of major 0x11 (Table 9). -/
def rows11 : List OpRow := [
  ⟨[], fun w => .saddi (fld w 19 6) (fld w 13 6) (fld w 0 13)⟩]

/-- The rows of major 0x12 (Table 9). -/
def rows12 : List OpRow := [
  ⟨[], fun w => .slui (fld w 19 6) (fld w 0 19)⟩]

/-- The rows of major 0x13 (Table 9). -/
def rows13 : List OpRow := [
  ⟨[(0, 2, 0)], fun w => .scmp (fld w 22 3) (fld w 18 4) (fld w 12 6) (fld w 6 6) (fld w 2 4)⟩]

/-- The rows of major 0x14 (Table 9). -/
def rows14 : List OpRow := [
  ⟨[(22, 3, 0), (0, 11, 0)], fun w => .qand (fld w 19 3) (fld w 16 3) (fld w 13 3) (fld w 12 1) (fld w 11 1)⟩,
  ⟨[(22, 3, 1), (0, 11, 0)], fun w => .qor (fld w 19 3) (fld w 16 3) (fld w 13 3) (fld w 12 1) (fld w 11 1)⟩,
  ⟨[(22, 3, 2), (0, 11, 0)], fun w => .qxor (fld w 19 3) (fld w 16 3) (fld w 13 3) (fld w 12 1) (fld w 11 1)⟩,
  ⟨[(22, 3, 3), (13, 3, 0), (0, 12, 0)], fun w => .qmov (fld w 19 3) (fld w 16 3) (fld w 12 1)⟩]

/-- The rows of major 0x15 (Table 9). -/
def rows15 : List OpRow := [
  ⟨[(24, 1, 0), (0, 6, 0)], fun w => .ssrr (fld w 18 6) (fld w 6 12)⟩,
  ⟨[(24, 1, 1), (0, 6, 0)], fun w => .ssrw (fld w 18 6) (fld w 6 12)⟩]

/-- The rows of major 0x16 (Table 9). -/
def rows16 : List OpRow := [
  ⟨[(19, 1, 0), (13, 1, 0)], fun w => .saddi64 (fld w 20 5) (fld w 14 5) (fld w 0 13)⟩]

/-- The rows of major 0x18 (Table 9). -/
def rows18 : List OpRow := [
  ⟨[(20, 5, 0), (0, 16, 0)], fun w => .join (fld w 16 4)⟩,
  ⟨[(20, 5, 1), (0, 16, 0)], fun w => .leave (fld w 16 4)⟩,
  ⟨[(20, 5, 2), (0, 16, 0)], fun w => .waitm (fld w 16 4)⟩,
  ⟨[(20, 5, 3), (12, 4, 0), (0, 7, 0)], fun w => .mset (fld w 16 4) (fld w 7 5)⟩,
  ⟨[(20, 5, 4), (12, 4, 0), (0, 7, 0)], fun w => .mget (fld w 16 4) (fld w 7 5)⟩,
  ⟨[(20, 5, 5), (0, 12, 0)], fun w => .mand (fld w 16 4) (fld w 12 4)⟩,
  ⟨[(20, 5, 6), (0, 12, 0)], fun w => .mor (fld w 16 4) (fld w 12 4)⟩,
  ⟨[(20, 5, 7), (0, 12, 0)], fun w => .mandn (fld w 16 4) (fld w 12 4)⟩,
  ⟨[(20, 5, 8), (12, 4, 0), (0, 6, 0)], fun w => .mpopc (fld w 16 4) (fld w 6 6)⟩,
  ⟨[(12, 13, 2304), (0, 7, 0)], fun w => .mself (fld w 7 5)⟩]

/-- The rows of major 0x20 (Table 9). -/
def rows20 : List OpRow := [
  ⟨[], fun w => .bra (fld w 0 25)⟩]

/-- The rows of major 0x21 (Table 9). -/
def rows21 : List OpRow := [
  ⟨[], fun w => .brp (fld w 24 1) (fld w 21 3) (fld w 0 21)⟩]

/-- The rows of major 0x22 (Table 9). -/
def rows22 : List OpRow := [
  ⟨[], fun w => .brq (fld w 24 1) (fld w 21 3) (fld w 0 21)⟩]

/-- The rows of major 0x23 (Table 9). -/
def rows23 : List OpRow := [
  ⟨[], fun w => .call (fld w 0 25)⟩]

/-- The rows of major 0x24 (Table 9). -/
def rows24 : List OpRow := [
  ⟨[(18, 7, 0), (0, 12, 0)], fun w => .callr (fld w 12 6)⟩,
  ⟨[(18, 7, 4), (0, 12, 0)], fun w => .jmpr (fld w 12 6)⟩,
  ⟨[(0, 25, 2097152)], fun _ => .ret⟩,
  ⟨[(0, 25, 3145728)], fun _ => .exit⟩,
  ⟨[(0, 25, 4194304)], fun _ => .reformG⟩,
  ⟨[(0, 25, 4718592)], fun _ => .reformT⟩,
  ⟨[(0, 25, 5242880)], fun _ => .yield⟩]

/-- The rows of major 0x28 (Table 9). -/
def rows28 : List OpRow := [
  ⟨[(12, 1, 0)], fun w => .ld (fld w 18 7) (fld w 13 5) (fld w 5 7) (fld w 2 3) (fld w 0 2)⟩]

/-- The rows of major 0x29 (Table 9). -/
def rows29 : List OpRow := [
  ⟨[(12, 1, 0)], fun w => .st (fld w 18 7) (fld w 13 5) (fld w 5 7) (fld w 2 3) (fld w 0 2)⟩]

/-- The rows of major 0x2A (Table 9). -/
def rows2A : List OpRow := [
  ⟨[(12, 1, 0)], fun w => .atom (fld w 18 7) (fld w 13 5) (fld w 5 7) (fld w 1 4) (fld w 0 1)⟩]

/-- The rows of major 0x2B (Table 9). -/
def rows2B : List OpRow := [
  ⟨[(12, 1, 0)], fun w => .red (fld w 18 7) (fld w 13 5) (fld w 5 7) (fld w 1 4) (fld w 0 1)⟩]

/-- The rows of major 0x2E (Table 9). -/
def rows2E : List OpRow := [
  ⟨[(21, 4, 0), (0, 18, 0)], fun w => .fenceAcq (fld w 18 3)⟩,
  ⟨[(21, 4, 1), (0, 18, 0)], fun w => .fenceRel (fld w 18 3)⟩,
  ⟨[(21, 4, 2), (0, 18, 0)], fun w => .fenceAr (fld w 18 3)⟩,
  ⟨[(21, 4, 3), (0, 18, 0)], fun w => .drainNt (fld w 18 3)⟩,
  ⟨[(21, 4, 4), (0, 18, 0)], fun w => .aliasfence (fld w 18 3)⟩]

/-- The rows of major 0x2F (Table 9). -/
def rows2F : List OpRow := [
  ⟨[(18, 7, 0), (12, 1, 0), (0, 5, 0)], fun w => .prefetch (fld w 13 5) (fld w 5 7)⟩,
  ⟨[(18, 7, 16), (12, 1, 0), (0, 5, 0)], fun w => .wbl (fld w 13 5) (fld w 5 7)⟩,
  ⟨[(18, 7, 32), (12, 1, 0), (0, 5, 0)], fun w => .invl (fld w 13 5) (fld w 5 7)⟩]

/-- The rows of major 0x30 (Table 9). -/
def rows30 : List OpRow := [
  ⟨[(21, 4, 0), (0, 10, 0)], fun w => .tchain (fld w 15 6) (fld w 10 5)⟩,
  ⟨[(15, 10, 64), (0, 10, 0)], fun w => .tagwaitAll (fld w 10 5)⟩,
  ⟨[(15, 10, 128), (0, 10, 0)], fun w => .tagwaitAny (fld w 10 5)⟩,
  ⟨[(21, 4, 3), (0, 10, 0)], fun w => .tagfirst (fld w 15 6) (fld w 10 5)⟩,
  ⟨[(15, 10, 256), (0, 10, 0)], fun w => .tagclr (fld w 10 5)⟩,
  ⟨[(21, 4, 5), (0, 12, 0)], fun w => .qpop (fld w 14 7) (fld w 12 2)⟩,
  ⟨[(15, 10, 384), (0, 9, 0)], fun w => .tcancel (fld w 9 6)⟩]

/-- The rows of major 0x31 (Table 9). -/
def rows31 : List OpRow := [
  ⟨[(22, 3, 0), (0, 16, 0)], fun w => .oclaim (fld w 16 6)⟩,
  ⟨[(22, 3, 1), (0, 16, 0)], fun w => .orelease (fld w 16 6)⟩,
  ⟨[(0, 25, 8388608)], fun _ => .ofence⟩]

/-- The rows of major 0x32 (Table 9). -/
def rows32 : List OpRow := [
  ⟨[(0, 3, 0)], fun w => .mma (fld w 20 5) (fld w 17 3) (fld w 12 5) (fld w 7 5) (fld w 4 3) (fld w 3 1)⟩]

/-- The rows of major 0x33 (Table 9). -/
def rows33 : List OpRow := [
  ⟨[(21, 4, 0), (0, 18, 0)], fun w => .mwait (fld w 18 3)⟩,
  ⟨[(21, 4, 1), (0, 13, 0)], fun w => .mdrain (fld w 18 3) (fld w 13 5)⟩,
  ⟨[(21, 4, 2), (0, 18, 0)], fun w => .mzero (fld w 18 3)⟩,
  ⟨[(21, 4, 3), (0, 13, 0)], fun w => .mload (fld w 18 3) (fld w 13 5)⟩,
  ⟨[(21, 4, 4), (0, 12, 0)], fun w => .cvset (fld w 18 3) (fld w 12 6)⟩]

/-- The rows of major 0x38 (Table 9). -/
def rows38 : List OpRow := [
  ⟨[(22, 3, 0), (7, 6, 0), (0, 1, 0)], fun w => .arrive (fld w 19 3) (fld w 13 6) (fld w 1 6)⟩,
  ⟨[(22, 3, 1), (0, 1, 0)], fun w => .waitb (fld w 19 3) (fld w 13 6) (fld w 7 6) (fld w 1 6)⟩,
  ⟨[(22, 3, 2), (7, 6, 0), (0, 1, 0)], fun w => .sync (fld w 19 3) (fld w 13 6) (fld w 1 6)⟩,
  ⟨[(22, 3, 3), (0, 1, 0)], fun w => .arrivex (fld w 19 3) (fld w 13 6) (fld w 7 6) (fld w 1 6)⟩]

/-- The rows of major 0x39 (Table 9). -/
def rows39 : List OpRow := [
  ⟨[(0, 25, 0)], fun _ => .tkwait⟩,
  ⟨[(0, 25, 4194304)], fun _ => .tkpass⟩,
  ⟨[(0, 25, 8388608)], fun _ => .tkdone⟩]

/-- The rows of major 0x3A (Table 9). -/
def rows3A : List OpRow := [
  ⟨[(21, 4, 0), (0, 15, 0)], fun w => .ensure (fld w 15 6)⟩,
  ⟨[(0, 25, 2097152)], fun _ => .elseby⟩,
  ⟨[(0, 25, 4194304)], fun _ => .elseerror⟩,
  ⟨[(0, 25, 6291456)], fun _ => .accept⟩,
  ⟨[(0, 25, 8388608)], fun _ => .reject⟩,
  ⟨[(21, 4, 5), (0, 15, 0)], fun w => .convjoin (fld w 15 6)⟩,
  ⟨[(0, 25, 12582912)], fun _ => .convleave⟩,
  ⟨[(21, 4, 7), (0, 15, 0)], fun w => .rbstat (fld w 15 6)⟩]

/-- The rows of major 0x3B (Table 9). -/
def rows3B : List OpRow := [
  ⟨[(21, 4, 0), (0, 9, 0)], fun w => .fork (fld w 15 6) (fld w 9 6)⟩,
  ⟨[(15, 10, 64), (0, 9, 0)], fun w => .wdone (fld w 9 6)⟩,
  ⟨[(21, 4, 2), (0, 9, 0)], fun w => .choose (fld w 15 6) (fld w 9 6)⟩,
  ⟨[(0, 25, 6291456)], fun _ => .wabort⟩,
  ⟨[(21, 4, 4), (15, 1, 0), (0, 9, 0)], fun w => .wstat (fld w 16 5) (fld w 9 6)⟩]

/-- The rows of major 0x3C (Table 9). -/
def rows3C : List OpRow := [
  ⟨[(22, 3, 0), (0, 20, 0)], fun w => .migrate (fld w 20 2)⟩,
  ⟨[(16, 9, 64)], fun w => .eqpt (fld w 0 16)⟩,
  ⟨[(18, 7, 32), (12, 1, 0), (0, 6, 0)], fun w => .klaunch (fld w 13 5) (fld w 6 6)⟩]

/-- The rows of major 0x3E (Table 9). -/
def rows3E : List OpRow := [
  ⟨[(8, 17, 0)], fun w => .trap (fld w 0 8)⟩,
  ⟨[(0, 25, 2097152)], fun _ => .rtt⟩,
  ⟨[(18, 7, 16), (12, 1, 0), (0, 7, 0)], fun w => .icinv (fld w 13 5) (fld w 7 5)⟩,
  ⟨[(0, 25, 6291456)], fun _ => .bkpt⟩]

/-- The rows of a major opcode (Table 9); none for an unassigned, reserved or never-assigned major. -/
def rowsOf : Nat → List OpRow
  | 0x01 => rows01
  | 0x02 => rows02
  | 0x03 => rows03
  | 0x04 => rows04
  | 0x05 => rows05
  | 0x06 => rows06
  | 0x07 => rows07
  | 0x08 => rows08
  | 0x09 => rows09
  | 0x0A => rows0A
  | 0x0B => rows0B
  | 0x0C => rows0C
  | 0x0D => rows0D
  | 0x0E => rows0E
  | 0x10 => rows10
  | 0x11 => rows11
  | 0x12 => rows12
  | 0x13 => rows13
  | 0x14 => rows14
  | 0x15 => rows15
  | 0x16 => rows16
  | 0x18 => rows18
  | 0x20 => rows20
  | 0x21 => rows21
  | 0x22 => rows22
  | 0x23 => rows23
  | 0x24 => rows24
  | 0x28 => rows28
  | 0x29 => rows29
  | 0x2A => rows2A
  | 0x2B => rows2B
  | 0x2E => rows2E
  | 0x2F => rows2F
  | 0x30 => rows30
  | 0x31 => rows31
  | 0x32 => rows32
  | 0x33 => rows33
  | 0x38 => rows38
  | 0x39 => rows39
  | 0x3A => rows3A
  | 0x3B => rows3B
  | 0x3C => rows3C
  | 0x3E => rows3E
  | _ => []

/-- The instruction of a 32-bit word whose C bit has been taken away, before the field checks. -/
def decodeBody (w : Nat) : Except DecodeError Instr :=
  let op := w / 2 ^ 25 % 2 ^ 6
  if op = 0 then (if w % 2 ^ 25 = 0 then .ok .nop else .error .nopBits)
  else if op = 0x0F then .error .reservedMajor
  else if op = 0x3F then .error .neverMajor
  else match rowsOf op with
    | [] => .error .unassignedMajor
    | rs => match rs.find? (fun r => r.holds w) with
      | some r => .ok (r.make w)
      | none => .error .noSuchWord

/-- Decoding a word: its C bit and its instruction (R30, R33, R46). -/
def decodeWord (w : Word) : Except DecodeError (Bool × Instr) :=
  match decodeBody w.toNat with
  | .error e => .error e
  | .ok i =>
    if i = .nop ∧ w ≠ 0 then .error .nopBits
    else match i.fieldError with
      | some e => .error (.field e)
      | none => .ok (w.msb, i)

/-- A little-endian word from four bytes (R4). -/
def wordOfBytes (b0 b1 b2 b3 : Byte) : Word := b3 ++ b2 ++ b1 ++ b0

/-- The four bytes of a word, lowest address first (R4). -/
def wordBytes (w : Word) : List Byte :=
  [w.extractLsb' 0 8, w.extractLsb' 8 8, w.extractLsb' 16 8, w.extractLsb' 24 8]

/-- Decoding one instruction word from a stream of bytes: the C bit, the instruction and the bytes that follow. -/
def decodeBytes : List Byte → Except DecodeError ((Bool × Instr) × List Byte)
  | b0 :: b1 :: b2 :: b3 :: rest =>
    match decodeWord (wordOfBytes b0 b1 b2 b3) with
    | .ok r => .ok (r, rest)
    | .error e => .error e
  | _ => .error .short

/-- Whether a word carries a literal: a source field names `s63`, or it is `ENSURE` (R37). -/
def Instr.carriesLiteral : Instr → Bool
  | .iaddVs _ _ s => s == 63#6
  | .isubVs _ _ s => s == 63#6
  | .imulVs _ _ s => s == 63#6
  | .imulhI32Vs _ _ s => s == 63#6
  | .imulhN32Vs _ _ s => s == 63#6
  | .andVs _ _ s => s == 63#6
  | .orVs _ _ s => s == 63#6
  | .xorVs _ _ s => s == 63#6
  | .shlVs _ _ s => s == 63#6
  | .shrVs _ _ s => s == 63#6
  | .sarVs _ _ s => s == 63#6
  | .iminI32Vs _ _ s => s == 63#6
  | .imaxI32Vs _ _ s => s == 63#6
  | .iminN32Vs _ _ s => s == 63#6
  | .imaxN32Vs _ _ s => s == 63#6
  | .iaddsI32Vs _ _ s => s == 63#6
  | .movs _ s => s == 63#6
  | .imacs _ _ s => s == 63#6
  | .fadds _ _ s => s == 63#6
  | .fsubs _ _ s => s == 63#6
  | .fmuls _ _ s => s == 63#6
  | .ffmas _ _ s => s == 63#6
  | .fmins _ _ s => s == 63#6
  | .fmaxs _ _ s => s == 63#6
  | .hfma2s _ _ s => s == 63#6
  | .bfma2s _ _ s => s == 63#6
  | .sadd _ a b => a == 63#6 || b == 63#6
  | .ssub _ a b => a == 63#6 || b == 63#6
  | .smul _ a b => a == 63#6 || b == 63#6
  | .smulhI32 _ a b => a == 63#6 || b == 63#6
  | .smulhN32 _ a b => a == 63#6 || b == 63#6
  | .sand _ a b => a == 63#6 || b == 63#6
  | .sor _ a b => a == 63#6 || b == 63#6
  | .sxor _ a b => a == 63#6 || b == 63#6
  | .sshl _ a b => a == 63#6 || b == 63#6
  | .sshr _ a b => a == 63#6 || b == 63#6
  | .ssar _ a b => a == 63#6 || b == 63#6
  | .sminI32 _ a b => a == 63#6 || b == 63#6
  | .smaxI32 _ a b => a == 63#6 || b == 63#6
  | .sminN32 _ a b => a == 63#6 || b == 63#6
  | .smaxN32 _ a b => a == 63#6 || b == 63#6
  | .smov _ a => a == 63#6
  | .sshl64 _ _ b => b == 63#6
  | .sshr64 _ _ b => b == 63#6
  | .smulw _ a b => a == 63#6 || b == 63#6
  | .scmp _ t a b _ => (t.toNat < 5) && (a == 63#6 || b == 63#6)
  | .ssrw s _ => s == 63#6
  | .tcancel s => s == 63#6
  | .orelease s => s == 63#6
  | .cvset _ s => s == 63#6
  | .waitb _ _ k _ => k == 63#6
  | .arrivex _ _ k _ => k == 63#6
  | .ensure _ => true
  | .convjoin s => s == 63#6
  | .fork _ s => s == 63#6
  | .wdone s => s == 63#6
  | .choose _ s => s == 63#6
  | .wstat _ s => s == 63#6
  | .klaunch _ q => q == 63#6
  | _ => false

/-- A word's fixed bits with its fields, each a value and its low bit, in place (R43). -/
def enc (base : Nat) (fields : List (Nat × Nat)) : Nat := fields.foldl (fun n f => n + f.1 * 2 ^ f.2) base

/-- Bits 30:0 of an instruction word; none for a step that has no encoding (R30, R43, R44). -/
def encodeBody : Instr → Option Nat
  | .nop => some (enc 0x00000000 [])
  | .iadd d a b => some (enc 0x02000000 [(d.toNat, 18), (a.toNat, 11), (b.toNat, 4)])
  | .isub d a b => some (enc 0x02000001 [(d.toNat, 18), (a.toNat, 11), (b.toNat, 4)])
  | .imul d a b => some (enc 0x02000002 [(d.toNat, 18), (a.toNat, 11), (b.toNat, 4)])
  | .imulhI32 d a b => some (enc 0x02000003 [(d.toNat, 18), (a.toNat, 11), (b.toNat, 4)])
  | .imulhN32 d a b => some (enc 0x02000004 [(d.toNat, 18), (a.toNat, 11), (b.toNat, 4)])
  | .and d a b => some (enc 0x02000005 [(d.toNat, 18), (a.toNat, 11), (b.toNat, 4)])
  | .or d a b => some (enc 0x02000006 [(d.toNat, 18), (a.toNat, 11), (b.toNat, 4)])
  | .xor d a b => some (enc 0x02000007 [(d.toNat, 18), (a.toNat, 11), (b.toNat, 4)])
  | .shl d a b => some (enc 0x02000008 [(d.toNat, 18), (a.toNat, 11), (b.toNat, 4)])
  | .shr d a b => some (enc 0x02000009 [(d.toNat, 18), (a.toNat, 11), (b.toNat, 4)])
  | .sar d a b => some (enc 0x0200000A [(d.toNat, 18), (a.toNat, 11), (b.toNat, 4)])
  | .iminI32 d a b => some (enc 0x0200000B [(d.toNat, 18), (a.toNat, 11), (b.toNat, 4)])
  | .imaxI32 d a b => some (enc 0x0200000C [(d.toNat, 18), (a.toNat, 11), (b.toNat, 4)])
  | .iminN32 d a b => some (enc 0x0200000D [(d.toNat, 18), (a.toNat, 11), (b.toNat, 4)])
  | .imaxN32 d a b => some (enc 0x0200000E [(d.toNat, 18), (a.toNat, 11), (b.toNat, 4)])
  | .iaddsI32 d a b => some (enc 0x0200000F [(d.toNat, 18), (a.toNat, 11), (b.toNat, 4)])
  | .iaddVs d a s => some (enc 0x06000000 [(d.toNat, 18), (a.toNat, 11), (s.toNat, 5)])
  | .isubVs d a s => some (enc 0x06000001 [(d.toNat, 18), (a.toNat, 11), (s.toNat, 5)])
  | .imulVs d a s => some (enc 0x06000002 [(d.toNat, 18), (a.toNat, 11), (s.toNat, 5)])
  | .imulhI32Vs d a s => some (enc 0x06000003 [(d.toNat, 18), (a.toNat, 11), (s.toNat, 5)])
  | .imulhN32Vs d a s => some (enc 0x06000004 [(d.toNat, 18), (a.toNat, 11), (s.toNat, 5)])
  | .andVs d a s => some (enc 0x06000005 [(d.toNat, 18), (a.toNat, 11), (s.toNat, 5)])
  | .orVs d a s => some (enc 0x06000006 [(d.toNat, 18), (a.toNat, 11), (s.toNat, 5)])
  | .xorVs d a s => some (enc 0x06000007 [(d.toNat, 18), (a.toNat, 11), (s.toNat, 5)])
  | .shlVs d a s => some (enc 0x06000008 [(d.toNat, 18), (a.toNat, 11), (s.toNat, 5)])
  | .shrVs d a s => some (enc 0x06000009 [(d.toNat, 18), (a.toNat, 11), (s.toNat, 5)])
  | .sarVs d a s => some (enc 0x0600000A [(d.toNat, 18), (a.toNat, 11), (s.toNat, 5)])
  | .iminI32Vs d a s => some (enc 0x0600000B [(d.toNat, 18), (a.toNat, 11), (s.toNat, 5)])
  | .imaxI32Vs d a s => some (enc 0x0600000C [(d.toNat, 18), (a.toNat, 11), (s.toNat, 5)])
  | .iminN32Vs d a s => some (enc 0x0600000D [(d.toNat, 18), (a.toNat, 11), (s.toNat, 5)])
  | .imaxN32Vs d a s => some (enc 0x0600000E [(d.toNat, 18), (a.toNat, 11), (s.toNat, 5)])
  | .iaddsI32Vs d a s => some (enc 0x0600000F [(d.toNat, 18), (a.toNat, 11), (s.toNat, 5)])
  | .movs d s => some (enc 0x06000010 [(d.toNat, 18), (s.toNat, 5)])
  | .imacs d a s => some (enc 0x06000011 [(d.toNat, 18), (a.toNat, 11), (s.toNat, 5)])
  | .iaddi d a i => some (enc 0x04000000 [(d.toNat, 18), (a.toNat, 11), (i.toNat, 0)])
  | .andi d a i => some (enc 0x04000100 [(d.toNat, 18), (a.toNat, 11), (i.toNat, 0)])
  | .ori d a i => some (enc 0x04000200 [(d.toNat, 18), (a.toNat, 11), (i.toNat, 0)])
  | .xori d a i => some (enc 0x04000300 [(d.toNat, 18), (a.toNat, 11), (i.toNat, 0)])
  | .shli d a i => some (enc 0x04000400 [(d.toNat, 18), (a.toNat, 11), (i.toNat, 0)])
  | .shri d a i => some (enc 0x04000500 [(d.toNat, 18), (a.toNat, 11), (i.toNat, 0)])
  | .sari d a i => some (enc 0x04000600 [(d.toNat, 18), (a.toNat, 11), (i.toNat, 0)])
  | .movi d i => some (enc 0x04000700 [(d.toNat, 18), (i.toNat, 0)])
  | .setp p t a b k => some (enc 0x08000000 [(p.toNat, 22), (t.toNat, 18), (a.toNat, 11), (b.toNat, 4), (k.toNat, 0)])
  | .pand d a b x y => some (enc 0x0A000000 [(d.toNat, 19), (a.toNat, 16), (b.toNat, 13), (x.toNat, 12), (y.toNat, 11)])
  | .por d a b x y => some (enc 0x0A400000 [(d.toNat, 19), (a.toNat, 16), (b.toNat, 13), (x.toNat, 12), (y.toNat, 11)])
  | .pxor d a b x y => some (enc 0x0A800000 [(d.toNat, 19), (a.toNat, 16), (b.toNat, 13), (x.toNat, 12), (y.toNat, 11)])
  | .pmov d a x => some (enc 0x0AC00000 [(d.toNat, 19), (a.toNat, 16), (x.toNat, 12)])
  | .pfromm d m => some (enc 0x0B000000 [(d.toNat, 19), (m.toNat, 7)])
  | .sel d a b n p => some (enc 0x0C000000 [(d.toNat, 18), (a.toNat, 11), (b.toNat, 4), (n.toNat, 3), (p.toNat, 0)])
  | .fadd d a b => some (enc 0x0E000000 [(d.toNat, 18), (a.toNat, 11), (b.toNat, 4)])
  | .fsub d a b => some (enc 0x0E000001 [(d.toNat, 18), (a.toNat, 11), (b.toNat, 4)])
  | .fmul d a b => some (enc 0x0E000002 [(d.toNat, 18), (a.toNat, 11), (b.toNat, 4)])
  | .fmin d a b => some (enc 0x0E000003 [(d.toNat, 18), (a.toNat, 11), (b.toNat, 4)])
  | .fmax d a b => some (enc 0x0E000004 [(d.toNat, 18), (a.toNat, 11), (b.toNat, 4)])
  | .ffma d a b => some (enc 0x0E000005 [(d.toNat, 18), (a.toNat, 11), (b.toNat, 4)])
  | .hadd2 d a b => some (enc 0x0E000006 [(d.toNat, 18), (a.toNat, 11), (b.toNat, 4)])
  | .hmul2 d a b => some (enc 0x0E000007 [(d.toNat, 18), (a.toNat, 11), (b.toNat, 4)])
  | .hfma2 d a b => some (enc 0x0E000008 [(d.toNat, 18), (a.toNat, 11), (b.toNat, 4)])
  | .badd2 d a b => some (enc 0x0E000009 [(d.toNat, 18), (a.toNat, 11), (b.toNat, 4)])
  | .bmul2 d a b => some (enc 0x0E00000A [(d.toNat, 18), (a.toNat, 11), (b.toNat, 4)])
  | .bfma2 d a b => some (enc 0x0E00000B [(d.toNat, 18), (a.toNat, 11), (b.toNat, 4)])
  | .hmin2 d a b => some (enc 0x0E00000C [(d.toNat, 18), (a.toNat, 11), (b.toNat, 4)])
  | .hmax2 d a b => some (enc 0x0E00000D [(d.toNat, 18), (a.toNat, 11), (b.toNat, 4)])
  | .fadds d a s => some (enc 0x10000000 [(d.toNat, 18), (a.toNat, 11), (s.toNat, 5)])
  | .fsubs d a s => some (enc 0x10000001 [(d.toNat, 18), (a.toNat, 11), (s.toNat, 5)])
  | .fmuls d a s => some (enc 0x10000002 [(d.toNat, 18), (a.toNat, 11), (s.toNat, 5)])
  | .ffmas d a s => some (enc 0x10000003 [(d.toNat, 18), (a.toNat, 11), (s.toNat, 5)])
  | .fmins d a s => some (enc 0x10000004 [(d.toNat, 18), (a.toNat, 11), (s.toNat, 5)])
  | .fmaxs d a s => some (enc 0x10000005 [(d.toNat, 18), (a.toNat, 11), (s.toNat, 5)])
  | .hfma2s d a s => some (enc 0x10000006 [(d.toNat, 18), (a.toNat, 11), (s.toNat, 5)])
  | .bfma2s d a s => some (enc 0x10000007 [(d.toNat, 18), (a.toNat, 11), (s.toNat, 5)])
  | .cvtF32I32 d a r => some (enc 0x12000000 [(d.toNat, 18), (a.toNat, 11), (r.toNat, 2)])
  | .cvtF32N32 d a r => some (enc 0x12000010 [(d.toNat, 18), (a.toNat, 11), (r.toNat, 2)])
  | .cvtI32F32 d a r s => some (enc 0x12000020 [(d.toNat, 18), (a.toNat, 11), (r.toNat, 2), (s.toNat, 1)])
  | .cvtN32F32 d a r s => some (enc 0x12000030 [(d.toNat, 18), (a.toNat, 11), (r.toNat, 2), (s.toNat, 1)])
  | .cvtF16F32 d a r s => some (enc 0x12000040 [(d.toNat, 18), (a.toNat, 11), (r.toNat, 2), (s.toNat, 1)])
  | .cvtF32F16 d a => some (enc 0x12000050 [(d.toNat, 18), (a.toNat, 11)])
  | .cvtBf16F32 d a r s => some (enc 0x12000060 [(d.toNat, 18), (a.toNat, 11), (r.toNat, 2), (s.toNat, 1)])
  | .cvtF32Bf16 d a => some (enc 0x12000070 [(d.toNat, 18), (a.toNat, 11)])
  | .cvtDm8F32 d a s => some (enc 0x12000080 [(d.toNat, 18), (a.toNat, 11), (s.toNat, 1)])
  | .cvtF32Dm8 d a r => some (enc 0x12000090 [(d.toNat, 18), (a.toNat, 11), (r.toNat, 2)])
  | .cvtE4m3F32 d a r s => some (enc 0x120000A0 [(d.toNat, 18), (a.toNat, 11), (r.toNat, 2), (s.toNat, 1)])
  | .cvtF32E4m3 d a => some (enc 0x120000B0 [(d.toNat, 18), (a.toNat, 11)])
  | .cvtE5m2F32 d a r s => some (enc 0x120000C0 [(d.toNat, 18), (a.toNat, 11), (r.toNat, 2), (s.toNat, 1)])
  | .cvtF32E5m2 d a => some (enc 0x120000D0 [(d.toNat, 18), (a.toNat, 11)])
  | .fabs d a => some (enc 0x120000E0 [(d.toNat, 18), (a.toNat, 11)])
  | .fneg d a => some (enc 0x120000F0 [(d.toNat, 18), (a.toNat, 11)])
  | .popc d a => some (enc 0x12000100 [(d.toNat, 18), (a.toNat, 11)])
  | .clz d a => some (enc 0x12000110 [(d.toNat, 18), (a.toNat, 11)])
  | .brev d a => some (enc 0x12000120 [(d.toNat, 18), (a.toNat, 11)])
  | .sx8 d a => some (enc 0x12000130 [(d.toNat, 18), (a.toNat, 11)])
  | .sx16 d a => some (enc 0x12000140 [(d.toNat, 18), (a.toNat, 11)])
  | .zx8 d a => some (enc 0x12000150 [(d.toNat, 18), (a.toNat, 11)])
  | .zx16 d a => some (enc 0x12000160 [(d.toNat, 18), (a.toNat, 11)])
  | .rcp d a => some (enc 0x14000000 [(d.toNat, 18), (a.toNat, 11)])
  | .rsq d a => some (enc 0x14000001 [(d.toNat, 18), (a.toNat, 11)])
  | .sqrt d a => some (enc 0x14000002 [(d.toNat, 18), (a.toNat, 11)])
  | .exp2 d a => some (enc 0x14000003 [(d.toNat, 18), (a.toNat, 11)])
  | .log2 d a => some (enc 0x14000004 [(d.toNat, 18), (a.toNat, 11)])
  | .sinrv d a => some (enc 0x14000005 [(d.toNat, 18), (a.toNat, 11)])
  | .cosrv d a => some (enc 0x14000006 [(d.toNat, 18), (a.toNat, 11)])
  | .tanh d a => some (enc 0x14000007 [(d.toNat, 18), (a.toNat, 11)])
  | .mov d a => some (enc 0x16000000 [(d.toNat, 18), (a.toNat, 11)])
  | .rfal a k => some (enc 0x16000040 [(a.toNat, 11), (k.toNat, 0)])
  | .rlane l a k => some (enc 0x16000080 [(l.toNat, 18), (a.toNat, 11), (k.toNat, 0)])
  | .laneid d => some (enc 0x160000C0 [(d.toNat, 18)])
  | .tid d => some (enc 0x16000100 [(d.toNat, 18)])
  | .rdtsr d k => some (enc 0x16000140 [(d.toNat, 18), (k.toNat, 0)])
  | .wrtsr a k => some (enc 0x16000180 [(a.toNat, 11), (k.toNat, 0)])
  | .shfl d a b => some (enc 0x18000000 [(d.toNat, 18), (a.toNat, 11), (b.toNat, 4)])
  | .shflup d a b => some (enc 0x18000001 [(d.toNat, 18), (a.toNat, 11), (b.toNat, 4)])
  | .shfldn d a b => some (enc 0x18000002 [(d.toNat, 18), (a.toNat, 11), (b.toNat, 4)])
  | .shflx d a b => some (enc 0x18000003 [(d.toNat, 18), (a.toNat, 11), (b.toNat, 4)])
  | .vany p q => some (enc 0x18000004 [(p.toNat, 18), (q.toNat, 11)])
  | .vall p q => some (enc 0x18000005 [(p.toNat, 18), (q.toNat, 11)])
  | .ballot s q => some (enc 0x18000006 [(s.toNat, 18), (q.toNat, 11)])
  | .redaddI32 d a => some (enc 0x18000007 [(d.toNat, 18), (a.toNat, 11)])
  | .redaddF32 d a => some (enc 0x18000008 [(d.toNat, 18), (a.toNat, 11)])
  | .redmaxF32 d a => some (enc 0x18000009 [(d.toNat, 18), (a.toNat, 11)])
  | .redminF32 d a => some (enc 0x1800000A [(d.toNat, 18), (a.toNat, 11)])
  | .scanaddI32 d a => some (enc 0x1800000B [(d.toNat, 18), (a.toNat, 11)])
  | .scanaddF32 d a => some (enc 0x1800000C [(d.toNat, 18), (a.toNat, 11)])
  | .rread d a b => some (enc 0x1A000000 [(d.toNat, 18), (a.toNat, 11), (b.toNat, 4)])
  | .rwrite d a b => some (enc 0x1A000001 [(d.toNat, 18), (a.toNat, 11), (b.toNat, 4)])
  | .rand d a s => some (enc 0x1C000000 [(d.toNat, 18), (a.toNat, 11), (s.toNat, 6)])
  | .randf d a s => some (enc 0x1C000001 [(d.toNat, 18), (a.toNat, 11), (s.toNat, 6)])
  | .rand4 d a s => some (enc 0x1C000002 [(d.toNat, 20), (a.toNat, 11), (s.toNat, 6)])
  | .sadd d a b => some (enc 0x20000000 [(d.toNat, 19), (a.toNat, 13), (b.toNat, 7)])
  | .ssub d a b => some (enc 0x20000001 [(d.toNat, 19), (a.toNat, 13), (b.toNat, 7)])
  | .smul d a b => some (enc 0x20000002 [(d.toNat, 19), (a.toNat, 13), (b.toNat, 7)])
  | .smulhI32 d a b => some (enc 0x20000003 [(d.toNat, 19), (a.toNat, 13), (b.toNat, 7)])
  | .smulhN32 d a b => some (enc 0x20000004 [(d.toNat, 19), (a.toNat, 13), (b.toNat, 7)])
  | .sand d a b => some (enc 0x20000005 [(d.toNat, 19), (a.toNat, 13), (b.toNat, 7)])
  | .sor d a b => some (enc 0x20000006 [(d.toNat, 19), (a.toNat, 13), (b.toNat, 7)])
  | .sxor d a b => some (enc 0x20000007 [(d.toNat, 19), (a.toNat, 13), (b.toNat, 7)])
  | .sshl d a b => some (enc 0x20000008 [(d.toNat, 19), (a.toNat, 13), (b.toNat, 7)])
  | .sshr d a b => some (enc 0x20000009 [(d.toNat, 19), (a.toNat, 13), (b.toNat, 7)])
  | .ssar d a b => some (enc 0x2000000A [(d.toNat, 19), (a.toNat, 13), (b.toNat, 7)])
  | .sminI32 d a b => some (enc 0x2000000B [(d.toNat, 19), (a.toNat, 13), (b.toNat, 7)])
  | .smaxI32 d a b => some (enc 0x2000000C [(d.toNat, 19), (a.toNat, 13), (b.toNat, 7)])
  | .sminN32 d a b => some (enc 0x2000000D [(d.toNat, 19), (a.toNat, 13), (b.toNat, 7)])
  | .smaxN32 d a b => some (enc 0x2000000E [(d.toNat, 19), (a.toNat, 13), (b.toNat, 7)])
  | .smov d a => some (enc 0x2000000F [(d.toNat, 19), (a.toNat, 13)])
  | .sadd64 d a b => some (enc 0x20000010 [(d.toNat, 20), (a.toNat, 14), (b.toNat, 8)])
  | .ssub64 d a b => some (enc 0x20000011 [(d.toNat, 20), (a.toNat, 14), (b.toNat, 8)])
  | .sshl64 d a b => some (enc 0x20000012 [(d.toNat, 20), (a.toNat, 14), (b.toNat, 7)])
  | .sshr64 d a b => some (enc 0x20000013 [(d.toNat, 20), (a.toNat, 14), (b.toNat, 7)])
  | .smulw d a b => some (enc 0x20000014 [(d.toNat, 20), (a.toNat, 13), (b.toNat, 7)])
  | .saddi d a i => some (enc 0x22000000 [(d.toNat, 19), (a.toNat, 13), (i.toNat, 0)])
  | .slui d i => some (enc 0x24000000 [(d.toNat, 19), (i.toNat, 0)])
  | .saddi64 d a i => some (enc 0x2C000000 [(d.toNat, 20), (a.toNat, 14), (i.toNat, 0)])
  | .scmp q t a b k => some (enc 0x26000000 [(q.toNat, 22), (t.toNat, 18), (a.toNat, 12), (b.toNat, 6), (k.toNat, 2)])
  | .qand d a b x y => some (enc 0x28000000 [(d.toNat, 19), (a.toNat, 16), (b.toNat, 13), (x.toNat, 12), (y.toNat, 11)])
  | .qor d a b x y => some (enc 0x28400000 [(d.toNat, 19), (a.toNat, 16), (b.toNat, 13), (x.toNat, 12), (y.toNat, 11)])
  | .qxor d a b x y => some (enc 0x28800000 [(d.toNat, 19), (a.toNat, 16), (b.toNat, 13), (x.toNat, 12), (y.toNat, 11)])
  | .qmov d a x => some (enc 0x28C00000 [(d.toNat, 19), (a.toNat, 16), (x.toNat, 12)])
  | .ssrr s r => some (enc 0x2A000000 [(s.toNat, 18), (r.toNat, 6)])
  | .ssrw s r => some (enc 0x2B000000 [(s.toNat, 18), (r.toNat, 6)])
  | .join m => some (enc 0x30000000 [(m.toNat, 16)])
  | .leave m => some (enc 0x30100000 [(m.toNat, 16)])
  | .waitm m => some (enc 0x30200000 [(m.toNat, 16)])
  | .mset m s => some (enc 0x30300000 [(m.toNat, 16), (s.toNat, 7)])
  | .mget m s => some (enc 0x30400000 [(m.toNat, 16), (s.toNat, 7)])
  | .mand m n => some (enc 0x30500000 [(m.toNat, 16), (n.toNat, 12)])
  | .mor m n => some (enc 0x30600000 [(m.toNat, 16), (n.toNat, 12)])
  | .mandn m n => some (enc 0x30700000 [(m.toNat, 16), (n.toNat, 12)])
  | .mpopc m s => some (enc 0x30800000 [(m.toNat, 16), (s.toNat, 6)])
  | .mself s => some (enc 0x30900000 [(s.toNat, 7)])
  | .bra o => some (enc 0x40000000 [(o.toNat, 0)])
  | .brp n p o => some (enc 0x42000000 [(n.toNat, 24), (p.toNat, 21), (o.toNat, 0)])
  | .brq n q o => some (enc 0x44000000 [(n.toNat, 24), (q.toNat, 21), (o.toNat, 0)])
  | .call o => some (enc 0x46000000 [(o.toNat, 0)])
  | .callr a => some (enc 0x48000000 [(a.toNat, 12)])
  | .jmpr a => some (enc 0x48100000 [(a.toNat, 12)])
  | .ret => some (enc 0x48200000 [])
  | .exit => some (enc 0x48300000 [])
  | .reformG => some (enc 0x48400000 [])
  | .reformT => some (enc 0x48480000 [])
  | .yield => some (enc 0x48500000 [])
  | .ld v s i w h => some (enc 0x50000000 [(v.toNat, 18), (s.toNat, 13), (i.toNat, 5), (w.toNat, 2), (h.toNat, 0)])
  | .st v s i w h => some (enc 0x52000000 [(v.toNat, 18), (s.toNat, 13), (i.toNat, 5), (w.toNat, 2), (h.toNat, 0)])
  | .atom d s i o r => some (enc 0x54000000 [(d.toNat, 18), (s.toNat, 13), (i.toNat, 5), (o.toNat, 1), (r.toNat, 0)])
  | .red d s i o r => some (enc 0x56000000 [(d.toNat, 18), (s.toNat, 13), (i.toNat, 5), (o.toNat, 1), (r.toNat, 0)])
  | .fenceAcq g => some (enc 0x5C000000 [(g.toNat, 18)])
  | .fenceRel g => some (enc 0x5C200000 [(g.toNat, 18)])
  | .fenceAr g => some (enc 0x5C400000 [(g.toNat, 18)])
  | .drainNt g => some (enc 0x5C600000 [(g.toNat, 18)])
  | .aliasfence g => some (enc 0x5C800000 [(g.toNat, 18)])
  | .prefetch s i => some (enc 0x5E000000 [(s.toNat, 13), (i.toNat, 5)])
  | .wbl s i => some (enc 0x5E400000 [(s.toNat, 13), (i.toNat, 5)])
  | .invl s i => some (enc 0x5E800000 [(s.toNat, 13), (i.toNat, 5)])
  | .tchain d s => some (enc 0x60000000 [(d.toNat, 15), (s.toNat, 10)])
  | .tagwaitAll s => some (enc 0x60200000 [(s.toNat, 10)])
  | .tagwaitAny s => some (enc 0x60400000 [(s.toNat, 10)])
  | .tagfirst d s => some (enc 0x60600000 [(d.toNat, 15), (s.toNat, 10)])
  | .tagclr s => some (enc 0x60800000 [(s.toNat, 10)])
  | .qpop v q => some (enc 0x60A00000 [(v.toNat, 14), (q.toNat, 12)])
  | .tcancel s => some (enc 0x60C00000 [(s.toNat, 9)])
  | .oclaim d => some (enc 0x62000000 [(d.toNat, 16)])
  | .orelease s => some (enc 0x62400000 [(s.toNat, 16)])
  | .ofence => some (enc 0x62800000 [])
  | .mma h a x y v z => some (enc 0x64000000 [(h.toNat, 20), (a.toNat, 17), (x.toNat, 12), (y.toNat, 7), (v.toNat, 4), (z.toNat, 3)])
  | .mwait a => some (enc 0x66000000 [(a.toNat, 18)])
  | .mdrain a s => some (enc 0x66200000 [(a.toNat, 18), (s.toNat, 13)])
  | .mzero a => some (enc 0x66400000 [(a.toNat, 18)])
  | .mload a s => some (enc 0x66600000 [(a.toNat, 18), (s.toNat, 13)])
  | .cvset v s => some (enc 0x66800000 [(v.toNat, 18), (s.toNat, 12)])
  | .arrive g b d => some (enc 0x70000000 [(g.toNat, 19), (b.toNat, 13), (d.toNat, 1)])
  | .waitb g b k d => some (enc 0x70400000 [(g.toNat, 19), (b.toNat, 13), (k.toNat, 7), (d.toNat, 1)])
  | .sync g b d => some (enc 0x70800000 [(g.toNat, 19), (b.toNat, 13), (d.toNat, 1)])
  | .arrivex g b k d => some (enc 0x70C00000 [(g.toNat, 19), (b.toNat, 13), (k.toNat, 7), (d.toNat, 1)])
  | .tkwait => some (enc 0x72000000 [])
  | .tkpass => some (enc 0x72400000 [])
  | .tkdone => some (enc 0x72800000 [])
  | .ensure s => some (enc 0x74000000 [(s.toNat, 15)])
  | .elseby => some (enc 0x74200000 [])
  | .elseerror => some (enc 0x74400000 [])
  | .accept => some (enc 0x74600000 [])
  | .reject => some (enc 0x74800000 [])
  | .convjoin s => some (enc 0x74A00000 [(s.toNat, 15)])
  | .convleave => some (enc 0x74C00000 [])
  | .rbstat d => some (enc 0x74E00000 [(d.toNat, 15)])
  | .fork d s => some (enc 0x76000000 [(d.toNat, 15), (s.toNat, 9)])
  | .wdone s => some (enc 0x76200000 [(s.toNat, 9)])
  | .choose d s => some (enc 0x76400000 [(d.toNat, 15), (s.toNat, 9)])
  | .wabort => some (enc 0x76600000 [])
  | .wstat d s => some (enc 0x76800000 [(d.toNat, 16), (s.toNat, 9)])
  | .migrate k => some (enc 0x78000000 [(k.toNat, 20)])
  | .eqpt i => some (enc 0x78400000 [(i.toNat, 0)])
  | .klaunch k q => some (enc 0x78800000 [(k.toNat, 13), (q.toNat, 6)])
  | .trap i => some (enc 0x7C000000 [(i.toNat, 0)])
  | .rtt => some (enc 0x7C200000 [])
  | .icinv k l => some (enc 0x7C400000 [(k.toNat, 13), (l.toNat, 7)])
  | .bkpt => some (enc 0x7C600000 [])
  | _ => none

/-- The word of an instruction with the given C bit (R30); none for a step that has no encoding. -/
def encode (c : Bool) (i : Instr) : Option Word :=
  (encodeBody i).map fun n => BitVec.ofNat 32 (n + if c then 2 ^ 31 else 0)

/-- The instruction that the decoder reads from a word whose bits the opcode table numbers (R4, R30). -/
def decodeTableWord (nbits w : Nat) : Option Instr :=
  if nbits ≤ 32 ∧ w < 2 ^ 32 then
    match decodeBytes (wordBytes (BitVec.ofNat 32 w)) with
    | .ok r => some r.1.2
    | .error _ => none
  else none

end Sys2Proof
end

