-- ==== Sys2Proof/Config.lean ====
section
/-! DEFINITION. What an implementation fixes, and the values the spec leaves open. -/

namespace Sys2Proof.Config

/-- A free choice between two outcomes the spec allows (R49, R106, R184): it depends on the count of free values
drawn so far and on what is read. Nothing in the model fixes it. Log entry 4. -/
opaque freeBit : Nat → Nat → Bool

/-- A free byte: contents the spec leaves undefined (R176, R258, R263, R279, R307, R310, R380). Log entry 3. -/
opaque freeByte : Nat → Nat → Byte

/-- A free 32-bit word: a value the spec leaves undefined (R70, R201, R343). Log entry 4. -/
opaque freeWord : Nat → Nat → Word

/-- The delivered word of a transcendental whose rounding the model's interval could not decide (R137). Log entry 9. -/
opaque transFree : Nat → Word → Word

/-- Cycles, beyond the first, after which an engine or the memory system delivers where the spec gives no figure: it depends on
the count of free values drawn so far and on the operation's key. Log entry 5. -/
opaque freeDelay : Nat → Nat → Nat

/-- Bytes of provisional lines that a die holds beyond what the spec gives room for: beyond 4,096 of a chunk (R221, R299), and
beyond the spill area for levels and worlds (R297, R299). Log entry 23. -/
opaque lineRoom : Nat → Nat

/-- Bytes that one staged access takes in a die's bakery unit (R367), which the spec does not give. Log entry 77. -/
opaque stagingSize : Nat

/-- Does the translator understand a version of the LOOP (1) or TILE (2) level of a container (R351)? Its capability record, which the
spec does not give, says so. Log entry 95. -/
opaque understands : Nat → Nat → Bool

/-- Digest and signature bits of a report or an image that the spec names but does not compute (R420, R421). Log entry 30. -/
opaque freeDigest : Nat → Nat → BitVec 256

/-- Total permits of a channel (kind, number, class), "fixed at reset" (R404), whose numbers the spec does not give. Log entry 31. -/
opaque channelTotal : Nat → Nat → Nat → Nat

/-- Enabled D-cores per die: 48 on grade A, 40 on grade B (R2, R12). -/
def dcoresPerDie (gradeA : Bool) : Nat := if gradeA then 48 else 40

/-- Enabled D-cores of the module (R110, R354). -/
def ncoresd (gradeA : Bool) : Nat := 8 * dcoresPerDie gradeA

/-- Enabled L-cores of the module (R110, R354). -/
def ncoresl : Nat := 64

/-- The feature vector the SX9 offers: bits 0 to 6 (R355). -/
def offered : BitVec 256 := 0x7F#256

/-- D-core cycles in one microsecond (R6). -/
def cyclesPerUs : Nat := 1800

/-- Fixed result latencies of Table 7 (R48), in cycles. -/
def latVA : Nat := 4
def latMul : Nat := 6
def latVF : Nat := 6
def latSC : Nat := 2
def latSlowSC : Nat := 4
def latColl : Nat := 8

end Sys2Proof.Config
end

