-- ==== Sys2Proof/Machine/Num.lean ====
section
/-! DEFINITION. Number formats and exact arithmetic (04_numbers): IEEE formats, DM8, narrow storage formats, rounding,
flags and conversions. Magnitudes are natural numbers scaled by powers of two, so every sum and product is exact. -/

namespace Sys2Proof.Machine

/-- Bits `hi:lo` of a number. -/
def bits (x hi lo : Nat) : Nat := (x >>> lo) % 2 ^ (hi + 1 - lo)

/-- Two's complement value of the low `w` bits of `x` (R74). -/
def sval (w x : Nat) : Int :=
  let y := x % 2 ^ w
  if y < 2 ^ (w - 1) then (y : Int) else (y : Int) - (2 : Int) ^ w

/-- The low `w` bits of an integer (R74). -/
def wrapTo (w : Nat) (x : Int) : Nat := (x % ((2 : Int) ^ w)).toNat

/-- The flags of R83 in the layout of fpflags. -/
def flagFI : Word := 1#32
def flagFZ : Word := 2#32
def flagFO : Word := 4#32
def flagFU : Word := 8#32
def flagFX : Word := 16#32

/-- A value of a floating format: a NaN (signalling or not), an infinity, or sign and magnitude `m * 2^e`. -/
inductive Val where
  | nan (signalling : Bool)
  | inf (neg : Bool)
  | num (neg : Bool) (m : Nat) (e : Int)
  deriving DecidableEq, Repr

/-- A binary format: fraction and exponent widths, bias, the code of the largest finite magnitude, the infinity code if it
has one, and the canonical NaN if it has one (R76 Table 1, R91 Table 8). -/
structure Fmt where
  mb : Nat
  eb : Nat
  bias : Nat
  maxFin : Nat
  inf : Option Nat
  nan : Option Nat
  deriving DecidableEq, Repr

def fmtF32 : Fmt := { mb := 23, eb := 8, bias := 127, maxFin := 0x7F7FFFFF, inf := some 0x7F800000, nan := some 0x7FC00000 }
def fmtF16 : Fmt := { mb := 10, eb := 5, bias := 15, maxFin := 0x7BFF, inf := some 0x7C00, nan := some 0x7E00 }
def fmtBf16 : Fmt := { mb := 7, eb := 8, bias := 127, maxFin := 0x7F7F, inf := some 0x7F80, nan := some 0x7FC0 }
def fmtE4m3 : Fmt := { mb := 3, eb := 4, bias := 7, maxFin := 0x7E, inf := none, nan := some 0x7F }
def fmtE5m2 : Fmt := { mb := 2, eb := 5, bias := 15, maxFin := 0x7B, inf := some 0x7C, nan := some 0x7E }
def fmtE3m2 : Fmt := { mb := 2, eb := 3, bias := 3, maxFin := 0x1F, inf := none, nan := none }
def fmtE2m3 : Fmt := { mb := 3, eb := 2, bias := 1, maxFin := 0x1F, inf := none, nan := none }
def fmtE2m1 : Fmt := { mb := 1, eb := 2, bias := 1, maxFin := 0x7, inf := none, nan := none }

/-- The value of a code (R76, R78, R91). -/
def decodeFp (f : Fmt) (x : Nat) : Val :=
  let neg := x.testBit (f.mb + f.eb)
  let mag := x % 2 ^ (f.mb + f.eb)
  let e := mag >>> f.mb
  let m := mag % 2 ^ f.mb
  if mag ≤ f.maxFin then
    if e = 0 then .num neg m (1 - (f.bias : Int) - f.mb) else .num neg (2 ^ f.mb + m) ((e : Int) - f.bias - f.mb)
  else if f.inf = some mag then .inf neg
  else .nan (f.inf.isSome && !(m.testBit (f.mb - 1)))

/-- Sign bit of a code in place. -/
def signOf (f : Fmt) (neg : Bool) : Nat := if neg then 2 ^ (f.mb + f.eb) else 0

/-- Whether the magnitude quotient `q` with remainder `rem` of `2^sh` is rounded away from zero (R80; rm 0 RNE, 1 RZ,
2 RD, 3 RU). -/
def roundsUp (rm : Nat) (neg : Bool) (q rem sh : Nat) : Bool :=
  if rem = 0 then false
  else match rm with
  | 0 => decide (2 * rem > 2 ^ sh) || (decide (2 * rem = 2 ^ sh) && q % 2 = 1)
  | 1 => false
  | 2 => neg
  | _ => !neg

/-- The magnitude `m * 2^e` rounded to a multiple of `2^q`: the multiple, and whether it is exact. -/
def roundAt (rm : Nat) (neg : Bool) (m : Nat) (e q : Int) : Nat × Bool :=
  if q ≤ e then (m <<< (e - q).toNat, true)
  else
    let sh := (q - e).toNat
    let r := m >>> sh
    let rem := m % 2 ^ sh
    (if roundsUp rm neg r rem sh then r + 1 else r, rem = 0)

/-- The code and the flags of the exact value `m * 2^e` rounded to a format (R77, R80, R83). `sat` replaces an overflow by
the largest finite value (R90); a format without infinity overflows to its NaN, or saturates where it has neither. -/
def roundTo (f : Fmt) (rm : Nat) (sat : Bool) (neg : Bool) (m : Nat) (e : Int) : Nat × Word :=
  if m = 0 then (signOf f neg, 0)
  else
    let emin : Int := 1 - (f.bias : Int) - f.mb
    let q := max ((Nat.log2 m : Int) + e - f.mb) emin
    let (r, exact) := roundAt rm neg m e q
    let mag := if r < 2 ^ f.mb then r else ((q - emin + 1).toNat <<< f.mb) + (r - 2 ^ f.mb)
    if mag ≤ f.maxFin then
      (signOf f neg + mag,
        (if exact then 0 else flagFX) ||| (if !exact && decide (mag < 2 ^ f.mb) then flagFU else 0))
    else
      let toInf := match rm with
        | 0 => true
        | 1 => false
        | 2 => neg
        | _ => !neg
      match f.inf, f.nan with
      | some i, _ => (signOf f neg + (if !sat && toInf then i else f.maxFin), flagFO ||| flagFX)
      | none, some n => (if sat then signOf f neg + f.maxFin else n, flagFO ||| flagFX)
      | none, none => (signOf f neg + f.maxFin, flagFO ||| flagFX)

/-- The canonical NaN of a format (R78). -/
def canonNan (f : Fmt) : Nat := f.nan.getD 0

/-- The infinity of a format (R76). -/
def infOf (f : Fmt) (neg : Bool) : Nat := signOf f neg + f.inf.getD f.maxFin

/-- Is the value a subnormal of the format? -/
def isSubnormal (f : Fmt) (v : Val) : Bool :=
  match v with
  | .num _ m e => decide (m ≠ 0) && decide ((Nat.log2 m : Int) + e < 1 - (f.bias : Int))
  | _ => false

/-- Reading an operand under FTZ (R81). -/
def ftzIn (ftz : Bool) (f : Fmt) (v : Val) : Val :=
  match v with
  | .num n _ _ => if ftz && isSubnormal f v then .num n 0 0 else v
  | _ => v

/-- A code read as an operand under FTZ, still as a code (R79, R81). -/
def ftzCode (ftz : Bool) (f : Fmt) (x : Nat) : Nat :=
  if ftz && isSubnormal f (decodeFp f x) then signOf f (x.testBit (f.mb + f.eb)) else x

/-- Replacing a subnormal result by a zero of its sign under FTZ (R81). -/
def ftzOut (ftz : Bool) (f : Fmt) (r : Nat × Word) : Nat × Word :=
  if ftz && isSubnormal f (decodeFp f r.1) then (signOf f (r.1.testBit (f.mb + f.eb)), r.2 ||| flagFU ||| flagFX) else r

/-- FI for each signalling NaN among the operands (R78). -/
def sigFlag (v : Val) : Word := match v with
  | .nan true => flagFI
  | _ => 0

def isNan (v : Val) : Bool := match v with
  | .nan _ => true
  | _ => false

/-- Signed sum of two scaled magnitudes: an integer and its exponent. -/
def addScaled (n1 : Bool) (m1 : Nat) (e1 : Int) (n2 : Bool) (m2 : Nat) (e2 : Int) : Int × Int :=
  let e := min e1 e2
  let a : Int := (m1 <<< (e1 - e).toNat : Nat)
  let b : Int := (m2 <<< (e2 - e).toNat : Nat)
  ((if n1 then -a else a) + (if n2 then -b else b), e)

/-- The rounded sum of two finite values with the zero signs of R133. -/
def addFin (f : Fmt) (rm : Nat) (n1 : Bool) (m1 : Nat) (e1 : Int) (n2 : Bool) (m2 : Nat) (e2 : Int) : Nat × Word :=
  let (t, e) := addScaled n1 m1 e1 n2 m2 e2
  if t = 0 then
    let neg := if m1 = 0 && m2 = 0 && n1 == n2 then n1 else rm == 2
    (signOf f neg, 0)
  else roundTo f rm false (decide (t < 0)) t.natAbs e

/-- Sum of two values (R77, R78, R133). -/
def fpAdd (f : Fmt) (rm : Nat) (x y : Val) : Nat × Word :=
  match x, y with
  | .nan _, _ => (canonNan f, sigFlag x ||| sigFlag y)
  | _, .nan _ => (canonNan f, sigFlag y)
  | .inf a, .inf b => if a == b then (infOf f a, 0) else (canonNan f, flagFI)
  | .inf a, .num _ _ _ => (infOf f a, 0)
  | .num _ _ _, .inf b => (infOf f b, 0)
  | .num n1 m1 e1, .num n2 m2 e2 => addFin f rm n1 m1 e1 n2 m2 e2

/-- The value with its sign changed. -/
def negVal (v : Val) : Val := match v with
  | .nan s => .nan s
  | .inf n => .inf (!n)
  | .num n m e => .num (!n) m e

/-- Exact product of two values; a NaN for 0 * infinity (R133). -/
def mulVal (x y : Val) : Val :=
  match x, y with
  | .nan s, .nan t => .nan (s || t)
  | .nan s, _ => .nan s
  | _, .nan t => .nan t
  | .inf a, .inf b => .inf (a != b)
  | .inf a, .num b m _ => if m = 0 then .nan true else .inf (a != b)
  | .num a m _, .inf b => if m = 0 then .nan true else .inf (a != b)
  | .num a m e, .num b n g => .num (a != b) (m * n) (e + g)

/-- Product of two values (R77, R133). -/
def fpMul (f : Fmt) (rm : Nat) (x y : Val) : Nat × Word :=
  match mulVal x y with
  | .nan s => (canonNan f, if s then flagFI else 0)
  | .inf n => (infOf f n, 0)
  | .num n m e => roundTo f rm false n m e

/-- Fused multiply-add, one rounding (R77, R133). -/
def fpFma (f : Fmt) (rm : Nat) (x y z : Val) : Nat × Word :=
  match mulVal x y, z with
  | .nan s, _ => (canonNan f, (if s then flagFI else 0) ||| sigFlag z)
  | _, .nan s => (canonNan f, if s then flagFI else 0)
  | .inf a, .inf b => if a == b then (infOf f a, 0) else (canonNan f, flagFI)
  | .inf a, .num _ _ _ => (infOf f a, 0)
  | .num _ _ _, .inf b => (infOf f b, 0)
  | .num n1 m1 e1, .num n2 m2 e2 => addFin f rm n1 m1 e1 n2 m2 e2

/-- Order of two finite or infinite values, zeros equal: is the first below the second? -/
def ltVal (x y : Val) : Bool :=
  match x, y with
  | .inf a, .inf b => a && !b
  | .inf a, .num _ _ _ => a
  | .num _ _ _, .inf b => !b
  | .num n1 m1 e1, .num n2 m2 e2 => decide ((addScaled n1 m1 e1 (!n2) m2 e2).1 < 0)
  | _, _ => false

/-- Sign of a value that is no NaN. -/
def isNeg (v : Val) : Bool := match v with
  | .nan _ => false
  | .inf n => n
  | .num n _ _ => n

/-- Is the value a zero? -/
def isZero (v : Val) : Bool := match v with
  | .num _ m _ => m == 0
  | _ => false

/-- Minimum or maximum of two codes by R79: the bit pattern of one operand as read, or the canonical NaN. -/
def fpMinMax (f : Fmt) (ftz isMax : Bool) (a b : Nat) : Nat × Word :=
  let a := ftzCode ftz f a
  let b := ftzCode ftz f b
  let x := decodeFp f a
  let y := decodeFp f b
  let fl := sigFlag x ||| sigFlag y
  match isNan x, isNan y with
  | true, true => (canonNan f, fl)
  | true, false => (b, fl)
  | false, true => (a, fl)
  | false, false =>
    let below := ltVal x y || (isZero x && isZero y && isNeg x && !isNeg y)
    (if below != isMax then a else b, fl)

/-! ## DM8 (R86 to R89) -/

/-- G[D] as a magnitude and exponent (R87): the exact power of ten, or the value of the f32 word. -/
def dm8G (d : Int) : Nat × Int :=
  if 0 ≤ d then (10 ^ d.toNat, 0)
  else
    let w := match d with
      | -1 => 0x3DCCCCCD
      | -2 => 0x3C23D70A
      | -3 => 0x3A83126F
      | -4 => 0x38D1B717
      | -5 => 0x3727C5AC
      | _ => 0x358637BD
    match decodeFp fmtF32 w with
    | .num _ m e => (m, e)
    | _ => (0, 0)

/-- Fraction width n and decade D of a code with t ≠ 0 (R86). -/
def dm8Parts (c : Nat) : Nat × Int × Nat :=
  let t := c % 64
  let n := Nat.log2 t
  let z : Int := 5 - n
  (n, if c.testBit 6 then z else -(z + 1), t - 2 ^ n)

/-- The value of a DM8 code (R86). -/
def decodeDm8 (x : Nat) : Val :=
  let c := x % 128
  let neg := x.testBit 7
  if c = 0 then .num neg 0 0
  else if c = 64 then .nan false
  else
    let (n, d, fr) := dm8Parts c
    let (m, e) := dm8G d
    .num neg (m * (2 ^ n + 9 * fr)) (e - n)

/-- Magnitude and exponent of a positive DM8 code. -/
def dm8Mag (c : Nat) : Nat × Int := match decodeDm8 c with
  | .num _ m e => (m, e)
  | _ => (0, 0)

/-- Distance of two scaled magnitudes at a common exponent `g` not above either. -/
def distAt (g : Int) (m : Nat) (e : Int) (n : Nat) (h : Int) : Nat :=
  ((m <<< (e - g).toNat : Nat) - (n <<< (h - g).toNat : Nat) : Int).natAbs

/-- Is code `c` a better choice than code `b` for the magnitude `m * 2^e`: nearer, or at a tie the one with even F, or the
one in the larger decade if both have even F (R89)? -/
def dm8Better (m : Nat) (e : Int) (c b : Nat) : Bool :=
  let g := min e (-80)
  let (mc, ec) := dm8Mag c
  let (mb, eb) := dm8Mag b
  let dc := distAt g m e mc ec
  let db := distAt g m e mb eb
  let (_, decC, fC) := dm8Parts c
  let (_, decB, fB) := dm8Parts b
  if dc < db then true
  else if db < dc then false
  else if fC % 2 = 0 && fB % 2 = 1 then true
  else if fC % 2 = 1 && fB % 2 = 0 then false
  else decide (decB < decC)

/-- The positive codes with t ≠ 0 (R87). -/
def dm8Codes : List Nat := ((List.range 128).drop 1).filter (· ≠ 64)

/-- The DM8 code of a value and the flags raised (R89). -/
def encodeDm8 (v : Val) : Nat × Word :=
  match v with
  | .nan _ => (0x40, flagFI)
  | .inf n => ((if n then 0x80 else 0) + 0x41, flagFI)
  | .num n m e =>
    let s := if n then 0x80 else 0
    let (gm, ge) := dm8G (-6)
    if m = 0 then (s, 0)
    else if (addScaled false m e true 100000 0).1 > 0 then (s + 0x41, flagFO ||| flagFX)
    else if (addScaled false m e true gm ge).1 < 0 then
      (if (addScaled false m e true gm (ge - 1)).1 > 0 then s + 1 else s, flagFX)
    else
      let c := dm8Codes.foldl (fun b c => if dm8Better m e c b then c else b) 1
      let (cm, ce) := dm8Mag c
      (s + c, if (addScaled false m e true cm ce).1 = 0 then 0 else flagFX)

/-! ## Conversions (R88, R90, R136) -/

/-- Conversion of a value to an IEEE or narrow format (R90): flags as raised. -/
def cvtFp (f : Fmt) (rm : Nat) (sat : Bool) (v : Val) : Nat × Word :=
  match v with
  | .nan s => (canonNan f, if s then flagFI else 0)
  | .inf n =>
    match f.inf with
    | some i => (signOf f n + (if sat then f.maxFin else i), 0)
    | none => if sat then (signOf f n + f.maxFin, 0) else (canonNan f, flagFI)
  | .num n m e => roundTo f rm sat n m e

/-- Conversion of an integer to f32 (R90, R136). -/
def cvtFromInt (rm : Nat) (x : Int) : Nat × Word := roundTo fmtF32 rm false (decide (x < 0)) x.natAbs 0

/-- Conversion of an f32 value to i32 (`signed`) or n32 (R90, R136). -/
def cvtToInt (signed : Bool) (rm : Nat) (sat : Bool) (v : Val) : Nat × Word :=
  let bad : Nat := if signed then 0x80000000 else 0xFFFFFFFF
  let top : Nat := if signed then 0x7FFFFFFF else 0xFFFFFFFF
  let bot : Nat := if signed then 0x80000000 else 0
  match v with
  | .nan _ => (if sat then 0 else bad, flagFI)
  | .inf n => (if sat then (if n then bot else top) else bad, flagFI)
  | .num n m e =>
    if decide (m ≠ 0) && decide ((Nat.log2 m : Int) + e ≥ 40) then
      (if sat then (if n then bot else top) else bad, flagFI)
    else
      let (r, exact) := roundAt rm n m e 0
      let t : Int := if n then -(r : Int) else r
      let lo : Int := if signed then -(2 ^ 31 : Int) else 0
      let hi : Int := if signed then (2 ^ 31 : Int) - 1 else (2 ^ 32 : Int) - 1
      if lo ≤ t ∧ t ≤ hi then (wrapTo 32 t, if exact then 0 else flagFX)
      else (if sat then (if n then bot else top) else bad, flagFI)

/-! ## Sums the part forms on its own (R94 to R101) -/

/-- Round-to-nearest f32 sum of two f32 codes without flags (R10, R99). -/
def addF32 (a b : Nat) : Nat := (fpAdd fmtF32 0 (decodeFp fmtF32 a) (decodeFp fmtF32 b)).1

/-- Round-to-nearest f32 product of two f32 codes without flags (R97). -/
def mulF32 (a b : Nat) : Nat := (fpMul fmtF32 0 (decodeFp fmtF32 a) (decodeFp fmtF32 b)).1

/-- The exact sum of a list of products (R95): NaN dominates, then infinities; a zero sum is −0 only if every product is. -/
def sumVals (ps : List Val) : Val :=
  if ps.any isNan then .nan false
  else
    let pos := ps.any fun v => match v with
      | .inf n => !n
      | _ => false
    let neg := ps.any fun v => match v with
      | .inf n => n
      | _ => false
    if pos && neg then .nan false
    else if pos then .inf false
    else if neg then .inf true
    else
      let t := ps.foldl (fun (acc : Int × Int) v => match v with
        | .num n m e => addScaled (decide (acc.1 < 0)) acc.1.natAbs acc.2 n m e
        | _ => acc) (0, 0)
      if t.1 = 0 then .num (ps.all isNeg) 0 0 else .num (decide (t.1 < 0)) t.1.natAbs t.2

/-- One sub-block of a matrix accumulation: c := RN_f32(c + P) (R94, R95). -/
def accumulate (c : Nat) (ps : List Val) : Nat := (fpAdd fmtF32 0 (decodeFp fmtF32 c) (sumVals ps)).1

/-! ## XR10 (R138) -/

/-- Rotation left (R138). -/
def rotl (x : Word) (n : Nat) : Word := x.rotateLeft n

/-- One round of XR10: its number's rotation amounts, and the key words. -/
def xr10Round (k0 k1 k2 : Word) (x : Word × Word × Word × Word) (r : Nat × Nat × Nat) : Word × Word × Word × Word :=
  let (i, a, b) := r
  let (x0, x1, x2, x3) := x
  let x0 := x0 + x1
  let x1 := rotl x1 a ^^^ x0
  let x2 := x2 + x3
  let x3 := rotl x3 b ^^^ x2
  let (x1, x3) := (x3, x1)
  if i = 4 then (x0 + k1, x1 + k2, x2 + k0, x3 + k1 + 1)
  else if i = 9 then (x0 + k2, x1 + k0, x2 + k1, x3 + k2 + 2)
  else (x0, x1, x2, x3)

/-- The generator XR10 (R138). -/
def xr10 (k0 k1 c0 c1 c2 c3 : Word) : Word × Word × Word × Word :=
  let k2 := k0 ^^^ k1 ^^^ 0x5A17C3E9#32
  [(0, 10, 26), (1, 11, 21), (2, 13, 27), (3, 16, 5), (4, 22, 8), (5, 25, 19), (6, 9, 23), (7, 14, 30), (8, 17, 12),
    (9, 27, 6)].foldl (xr10Round k0 k1 k2) (c0 + k0, c1 + k1, c2 + k2, c3 + k0)

end Sys2Proof.Machine
end

