-- ==== Sys2Proof/Machine/Trans.lean ====
section
/-! DEFINITION. The correctly rounded transcendentals of R137. Reciprocals and roots are rounded from an exact quotient with
a sticky bit; the others are enclosed in an interval of fixed-point numbers with 320 fraction bits whose two ends round
alike, and a value the interval could not decide is a free value (log entry 9). -/

namespace Sys2Proof.Machine

/-- Fraction bits of the fixed-point numbers. -/
def fxBits : Nat := 320

/-- Error bound of every fixed-point evaluation below, in units of the last place. -/
def fxErr : Nat := 1048576

/-- pi with 320 fraction bits. -/
def fxPi : Nat := 0x3243f6a8885a308d313198a2e03707344a4093822299f31d0082efa98ec4e6c89452821e638d01377

/-- The natural logarithm of 2 with 320 fraction bits. -/
def fxLn2 : Nat := 0xb17217f7d1cf79abc9e3b39803f2f6af40f343267298b62d8a0d175b8baafa2be7b876206debac98

/-- One in fixed point. -/
def fxOne : Nat := 2 ^ fxBits

/-- Product of two fixed-point numbers. -/
def fxMul (a b : Nat) : Nat := (a * b) >>> fxBits

/-- Quotient of two fixed-point numbers. -/
def fxDiv (a b : Nat) : Nat := (a <<< fxBits) / b

/-- The fixed-point number of `m * 2^e`, rounded down. -/
def fxOf (m : Nat) (e : Int) : Nat :=
  let s := e + fxBits
  if 0 ≤ s then m <<< s.toNat else m >>> (-s).toNat

/-- Integer square root by bits, from bit `fuel - 1` of the root downwards. -/
def isqrtGo : Nat → Nat → Nat → Nat
  | 0, _, r => r
  | k + 1, n, r => isqrtGo k n (if (r + 2 ^ k) * (r + 2 ^ k) ≤ n then r + 2 ^ k else r)

/-- Integer square root. -/
def isqrt (n : Nat) : Nat := isqrtGo (Nat.log2 n / 2 + 1) n 0

/-- Taylor series: `term` times y^2/((k+1)(k+2)) repeatedly with alternating sign; (even sum, odd sum) of the terms. -/
def fxSeries (y2 : Nat) : Nat → Nat → Nat → Nat × Nat
  | 0, _, _ => (0, 0)
  | fuel + 1, k, term =>
    let (p, q) := fxSeries y2 fuel (k + 2) (fxMul term y2 / ((k + 1) * (k + 2)))
    (term + q, p)

/-- sine of an angle in fixed point, at most 2. -/
def fxSin (y : Nat) : Nat :=
  let (p, q) := fxSeries (fxMul y y) 50 1 y
  p - q

/-- cosine of an angle in fixed point, at most 2. -/
def fxCos (y : Nat) : Nat :=
  let (p, q) := fxSeries (fxMul y y) 50 0 fxOne
  p - q

/-- exponential series of a fixed-point number, at most 1. -/
def fxExpGo (y : Nat) : Nat → Nat → Nat → Nat
  | 0, _, _ => 0
  | fuel + 1, k, term => term + fxExpGo y fuel (k + 1) (fxMul term y / (k + 1))

def fxExp (y : Nat) : Nat := fxExpGo y 90 0 fxOne

/-- Sum of t^k/k over odd k: the inverse hyperbolic tangent of a fixed-point number, at most 1/3. -/
def fxAtanhGo (t2 : Nat) : Nat → Nat → Nat → Nat
  | 0, _, _ => 0
  | fuel + 1, k, p => p / k + fxAtanhGo t2 fuel (k + 2) (fxMul p t2)

/-- ln of a fixed-point number in [1, 2). -/
def fxLn (y : Nat) : Nat :=
  let t := fxDiv (y - fxOne) (y + fxOne)
  2 * fxAtanhGo (fxMul t t) 110 1 t

/-- Round a fixed-point magnitude (scaled by `2^e`) known within `fxErr`; a free word if the interval straddles (R137). -/
def fxRound (f : Nat) (x : Nat) (neg : Bool) (v : Nat) (e : Int) : Nat × Word :=
  let lo := roundTo fmtF32 0 false neg (v - fxErr) (e - fxBits)
  let hi := roundTo fmtF32 0 false neg (v + fxErr) (e - fxBits)
  if lo.1 = hi.1 then (hi.1, lo.2 ||| hi.2 ||| flagFX) else ((Config.transFree f (BitVec.ofNat 32 x)).toNat, flagFX)

/-- 1/(m * 2^e) rounded: a quotient with a sticky bit. -/
def recipRound (neg : Bool) (m : Nat) (e : Int) : Nat × Word :=
  let q := 2 ^ 100 / m
  let s := if 2 ^ 100 % m = 0 then 0 else 1
  roundTo fmtF32 0 false neg (2 * q + s) (-100 - e - 1)

/-- Square root of `q * 2^(2g)`, where `exact` says that nothing was cut off below q: rounded with a sticky bit. -/
def sqrtRound (q : Nat) (g : Int) (exact : Bool) : Nat × Word :=
  let r := isqrt q
  let s := if exact && r * r = q then 0 else 1
  roundTo fmtF32 0 false false (2 * r + s) (g - 1)

/-- Square root of `m * 2^e`. -/
def sqrtOf (m : Nat) (e : Int) : Nat × Word :=
  let par := (e % 2).toNat
  sqrtRound (m * 2 ^ (par + 100)) ((e - par) / 2 - 50) true

/-- Reciprocal square root of `m * 2^e`. -/
def rsqOf (m : Nat) (e : Int) : Nat × Word :=
  let par := (e % 2).toNat
  sqrtRound (2 ^ 200 / (m * 2 ^ par)) (-100 - (e - par) / 2) (2 ^ 200 % (m * 2 ^ par) = 0)

/-- 2^x for x = ± m * 2^e (R137). -/
def exp2Of (x : Nat) (neg : Bool) (m : Nat) (e : Int) : Nat × Word :=
  if (Nat.log2 m : Int) + e ≥ 9 then
    if neg then (0, flagFU ||| flagFX) else (infOf fmtF32 false, flagFO ||| flagFX)
  else if 0 ≤ e || m % 2 ^ (-e).toNat = 0 then
    let n : Int := if 0 ≤ e then (m <<< e.toNat : Nat) else (m >>> (-e).toNat : Nat)
    roundTo fmtF32 0 false false 1 (if neg then -n else n)
  else
    let k := (-e).toNat
    let n : Int := if neg then -((m >>> k : Nat) : Int) - 1 else (m >>> k : Nat)
    let fr := m % 2 ^ k
    let fr := if neg then 2 ^ k - fr else fr
    fxRound 3 x false (fxExp ((fr * fxLn2) >>> k)) n

/-- log2 of `m * 2^e` (R137). -/
def log2Of (x : Nat) (m : Nat) (e : Int) : Nat × Word :=
  let k := Nat.log2 m
  let n : Int := k + e
  if m = 2 ^ k then roundTo fmtF32 0 false (decide (n < 0)) n.natAbs 0
  else
    let l : Int := fxDiv (fxLn (m <<< (fxBits - k))) fxLn2
    let t : Int := n * fxOne + l
    fxRound 4 x (decide (t < 0)) t.natAbs 0

/-- The value of x = m * 2^e reduced modulo one turn: quadrant 0 to 3 and the rest of a turn below 1/4, scaled by 2^-k. -/
def turnOf (m : Nat) (e : Int) : Nat × Nat × Nat :=
  if 0 ≤ e then (0, 0, 2)
  else
    let k := (-e).toNat
    let k4 := if k < 2 then 2 else k
    let fr := (m <<< (k4 - k)) % 2 ^ k4
    (fr >>> (k4 - 2), fr % 2 ^ (k4 - 2), k4)

/-- sin or cos of 2 pi x for a finite x (R137): the exact results at multiples of a quarter turn, else the series. -/
def sincos (isCos : Bool) (x : Nat) (neg : Bool) (m : Nat) (e : Int) : Nat × Word :=
  let (q, r, k) := turnOf m e
  let q := if isCos then (q + 1) % 4 else q
  let flip := decide (q ≥ 2) != (neg && !isCos)
  if r = 0 then
    if q % 2 = 0 then (0, 0) else roundTo fmtF32 0 false flip 1 0
  else
    let y := (2 * r * fxPi) >>> k
    fxRound (if isCos then 6 else 5) x flip (if q % 2 = 0 then fxSin y else fxCos y) 0

/-- tanh of ± m * 2^e (R137). -/
def tanhOf (x : Nat) (neg : Bool) (m : Nat) (e : Int) : Nat × Word :=
  if (Nat.log2 m : Int) + e ≥ 5 then (signOf fmtF32 neg + 0x3F800000, flagFX)
  else
    let u := fxOf (2 * m) e
    let n := u / fxLn2
    let ex := fxExp (u % fxLn2) <<< n
    fxRound 7 x neg (fxDiv (ex - fxOne) (ex + fxOne)) 0

/-- The functions of R137 Table 4 by sub-op, on an f32 code; FTZ on operand and result (R81). -/
def transOf (f : Nat) (ftz : Bool) (x : Nat) : Nat × Word :=
  let v := ftzIn ftz fmtF32 (decodeFp fmtF32 x)
  let nan := canonNan fmtF32
  let r : Nat × Word := match f, v with
    | _, .nan s => (nan, if s then flagFI else 0)
    | 0, .inf n => (signOf fmtF32 n, 0)
    | 0, .num n m e => if m = 0 then (infOf fmtF32 n, flagFZ) else recipRound n m e
    | 1, .inf n => if n then (nan, flagFI) else (0, 0)
    | 1, .num n m e =>
      if m = 0 then (infOf fmtF32 n, flagFZ) else if n then (nan, flagFI) else rsqOf m e
    | 2, .inf n => if n then (nan, flagFI) else (infOf fmtF32 false, 0)
    | 2, .num n m e =>
      if m = 0 then (signOf fmtF32 n, 0) else if n then (nan, flagFI) else sqrtOf m e
    | 3, .inf n => if n then (0, 0) else (infOf fmtF32 false, 0)
    | 3, .num n m e => if m = 0 then (0x3F800000, 0) else exp2Of x n m e
    | 4, .inf n => if n then (nan, flagFI) else (infOf fmtF32 false, 0)
    | 4, .num n m e =>
      if m = 0 then (infOf fmtF32 true, flagFZ) else if n then (nan, flagFI) else log2Of x m e
    | 5, .inf _ => (nan, flagFI)
    | 5, .num n m e => if m = 0 then (signOf fmtF32 n, 0) else sincos false x n m e
    | 6, .inf _ => (nan, flagFI)
    | 6, .num n m e => if m = 0 then (0x3F800000, 0) else sincos true x n m e
    | _, .inf n => (signOf fmtF32 n + 0x3F800000, 0)
    | _, .num n m e => if m = 0 then (signOf fmtF32 n, 0) else tanhOf x n m e
  ftzOut ftz fmtF32 r

end Sys2Proof.Machine
end

