-- ==== Sys2Proof/Machine/State.lean ====
section
/-! DEFINITION. The state of the part as plain data, the reasons a step can stop, and the state right after reset. -/

namespace Sys2Proof.Machine

/-! ## Sparse data -/

/-- Values by number, listed in strictly rising order without zero values; a number not listed holds zero. -/
abbrev Sparse (w : Nat) := List (Nat × BitVec w)

/-- Bytes by offset, in strictly rising order; an offset not listed holds an undefined byte (R176, R258). -/
abbrev Bytes := List (Nat × Byte)

/-! ## Threads (05_thread) -/

/-- The two kinds of core (R13, R333). -/
inductive Kind where
  | dcore
  | lcore
  deriving DecidableEq, Repr

/-- A register that carries a latency or a full/empty bit (R48, R49, R107): gid, then lane, then number. -/
inductive RegId where
  | v (gid lane n : Nat)
  | p (gid lane n : Nat)
  | t (gid lane k : Nat)
  | s (gid n : Nat)
  | q (gid n : Nat)
  | m (gid n : Nat)
  | sr (gid n : Nat)
  deriving DecidableEq, Repr

/-- A result in flight (R48, R49): the register, the value it held before, and the cycle from which the new value is the
one read. `ready = none` is an empty register: its producer writes it at an event (R107). -/
structure Window where
  reg : RegId
  old : DWord
  ready : Option Nat
  deriving DecidableEq, Repr

/-- A thread trap (R394, R397): the cause code, tval, the word that raised it and the PC that epc names; the threads that one word of
one squad has trapped share the last field, the model's own (R149). -/
structure Trap where
  cause : Nat
  tval : DWord
  word : Word
  pc : DWord
  event : Nat
  deriving DecidableEq, Repr

/-- Why a thread is PARKED (R102): a page fault with its record, an equivalence point with its id (65,536 for a packet that the table
does not name), or a stop for a save. -/
inductive Park where
  | fault (record : Nat)
  | point (id : Nat)
  | stop
  deriving DecidableEq, Repr

/-- A thread (R102, R103, R109, R113). A thread that has exited is no longer listed in its group. `unsure`: the number of spilled
return entries that rsp has left behind, whose values are undefined (R114). -/
structure Thread where
  lane : Nat
  tid : Nat
  handler : Bool
  park : Option Park
  trap : Option Trap
  pc : DWord
  v : Sparse 32
  p : BitVec 8
  depth : Nat
  unsure : Nat
  stack : List DWord
  draw : DWord
  rsp : Word
  fpctl : Word
  fpflags : Word
  epcd : DWord
  epcl : DWord
  cause : Word
  tinst : Word
  tval : DWord
  tframe : Word
  clock : DWord
  point : Option Nat
  deriving DecidableEq, Repr

/-! ## Groups (07_group) -/

/-- Group states (R143). A RETIRED group is no longer listed in its team. -/
inductive GroupState where
  | active
  | draining
  deriving DecidableEq, Repr

/-- One 256-byte entry of a group queue (R244, R252): its number in push order and its 64 words. -/
structure QEntry where
  queue : Nat
  seq : Nat
  words : List Word
  deriving DecidableEq, Repr

/-- A group (R103, R143, R163): scalars, uniform predicates, masks, completion flags, the trap vector with its write
latch, the read latches (R111), the queues with each thread's read position (lane, queue, entries popped), the threads, and those that
have executed `WDONE`, whose registers stay (R324). -/
structure Group where
  gid : Nat
  st : GroupState
  s : Sparse 32
  q : BitVec 8
  m : Sparse 64
  flags : Sparse 4
  tvec : DWord
  tvecLatch : Word
  clockLatch : Word
  tagsLatch : Word
  tagerrLatch : Word
  queue : List QEntry
  pushed : List Nat
  popped : List (Nat × Nat × Nat)
  tkdone : Bool
  threads : List Thread
  ended : List Thread
  deriving DecidableEq, Repr

/-- What the words issued in one cycle do to one mask (R165): group, mask, cycle, the bits that `JOIN` and `LEAVE` words set and
clear, and the value of a whole-mask write. -/
structure MaskLog where
  gid : Nat
  m : Nat
  cycle : Nat
  set : DWord
  clr : DWord
  whole : Option DWord
  deriving DecidableEq, Repr

/-! ## The word being issued -/

/-- A word at issue: the team's and the squad's keys, the executing threads (gid, lane) in ascending order, the PC and the
PC after its issue unit, the first word of its chain (R34, R35), the word and its literal (R37), the keys of the flag counts
it holds by group (R25), the latency of its result (R48), whether the word turned out not to be performed yet, the global
addresses of its lanes (gid, lane, address), for an error that the host reports later (R406), and of its issue unit: the first key
of what the unit itself has begun, whether the unit's words have met their conditions in its first state (R32), the threads that
a transfer has taken past the later words (R23), the traps that undo the chain (R35, R131), whether threads have trapped or
parked (R149), what the sub-squads of one word share (R150, R199, R201), and, where the unit holds slot 0 of an equivalence point, the
last point before it of its threads (R347). The model's own field. -/
structure Issue where
  team : Nat
  squad : Nat
  members : List (Nat × Nat)
  pc : DWord
  next : DWord
  first : DWord
  word : Word
  lit : Word
  toks : List (Nat × Nat)
  lat : Nat
  retry : Bool
  vas : List (Nat × Nat × Nat)
  unit : Nat
  cleared : Bool
  gone : List (Nat × Nat)
  whole : List (Nat × Nat × Nat × DWord)
  parted : Bool
  round : Nat
  was : List (Nat × Nat × Option Nat)
  deriving DecidableEq, Repr

/-! ## Waits and squads (R146) -/

/-- What a squad waits for (R146, R166, R167, R251, R273, R261, R286, R292, R304, R305, R323, R325, R365, R369). -/
inductive WaitOn where
  | mask (m : Nat)
  | collective
  | tagAll (tags : DWord)
  | tagAny (masks : List DWord)
  | tile (a : Nat) (ops : List Nat)
  | slots (claims : List Nat)
  | sign
  | arrive (bar : Nat)
  | phases (bar : Nat) (tokens : List Nat) (sync : Bool)
  | ensure
  | verdict
  | fork
  | choose
  | token
  | delivery (op : Nat)
  | turn
  | fence (op : Nat)
  deriving DecidableEq, Repr

/-- A wait of a squad: what for, since when (R294), the word that waits, and the results of the threads it already
holds for (gid, lane, value). -/
structure Wait where
  on : WaitOn
  since : Nat
  iss : Issue
  got : List (Nat × Nat × Nat)
  deriving DecidableEq, Repr

/-- What makes a squad one of the sub-squads that issue a word one after another (R150): a key they share, the scheduler of the squad
they are of, whether this one has performed the word, and the PC after the word's unit. -/
structure Join where
  key : Nat
  sched : Nat
  done : Bool
  next : DWord
  deriving DecidableEq, Repr

/-- A squad (R145, R146): its threads in ascending (gid, lane), its wait, the issue cycles of R27, the packet whose schedule word
has been applied (R24) and that packet's words as fetched (R399), the waits that words of its issue unit have passed: PC of the
word, and the results (gid, lane, value), the flag counts (gid, key) that a waiting word holds (R25), the cycle since which its
word is blocked on a `QPOP` (R254), since when the words of the unit have waited (R294), whether its word waits until chunks of
its groups have committed (R222), whether threads have trapped or parked at the unit (R36, R149), and the squad it is a part of while
its word is issued by sub-squads (R150). -/
structure Squad where
  key : Nat
  members : List (Nat × Nat)
  wait : Option Wait
  t0 : Nat
  tlast : Nat
  packet : Option DWord
  line : List Word
  pass : List (DWord × List (Nat × Nat × Nat))
  held : List (DWord × List (Nat × Nat))
  popWait : Option Nat
  since : List (DWord × Nat)
  holds : Bool
  parted : Bool
  join : Option Join
  deriving DecidableEq, Repr

/-- A tray (R157): its PC, its group for a `.G` tray, and its threads with their filing cycles; those of them that `YIELD` filed
(R161); whether it has aged (R159). -/
structure Tray where
  num : Nat
  pc : DWord
  group : Option Nat
  held : List (Nat × Nat × Nat)
  yielded : List (Nat × Nat)
  aged : Bool
  deriving DecidableEq, Repr

/-! ## Tiles (10_tile_copy, 11_tile_matrix) -/

/-- A place an access reaches (R174): a scratchpad byte of a team, a private byte, a byte of physical memory, or a byte
of a pod window (entry, offset). A private byte is named by the virtual address of its thread and offset together with the physical
address behind it: 2^64 times the one plus the other (R178, R203). -/
inductive Loc where
  | scratch (team off : Nat)
  | priv (team at_ : Nat)
  | mem (pa : Nat)
  | pod (entry off : Nat)
  deriving DecidableEq, Repr

/-- Chain states (R234). A FREE handle has no entry in its team's list. -/
inductive ChainState where
  | running
  | stalledQueue
  | stalledFault
  | stopping
  | saved
  deriving DecidableEq, Repr

/-- A chain (R233): its key, handle, next entry, head, coordinates, loop counters with the LOOP entries that count in them (R242),
the flag counts its `TCHAIN` and `TCANCEL` words took, the group, word and PCs of that `TCHAIN` (R247), the recovery depth at
which it started (R310), the cycle from which the walker can take the next entry (R233), and the places that its copies without a tag
have written since its last tag (R230). -/
structure Chain where
  key : Nat
  h : Nat
  st : ChainState
  head : Nat
  off : Nat
  u : List Int
  w : List Int
  it : List Nat
  loops : List (List (Nat × Bool))
  toks : List Nat
  gid : Nat
  word : Word
  pcs : DWord × DWord
  level : Nat
  due : Nat
  wrote : List Loc
  deriving DecidableEq, Repr

/-- A shape record as read (R235). -/
structure Shape where
  base : Nat
  base2 : Nat
  fmt : Nat
  tgt : Nat
  swz : Nat
  rows : Nat
  cols : Nat
  pad : Nat
  ext : List Nat
  rowstride : Nat
  stride2 : Nat
  stride3 : Nat
  rsv : Bool
  deriving DecidableEq, Repr

/-- A byte as an access reaches it: its place, the grain it lies in, and ORD, IO and DS of its page (R181, R203). -/
structure Spot where
  loc : Loc
  grain : Nat
  ord : Nat
  io : Bool
  ds : Bool
  deriving DecidableEq, Repr

/-- A tile copy in flight (R241): its chain's handle, the entry's offset, its tag, its slot or destination record, the tile
coordinates, the replayable records it waits for (R245), the cycle from which it can complete, how far its pod-window requests
have come and the bytes they have brought (R245), and the places that a thread or another copy has written meanwhile (R230, R241). -/
structure Copy where
  key : Nat
  h : Nat
  off : Nat
  tag : Nat
  slot : Option Nat
  src : Shape
  dst : Shape
  xs : List Int
  xd : List Int
  faults : List Nat
  due : Nat
  stage : Nat
  got : List (Nat × Byte)
  spoil : List Loc
  slotSpoil : List Nat
  deriving DecidableEq, Repr

/-- A fill of an operand slot, as far as it may still be unseen (R231, R262): its chain, the tags that tell it complete, whether the
team has observed one of them set, the threads (gid, lane) that have executed `OFENCE` since, the rounds and lone operations (by key)
that such a thread has signed after that, and the bytes it replaced. -/
structure Fill where
  chain : Nat
  tags : List Nat
  seen : Bool
  fenced : List (Nat × Nat)
  told : List Nat
  old : List (Nat × Option Byte)
  deriving DecidableEq, Repr

/-- A claimed operand slot (R257): its name, the number of its claim, the physical slot it is bound to, its bytes, whether a byte
not listed is zero or undefined, and then the number that tells it from other undefined bytes (R258); a release that waits
(R261), and its fills, the newest last. A name not listed is FREE. -/
structure Slot where
  name : Nat
  claim : Nat
  phys : Nat
  bytes : Bytes
  clean : Bool
  origin : Nat
  releasing : Bool
  fills : List Fill
  deriving DecidableEq, Repr

/-- What a physical slot holds that no team has claimed: the core, its number, the context that released it last, and the bytes
(R258). -/
structure FreeSlot where
  core : Nat
  phys : Nat
  ctx : Nat
  bytes : Bytes
  clean : Bool
  origin : Nat
  deriving DecidableEq, Repr

/-- The part of a core's arrays that is reserved for a team (R144, R176, R257): the pieces of the scratchpad SRAM (start, length)
and the physical operand slots; whether the team's image, or the copy of its parent's scratchpad, has written all of the SRAM
bytes, and how many bytes of the journal area have been written there (R176). -/
structure Place where
  sram : List (Nat × Nat)
  slots : List Nat
  image : Bool
  journal : Nat
  deriving DecidableEq, Repr

/-- An accumulator tile (R264): 16,384 elements by index 128 i + j, its kind bit, its last writer (its place in
the order of issue, whether it was an `MMA`), and the threads that have executed `MWAIT` on it since (R232, R279). -/
structure Acc where
  n : Nat
  elems : Sparse 32
  int : Bool
  last : Option (Nat × Bool)
  joined : List (Nat × Nat)
  deriving DecidableEq, Repr

/-- A round of a convergence register (R265): a key, latched mask and word, signers, the flag counts of its signers, and the
word as it was first signed. -/
structure Round where
  key : Nat
  mask : Nat
  word : Nat
  signers : List (Nat × Nat)
  toks : List Nat
  iss : Issue
  deriving DecidableEq, Repr

/-- A convergence register (R265). -/
structure Conv where
  n : Nat
  mask : Nat
  round : Option Round
  deriving DecidableEq, Repr

/-- A drain or load descriptor as read (R275). -/
structure Desc where
  addr : Nat
  stride : Nat
  type : Nat
  rm : Nat
  flags : Nat
  rsv : Nat
  rowsc : Nat
  colsc : Nat
  deriving DecidableEq, Repr

/-- A matrix or accumulator operation (R271, R274, R276, R278). -/
inductive TileOp where
  | mma (shape acc oa ob : Nat) (z : Bool)
  | mzero (acc : Nat)
  | mdrain (acc : Nat) (d : Desc)
  | mload (acc : Nat) (d : Desc)
  deriving DecidableEq, Repr

/-- An issued operation on accumulator tiles: its key (for an `MMA` its round's) and its place in the order of issue; waiting
for the array, or started at a cycle (R271); the group that issued it and the word, for the records of R277; the replayable
records it waits for; the cycle from which it can start or complete; whether the words around it leave its result undefined
(R279); its signers, and its slots as they stood when it began on the array (R231, R269); the recovery depth at which it
issued; and how far its pod-window requests have come: 0 before its reads are asked for, 1 before its writes are sent, then 2, with
the bytes that the reads have brought (R245, R277, R411). -/
structure MatOp where
  key : Nat
  seq : Nat
  op : TileOp
  toks : List Nat
  start : Option Nat
  gid : Nat
  iss : Issue
  faults : List Nat
  due : Nat
  clash : Bool
  signers : List (Nat × Nat)
  read : List Slot
  level : Nat
  stage : Nat
  got : List (Nat × Byte)
  deriving DecidableEq, Repr

/-! ## Recovery blocks and worlds (13_lamina, 14_world) -/

/-- An external operation held back (R315, R329), or a staged one (R367): a store or `RED` on a page (with its physical
address) or a pod window, or a launch packet. -/
inductive OutOp where
  | store (va : Nat) (pa : Option Nat) (width val : Nat)
  | red (va : Nat) (pa : Option Nat) (op val : Nat)
  | klaunch (q : Nat) (packet : List Byte)
  deriving DecidableEq, Repr

/-- An outbox entry: the operation, its issuing group and lane (R315), its word and the PCs of the word (R374), and, for a staged
access, the chunk in which it was made, until that has committed (R367). -/
structure OutEntry where
  gid : Nat
  lane : Nat
  op : OutOp
  word : Word
  pcs : DWord × DWord
  chunk : Option Nat
  deriving DecidableEq, Repr

/-- States of an open block level (R302). -/
inductive LevelState where
  | running
  | restoring
  | committing
  deriving DecidableEq, Repr

/-- An open block level (R302 to R313): the `ENSURE`'s PC and literal, the routine, its retries, the latched limit, the
cycle at which the routine started, the threads in the test, the key of the saved team, its lamina, the registers logged
by each thread and the scratchpad words journalled (team, word offset, prior bytes) (R307, R308), the operand slots (by
name) and accumulator tiles (by 1000 + number) written at it (R310), the outbox length at its opening, the commit number
at which the attempt began (R313), the routine that a restore starts, and the number from which copies and commits are later than its
commit or failure (R309, R310). -/
structure Level where
  depth : Nat
  st : LevelState
  ensure : DWord
  lit : Word
  routine : Nat
  retries : Nat
  limit : Nat
  start : Nat
  testing : List (Nat × Nat)
  snap : Nat
  lam : Nat
  logged : List (Nat × Nat × RegId)
  journal : List (Nat × Nat × List (Option Byte))
  touched : List Nat
  outLen : Nat
  seenFrom : Nat
  nextRoutine : Nat
  mark : Nat
  deriving DecidableEq, Repr

/-- A latched team collective, `ENSURE`, `FORK` or `CHOOSE` (R304, R323, R325): word, literal, the value read, arrivals. -/
structure Latch where
  word : Word
  lit : Word
  val : Word
  d : Nat
  arrived : List (Nat × Nat)
  deriving DecidableEq, Repr

/-- Rival states (R321). -/
inductive RivalState where
  | waiting
  | running
  | suspended
  | done
  | aborted
  deriving DecidableEq, Repr

/-- A rival as its parent sees it (R321, R324, R326): number, its team's key, state, cause and score. -/
structure Rival where
  num : Nat
  team : Nat
  st : RivalState
  cause : Nat
  score : Word
  deriving DecidableEq, Repr

/-- The results of a `FORK` (R323): rivals, whether the parent is HOLDING, the saved registers, the destination, the commit
number at the fork (R325), and the rival whose publication is on its way to the device stage, with the number from which commits are
later than it. -/
structure ForkRes where
  rivals : List Rival
  holding : Bool
  snap : Nat
  d : Nat
  seenFrom : Nat
  chosen : Option Nat
  mark : Nat
  deriving DecidableEq, Repr

/-! ## Teams (16_kernel, 18_context) -/

/-- Where a team stands: on its core, stopping for a save, saved, or suspended below its rivals (R321, R400). -/
inductive TeamState where
  | running
  | stopping
  | saved
  | suspended
  deriving DecidableEq, Repr

/-- A pending migration request (R341, R344): with the group, the lanes, the word and the PCs of the `MIGRATE` that made it, for a
record of code 6 (R345). -/
structure Migr where
  target : Kind
  since : Nat
  gid : Nat
  lanes : DWord
  word : Nat
  pcs : DWord × DWord
  deriving DecidableEq, Repr

/-- A team (R360, R361 and the chapters of its parts). `sending`: the operation of the entry of an outbox, or of the staging, that is
being performed (R315, R329, R367). -/
structure Team where
  key : Nat
  ctx : Nat
  launch : Nat
  index : Nat
  st : TeamState
  core : Nat
  kind : Kind
  placedAt : Nat
  privSlot : Nat
  place : Option Place
  scratch : Bytes
  priv : Bytes
  tags : DWord
  tagerr : DWord
  tagsSet : Nat × DWord
  trayage : Word
  world : Word
  chains : List Chain
  copies : List Copy
  slots : List Slot
  maskLog : List MaskLog
  accs : List Acc
  convs : List Conv
  mops : List MatOp
  windows : List Window
  trays : List Tray
  squads : List Squad
  levels : List Level
  outbox : List OutEntry
  sending : Option Nat
  ensureLatch : Option Latch
  rbRoutine : Nat
  rbRetry : Nat
  rbCause : Nat
  conv : Option Nat
  forkLatch : Option Latch
  chooseLatch : Option Latch
  fork : Option ForkRes
  parent : Option Nat
  view : Option Nat
  wdone : List (Nat × Nat × Word)
  migr : Option Migr
  heat : Option Nat
  token : Option Nat
  turnOver : Bool
  doneOrdering : Bool
  staged : List OutEntry
  turn : Bool
  clusterOpen : Bool
  voids : List (Nat × Nat)
  seen : List (Nat × Nat × Nat)
  groups : List Group
  deriving DecidableEq, Repr

/-! ## Memory (08_page_access, 09_page_order) -/

/-- Who owns a lamina (R298). -/
inductive LamOwner where
  | chunk
  | level
  | world
  deriving DecidableEq, Repr

/-- Chunk states that outlive an event (R226): a squashed or committed chunk is at once refiled or dropped. -/
inductive LamState where
  | open
  | requested
  deriving DecidableEq, Repr

/-- One byte written and not yet in memory: its place, the order in which L1 accepted it, the grain that names it by context and
virtual address (R203, R220), its page's ordering (R214 to R216) and DS (R332), and, for a non-temporal store outside a STRONG
page, its thread (R218). -/
structure Line where
  pa : Nat
  byte : Byte
  seq : Nat
  grain : Nat
  ord : Nat
  ds : Bool
  nt : Option (Nat × Nat)
  deriving DecidableEq, Repr

/-- A thread that waited at a checkpoint at a word whose effect outside the group had been made, or that had passed such a wait:
the wait and the waits passed (R221, R226). -/
structure Stood where
  gid : Nat
  lane : Nat
  wait : Option Wait
  pass : List (DWord × List (Nat × Nat × Nat))
  deriving DecidableEq, Repr

/-- A lamina (R297, R298): a chunk of a group (with its checkpoint, signatures and limits, R221, R222, R226), a block level
or a world view. Signatures are sets of grains, named by context and virtual address. `fourth` is the order of the group's fourth
squash in a row (R227). -/
structure Lam where
  key : Nat
  owner : LamOwner
  st : LamState
  ctx : Nat
  team : Nat
  gid : Nat
  core : Nat
  parent : Option Nat
  lines : List Line
  rsig : List Nat
  wsig : List Nat
  strong : Bool
  deps : List Nat
  checkpoint : Option Group
  stood : List Stood
  packets : Nat
  lastIssue : Nat
  squashes : Nat
  fourth : Option Nat
  fixed : Bool
  deriving DecidableEq, Repr

/-- A committed write set on its way through the stages of R224 Table 3: its lamina's key, the team and core that made it, its
grains and lines, the dies that have applied it, its STRONG number (R228), the cycle of its grant, and the place of its group
among those with commit priority (R227). The core's quad sees it from the grant on, a die once the die is among `acks`. -/
structure Flight where
  key : Nat
  lam : Nat
  ctx : Nat
  team : Nat
  core : Nat
  die : Nat
  grains : List Nat
  lines : List Line
  acks : List Nat
  strong : Option Nat
  since : Nat
  fourth : Option Nat
  deriving DecidableEq, Repr

/-- A committed byte that a core holds back from the rest of the part: a copy of a LOOSE byte, dirty or clean (R216), or a
non-temporal store until it is drained, at the latest at cycle `due` (R218). -/
structure Held where
  core : Nat
  ctx : Nat
  team : Nat
  line : Line
  dirty : Bool
  due : Option Nat
  deriving DecidableEq, Repr

/-- What a virtual byte may still read as after a write to its physical byte through another virtual address (R206, R219): the
name it is read by, the value before, the core that wrote, whether an `ALIASFENCE` there has written the value back, and the cores
whose `ALIASFENCE` has dropped their copies since. -/
structure Shadow where
  name : Nat
  pa : Nat
  byte : Byte
  core : Nat
  back : Bool
  cleared : List Nat
  deriving DecidableEq, Repr

/-- A write signature applied at a die's arbiter, kept for the interference tests (R313, R325): its number, its grains, the
team that made it, the die, and whether this is the commit itself rather than a broadcast of it. -/
structure Applied where
  num : Nat
  grains : List Nat
  team : Nat
  die : Nat
  first : Bool
  deriving DecidableEq, Repr

/-- The TLBs of R183 and R246: a core's L1 TLB, a quad's, and the walk-ahead TLB of a core's TCE. -/
inductive TlbUnit where
  | core (n : Nat)
  | quad (n : Nat)
  | ahead (n : Nat)
  deriving DecidableEq, Repr

/-- A cached leaf translation (R183): the TLB, context, page base, level and leaf entry. -/
structure Tlb where
  unit : TlbUnit
  ctx : Nat
  page : Nat
  level : Nat
  leaf : DWord
  deriving DecidableEq, Repr

/-- An instruction word held by a core's fetch (R399): core, context, address, word. -/
structure Fetched where
  core : Nat
  ctx : Nat
  va : Nat
  word : Word
  deriving DecidableEq, Repr

/-- A thread of a team, as an agent of memory (R203). -/
structure Agent where
  team : Nat
  gid : Nat
  lane : Nat
  deriving DecidableEq, Repr

/-- One byte of a lane's store: the thread, the place, the value, and whether it is performed outside any chunk: an external
operation (R189), or a DS access in its team's turn (R366). -/
structure StoreByte where
  who : Agent
  at_ : Spot
  byte : Byte
  direct : Bool
  deriving DecidableEq, Repr

/-- One lane of an atomic request (R201): group, lane, operand and, for `CAS`, the comparand; destination registers that a higher
word of the chain has taken over (R32). -/
structure AtomLane where
  gid : Nat
  lane : Nat
  x : DWord
  cmp : Word
  lost : List Nat
  deriving DecidableEq, Repr

/-- What a pod-window request asks of the remote module (R411): a load, a store of a value, or an atomic operation of the lanes of one
unit (operand, comparand): whether it is an `ATOM`, and its float order freedom (R200, R201). -/
inductive RemoteAct where
  | load
  | store (val : Nat)
  | atom (op : Nat) (ret r : Bool) (lanes : List (Nat × Nat))
  deriving DecidableEq, Repr

/-- The COPY of a chain, by handle and key, or the matrix operation, by key, that a pod-window request belongs to. -/
inductive EngineRef where
  | copy (h key : Nat)
  | mop (key : Nat)
  deriving DecidableEq, Repr

/-- What an operation in flight does when its event comes. -/
inductive OpKind where
  /-- The word's completion for flag counting only (R25). -/
  | flagOnly
  /-- Vector results (gid, lane, register, value) and float flags to raise (R130). -/
  | vres (writes : List (Nat × Nat × Nat × Word)) (fpflags : Word)
  /-- Effects of `WRTSR` that land later: gid, lane, special register, value (R129, R130). -/
  | tsr (writes : List (Nat × Nat × Nat × Word))
  /-- A scalar result (R106). -/
  | sres (gid n : Nat) (val : Word)
  /-- Store bytes that L1 has yet to accept (R25): agent, place, byte, grain and page attributes. -/
  | store (writes : List StoreByte) (nt : Bool)
  /-- A cache-control word (R202). -/
  | cctl
  /-- An atomic request for one unit (R201): place of each byte, operation, float order freedom, destination. -/
  | atomic (unit : List Spot) (op : Nat) (r : Bool) (dest : Option Nat) (lanes : List AtomLane)
  /-- A fence (R208): kind, scope, threads and the laminae it waits for. -/
  | fence (kind scope gid : Nat) (lanes : List Nat) (lams : List Nat)
  /-- An `ICINV`: its range, the threads (gid, lane) it is performed for, and the laminae its release waits for (R399). -/
  | icinv (a n gid : Nat) (lanes : List Nat) (lams : List Nat)
  /-- A pop of a queue entry that does not exist yet (R252): gid, lane, register (128 for one that a higher word of the chain has
  taken over, R32), queue, entry number. -/
  | qpop (gid lane v q seq : Nat)
  /-- A launch packet to deliver (R364, R374): queue, packet, a replayable record it waits for, and the PCs of its `KLAUNCH`. -/
  | klaunch (q : Nat) (packet : List Byte) (fault : Option Nat) (pcs : DWord × DWord)
  /-- A pod-window access under way (R411): destination registers (gid, lane, register; register 128 stands for one that a later write
  has taken over), address, width, and what it does. -/
  | remote (writes : List (Nat × Nat × Nat)) (va width : Nat) (act : RemoteAct)
  /-- A pod-window access of a COPY, a drain or an `MLOAD` (R245, R277, R411): whose, address, width, what it does, and the replayable
  record it waits for. -/
  | engine (own : EngineRef) (va width : Nat) (act : RemoteAct) (fault : Option Nat)
  deriving DecidableEq, Repr

/-- An operation in flight: its key, its team, the flag counts it holds, the cycle from which it may complete, the word. -/
structure Op where
  key : Nat
  team : Nat
  toks : List Nat
  due : Nat
  iss : Issue
  what : OpKind
  deriving DecidableEq, Repr

/-- A count held on a completion flag (R25): the group's flag falls when no operation holds it any more. -/
structure Tok where
  key : Nat
  team : Nat
  gid : Nat
  flag : Nat
  left : Nat
  deriving DecidableEq, Repr

/-! ## Barriers (12_barrier) -/

/-- Whose barrier it is (R283): a team's, a cluster's (launch, cluster number), a launch's on a die, a launch's, or a pod
barrier (home module, number). -/
inductive BarOwner where
  | team (key : Nat)
  | cluster (launch num : Nat)
  | die (launch die : Nat)
  | launch (key : Nat)
  | pod (home num : Nat)
  deriving DecidableEq, Repr

/-- A completed phase whose waiters are not yet released (R289): the phase, its elected group (team, gid), the fences of its
arrivals still to complete, and the cycle from which it can be released. -/
structure Release where
  phase : Nat
  team : Nat
  gid : Nat
  fences : List Nat
  due : Nat
  deriving DecidableEq, Repr

/-- An arrival on its way to the network, counted when the cycle ends (R286): the thread (team, gid, lane), the count its
`ARRIVEX` gives, and the fences placed at it (R209). -/
structure Arrival where
  who : Nat × Nat × Nat
  count : Option Nat
  fences : List Nat
  deriving DecidableEq, Repr

/-- A barrier object (R285): the open phase, its expected count, the arrivals that have not been counted yet, those counted in the
order they were counted (team, gid, lane) and their fences, completed phases not yet released, the elected groups of released
phases (phase, team, gid), and the phases in which a team has arrived (team, phase), for R291. -/
structure Bar where
  key : Nat
  owner : BarOwner
  scope : Nat
  id : Nat
  phase : Nat
  expected : Option Nat
  coming : List Arrival
  arrived : List (Nat × Nat × Nat)
  fences : List Nat
  complete : List Release
  results : List (Nat × Nat × Nat)
  seen : List (Nat × Nat)
  deriving DecidableEq, Repr

/-- A saved team state that a restore puts back, with the team's own barrier instances (R307, R310, R325). -/
structure Snap where
  key : Nat
  team : Team
  bars : List Bar
  deriving DecidableEq, Repr

/-! ## Kernels, launches, queues, contexts (16_kernel, 17_queue, 18_context) -/

/-- An equivalence record (R336): id, depth, D and L addresses, and the vector, predicate and scalar maps. -/
structure EqRec where
  id : Nat
  depth : Nat
  dpc : DWord
  lpc : DWord
  vec : List (Nat × Nat)
  pred : List (Nat × Nat)
  scal : List (Nat × Nat)
  rsv : Nat
  deriving DecidableEq, Repr

/-- A block entry (R300): D and L PC of the `ENSURE`, and of each routine's end word. -/
structure Block where
  dpc : DWord
  lpc : DWord
  ends : List (DWord × DWord)
  deriving DecidableEq, Repr

/-- Image states (R348): first one that the driver has handed over and that no step has taken yet. -/
inductive ImageState where
  | submitted
  | loading
  | loaded
  | refused
  | unloading
  deriving DecidableEq, Repr

/-- A native pair of a container, or one that the translator has made by lowering (R349, R351, R352): its stepping, its
interlocked-only mark, the words of its two sections, and the tables that hold PCs or places of them: the bytes of EQUIV (R336),
BLOCKS, the line table, the fix-ups and the relocated data words. -/
structure NativePair where
  stepping : Nat
  interlocked : Bool
  dwords : List Word
  lwords : List Word
  equivRaw : List Byte
  blocks : List Block
  lineMap : List (DWord × DWord)
  fixups : List (Nat × Nat × Bool)
  relocs : List (Nat × DWord)
  deriving DecidableEq, Repr

/-- A level of a container: 0 SCALAR, 1 LOOP, 2 TILE; its version, and the pair that its lowering gives (R349, R351). -/
structure Lowering where
  level : Nat
  version : Nat
  pair : NativePair
  deriving DecidableEq, Repr

/-- A kernel image (R348, R349): its resources, its native pair and tables, the container's other native pairs and its levels. The
words of the two sections are those the translator writes to memory at the load. -/
structure Image where
  key : Nat
  ctx : Nat
  st : ImageState
  kaddr : Nat
  vregs : Nat
  sregs : Nat
  team : Nat
  cluster : Nat
  scratch : Nat
  opslots : Nat
  acc : Nat
  tags : Nat
  rbjournal : Nat
  handler : DWord
  params : List (Nat × Bool × Nat)
  det : Bool
  wide32 : Bool
  interlocked : Bool
  forced : Bool
  preferOther : Bool
  stepping : Nat
  features : Nat
  dbase : DWord
  lbase : DWord
  dwords : List Word
  lwords : List Word
  equivRaw : List Byte
  equiv : List EqRec
  blocks : List Block
  sites : List (DWord × DWord)
  lineMap : List (DWord × DWord)
  packetMap : List (DWord × DWord)
  fixups : List (Nat × Nat × Bool)
  relocs : List (Nat × DWord)
  others : List NativePair
  lowerings : List Lowering
  reason : Nat
  deriving DecidableEq, Repr

/-- Launch states (R357). -/
inductive LaunchState where
  | queued
  | running
  | ending
  | done
  | faulted
  deriving DecidableEq, Repr

/-- A launch (R357, R358): its packet's fields, the teams started, retired and DONE-ordering, and the retired teams by key and
index (R295). -/
structure Launch where
  key : Nat
  ctx : Nat
  queue : Nat
  ring : Nat
  image : Nat
  st : LaunchState
  pref : Nat
  cluster : Nat
  gpt : Nat
  nteams : Nat
  param : Nat
  privBase : Nat
  privSize : Nat
  privSlots : Nat
  planCores : Nat
  signal : Nat
  sigval : DWord
  started : Nat
  retired : List Nat
  ordered : List Nat
  gone : List (Nat × Nat)
  since : Nat
  deriving DecidableEq, Repr

/-- Where a taken packet stands (R376, R377). -/
inductive PacketState where
  | taken
  | started
  | complete
  deriving DecidableEq, Repr

/-- A packet taken from a ring (R376): its ring index, bytes, state, launch, start cycle, a record it waits for, and for a TIMESTAMP
the seconds, nanoseconds and lock at which every earlier packet had completed (R381). -/
structure Packet where
  idx : Nat
  bytes : List Byte
  st : PacketState
  launch : Option Nat
  since : Nat
  fault : Option Nat
  stamp : Option (Nat × Nat × Bool)
  deriving DecidableEq, Repr

/-- Queue states (R372). -/
inductive QueueState where
  | disabled
  | empty
  | active
  | blocked
  | halted
  deriving DecidableEq, Repr

/-- A queue (R371, R372, R384, R385). -/
structure Queue where
  num : Nat
  st : QueueState
  base : Nat
  log2 : Nat
  prio : Nat
  kernels : Bool
  quantum : Nat
  read : Word
  write : Word
  packets : List Packet
  deficit : Int
  eff : Nat
  waited : Nat
  deriving DecidableEq, Repr

/-- Context states with the codes of R391. -/
inductive CtxState where
  | free
  | created
  | ready
  | running
  | preempting
  | saved
  | faulted
  | terminated
  deriving DecidableEq, Repr

/-- A trap-queue record (R393). -/
structure Record where
  cause : Nat
  replayable : Bool
  fatal : Bool
  approx : Bool
  enc : Bool
  queue : Nat
  group : Nat
  launch : Nat
  team : Nat
  word : Nat
  lanes : DWord
  pcd : DWord
  pcl : DWord
  addr : DWord
  extra : List Byte
  deriving DecidableEq, Repr

/-- What a replayable record holds back (R188, R245, R277, R374, R375, R411). -/
inductive Blocked where
  | lanes (team gid : Nat) (lanes : List Nat)
  | chain (team h copy : Nat)
  | mop (team key : Nat)
  | delivery (op : Nat)
  | packet (q idx : Nat)
  | remote (op : Nat)
  deriving DecidableEq, Repr

/-- A replayable record still pending: its key, its index in the trap queue once written, and what it holds back. -/
structure PendRec where
  key : Nat
  idx : Option Nat
  record : Record
  blocked : Blocked
  deriving DecidableEq, Repr

/-- A pod-window entry (R410). -/
structure PodEntry where
  entry : Nat
  rbase : Nat
  module : Nat
  rctx : Nat
  deriving DecidableEq, Repr

/-- A context (R388, R390, R391, R395, R396, R402): descriptor, state, trap-queue indices, counters, shootdown registers, with the
start address of the shootdown under way and the SDLEN writes that wait, records that wait, queues, pod windows, mapped pod
barriers, vectors raised, the events of the cycle under way with their records and the keys of the replayable ones (R393), power
cap, whether it holds a hardware slot, and whether a TERMINATED one has freed its resources (R391, R392), the cores it holds with
the cycles of their grants, and since when it is SAVED (R386, R294). A context not listed is FREE. -/
structure Context where
  num : Nat
  st : CtxState
  det : Bool
  tkey : Nat
  nvec : Nat
  tqvec : Nat
  faultvec : Nat
  watchdog : Nat
  drain : Nat
  minslice : Nat
  root : Nat
  qtable : Nat
  tqbase : Nat
  tqlog2 : Nat
  savebase : Nat
  savesize : Nat
  spillbase : Nat
  spillsize : Nat
  quads : Nat
  tqread : Word
  tqwrite : Word
  dropped : Word
  fatalsum : Option (List Byte)
  overrun : DWord
  charge : Nat
  sdaddr : DWord
  sdlen : DWord
  sdbusy : Bool
  sdfrom : DWord
  sdwait : List DWord
  pending : List PendRec
  raised : List (List (Record × Option Nat))
  queues : List Queue
  podwin : List PodEntry
  podbar : List (Nat × Nat × Nat)
  vectors : List Nat
  cap : Nat
  resident : Bool
  freed : Bool
  granted : List (Nat × Nat)
  savedAt : Nat
  deriving DecidableEq, Repr

/-- A tenant (R383, R389): weight, virtual time (in core-cycles), and where the round robin of R385 stands at each priority
(priority, context, queue). -/
structure Tenant where
  key : Nat
  weight : Nat
  vtime : Rat
  cursor : List (Nat × Nat × Nat)
  deriving DecidableEq, Repr

/-- A reclaim under way (R386, R400, R402): context, cores, the planned end and whether stops have been sent. -/
structure Reclaim where
  ctx : Nat
  cores : List Nat
  tend : Nat
  sent : Bool
  deriving DecidableEq, Repr

/-! ## Links and management (19_link, 20_management) -/

/-- Link states (R404). -/
inductive LinkState where
  | down
  | training
  | up
  | degraded
  | quarantined
  deriving DecidableEq, Repr

/-- A link (R404): 0 the CXL port, 1 to 16 the pod-link ports, 17 to 26 the die-to-die boundaries; failed training
attempts, the cycles of its quarantines (R417), its rate step, and whether it is listed as enabled (R419). -/
structure Link where
  num : Nat
  st : LinkState
  attempts : Nat
  quarantines : List Nat
  rate : Nat
  enabled : Bool
  deriving DecidableEq, Repr

/-- A permit channel (R404 Table 1, R414, R415): kind, number and class, total, permits at the sender, occupied slots, units
in flight, permits in flight; the cycle of its last mismatch. -/
structure Channel where
  kind : Nat
  num : Nat
  cls : Nat
  total : Nat
  held : Nat
  occupied : Nat
  returning : Nat
  mismatch : Option Nat
  deriving DecidableEq, Repr

/-- A request of a remote module (R411): source module and context, the source's own number for it, target context, address,
width, and what it does. -/
structure RemoteReq where
  module : Nat
  sctx : Nat
  tag : Nat
  rctx : Nat
  va : Nat
  width : Nat
  act : RemoteAct
  deriving DecidableEq, Repr

/-- What a pod message brings (R408, R411, R413). -/
inductive PodMsg where
  | response (op : Nat) (val : Nat)
  | fault (op cause reason level : Nat)
  | arrival (ctx id module count team gid : Nat)
  | completion (ctx id : Nat) (elected : Bool)
  | request (r : RemoteReq)
  deriving DecidableEq, Repr

/-- A flit as received (R408): kind, class, sequence and acknowledged numbers, permits returned, the outcome of its beat
checks, and the message its beats carry. -/
structure Flit where
  port : Nat
  kind : Nat
  cls : Nat
  seq : Word
  ack : Word
  ret : List Nat
  checks : Bool
  msg : Option PodMsg
  deriving DecidableEq, Repr

/-- Sequence state of a pod-link port (R409): next expected SEQ, next SEQ to send, unacknowledged sent flits, discards. -/
structure Port where
  num : Nat
  expect : Word
  next : Word
  unacked : List Word
  retries : Nat
  deriving DecidableEq, Repr

/-- What the part answers to the outside: data of host reads, messages, reports, interrupts, the event log (R192, R193,
R396, R409, R411, R417, R421, R425). The model's own record of outputs. -/
inductive Output where
  | hostData (pa : Nat) (bytes : List (Option Byte))
  | hostDone (pa : Nat)
  | hostError (pa : Nat)
  | translations (ctx : Nat) (pages : List (Nat × Option (Nat × Nat)))
  | permitDone (ctx va : Nat)
  | revoke (ctx va : Nat)
  | msix (ctx vector : Nat)
  | managementInterrupt
  | eventLog (code info : Nat)
  | report (nonce : Nat) (grade : Bool) (step : Nat) (measured : List (Nat × Nat)) (features minVersion signature : Nat)
  | podRequest (tag ctx va width : Nat) (act : RemoteAct)
  | podReply (module tag val : Nat)
  | podReplyFault (module tag cause reason level : Nat)
  | podArrival (home number count team gid : Nat)
  | podCompletion (ctx id module : Nat)
  | driver (ctx code info : Nat)
  | registerData (page ctx off val : Nat)
  deriving DecidableEq, Repr

/-- Bring-up states (R419): a step under way, BOOTFAIL, or ready. -/
inductive Boot where
  | step (n : Nat)
  | fail
  | ready
  deriving DecidableEq, Repr

/-- One firmware image slot (R420): whether its signature and key verify, its version and its digest. -/
structure Firmware where
  proc : Nat
  slot : Nat
  verifies : Bool
  version : Nat
  digest : Nat
  deriving DecidableEq, Repr

/-- The conditions bring-up meets (R419): rails, ROM self-check, processors ready, stacks present, sizes of DDR-5 channels
in GiB, and which links train (2 UP, 1 DEGRADED, 0 not). -/
structure BootEnv where
  rails : Bool
  rom : Bool
  procs : Bool
  hbm : Bool
  ddr : List Nat
  trains : List Nat
  firmware : List Firmware
  agents : List Nat
  deriving DecidableEq, Repr

/-- An errata record (R427 Table 3): number, first and last affected stepping, the word bits that select encodings and those
compared, class, fix, the affected statement, and the stepping that fixes it. -/
structure Erratum where
  id : Nat
  lo : Nat
  hi : Nat
  val : Nat
  mask : Nat
  cls : Nat
  fix : Nat
  stmt : Nat
  fixStep : Nat
  deriving DecidableEq, Repr

/-- The part outside its contexts (R2, R182, R355, R388, R407, R415, R419 to R426). -/
structure Part where
  gradeA : Bool
  stepping : Word
  boot : Boot
  supply : Bool
  env : BootEnv
  accepted : BitVec 256
  acceptedWritten : Bool
  anyEnabled : Bool
  ddr : List Nat
  cpStandby : Bool
  mpStandby : Bool
  measured : List (Nat × Nat)
  minVersion : Nat
  needsReset : Bool
  timeSec : Nat
  timeNs : Nat
  locked : Bool
  agree : Nat
  lastPps : Nat
  timeAt : Nat
  powerLimit : Nat
  clocks : List (Nat × Nat)
  lag : List (Nat × Nat)
  errata : List Erratum
  hotStacks : List Nat
  links : List Link
  channels : List Channel
  ports : List Port
  routes : List (Nat × List Nat)
  moduleNum : Nat
  audit : Nat
  grants : List (Nat × Nat × Nat)
  rx : List Flit
  remote : List RemoteReq
  ctxTable : Nat
  deriving DecidableEq, Repr

/-- A page's move or unmap under way (R191, R193): context, page address, level, the destination of a move, and the host agents whose
answers to REVOKE are awaited (R194). -/
structure Move where
  ctx : Nat
  va : Nat
  level : Nat
  dst : Option Nat
  revoking : List Nat
  deriving DecidableEq, Repr

/-- One input or engine step that is due: the step and its arguments, in the order `Instr` lists them. -/
structure Event where
  step : Instr
  arg : List Nat
  deriving DecidableEq, Repr

/-- The whole machine. `mem` is physical memory in canonical form: addresses strictly rising, no zero byte listed (an unlisted
byte reads as zero, log entry 1); `sram` names the context that last wrote a byte of a core's scratchpad array (core, byte,
context), `opstore` what physical operand slots hold (R176, R258); `gathered` are the signatures of writes outside chunks that a
die's arbiter has still to apply (R225), `waiting` such writes that a chunk with commit priority holds back (physical byte, value,
grain; R225, R227), `held` and `shadows` what cores keep back (R216, R218, R219), `writes` the bytes written through a virtual
address, each with that name and the value before, for names used later (R206), `names` the virtual pages by which a 64 KiB frame
has been used (R206); `run` is the round robin of the squads (team, squad), `busy` the schedulers (core, number) that have issued
in this cycle, `drawn` the tray last drawn on each core and `drew` the idle schedulers that have drawn one in this cycle (R147,
R159). -/
structure State where
  part : Part
  now : Nat
  mem : List Host.Cell
  checks : List (Nat × Nat)
  badEcc : List Nat
  tlb : List Tlb
  icache : List Fetched
  lams : List Lam
  flights : List Flight
  applied : List Applied
  external : List (Nat × Nat)
  gathered : List (Nat × List Nat)
  waiting : List (Nat × Byte × Nat)
  held : List Held
  shadows : List Shadow
  writes : List Shadow
  names : List (Nat × Nat)
  strongSeq : Nat
  ops : List Op
  toks : List Tok
  bars : List Bar
  sram : List (Nat × Nat × Nat)
  opstore : List FreeSlot
  images : List Image
  launches : List Launch
  ctxs : List Context
  tenants : List Tenant
  reclaims : List Reclaim
  moves : List Move
  teams : List Team
  snaps : List Snap
  run : List (Nat × Nat)
  busy : List (Nat × Nat)
  drawn : List (Nat × Nat)
  drew : List (Nat × Nat)
  out : List Output
  agenda : List Event
  arg : List Nat
  cur : Issue
  before : Option Team
  fresh : Nat
  keys : Nat
  deriving DecidableEq, Repr

/-- Reasons the machine stops. -/
inductive Fault where
  /-- `step` raises it when no input is due and core supply has been removed (R425): nothing can step until a reset.
  Safe: the hardware does nothing there either. -/
  | supplyRemoved
  deriving DecidableEq, Repr

/-- Reasons a step has no meaning. -/
inductive Refusal where
  /-- An arm of `exec` whose instruction has no meaning yet. Safe. -/
  | notModelled (mnemonic : String)
  deriving DecidableEq, Repr

/-- No word at issue. -/
def Issue.none : Issue :=
  { team := 0, squad := 0, members := [], pc := 0, next := 0, first := 0, word := 0, lit := 0, toks := [], lat := 0,
    retry := false, vas := [], unit := 0, cleared := false, gone := [], whole := [], parted := false, round := 0, was := [] }

/-- The conditions of bring-up as they stand at reset: nothing stands in its way, no DDR-5 is populated, and every link would
train at full width; both image slots of the CP (0) and the MP (1) verify (log entry 2). -/
def BootEnv.reset : BootEnv :=
  { rails := true, rom := true, procs := true, hbm := true, ddr := [], trains := List.replicate 27 2,
    agents := [0], firmware := [{ proc := 0, slot := 0, verifies := true, version := 0, digest := 0 },
                 { proc := 1, slot := 0, verifies := true, version := 0, digest := 0 }] }

/-- The links after reset: all DOWN (R404). -/
def Link.allDown : List Link :=
  (List.range 27).map fun n => { num := n, st := .down, attempts := 0, quarantines := [], rate := 0, enabled := false }

/-- The pod-link ports after reset: nothing sent, nothing received (R409). -/
def Port.fresh : List Port :=
  (List.range 16).map fun n => { num := n, expect := 0, next := 0, unacked := [], retries := 0 }

/-- Erratum 7, the one record published with the manual (R427): on stepping 0x0100 an `MMA` of shape 3 with oa = ob occupies the
array for 3 x 128 cycles. -/
def Erratum.seven : Erratum :=
  { id := 7, lo := 0x100, hi := 0x100, val := 0x64300000, mask := 0x7FF00000, cls := 0, fix := 3, stmt := 269, fixStep := 0x101 }

/-- The part right after reset: bring-up step 2, "reset released" (R419); no reset value is given for the rest (log
entry 2). -/
def Part.reset : Part :=
  { gradeA := true, stepping := 0x100#32, boot := .step 2, supply := true, env := BootEnv.reset, accepted := 0,
    acceptedWritten := false, anyEnabled := false, ddr := [], cpStandby := false, mpStandby := false, measured := [],
    minVersion := 0, needsReset := false, timeSec := 0, timeNs := 0, locked := false, agree := 0, lastPps := 0, timeAt := 0,
    powerLimit := 3600, clocks := [], lag := [], errata := [Erratum.seven], hotStacks := [], links := Link.allDown,
    channels := [], ports := Port.fresh, routes := [], moduleNum := 0, audit := 1000, grants := [], rx := [], remote := [], ctxTable := 0 }

/-- The machine right after reset: no context, no image, no team; memory lists nothing. -/
def State.reset : State :=
  { part := Part.reset, now := 0, mem := [], checks := [], badEcc := [], tlb := [], icache := [], lams := [], flights := [],
    applied := [], external := [], gathered := [], waiting := [], held := [], shadows := [], writes := [], names := [], strongSeq := 0,
    ops := [], toks := [], bars := [], sram := [], opstore := [], images := [], launches := [], ctxs := [], tenants := [],
    reclaims := [], moves := [], teams := [], snaps := [], run := [], busy := [], drawn := [], drew := [], out := [],
    agenda := [], arg := [], cur := Issue.none, before := none, fresh := 0, keys := 0 }

end Sys2Proof.Machine
end

