-- ==== Sys2Proof/Machine/Data.lean ====
section
/-! DEFINITION. Plain operations on the data of the state: sparse values, lists by key, and the teams, groups, threads and
squads found and changed by their keys. -/

namespace Sys2Proof.Machine

/-! ## Sparse values -/

/-- The value numbered `n`. -/
def sget {w : Nat} (n : Nat) (l : Sparse w) : BitVec w :=
  match l with
  | [] => 0
  | (k, x) :: r => if k = n then x else sget n r

/-- The same values with `x` at number `n`, listed in rising order and without zeros. -/
def sput {w : Nat} (n : Nat) (x : BitVec w) (l : Sparse w) : Sparse w :=
  match l with
  | [] => if x = 0 then [] else [(n, x)]
  | (k, y) :: r =>
    if k < n then (k, y) :: sput n x r
    else if k = n then (if x = 0 then r.filter (fun p => p.1 != n) else (n, x) :: r)
    else if x = 0 then (k, y) :: r.filter (fun p => p.1 != n) else (n, x) :: (k, y) :: r

/-- The byte at an offset, if it is defined. -/
def bget (n : Nat) (l : Bytes) : Option Byte :=
  match l with
  | [] => none
  | (k, x) :: r => if k = n then some x else bget n r

/-- The same bytes with `x` at offset `n`. -/
def bput (n : Nat) (x : Byte) (l : Bytes) : Bytes :=
  match l with
  | [] => [(n, x)]
  | (k, y) :: r => if k < n then (k, y) :: bput n x r else if k = n then (n, x) :: r else (n, x) :: (k, y) :: r

/-- A little-endian number from bytes (R4). -/
def leNat (bs : List Byte) : Nat := bs.foldr (fun b acc => b.toNat + 256 * acc) 0

/-- The low `n` bytes of a number, little-endian (R4). -/
def leBytes (n x : Nat) : List Byte := (List.range n).map fun i => BitVec.ofNat 8 (x >>> (8 * i))

/-- `n` numbers from `a`. -/
def upFrom (a n : Nat) : List Nat := (List.range n).map (a + ·)

/-- Insertion into a list sorted by a key. -/
def insertBy {α : Type} (le : α → α → Bool) (x : α) (l : List α) : List α :=
  match l with
  | [] => [x]
  | y :: r => if le x y then x :: y :: r else y :: insertBy le x r

/-- A list in rising order of a comparison (insertion sort; equal elements keep their order). -/
def sortBy {α : Type} (le : α → α → Bool) (l : List α) : List α := l.foldr (insertBy le) []

/-- Change the elements a test picks. -/
def updIf {α : Type} (p : α → Bool) (f : α → α) (l : List α) : List α := l.map fun x => if p x then f x else x

/-- The distinct elements, in the order of first occurrence. -/
def uniq {α : Type} [BEq α] (l : List α) : List α := l.foldl (fun acc x => if acc.contains x then acc else acc ++ [x]) []

/-- Order of threads: ascending group, then lane (R145, R150). -/
def threadLe (a b : Nat × Nat) : Bool := a.1 < b.1 || (a.1 == b.1 && a.2 ≤ b.2)

/-! ## Errata records (R427) -/

/-- Does an erratum concern a stepping? -/
def Erratum.affects (e : Erratum) (step : Nat) : Bool := e.lo ≤ step && step ≤ e.hi

/-- Does an erratum select a word's encoding, where it is tied to one (R427 Table 3)? -/
def Erratum.selects (e : Erratum) (w : Word) : Bool := w.toNat &&& e.mask == e.val

/-- The 64-byte record read as an erratum (R427 Table 3); its reserved bytes are zero. -/
def Erratum.ofBytes (b : List Byte) : Option Erratum :=
  let f := fun (o n : Nat) => leNat ((b.drop o).take n)
  if b.length ≠ 64 || (b.drop 22).any fun x => x ≠ 0 then none
  else some { id := f 0 4, lo := f 4 2, hi := f 6 2, val := f 8 4, mask := f 12 4, cls := f 16 1, fix := f 17 1, stmt := f 18 2,
              fixStep := f 20 2 }

/-! ## Parts of the state -/

def State.team? (s : State) (k : Nat) : Option Team := s.teams.find? fun t => t.key == k

def Team.group? (t : Team) (g : Nat) : Option Group := t.groups.find? fun x => x.gid == g

def Group.thread? (g : Group) (l : Nat) : Option Thread := g.threads.find? fun x => x.lane == l

def Team.thread? (t : Team) (g l : Nat) : Option Thread := (t.group? g).bind fun x => x.thread? l

def Team.squad? (t : Team) (q : Nat) : Option Squad := t.squads.find? fun x => x.key == q

def State.ctx? (s : State) (c : Nat) : Option Context := s.ctxs.find? fun x => x.num == c

def State.image? (s : State) (k : Nat) : Option Image := s.images.find? fun x => x.key == k

def State.launch? (s : State) (k : Nat) : Option Launch := s.launches.find? fun x => x.key == k

def State.lam? (s : State) (k : Nat) : Option Lam := s.lams.find? fun x => x.key == k

def State.bar? (s : State) (k : Nat) : Option Bar := s.bars.find? fun x => x.key == k

def State.op? (s : State) (k : Nat) : Option Op := s.ops.find? fun x => x.key == k

def State.modTeam (s : State) (k : Nat) (f : Team → Team) : State :=
  { s with teams := updIf (fun t => t.key == k) f s.teams }

def State.modCtx (s : State) (c : Nat) (f : Context → Context) : State :=
  { s with ctxs := updIf (fun x => x.num == c) f s.ctxs }

def State.modLaunch (s : State) (k : Nat) (f : Launch → Launch) : State :=
  { s with launches := updIf (fun x => x.key == k) f s.launches }

def State.modImage (s : State) (k : Nat) (f : Image → Image) : State :=
  { s with images := updIf (fun x => x.key == k) f s.images }

def State.modLam (s : State) (k : Nat) (f : Lam → Lam) : State :=
  { s with lams := updIf (fun x => x.key == k) f s.lams }

def State.modBar (s : State) (k : Nat) (f : Bar → Bar) : State :=
  { s with bars := updIf (fun x => x.key == k) f s.bars }

def State.modOp (s : State) (k : Nat) (f : Op → Op) : State :=
  { s with ops := updIf (fun x => x.key == k) f s.ops }

def State.dropOp (s : State) (k : Nat) : State := { s with ops := s.ops.filter fun x => x.key != k }

def Team.modGroup (t : Team) (g : Nat) (f : Group → Group) : Team :=
  { t with groups := updIf (fun x => x.gid == g) f t.groups }

def Group.modThread (g : Group) (l : Nat) (f : Thread → Thread) : Group :=
  { g with threads := updIf (fun x => x.lane == l) f g.threads }

def Team.modThread (t : Team) (g l : Nat) (f : Thread → Thread) : Team := t.modGroup g fun x => x.modThread l f

def Team.modSquad (t : Team) (q : Nat) (f : Squad → Squad) : Team :=
  { t with squads := updIf (fun x => x.key == q) f t.squads }

def State.modGroup (s : State) (k g : Nat) (f : Group → Group) : State := s.modTeam k fun t => t.modGroup g f

def State.modThread (s : State) (k g l : Nat) (f : Thread → Thread) : State := s.modTeam k fun t => t.modThread g l f

/-- Change every thread a list names. -/
def Team.modThreads (t : Team) (ms : List (Nat × Nat)) (f : Group → Thread → Thread) : Team :=
  { t with groups := t.groups.map fun g =>
      if ms.any fun m => m.1 == g.gid then
        { g with threads := g.threads.map fun x => if ms.contains (g.gid, x.lane) then f g x else x }
      else g }

/-- A new key (log entry 6). -/
def State.newKey (s : State) : Nat × State := (s.keys, { s with keys := s.keys + 1 })

/-- Queue an internal event behind those already due. -/
def State.post (s : State) (i : Instr) (arg : List Nat) : State := { s with agenda := s.agenda ++ [{ step := i, arg := arg }] }

/-- A rival is aborted at the end of this word (R324, R330, R331). -/
def State.abortRival (s : State) (team cause : Nat) : State := s.post .rivalDone [team, cause]

/-- Record an output of the part. -/
def State.emit (s : State) (o : Output) : State := { s with out := s.out ++ [o] }

/-- The team of the word at issue. -/
def State.curTeam (s : State) : Option Team := s.team? s.cur.team

/-- The team as the words of a chain read it: its state before any word of the chain wrote (R32). -/
def State.readTeam (s : State) : Option Team := match s.before with
  | some t => some t
  | none => s.curTeam

/-- Threads of the word at issue that still belong to the issuing squad: those that have trapped, parked or left it take no
further part (R149). -/
def State.members (s : State) : List (Nat × Nat) :=
  match s.curTeam.bind fun t => t.squad? s.cur.squad with
  | some q => s.cur.members.filter fun m => q.members.contains m
  | none => []

/-- Groups of the word at issue, ascending (R150). -/
def State.curGids (s : State) : List Nat := uniq (s.members.map (·.1))

/-- Lanes of one group among the threads of the word at issue. -/
def State.lanesOf (s : State) (g : Nat) : List Nat := (s.members.filter fun m => m.1 == g).map (·.2)

/-- The context of a team. -/
def State.ctxOf (s : State) (t : Team) : Option Context := s.ctx? t.ctx

def State.launchOf (s : State) (t : Team) : Option Launch := s.launch? t.launch

def State.imageOf (s : State) (t : Team) : Option Image := (s.launch? t.launch).bind fun l => s.image? l.image

/-- Is the team's context deterministic (R365)? -/
def State.isDet (s : State) (t : Team) : Bool := match s.ctxOf t with
  | some c => c.det
  | none => false

/-- Does the team run without the timing of its native section: on an L-core, or in interlocked mode (R42, R51)? -/
def State.interlocks (s : State) (t : Team) : Bool :=
  t.kind == .lcore || (match s.imageOf t with
    | some i => i.interlocked || i.forced
    | none => false)

/-- Narrow-wave (R172). -/
def State.narrow (s : State) (t : Team) : Bool := match s.imageOf t with
  | some i => i.wide32
  | none => false

/-- Lane positions of a group of the team: 64, or 32 in narrow-wave (R143, R172). -/
def State.width (s : State) (t : Team) : Nat := if s.narrow t then 32 else 64

/-- Threads per team (R110 `tpt`): groups per team times 64 (R358). -/
def State.tpt (s : State) (t : Team) : Nat := match s.launchOf t with
  | some l => l.gpt * 64
  | none => 64

/-- Die of a core. The numbering of the physical cores, 56 x die + 4 x quad + place in the quad, is the model's choice: the spec
numbers dies and quads (R11, R12, R388) and gives no index to a core, which `sr.core` reads outside DET (DESIGN CHOICE, log entry
11). -/
def dieOf (core : Nat) : Nat := core / 56

/-- Quad of a core within the module: 14 x die + quad (R12, R388; DESIGN CHOICE, log entry 11). -/
def quadOf (core : Nat) : Nat := core / 4

/-- Kind of a core: quads 12 and 13 of a die hold L-cores (R12). -/
def kindOf (core : Nat) : Kind := if core % 56 < 48 then .dcore else .lcore

/-- Clock of a core, in percent of its own (R424). -/
def State.clockOf (s : State) (core : Nat) : Nat := match s.part.clocks.find? fun c => c.1 == core with
  | some c => c.2
  | none => 100

/-- Hundredths of a D-core cycle that a core has lost to throttling (R424). -/
def State.lagOf (s : State) (core : Nat) : Nat := match s.part.lag.find? fun c => c.1 == core with
  | some c => c.2
  | none => 0

/-- Cycles of a core's own clock, 1.8 GHz or 2.6 GHz (R13), in some D-core cycles less what it has lost. -/
def ownAt (core now lag : Nat) : Nat := match kindOf core with
  | .dcore => (100 * now - lag) / 100
  | .lcore => (100 * now - lag) * 26 / 1800

/-- The free-running counter of a core, in its own cycles (R112). -/
def State.ownCycle (s : State) (core : Nat) : Nat := ownAt core s.now (s.lagOf core)

/-- Cycles of a core's own that fall into this D-core cycle: none or one on a D-core, one or two on an L-core that is not
throttled (R13, R147, R424). -/
def State.slots (s : State) (core : Nat) : Nat :=
  ownAt core (s.now + 1) (s.lagOf core + (100 - s.clockOf core)) - s.ownCycle core

/-- Units that a scheduler has issued in this cycle, with the cycles a split holds it for (R147, R150). -/
def State.used (s : State) (core sched : Nat) : Nat := (s.busy.filter fun b => b == (core, sched)).length

/-- Can a scheduler still issue in this cycle (R147)? -/
def State.schedFree (s : State) (core sched : Nat) : Bool := s.used core sched < s.slots core

/-- The cycle of a core's own in which its next unit would issue; on a D-core the D-core cycle. -/
def State.issueTime (s : State) (t : Team) (sched : Nat) : Nat := match t.kind with
  | .dcore => s.now
  | .lcore => s.ownCycle t.core + s.used t.core sched

/-- PC of the slot after one (R21, R37). -/
def nextSlot (k : Kind) (pc : DWord) : DWord := match k with
  | .dcore => if pc.toNat % 16 = 12 then pc + 8 else pc + 4
  | .lcore => pc + 4

/-- The cycles that throttled cores lose in one D-core cycle (R424). -/
def State.loseCycles (s : State) : List (Nat × Nat) :=
  s.part.clocks.foldl (fun l c => (c.1, s.lagOf c.1 + (100 - c.2)) :: l.filter fun x => x.1 != c.1) s.part.lag

/-- The schedulers' units that go over into the next cycle: a split holds its scheduler for a cycle per sub-squad (R150). -/
def State.carryBusy (s : State) : List (Nat × Nat) :=
  (uniq s.busy).flatMap fun b => List.replicate (s.used b.1 b.2 - s.slots b.1) b

/-- Is a quad of a die enabled: grade B disables D-quads 10 and 11 (R12)? -/
def quadEnabled (gradeA : Bool) (quad : Nat) : Bool :=
  let q := quad % 14
  gradeA || !(q == 10 || q == 11)

end Sys2Proof.Machine
end

