-- ==== Sys2Proof/Machine/Memory.lean ====
section
/-! DEFINITION. Pages and memory (08_page_access, 09_page_order): physical bytes, sector checks, windows, the table walk,
the faults of an access in their order, and the byte a thread's read returns. -/

namespace Sys2Proof.Machine

/-! ## Physical bytes -/

/-- The byte at a physical address; an unlisted one is zero (log entry 1). -/
def memGet (a : Nat) (l : List Host.Cell) : Byte :=
  match l with
  | [] => 0
  | (k, x) :: r => if k = a then x else memGet a r

/-- The memory with byte `x` at `a`, in canonical form: addresses rising, no zero byte listed. -/
def memPut (a : Nat) (x : Byte) (l : List Host.Cell) : List Host.Cell :=
  match l with
  | [] => if x = 0 then [] else [(a, x)]
  | (k, y) :: r =>
    if k < a then (k, y) :: memPut a x r
    else if k = a then (if x = 0 then r.filter (fun p => p.1 != a) else (a, x) :: r)
    else if x = 0 then (k, y) :: r.filter (fun p => p.1 != a) else (a, x) :: (k, y) :: r

/-- The canonical form of memory: every address above `lo`, rising, and no zero byte listed. -/
def memWfFrom (lo : Nat) (l : List Host.Cell) : Bool :=
  match l with
  | [] => true
  | (k, x) :: r => decide (lo ≤ k) && decide (x ≠ 0) && memWfFrom (k + 1) r

/-- The canonical form of memory. -/
def Memory.wf (l : List Host.Cell) : Bool := memWfFrom 0 l

/-- `n` bytes from a physical address. -/
def memBytes (a n : Nat) (l : List Host.Cell) : List Byte := (upFrom a n).map fun x => memGet x l

/-- A little-endian number of `n` bytes at a physical address (R4). -/
def memNat (a n : Nat) (l : List Host.Cell) : Nat := leNat (memBytes a n l)

/-- Write bytes from a physical address. -/
def memWrite (a : Nat) (bs : List Byte) (l : List Host.Cell) : List Host.Cell :=
  (bs.zipIdx.foldl (fun m p => memPut (a + p.2) p.1 m) l)

/-- One bit of the sector check (R195). -/
def crcBit (crc : Nat) (b : Nat) : Nat :=
  let fb := (crc / 32768 + b) % 2
  let c := (2 * crc) % 65536
  if fb = 1 then c ^^^ 0x8BB7 else c

/-- The sector check of 32 bytes in ascending address order (R195). -/
def sectorCheck (bs : List Byte) : Nat :=
  bs.foldl (fun crc b => [7, 6, 5, 4, 3, 2, 1, 0].foldl (fun c i => crcBit c ((b.toNat >>> i) % 2)) crc) 0xFFFF

/-- Has a sector a check that does not fit its data? `checks` lists the 16-bit checks that a fault has left; every other sector's
check is the one computed when its value was formed (R195, R196). -/
def State.checkBad (s : State) (x : Nat) : Bool :=
  s.checks.any fun e => e.1 == x && e.2 != sectorCheck (memBytes (32 * x) 32 s.mem)

/-- Feature bits of R355. -/
def State.feature (s : State) (n : Nat) : Bool := s.part.accepted.getLsbD n

/-- Does a physical address hold memory (R182 Table 3)? Without the DDR-5 feature its region holds none (R355). -/
def State.paValid (s : State) (pa : Nat) : Bool :=
  match pa >>> 48 with
  | 0 => decide (pa % 2 ^ 48 < 2 ^ 40) && decide (pa % 2 ^ 36 < 48 * 2 ^ 30)
  | 1 => s.feature 4 && decide (pa % 2 ^ 48 < 2 ^ 42) && decide (pa % 2 ^ 38 < (s.part.ddr.getD (bits pa 41 38) 0) * 2 ^ 30)
  | 2 => s.part.links.any fun l => l.num == 0 && (l.st == .up || l.st == .degraded)
  | _ => false

/-- The die that is home to a physical address (R182); host memory is reached through die 1 (01_part). -/
def homeDie (pa : Nat) : Nat := match pa >>> 48 with
  | 0 => bits pa 39 36 / 2
  | 1 => bits pa 41 38 / 2
  | _ => 1

/-! ## Page-table entries and walks (R180, R181) -/

/-- What a leaf says of its page (R181). -/
structure Page where
  base : Nat
  bits : Nat
  level : Nat
  leaf : Nat
  deriving DecidableEq, Repr

def Page.r (p : Page) : Bool := p.leaf.testBit 1
def Page.w (p : Page) : Bool := p.leaf.testBit 2
def Page.x (p : Page) : Bool := p.leaf.testBit 3
def Page.ord (p : Page) : Nat := Machine.bits p.leaf 5 4
def Page.grain (p : Page) : Nat := match Machine.bits p.leaf 7 6 with
  | 0 => 32
  | 1 => 128
  | _ => 512
/-- The name of a grain: the context, the virtual address of its first byte, and 0, 1 or 2 for its size of 32, 128 or 512 bytes
(R203, R206, R220, R222). -/
def grainOf (ctx va size : Nat) : Nat :=
  ctx * 2 ^ 64 + va / size * size + (if size = 32 then 0 else if size = 128 then 1 else 2)

def Page.grainName (p : Page) (ctx va : Nat) : Nat := grainOf ctx va p.grain

/-- Bytes of a named grain. -/
def grainSize (g : Nat) : Nat := match g % 32 with
  | 0 => 32
  | 1 => 128
  | _ => 512

/-- The name of a physical byte that lies in a named grain: its context and virtual address (R203, R206). -/
def byteName (g pa : Nat) : Nat := g / 32 * 32 + pa % grainSize g

/-- Do two grains share a byte? -/
def grainMeets (g h : Nat) : Bool :=
  let a := g / 32 * 32
  let b := h / 32 * 32
  a < b + grainSize h && b < a + grainSize g

/-- Does a grain meet a signature (R222, R226; hash collisions are not modelled)? -/
def sigHits (sig : List Nat) (g : Nat) : Bool := sig.any fun h => grainMeets g h

/-- Add to a set of grains. -/
def addGrain (g : Nat) (l : List Nat) : List Nat := if l.contains g then l else g :: l

/-- Do two signatures meet (R226, R313, R325)? -/
def sigsMeet (a b : List Nat) : Bool := a.any fun g => sigHits b g

def Page.ds (p : Page) : Bool := p.leaf.testBit 8
def Page.io (p : Page) : Bool := p.leaf.testBit 9
def Page.g (p : Page) : Bool := p.leaf.testBit 10
def Page.uni (p : Page) : Bool := p.leaf.testBit 11
def Page.pkey (p : Page) : Nat := Machine.bits p.leaf 15 12
def Page.poison (p : Page) : Bool := p.leaf.testBit 59

/-- A fault of an access: its cause (R394), and REASON and level of a `PAGEATTR` (R458). -/
structure AFault where
  cause : Nat
  reason : Nat
  level : Nat
  deriving DecidableEq, Repr

def AFault.of (cause : Nat) : AFault := { cause := cause, reason := 0, level := 0 }

/-- Cause codes of access faults (R394). -/
def cMisalign : Nat := 0x04
def cPagefault : Nat := 0x05
def cProt : Nat := 0x06
def cPageattr : Nat := 0x07
def cIntegrity : Nat := 0x08
def cEccunc : Nat := 0x09
def cWindow : Nat := 0x19

/-- Index of a table level in a virtual address (R180). -/
def vaIndex (va level : Nat) : Nat := (va >>> (52 - 12 * level)) % 4096

/-- The walk from a table at a level, with the levels left (R180, R181). -/
def State.walkFrom (s : State) (va table : Nat) : Nat → Nat → Except AFault Page
  | 0, _ => .error (AFault.of cPageattr)
  | fuel + 1, level =>
    let at_ := table + 8 * vaIndex va level
    if !s.paValid at_ then .error { cause := cPageattr, reason := 1, level := level }
    else
      let e := memNat at_ 8 s.mem
      let attr : AFault := { cause := cPageattr, reason := 0, level := level }
      if !e.testBit 0 then .error (AFault.of cPagefault)
      else if bits e 63 60 ≠ 0 || bits e 54 53 ≠ 0 then .error attr
      else
        let pa := bits e 51 16 <<< 16
        if e.testBit 52 then
          let sz := 52 - 12 * level
          if level = 0 || bits e 5 4 = 3 || bits e 7 6 = 3 || pa % 2 ^ sz ≠ 0 then .error attr
          else .ok { base := pa, bits := sz, level := level, leaf := e }
        else if level = 3 then .error attr
        else s.walkFrom va pa fuel (level + 1)

/-- The walk of a context's tables (R180). -/
def State.walk (s : State) (root va : Nat) : Except AFault Page := s.walkFrom va root 4 0

/-- The leaf translation that the first of some TLBs to hold one holds for an address (R183, R184). -/
def State.tlbHit (s : State) (us : List TlbUnit) (ctx va : Nat) : Option Page :=
  let e := us.findSome? fun u => s.tlb.find? fun t =>
    t.unit == u && t.ctx == ctx && t.page == (va >>> (52 - 12 * t.level)) <<< (52 - 12 * t.level)
  e.map fun t =>
    { base := bits t.leaf.toNat 51 16 <<< 16, bits := 52 - 12 * t.level, level := t.level, leaf := t.leaf.toNat }

/-- The translation an access uses: the tables', or, where a TLB it goes through still holds another leaf and no shootdown has
completed, a free choice of the two (R184; log entry 4). -/
def State.lookupBy (s : State) (us : List TlbUnit) (c : Context) (va : Nat) : Except AFault Page :=
  let now := s.walk c.root va
  match s.tlbHit us c.num va with
  | some old => match now with
    | .ok p => if p.leaf = old.leaf || Config.freeBit s.fresh (va >>> 16) then .ok p else .ok old
    | .error e => if Config.freeBit s.fresh (va >>> 16) then .error e else .ok old
  | none => now

/-- The TLBs of lane accesses and fetches: the core's L1 TLB, then its quad's (R183). -/
def laneTlbs (core : Nat) : List TlbUnit := [.core core, .quad (quadOf core)]

/-- The translation of a lane access or a fetch (R183). -/
def State.lookup (s : State) (core : Nat) (c : Context) (va : Nat) : Except AFault Page := s.lookupBy (laneTlbs core) c va

/-- Leaf translations that a TLB holds: 1,024, 16,384 or 256 (R183). -/
def TlbUnit.room : TlbUnit → Nat
  | .core _ => 1024
  | .quad _ => 16384
  | .ahead _ => 256

/-- A TLB takes a leaf translation; the one it took longest ago gives way (R183). -/
def State.putTlb (s : State) (u : TlbUnit) (ctx va : Nat) (p : Page) : State :=
  let page := (va >>> p.bits) <<< p.bits
  let e : Tlb := { unit := u, ctx := ctx, page := page, level := p.level, leaf := BitVec.ofNat 64 p.leaf }
  let mine := s.tlb.filter fun t => t.unit == u && !(t.ctx == ctx && t.page == page)
  { s with tlb := (e :: mine).take u.room ++ s.tlb.filter fun t => t.unit != u }

/-- Remember a leaf translation in the core's and the quad's TLB (R183). -/
def State.fillTlb (s : State) (core ctx va : Nat) (p : Page) : State :=
  (laneTlbs core).foldl (fun s u => s.putTlb u ctx va p) s

/-- Is the page of an address under a move (R191)? -/
def State.moving (s : State) (ctx va : Nat) : Bool :=
  s.moves.any fun m => m.dst.isSome && m.ctx == ctx && va >>> (52 - 12 * m.level) == m.va >>> (52 - 12 * m.level)

/-- Has a context a page under a move? The CP's accesses for the context, and the starts of its teams, whose walks may reach the page,
wait (R191; log entry 27). -/
def State.cpWaits (s : State) (ctx : Nat) : Bool := s.moves.any fun m => m.dst.isSome && m.ctx == ctx

/-- Does an access wait for the walk of a page under a move: none of its TLBs holds the page (R191 step 1)? -/
def State.walkWaits (s : State) (us : List TlbUnit) (ctx va : Nat) : Bool :=
  s.moving ctx va && (s.tlbHit us ctx va).isNone

/-! ## Windows (R174) -/

/-- What kind of access is checked (R186); a reduction differs from an `ATOM` on IO pages (R189). -/
inductive Access where
  | load
  | store
  | atomic
  | red
  | fetch
  deriving DecidableEq, Repr

/-- The windows of R174. -/
inductive Window3 where
  | scratch (off : Nat)
  | cluster (rank off : Nat)
  | private_ (p : Nat)
  | pod (entry off : Nat)
  | bad
  | global
  deriving DecidableEq, Repr

/-- Classification of an address before any translation (R174 Table 1). -/
def windowOf (va : Nat) : Window3 :=
  if va < 0xFFFFF00000000000 then .global
  else if va < 0xFFFFF10000000000 then .scratch (va % 2 ^ 40)
  else if va < 0xFFFFF20000000000 then .cluster (bits va 39 32) (va % 2 ^ 32)
  else if va < 0xFFFFF80000000000 then .bad
  else if va < 0xFFFFF90000000000 then .private_ (va % 2 ^ 40)
  else if va < 0xFFFFFC0000000000 then .bad
  else .pod (bits va 41 34) (va % 2 ^ 34)

/-- The teams of a team's cluster by rank (R361, R283): the members of its launch with the same cluster number that have not
exited (R174, R293). Its own rank is the team itself, a rival with its own copy (R320). -/
def State.clusterMember (s : State) (t : Team) (rank : Nat) : Option Team :=
  match s.launchOf t with
  | some l =>
    let c := max 1 l.cluster
    if t.index % c = rank then some t
    else s.teams.find? fun u => u.launch == t.launch && u.parent.isNone && u.index == t.index / c * c + rank
      && u.groups.any fun g => !g.threads.isEmpty
  | none => none

/-- Cluster size of a team's launch (R356). -/
def State.clusterSize (s : State) (t : Team) : Nat := match s.launchOf t with
  | some l => max 1 l.cluster
  | none => 1

/-- Bytes of scratchpad a team's kernel declares (R174). -/
def State.scratchSize (s : State) (t : Team) : Nat := match s.imageOf t with
  | some i => i.scratch
  | none => 0

/-- Virtual address of private offset `p` of a thread (R178). -/
def State.privVa (s : State) (t : Team) (tid p : Nat) : Nat :=
  match s.launchOf t with
  | some l =>
    let tp := s.tpt t
    (l.privBase + t.privSlot * tp * l.privSize + (p / 4) * 4 * tp + tid * 4 + p % 4) % 2 ^ 64
  | none => 0

/-- Private bytes per thread of the team's launch (R178). -/
def State.privSize (s : State) (t : Team) : Nat := match s.launchOf t with
  | some l => l.privSize
  | none => 0

/-- The sectors that a range of physical bytes touches. -/
def sectorsOf (pa n : Nat) : List Nat := upFrom (pa / 32) ((pa + n - 1) / 32 - pa / 32 + 1)

/-- The checks of Table 4 on a translated access, orders 4 to 7 (R186), and the bytes it reaches. A store of less than a sector
that merges into a sector with an uncorrectable ECC error raises nothing: Table 4 names the data read, and no line says what such
a store does (DESIGN CHOICE, log entry 20). -/
def State.checkLeaf (s : State) (c : Context) (acc : Access) (p : Page) (va n : Nat) : Except AFault (Page × Nat) :=
  let pa := p.base + va % 2 ^ p.bits
  if !s.paValid pa then .error { cause := cPageattr, reason := 1, level := 0 }
  else if acc == .atomic && p.io then .error { cause := cPageattr, reason := 2, level := 0 }
  else if p.pkey ≠ c.tkey then .error (AFault.of cProt)
  else if !(match acc with
      | .load => p.r
      | .store => p.w
      | .atomic => p.r && p.w
      | .red => p.r && p.w
      | .fetch => p.x) then .error (AFault.of cProt)
  else if p.poison then .error (AFault.of cEccunc)
  else if acc != .store && (sectorsOf pa n).any s.badEcc.contains then .error (AFault.of cEccunc)
  else if (acc != .store || n < 32) && (sectorsOf pa n).any s.checkBad then .error (AFault.of cIntegrity)
  else .ok (p, pa)

/-- The checks of Table 4 on an access through some TLBs, orders 3 to 7 (R183, R186), and the bytes it reaches. -/
def State.checkPageBy (s : State) (us : List TlbUnit) (c : Context) (acc : Access) (va n : Nat) : Except AFault (Page × Nat) :=
  match s.lookupBy us c va with
  | .error e => .error e
  | .ok p => s.checkLeaf c acc p va n

/-- The same for a lane access or a fetch. -/
def State.checkPage (s : State) (core : Nat) (c : Context) (acc : Access) (va n : Nat) : Except AFault (Page × Nat) :=
  s.checkPageBy (laneTlbs core) c acc va n

/-- The bytes of a global access within one page. -/
def Page.spots (p : Page) (ctx va pa n : Nat) : List Spot :=
  (List.range n).map fun i =>
    { loc := .mem (pa + i), grain := p.grainName ctx (va + i), ord := p.ord, io := p.io, ds := p.ds }

/-- A byte of storage that belongs to no page. -/
def plainSpot (l : Loc) : Spot := { loc := l, grain := 0, ord := 0, io := false, ds := false }

/-- The place of an access fault in the order of Table 4 (R186). -/
def AFault.rank (f : AFault) : Nat :=
  if f.cause = cPagefault then 3
  else if f.cause = cPageattr then 4
  else if f.cause = cProt then 5
  else if f.cause = cEccunc then 6
  else 7

/-- The name of a private byte: its virtual and its physical address (R178, R203). -/
def privAt (va pa : Nat) : Nat := va * 2 ^ 64 + pa

/-- The physical address of a named private byte. -/
def privPa (k : Nat) : Nat := k % 2 ^ 64

/-- The words of a private access: offset and bytes (R178). -/
def privParts (p n : Nat) : List (Nat × Nat) :=
  if n ≤ 4 then [(p, n)] else (List.range (n / 4)).map fun i => (p + 4 * i, 4)

/-- The words of a private access, each translated on its own: the first fault of Table 4 among them, or the bytes they reach
(R178, R179, R186). -/
def State.privSpots (s : State) (t : Team) (c : Context) (acc : Access) (tid p n : Nat) : Except AFault (List Spot) :=
  let got := (privParts p n).map fun q => (s.checkPage t.core c acc (s.privVa t tid q.1) q.2, s.privVa t tid q.1, q.2)
  let faults := got.filterMap fun g => match g.1 with
    | .error e => some e
    | .ok _ => none
  match faults with
  | [] => .ok (got.flatMap fun g => match g.1 with
    | .ok x => (List.range g.2.2).map fun i =>
        { plainSpot (.priv t.key (privAt (g.2.1 + i) (x.2 + i))) with grain := x.1.grainName c.num (g.2.1 + i) }
    | .error _ => [])
  | f :: fs => .error (fs.foldl (fun b e => if e.rank < b.rank then e else b) f)

/-- The address of an offset in a pod window (R174). -/
def podVa (e off : Nat) : Nat := 0xFFFFFC0000000000 + e * 2 ^ 34 + off

/-- A valid entry of the pod-window table (R410). -/
def Context.podEntry? (c : Context) (e : Nat) : Option PodEntry := c.podwin.find? fun x => x.entry == e

/-- The faults of an access of `n` bytes at `va` through some TLBs in the order of Table 4, without the alignment test, and the
bytes it reaches (R174, R183, R186). Without the pod-link feature there are no pod windows (R355). -/
def State.reachBy (s : State) (us : List TlbUnit) (t : Team) (c : Context) (tid : Nat) (acc : Access) (va n : Nat) :
    Except AFault (List Spot) :=
  match windowOf va with
  | .bad => .error (AFault.of cWindow)
  | .scratch off =>
    if off + n > s.scratchSize t then .error (AFault.of cWindow)
    else .ok ((upFrom off n).map fun o => plainSpot (.scratch t.key o))
  | .cluster rank off =>
    match s.clusterMember t rank with
    | some u =>
      if rank ≥ s.clusterSize t || off + n > s.scratchSize t then .error (AFault.of cWindow)
      else .ok ((upFrom off n).map fun o => plainSpot (.scratch u.key o))
    | none => .error (AFault.of cWindow)
  | .private_ p =>
    if acc == .atomic || acc == .red || p + n > s.privSize t then .error (AFault.of cWindow) else s.privSpots t c acc tid p n
  | .pod e off =>
    match (if s.feature 5 then c.podEntry? e else none) with
    | some _ => .ok ((upFrom off n).map fun o => plainSpot (.pod e o))
    | none => .error (AFault.of cWindow)
  | .global =>
    match s.checkPageBy us c acc va n with
    | .error e => .error e
    | .ok (p, pa) => .ok (p.spots c.num va pa n)

/-- The same for a lane access. -/
def State.reach (s : State) (t : Team) (c : Context) (tid : Nat) (acc : Access) (va n : Nat) : Except AFault (List Spot) :=
  s.reachBy (laneTlbs t.core) t c tid acc va n

/-- Alignment (R187): a private access is judged on its offset. -/
def misaligned (va n : Nat) : Bool := match windowOf va with
  | .private_ p => p % n ≠ 0
  | _ => va % n ≠ 0

/-! ## What a read returns -/

/-- The lamina a team's chunks commit into: its deepest block level, else its world view (R229, R298). -/
def Team.base (t : Team) : Option Nat := match t.levels with
  | l :: _ => some l.lam
  | [] => t.view

/-- A lamina and those that enclose it, innermost first (R298). -/
def State.lamChain (s : State) : Nat → Option Nat → List (Option Nat)
  | 0, _ => [none]
  | _, none => [none]
  | fuel + 1, some k => some k :: s.lamChain fuel ((s.lam? k).bind fun l => l.parent)

/-- Does a line hold a byte under a name (R203, R206)? -/
def Line.holds (x : Line) (g pa : Nat) : Bool := x.pa == pa && byteName x.grain x.pa == byteName g pa

/-- The latest line of a byte among some laminae, with its lamina (R212). -/
def latestLine (ls : List Lam) (g pa : Nat) : Option (Line × Nat) :=
  ls.foldl (fun best l => l.lines.foldl (fun b x =>
    if x.holds g pa then (match b with
      | some y => if y.1.seq ≤ x.seq then some (x, l.key) else b
      | none => some (x, l.key)) else b) best) none

/-- Chunks of a core that commit into a given lamina, or into memory (R223). -/
def State.chunksOf (s : State) (core : Nat) (base : Option Nat) : List Lam :=
  s.lams.filter fun l => l.owner == .chunk && l.core == core && l.parent == base

/-- Does a core see a commit in flight: its quad from the grant on, its die once the signature is applied there (R224 Table 3)? -/
def Flight.reaches (f : Flight) (core : Nat) : Bool := f.acks.contains (dieOf core) || quadOf f.core == quadOf core

/-- The latest commit in flight of a byte, among those that `p` admits: the byte and the lamina it came from (R212). -/
def State.flying (s : State) (pa : Nat) (p : Flight → Bool) : Option (Byte × Nat) :=
  s.flights.foldl (fun best f => if p f then (match f.lines.find? fun x => x.pa == pa with
    | some x => some (x.byte, f.lam)
    | none => best) else best) none

/-- The committed value of a byte that its atomic unit or another agent at its home reads: the last write granted (R201, R212). -/
def State.homeValue (s : State) (pa : Nat) : Byte := match s.flying pa fun _ => true with
  | some x => x.1
  | none => memGet pa s.mem

/-- A stale value that a name of a byte may still read as on a core, by a free choice (R206, R219; log entry 4). -/
def State.staleByte (s : State) (core g pa : Nat) : Option Byte :=
  if s.shadows.isEmpty then none
  else (s.shadows.find? fun h => h.pa == pa && h.name == byteName g pa && !(h.back && h.cleared.contains core)
    && Config.freeBit s.fresh (2 * pa + 1)).map fun h => h.byte

/-- What a core keeps of a byte and reads before anything else, and, where it has not given it away, the number of that write: what it
has written, or a clean copy of a LOOSE byte by a free choice (R216, R218; log entry 4). -/
def State.keptByte (s : State) (core g pa : Nat) : Option (Byte × Option Nat) :=
  (s.held.find? fun h => h.core == core && h.line.holds g pa && (h.dirty || Config.freeBit s.fresh (2 * pa))).map
    fun h => (h.line.byte, if h.dirty then some h.line.seq else none)

/-- The committed value of a byte as a core sees it under a name, and the commit in flight, or the kept write, that it comes from
(R211, R216, R219, R224). -/
def State.coreByte (s : State) (core g pa : Nat) : Byte × Option Nat :=
  match (s.keptByte core g pa).or ((s.staleByte core g pa).map fun b => (b, none)) with
  | some x => x
  | none => match s.flying pa fun f => f.reaches core with
    | some x => (x.1, some x.2)
    | none => (memGet pa s.mem, none)

/-- A byte as a core sees it through laminae, innermost first, above a committed value, and the uncommitted or flying write that it
is: at each layer the provisional lines of the core's chunks that `p` admits, then the layer's own (R223, R298). -/
def State.viewByte (s : State) (core g pa : Nat) (p : Lam → Bool) (home : Byte × Option Nat) : List (Option Nat) → Byte × Option Nat
  | [] => home
  | k :: rest =>
    match latestLine ((s.chunksOf core k).filter p) g pa with
    | some x => (x.1.byte, some x.2)
    | none => match k with
      | none => home
      | some key => match latestLine ((s.lam? key).toList) g pa with
        | some x => (x.1.byte, none)
        | none => s.viewByte core g pa p home rest

/-- A global byte as a team's threads see it, and the write that it is. -/
def State.teamView (s : State) (t : Team) (g pa : Nat) : Byte × Option Nat :=
  s.viewByte t.core g pa (fun _ => true) (s.coreByte t.core g pa) (s.lamChain s.lams.length t.base)

/-- The committed value of a byte of a STRONG page as an agent that issues no chunk reads it: the last write granted, since the grants
order the accesses to STRONG pages (R215, R228); `none` where no STRONG commit of it is on its way. -/
def State.strongByte (s : State) (pa : Nat) : Option Byte :=
  if s.flights.any fun f => f.lines.any fun x => x.pa == pa && x.ord == 1 then some (s.homeValue pa) else none

/-- The value of a byte that an agent outside the cores reads at its home: memory, and on STRONG pages the last write granted (R192,
R215). -/
def State.outerByte (s : State) (pa : Nat) : Byte := (s.strongByte pa).getD (memGet pa s.mem)

/-- The byte of memory a team's read sees. -/
def State.teamByte (s : State) (t : Team) (g pa : Nat) : Byte := (s.teamView t g pa).1

/-- A scratchpad byte nobody has written is undefined (R176; log entry 3). -/
def scratchByte (t : Team) (off : Nat) : Byte := (bget off t.scratch).getD (Config.freeByte (2 * t.key) off)

/-- The byte at a place as a team's threads see it (R176, R179, R223). A pod byte is not here (R411). -/
def State.locByte (s : State) (t : Team) (x : Spot) : Byte :=
  match x.loc with
  | .scratch k off => match s.team? k with
    | some u => scratchByte u off
    | none => Config.freeByte (2 * k) off
  | .priv k pa => match (s.team? k).bind fun u => bget pa u.priv with
    | some b => b
    | none => (s.coreByte t.core x.grain (privPa pa)).1
  | .mem pa => s.teamByte t x.grain pa
  | .pod _ _ => 0

/-- Do two spots name one location (R203, R206)? -/
def Spot.same (x y : Spot) : Bool := x.loc == y.loc && (match x.loc with
  | .mem pa => byteName x.grain pa == byteName y.grain pa
  | _ => true)

/-- A thread's own store that L1 has not accepted yet, latest first (R199). -/
def State.ownStore (s : State) (a : Agent) (x : Spot) : Option Byte :=
  s.ops.foldl (fun best o => match o.what with
    | .store ws _ => ws.foldl (fun b (w : StoreByte) => if w.who == a && w.at_.same x then some w.byte else b) best
    | _ => best) none

/-- The byte a thread's read returns (R199). -/
def State.readByte (s : State) (t : Team) (a : Agent) (x : Spot) : Byte := (s.ownStore a x).getD (s.locByte t x)

/-- A little-endian value a thread reads (R4). -/
def State.readSpots (s : State) (t : Team) (a : Agent) (sp : List Spot) : Nat :=
  leNat (sp.map fun x => s.readByte t a x)

/-- A value the team's engines read. -/
def State.teamNat (s : State) (t : Team) (sp : List Spot) : Nat := leNat (sp.map fun x => s.locByte t x)

end Sys2Proof.Machine
end

