-- ==== Sys2Proof/Machine/Flags.lean ====
section
/-! DEFINITION. Flags: the fields of fpctl and fpflags and the `FPX` decision (R82 to R84, R131), and the completion flags
of a group (R25). -/

namespace Sys2Proof.Machine

/-- RM of fpctl (R82). -/
def fpRm (c : Word) : Nat := c.toNat % 4

/-- FTZ of fpctl (R81, R82). -/
def fpFtz (c : Word) : Bool := c.getLsbD 2

/-- The trap enables TI, TZ, TO, TU, TX of fpctl in the layout of fpflags (R82, R83). -/
def fpEnables (c : Word) : Word := (c >>> 4) &&& 0x1F#32

/-- Bits of fpctl that hold a value; the others read as zero and ignore writes (R82). -/
def fpctlMask : Word := 0x1F7#32

/-- Bits of fpflags that hold a value (R83). -/
def fpflagsMask : Word := 0x1F#32

/-- Does a word that raised these flags take `FPX` (R84)? -/
def takesFpx (ctl flags : Word) : Bool := flags &&& fpEnables ctl != 0

/-- Count of a completion flag (R25). -/
def Group.flagCount (g : Group) (f : Nat) : Nat := (sget f g.flags).toNat

/-- Are all completion flags of the group idle (R25)? -/
def Group.flagsIdle (g : Group) : Bool := g.flags.isEmpty

/-- One more operation outstanding on a flag (R25); the issue rule keeps the count at most 15. -/
def Group.flagInc (g : Group) (f : Nat) : Group := { g with flags := sput f (sget f g.flags + 1) g.flags }

/-- One operation fewer on a flag (R25). -/
def Group.flagDec (g : Group) (f : Nat) : Group :=
  if sget f g.flags = 0 then g else { g with flags := sput f (sget f g.flags - 1) g.flags }

/-- One of the completions a flag count waits for has happened: the count falls when none is left (R25). -/
def State.tokDone (s : State) (key : Nat) : State :=
  match s.toks.find? fun t => t.key == key with
  | none => s
  | some t =>
    if t.left ≤ 1 then
      { s.modGroup t.team t.gid (fun g => g.flagDec t.flag) with toks := s.toks.filter fun x => x.key != key }
    else { s with toks := updIf (fun x => x.key == key) (fun x => { x with left := x.left - 1 }) s.toks }

/-- The completions of an operation's flag counts. -/
def State.toksDone (s : State) (ks : List Nat) : State := ks.foldl State.tokDone s

/-- One more completion is awaited by a flag count (R25). -/
def State.tokHold (s : State) (key : Nat) : State :=
  { s with toks := updIf (fun x => x.key == key) (fun x => { x with left := x.left + 1 }) s.toks }

/-- The keys of the flag counts the word at issue holds in one group. -/
def State.curToks (s : State) (gid : Nat) : List Nat := (s.cur.toks.filter fun p => p.1 == gid).map (·.2)

/-- Cycles until an operation that begins now has its effect, where the spec gives no figure (log entry 5). -/
def State.delay (s : State) : Nat := 1 + Config.freeDelay s.fresh s.keys

/-- Put an operation in flight: it holds the given flag counts until it completes (R25). -/
def State.newOp (s : State) (team : Nat) (toks : List Nat) (lat : Nat) (what : OpKind) : State :=
  let s' := toks.foldl State.tokHold s
  let (k, s'') := s'.newKey
  { s'' with ops := s''.ops ++ [{ key := k, team := team, toks := toks, due := s.now + lat, iss := s.cur, what := what }] }

/-- An operation of the word at issue for one group (R25). -/
def State.groupOp (s : State) (gid lat : Nat) (what : OpKind) : State :=
  s.newOp s.cur.team (s.curToks gid) lat what

/-- An operation of the word at issue for all its groups. -/
def State.wordOp (s : State) (lat : Nat) (what : OpKind) : State :=
  s.newOp s.cur.team (s.cur.toks.map (·.2)) lat what

end Sys2Proof.Machine
end

