-- ==== Sys2Proof/Machine/Operands.lean ====
section
/-! DEFINITION. Operands: what register each word names, reading a register through its latency window, and writing one
(R48, R49, R103 to R110). -/

namespace Sys2Proof.Machine

/-! ## Registers as they are stored -/

/-- The value of a per-thread special register of R109. -/
def Thread.tsr (t : Thread) (depth : Nat) (k : Nat) : Word :=
  match k with
  | 0 => BitVec.ofNat 32 t.lane
  | 1 => BitVec.ofNat 32 t.tid
  | 2 => t.draw.setWidth 32
  | 3 => (t.draw >>> 32).setWidth 32
  | 4 => t.rsp
  | 5 => t.fpctl
  | 6 => t.fpflags
  | 7 => t.epcd.setWidth 32
  | 8 => (t.epcd >>> 32).setWidth 32
  | 9 => t.epcl.setWidth 32
  | 10 => (t.epcl >>> 32).setWidth 32
  | 11 => t.cause
  | 12 => t.tinst
  | 13 => t.tval.setWidth 32
  | 14 => (t.tval >>> 32).setWidth 32
  | 15 => t.tframe
  | 16 => BitVec.ofNat 32 depth
  | _ => 0

/-- A 64-bit register with one half replaced (R109). -/
def setHalf (hi : Bool) (old : DWord) (x : Word) : DWord :=
  if hi then x ++ old.setWidth 32 else (old >>> 32).setWidth 32 ++ x

/-- Writing a per-thread special register of R109: reserved bits of rsp, fpctl, fpflags and tframe ignore writes; a change of rsp
leaves the entries spilled so far undefined (R114). -/
def Thread.setTsr (t : Thread) (k : Nat) (x : Word) : Thread :=
  match k with
  | 2 => { t with draw := setHalf false t.draw x }
  | 3 => { t with draw := setHalf true t.draw x }
  | 4 =>
    let rsp := x &&& 0xFFFFFFF8#32
    { t with rsp := rsp, unsure := if rsp = t.rsp then t.unsure else max t.unsure (t.depth - 8) }
  | 5 => { t with fpctl := x &&& fpctlMask }
  | 6 => { t with fpflags := x &&& fpflagsMask }
  | 7 => { t with epcd := setHalf false t.epcd x }
  | 8 => { t with epcd := setHalf true t.epcd x }
  | 9 => { t with epcl := setHalf false t.epcl x }
  | 10 => { t with epcl := setHalf true t.epcl x }
  | 11 => { t with cause := x }
  | 12 => { t with tinst := x }
  | 13 => { t with tval := setHalf false t.tval x }
  | 14 => { t with tval := setHalf true t.tval x }
  | 15 => { t with tframe := x &&& 0xFFFFFFC0#32 }
  | _ => t

/-- A bit of a predicate register file. -/
def predBit (p : BitVec 8) (n : Nat) : Bool := p.getLsbD n

/-- A predicate register file with one bit written; predicate 0 stays true (R105). -/
def setPred (p : BitVec 8) (n : Nat) (b : Bool) : BitVec 8 :=
  if n = 0 then p
  else if b then p ||| BitVec.ofNat 8 (2 ^ n) else p &&& ~~~(BitVec.ofNat 8 (2 ^ n))

/-- The stored value of a register. -/
def Team.peek (t : Team) : RegId → DWord
  | .v g l n => match t.thread? g l with
    | some x => (sget n x.v).setWidth 64
    | none => 0
  | .p g l n => match t.thread? g l with
    | some x => if predBit x.p n then 1 else 0
    | none => 0
  | .t g l k => match t.thread? g l with
    | some x => (x.tsr t.levels.length k).setWidth 64
    | none => 0
  | .s g n => match t.group? g with
    | some x => (sget n x.s).setWidth 64
    | none => 0
  | .q g n => match t.group? g with
    | some x => if predBit x.q n then 1 else 0
    | none => 0
  | .m g n => match t.group? g with
    | some x => sget n x.m
    | none => 0
  | .sr g _ => match t.group? g with
    | some x => x.tvec
    | none => 0

/-- The team with a register's stored value replaced; `s0`, `p0` and `q0` discard the write (R105). -/
def Team.poke (t : Team) (r : RegId) (x : DWord) : Team :=
  match r with
  | .v g l n => t.modThread g l fun th => { th with v := sput n (x.setWidth 32) th.v }
  | .p g l n => t.modThread g l fun th => { th with p := setPred th.p n (x != 0) }
  | .t g l k => t.modThread g l fun th => th.setTsr k (x.setWidth 32)
  | .s g n => if n = 0 then t else t.modGroup g fun gr => { gr with s := sput n (x.setWidth 32) gr.s }
  | .q g n => t.modGroup g fun gr => { gr with q := setPred gr.q n (x != 0) }
  | .m g n => t.modGroup g fun gr => { gr with m := sput n x gr.m }
  | .sr g _ => t.modGroup g fun gr => { gr with tvec := x }

/-! ## Latency windows (R48, R49, R107) -/

/-- Is the result still to come at a cycle? -/
def Window.pending (w : Window) (now : Nat) : Bool := match w.ready with
  | none => true
  | some t => now < t

/-- Is a register empty: a full/empty producer has not written it (R107)? -/
def Team.isEmpty (t : Team) (r : RegId) : Bool := t.windows.any fun w => w.reg == r && w.ready.isNone

/-- Is a result of any kind still to come for a register? -/
def Team.isPending (t : Team) (now : Nat) (r : RegId) : Bool := t.windows.any fun w => w.reg == r && w.pending now

/-- A number for a register, to index free choices. -/
def regCode : RegId → Nat
  | .v g l n => ((g * 64 + l) * 128 + n) * 8
  | .p g l n => ((g * 64 + l) * 128 + n) * 8 + 1
  | .t g l n => ((g * 64 + l) * 128 + n) * 8 + 2
  | .s g n => (g * 128 + n) * 8 + 3
  | .q g n => (g * 128 + n) * 8 + 4
  | .m g n => (g * 128 + n) * 8 + 5
  | .sr g n => (g * 1024 + n) * 8 + 6

/-- The value a read returns: the stored one, or inside a fixed-latency window an undefined choice of the old and the new
(R49; log entry 4). -/
def State.peekReg (s : State) (t : Team) (r : RegId) : DWord :=
  match t.windows.find? fun w => w.reg == r && w.ready.isSome && w.pending s.now with
  | some w => if Config.freeBit s.fresh (regCode r) then t.peek r else w.old
  | none => t.peek r

/-- The value that has landed in a register: inside its windows the value before the first of them. -/
def Team.landed (t : Team) (now : Nat) (r : RegId) : DWord :=
  match t.windows.find? fun w => w.reg == r && w.pending now with
  | some w => w.old
  | none => t.peek r

/-- Writes that discard their value (R105). -/
def RegId.discards : RegId → Bool
  | .s _ 0 => true
  | .p _ _ 0 => true
  | .q _ 0 => true
  | _ => false

/-- A write with a fixed latency: the stored value changes and a window opens (R48). -/
def Team.write (now lat : Nat) (t : Team) (w : RegId × DWord) : Team :=
  if w.1.discards then t
  else
    let t' := t.poke w.1 w.2
    if lat = 0 then t'
    else { t' with windows := t'.windows ++ [{ reg := w.1, old := t.peek w.1, ready := some (now + lat) }] }

/-- Mark a register empty (R107). -/
def Team.markEmpty (t : Team) (r : RegId) : Team :=
  if r.discards || t.isEmpty r then t
  else { t with windows := t.windows ++ [{ reg := r, old := t.peek r, ready := none }] }

/-- A full/empty producer writes its destination: the register is full (R107). -/
def Team.fill (t : Team) (w : RegId × DWord) : Team :=
  { t.poke w.1 w.2 with windows := t.windows.filter fun x => !(x.reg == w.1 && x.ready.isNone) }

/-- Mark a register full without writing it (R131, R201). -/
def Team.unmark (t : Team) (r : RegId) : Team :=
  { t with windows := t.windows.filter fun x => !(x.reg == r && x.ready.isNone) }

/-- Has a thread any empty register (R108)? -/
def Team.threadEmpty (t : Team) (gid lane : Nat) : Bool :=
  t.windows.any fun w => w.ready.isNone && (match w.reg with
    | .v g l _ => g == gid && l == lane
    | _ => false)

/-! ## Reading operands -/

/-- Vector register `n` of a thread (R103). -/
def State.rdV (s : State) (t : Team) (g l n : Nat) : Word := (s.peekReg t (.v g l n)).setWidth 32

/-- Vector pair at `n` (R104). -/
def State.rdV2 (s : State) (t : Team) (g l n : Nat) : DWord := s.rdV t g l (n + 1) ++ s.rdV t g l n

/-- Predicate `n` of a thread (R105). -/
def State.rdP (s : State) (t : Team) (g l n : Nat) : Bool := n = 0 || s.peekReg t (.p g l n) != 0

/-- Scalar source field `n` of a group: `s0` reads zero and `s63` is the literal (R37, R105). -/
def State.rdS (s : State) (t : Team) (g n : Nat) : Word :=
  if n = 0 then 0 else if n = 63 then s.cur.lit else (s.peekReg t (.s g n)).setWidth 32

/-- Scalar pair named by `2 k`: the pair `s0:s1` reads zero (R74, R105). -/
def State.rdS2 (s : State) (t : Team) (g k : Nat) : DWord :=
  if k = 0 then 0 else (s.peekReg t (.s g (2 * k + 1))).setWidth 32 ++ (s.peekReg t (.s g (2 * k))).setWidth 32

/-- Uniform predicate `n` (R105). -/
def State.rdQ (s : State) (t : Team) (g n : Nat) : Bool := n = 0 || s.peekReg t (.q g n) != 0

/-- Lane mask `n` (R163). -/
def State.rdM (s : State) (t : Team) (g n : Nat) : DWord := s.peekReg t (.m g n)

/-- The numbers under which the windows stand of what an `SSRR` takes: the register; for the high number of a pair its read latch
(0x208, 0x210, 0x212), and with `tagerrlo` the high half of the tag errors (0x213), which it latches; these numbers are the
model's own (R111). -/
def srTaken (n : Nat) : List Nat := match n with
  | 0x009 => [0x208]
  | 0x011 => [0x210]
  | 0x013 => [0x212]
  | 0x012 => [0x012, 0x213]
  | _ => [n]

/-- The window of an `SSRW` of a special register that has not landed: of the group's own, or for a team register of any group of
the team (R106, R110, R111). -/
def State.srWindow (s : State) (t : Team) (gid n : Nat) : Option Window :=
  let ofTeam := n == 0x012 || n == 0x213 || n == 0x032
  t.windows.find? fun w => w.pending s.now && (match w.reg with
    | .sr g k => k == n && (g == gid || ofTeam)
    | _ => false)

/-- `sr.tvec` as a trap uses it: within the latency of an `SSRW` of `tvechi` an undefined choice of the old and the new address (R49,
R111; log entry 4); where the core interlocks, the new one (R51, R107). -/
def State.tvecNow (s : State) (t : Team) (g : Group) : DWord := match s.srWindow t g.gid 0x119 with
  | some w => if s.interlocks t || Config.freeBit s.fresh (regCode (.sr g.gid 0x119)) then g.tvec else w.old
  | none => g.tvec

/-- Writes of a scalar pair named by `2 k`: the pair `s0:s1` is discarded whole (R105). -/
def pairWrites (g k : Nat) (x : DWord) : List (RegId × DWord) :=
  if k = 0 then [] else [(.s g (2 * k), (x.setWidth 32).setWidth 64), (.s g (2 * k + 1), x >>> 32)]

/-- Writes of `n` vector registers from `d`. -/
def quadWrites (g l d : Nat) (xs : List Word) : List (RegId × DWord) :=
  xs.zipIdx.map fun p => (.v g l (d + p.2), p.1.setWidth 64)

/-! ## The registers each word names -/

/-- A register a word names, before it is taken for a thread or a group. -/
inductive Ref where
  | v (n : Nat)
  | p (n : Nat)
  | t (k : Nat)
  | s (n : Nat)
  | q (n : Nat)
  | m (n : Nat)
  | sr (n : Nat)
  deriving DecidableEq, Repr

/-- Pipe classes of R31 Table 5. -/
inductive Cls where
  | va
  | vf
  | xt
  | sc
  | me
  | tl
  | ct
  | free
  deriving DecidableEq, Repr

/-- Pipe class, result latency (R48 Table 7), and the registers a word reads and writes. -/
structure Uses where
  cls : Cls
  lat : Nat
  rd : List Ref
  wr : List Ref
  deriving DecidableEq, Repr

/-- Vector registers `n` to `n + k - 1`. -/
def vs (n k : Nat) : List Ref := (upFrom n k).map Ref.v

/-- Scalar source: `s0` and the literal are no registers. -/
def sOf (n : BitVec 6) : List Ref := if n = 0 || n = 63 then [] else [.s n.toNat]

/-- Scalar pair of number `2 k`; the pair `s0:s1` is no register. -/
def sPair (k : BitVec 5) : List Ref := if k = 0 then [] else [.s (2 * k.toNat), .s (2 * k.toNat + 1)]

/-- Predicate, unless it is `p0`. -/
def pOf (n : BitVec 3) : List Ref := if n = 0 then [] else [.p n.toNat]

/-- Uniform predicate, unless it is `q0`. -/
def qOf (n : BitVec 3) : List Ref := if n = 0 then [] else [.q n.toNat]

/-- Registers of a data field by width code of R198. -/
def widthRegs (w : Nat) : Nat := if w = 3 then 2 else if w = 4 then 4 else 1

/-- The offset register of a memory word: 127 means none (R198). -/
def viOf (i : BitVec 7) : List Ref := if i = 127 then [] else [.v i.toNat]

def Uses.va (lat : Nat) (rd wr : List Ref) : Uses := { cls := .va, lat := lat, rd := rd, wr := wr }
def Uses.vf (rd wr : List Ref) : Uses := { cls := .vf, lat := Config.latVF, rd := .t 5 :: rd, wr := wr }
def Uses.xt (lat : Nat) (rd wr : List Ref) : Uses := { cls := .xt, lat := lat, rd := rd, wr := wr }
def Uses.sc (lat : Nat) (rd wr : List Ref) : Uses := { cls := .sc, lat := lat, rd := rd, wr := wr }
def Uses.me (rd wr : List Ref) : Uses := { cls := .me, lat := 0, rd := rd, wr := wr }
def Uses.tl (rd wr : List Ref) : Uses := { cls := .tl, lat := 0, rd := rd, wr := wr }
def Uses.ct (rd wr : List Ref) : Uses := { cls := .ct, lat := 0, rd := rd, wr := wr }

/-- Registers of the operand of an atomic: the pair of `add.i64`, and `d` and `d+1` for `cas` (R200). -/
def atomRegs (d : BitVec 7) (o : BitVec 4) : List Ref := if o = 1 || o = 10 then vs d.toNat 2 else vs d.toNat 1

/-- The operands of each word (02_encoding R43, R48, R54; the chapters of the words). -/
def usesOf (i : Instr) : Uses :=
  match i with
  | .iadd d a b | .isub d a b | .and d a b | .or d a b | .xor d a b | .shl d a b | .shr d a b | .sar d a b
  | .iminI32 d a b | .imaxI32 d a b | .iminN32 d a b | .imaxN32 d a b | .iaddsI32 d a b =>
    .va Config.latVA [.v a.toNat, .v b.toNat] [.v d.toNat]
  | .imul d a b | .imulhI32 d a b | .imulhN32 d a b => .va Config.latMul [.v a.toNat, .v b.toNat] [.v d.toNat]
  | .iaddVs d a s | .isubVs d a s | .andVs d a s | .orVs d a s | .xorVs d a s | .shlVs d a s | .shrVs d a s | .sarVs d a s
  | .iminI32Vs d a s | .imaxI32Vs d a s | .iminN32Vs d a s | .imaxN32Vs d a s | .iaddsI32Vs d a s =>
    .va Config.latVA (.v a.toNat :: sOf s) [.v d.toNat]
  | .imulVs d a s | .imulhI32Vs d a s | .imulhN32Vs d a s => .va Config.latMul (.v a.toNat :: sOf s) [.v d.toNat]
  | .movs d s => .va Config.latVA (sOf s) [.v d.toNat]
  | .imacs d a s => .va Config.latMul (.v a.toNat :: .v d.toNat :: sOf s) [.v d.toNat]
  | .iaddi d a _ | .andi d a _ | .ori d a _ | .xori d a _ | .shli d a _ | .shri d a _ | .sari d a _ =>
    .va Config.latVA [.v a.toNat] [.v d.toNat]
  | .movi d _ => .va Config.latVA [] [.v d.toNat]
  | .setp p t a b _ =>
    let k := if t = 5 || t = 6 then 2 else 1
    .va Config.latVA (.t 5 :: vs a.toNat k ++ vs b.toNat k) (pOf p)
  | .pand d a b _ _ | .por d a b _ _ | .pxor d a b _ _ => .va Config.latVA (pOf a ++ pOf b) (pOf d)
  | .pmov d a _ => .va Config.latVA (pOf a) (pOf d)
  | .pfromm d m => .va Config.latVA [.m m.toNat] (pOf d)
  | .sel d a b _ p => .va Config.latVA (.v a.toNat :: .v b.toNat :: pOf p) [.v d.toNat]
  | .fadd d a b | .fsub d a b | .fmul d a b | .fmin d a b | .fmax d a b | .hadd2 d a b | .hmul2 d a b | .badd2 d a b
  | .bmul2 d a b | .hmin2 d a b | .hmax2 d a b => .vf [.v a.toNat, .v b.toNat] [.v d.toNat]
  | .ffma d a b | .hfma2 d a b | .bfma2 d a b => .vf [.v a.toNat, .v b.toNat, .v d.toNat] [.v d.toNat]
  | .fadds d a s | .fsubs d a s | .fmuls d a s | .fmins d a s | .fmaxs d a s => .vf (.v a.toNat :: sOf s) [.v d.toNat]
  | .ffmas d a s | .hfma2s d a s | .bfma2s d a s => .vf (.v a.toNat :: .v d.toNat :: sOf s) [.v d.toNat]
  | .cvtF32I32 d a _ | .cvtF32N32 d a _ | .cvtI32F32 d a _ _ | .cvtN32F32 d a _ _ | .cvtF16F32 d a _ _ | .cvtF32F16 d a
  | .cvtBf16F32 d a _ _ | .cvtF32Bf16 d a | .cvtDm8F32 d a _ | .cvtF32Dm8 d a _ | .cvtE4m3F32 d a _ _ | .cvtF32E4m3 d a
  | .cvtE5m2F32 d a _ _ | .cvtF32E5m2 d a | .fabs d a | .fneg d a | .popc d a | .clz d a | .brev d a | .sx8 d a | .sx16 d a
  | .zx8 d a | .zx16 d a => .vf [.v a.toNat] [.v d.toNat]
  | .rcp d a | .rsq d a | .sqrt d a | .exp2 d a | .log2 d a | .sinrv d a | .cosrv d a | .tanh d a =>
    .xt 0 [.t 5, .v a.toNat] [.v d.toNat]
  | .mov d a => .va Config.latVA [.v a.toNat] [.v d.toNat]
  | .rfal a k | .rlane _ a k => .va 0 [.v a.toNat] (sOf k)
  | .laneid d | .tid d => .va Config.latVA [] [.v d.toNat]
  | .rdtsr d k => .va 0 [.t k.toNat] [.v d.toNat]
  | .wrtsr a k => .va Config.latVA [.v a.toNat] [.t k.toNat]
  | .shfl d a b | .shflup d a b | .shfldn d a b | .shflx d a b => .xt Config.latColl [.v a.toNat, .v b.toNat] [.v d.toNat]
  | .vany p a | .vall p a => .xt Config.latColl (pOf a) (pOf p)
  | .ballot s a => .xt Config.latColl (pOf a) (sPair (BitVec.ofNat 5 (s.toNat / 2)))
  | .redaddI32 d a | .redaddF32 d a | .redmaxF32 d a | .redminF32 d a | .scanaddI32 d a | .scanaddF32 d a =>
    .xt Config.latColl [.v a.toNat] [.v d.toNat]
  | .rread d _ b => .va 0 [.v b.toNat] [.v d.toNat]
  | .rwrite d _ b => .va Config.latVA [.v b.toNat, .v d.toNat] []
  | .rand d a s | .randf d a s => .xt 0 (.v a.toNat :: sPair s) [.v d.toNat]
  | .rand4 d a s => .xt 0 (.v a.toNat :: sPair s) (vs (4 * d.toNat) 4)
  | .sadd d a b | .ssub d a b | .sand d a b | .sor d a b | .sxor d a b | .sshl d a b | .sshr d a b | .ssar d a b
  | .sminI32 d a b | .smaxI32 d a b | .sminN32 d a b | .smaxN32 d a b => .sc Config.latSC (sOf a ++ sOf b) (sOf d)
  | .smul d a b | .smulhI32 d a b | .smulhN32 d a b => .sc Config.latSlowSC (sOf a ++ sOf b) (sOf d)
  | .smov d a => .sc Config.latSC (sOf a) (sOf d)
  | .sadd64 d a b | .ssub64 d a b => .sc Config.latSC (sPair a ++ sPair b) (sPair d)
  | .sshl64 d a b | .sshr64 d a b => .sc Config.latSC (sPair a ++ sOf b) (sPair d)
  | .smulw d a b => .sc Config.latSlowSC (sOf a ++ sOf b) (sPair d)
  | .saddi d a _ => .sc Config.latSC (sOf a) (sOf d)
  | .slui d _ => .sc Config.latSC [] (sOf d)
  | .saddi64 d a _ => .sc Config.latSC (sPair a) (sPair d)
  | .scmp q t a b _ =>
    let two := t = 5 || t = 6
    let f := fun (x : BitVec 6) => if two then sPair (BitVec.ofNat 5 (x.toNat / 2)) else sOf x
    .sc Config.latSC (f a ++ f b) (qOf q)
  | .qand d a b _ _ | .qor d a b _ _ | .qxor d a b _ _ => .sc Config.latSC (qOf a ++ qOf b) (qOf d)
  | .qmov d a _ => .sc Config.latSC (qOf a) (qOf d)
  | .ssrr s r => .sc Config.latSlowSC ((srTaken r.toNat).map Ref.sr) (sOf s)
  | .ssrw s r => .sc Config.latSlowSC (if r = 0x019 then .sr 0x118 :: sOf s else sOf s) [.sr r.toNat]
  | .join m | .leave m => .sc Config.latSC [] [.m m.toNat]
  | .waitm _ => .sc 0 [] []
  | .mset m s => .sc Config.latSC (sPair s) [.m m.toNat]
  | .mget m s => .sc Config.latSC [.m m.toNat] (sPair s)
  | .mand m n | .mor m n | .mandn m n => .sc Config.latSC [.m m.toNat, .m n.toNat] [.m m.toNat]
  | .mpopc m s => .sc Config.latSC [.m m.toNat] (sOf s)
  | .mself s => .sc Config.latSC [] (sPair s)
  | .bra _ | .call _ => .ct [] []
  | .brp _ p _ => .ct (pOf p) []
  | .brq _ q _ => .ct (qOf q) []
  | .callr a | .jmpr a => .ct (vs (2 * a.toNat) 2) []
  | .ret | .exit | .reformG | .reformT | .yield => .ct [] []
  | .ld v s i w _ => .me (sPair s ++ viOf i) (vs v.toNat (widthRegs w.toNat))
  | .st v s i w _ => .me (sPair s ++ viOf i ++ vs v.toNat (widthRegs w.toNat)) []
  | .atom d s i o _ => .me (sPair s ++ viOf i ++ atomRegs d o) (if o = 1 then vs d.toNat 2 else [.v d.toNat])
  | .red d s i o _ => .me (sPair s ++ viOf i ++ atomRegs d o) []
  | .fenceAcq _ | .fenceRel _ | .fenceAr _ | .drainNt _ | .aliasfence _ => .me [] []
  | .prefetch s i | .wbl s i | .invl s i => .me (sPair s ++ viOf i) []
  | .tchain d s => { cls := .tl, lat := Config.latSlowSC, rd := sPair s, wr := sOf d }
  | .tagwaitAll s | .tagwaitAny s | .tagclr s => .tl (sPair s) []
  | .tagfirst d s => .tl (sPair s) (sOf d)
  | .qpop v _ => .tl [] [.v v.toNat]
  | .tcancel s | .orelease s => .tl (sOf s) []
  | .oclaim d => .tl [] (sOf d)
  | .ofence | .mwait _ | .mzero _ | .mma _ _ _ _ _ _ => .tl [] []
  | .mdrain _ s | .mload _ s => .tl (sPair s) []
  | .cvset _ s => .tl (sOf s) []
  | .arrive _ _ d => .ct [] (sOf d)
  | .waitb _ _ k d => .ct (sOf k) (sOf d)
  | .sync _ _ d => .ct [] (sOf d)
  | .arrivex _ _ k d => .ct (sOf k) (sOf d)
  | .tkwait | .tkpass | .tkdone | .elseby | .elseerror | .accept | .reject | .convleave => .ct [] []
  | .ensure s | .convjoin s => .ct (sOf s) []
  | .rbstat d => .ct [] (sOf d)
  | .fork d s => .ct (sOf s) (sOf d)
  | .wdone s => .ct (sOf s) []
  | .choose d s => .ct (sOf s) (sOf d)
  | .wabort => .ct [] []
  | .wstat d s => .ct (sOf s) (sPair d)
  | .migrate _ | .eqpt _ => .ct [] []
  | .klaunch k q => .ct (sPair k ++ sOf q) []
  | .trap _ | .rtt | .bkpt => .ct [] []
  | .icinv k l => .ct (sPair k ++ sPair l) []
  | _ => { cls := .free, lat := 0, rd := [], wr := [] }

/-- The registers of a reference in the threads and groups of an issue. -/
def Ref.expand (r : Ref) (ms : List (Nat × Nat)) : List RegId :=
  let gs := uniq (ms.map (·.1))
  match r with
  | .v n => ms.map fun m => .v m.1 m.2 n
  | .p n => ms.map fun m => .p m.1 m.2 n
  | .t k => ms.map fun m => .t m.1 m.2 k
  | .s n => gs.map fun g => .s g n
  | .q n => gs.map fun g => .q g n
  | .m n => gs.map fun g => .m g n
  | .sr n => gs.map fun g => .sr g n

/-- Vector registers a word names by a direct number without reading or writing them: the base of a relative access, which R39
checks too (R115). -/
def basesOf (i : Instr) : List Ref := match i with
  | .rread _ a _ | .rwrite _ a _ => [.v a.toNat]
  | _ => []

/-- Has a word a destination whose write completes it (R26 Table 3)? `RWRITE` names its by an index (R115). -/
def hasDest (i : Instr) : Bool := !(usesOf i).wr.isEmpty || (match i with
  | .rwrite _ _ _ => true
  | _ => false)

/-- Is a word a lane collective (R167)? -/
def isCollective (i : Instr) : Bool := (usesOf i).cls == .xt && (usesOf i).lat == Config.latColl

/-- Does a word's result come through full/empty bits (R48 Table 7, R107)? -/
def fullEmpty (i : Instr) : Bool := (usesOf i).lat = 0 && !(usesOf i).wr.isEmpty

end Sys2Proof.Machine
end

