-- ==== Sys2Proof/Machine/Records.lean ====
section
/-! DEFINITION. Trap-queue records (R393 to R396, R458), the FAULTED state of a context (R392), and the two PCs of a record
(R35, R347). -/

namespace Sys2Proof.Machine

/-- Cause codes that are not faults of an access (R394 Table 5). -/
def cIllop : Nat := 0x01
def cIllpk : Nat := 0x02
def cRegbound : Nat := 0x03
def cFpx : Nat := 0x0A
def cEmptyreg : Nat := 0x0B
def cShaperec : Nat := 0x0C
def cSlot : Nat := 0x0D
def cBartimeout : Nat := 0x0E
def cClusterexit : Nat := 0x0F
def cRbexhaust : Nat := 0x10
def cViewexhaust : Nat := 0x11
def cEscape : Nat := 0x12
def cLostpermit : Nat := 0x13
def cSwtrap : Nat := 0x14
def cBkpt : Nat := 0x15
def cRstack : Nat := 0x16
def cMigfail : Nat := 0x17
def cDrainover : Nat := 0x18
def cTagerr : Nat := 0x1A
def cBadtarget : Nat := 0x1B

/-- A lane mask with the given lanes (R393). -/
def laneMask (ls : List Nat) : DWord := ls.foldl (fun m l => m ||| BitVec.ofNat 64 (2 ^ l)) 0

/-- Slots of the trap queue that hold no unread record (R395). -/
def Context.room (c : Context) : Nat := 2 ^ c.tqlog2 - (c.tqwrite - c.tqread).toNat

/-- The 64 bytes of a record (R393 Table 4). -/
def Record.bytes (r : Record) (ctx : Nat) : List Byte :=
  let flags := (if r.replayable then 1 else 0) + (if r.fatal then 2 else 0) + (if r.approx then 4 else 0)
    + (if r.enc then 8 else 0)
  leBytes 1 r.cause ++ leBytes 1 flags ++ leBytes 1 ctx ++ leBytes 1 r.queue ++ leBytes 1 r.group ++ leBytes 1 0
    ++ leBytes 2 r.launch ++ leBytes 4 r.team ++ leBytes 4 r.word ++ leBytes 8 r.lanes.toNat ++ leBytes 8 r.pcd.toNat
    ++ leBytes 8 r.pcl.toNat ++ leBytes 8 r.addr.toNat ++ (r.extra ++ List.replicate 16 0).take 16

/-- Raise an interrupt vector of a context; 15 raises nothing (R396). -/
def State.raise (s : State) (c vector : Nat) : State :=
  if vector = 15 then s else (s.modCtx c fun x => { x with vectors := x.vectors ++ [vector] }).emit (.msix c vector)

/-- The context enters FAULTED: its queues are HALTED, and its launches that are not done end FAULTED (R357, R391, R392). -/
def State.faultContext (s : State) (c : Nat) : State :=
  let end_ : Launch → Launch := fun l => if l.st == .done then l else { l with st := .faulted }
  ({ s with launches := updIf (fun l => l.ctx == c) end_ s.launches } : State).modCtx c fun y =>
    { y with st := .faulted, queues := y.queues.map fun q => if q.st == .disabled then q else { q with st := .halted } }

/-- Does a context run its packets and raise events: it is not FAULTED or TERMINATED (R392, R395)? -/
def Context.recording (c : Context) : Bool :=
  match c.st with
  | .ready | .running | .preempting | .saved | .created => true
  | _ => false

/-- Has a context become FAULTED in the cycle under way, so that its threads are still coming to their next boundary and the events
they raise are written (R392, R395)? -/
def Context.faultedNow (c : Context) : Bool := c.st == .faulted && c.raised.any fun e => e.any fun p => p.1.fatal

/-- Is an event of a context recorded (R395)? -/
def Context.raises (c : Context) : Bool := c.recording || c.faultedNow

/-- Write one record into the next slot of the ring, then advance TQWRITE (R393). -/
def State.storeRecord (s : State) (c : Context) (r : Record) : State :=
  let i := c.tqwrite.toNat % 2 ^ c.tqlog2
  { s with mem := memWrite (c.tqbase + 64 * i) (r.bytes c.num) s.mem }.modCtx c.num fun x => { x with tqwrite := x.tqwrite + 1 }

/-- FATALSUM of a fatal event whose record does not fit (R395). -/
def Record.summary (r : Record) : List Byte :=
  let flags := 2 + (if r.approx then 4 else 0) + (if r.enc then 8 else 0)
  leBytes 1 r.cause ++ leBytes 1 flags ++ leBytes 2 0 ++ leBytes 4 r.team ++ leBytes 8 r.pcd.toNat

/-- Note one record of an event: a replayable one is pending from now on, under a key of its own (R188, R395). -/
def State.noteRecord (s : State) (cn : Nat) (r : Record) (b : Option Blocked) : (Record × Option Nat) × State :=
  if r.fatal || !r.replayable then ((r, none), s)
  else
    let (k, s) := s.newKey
    let p : PendRec := { key := k, idx := none, record := r, blocked := b.getD (.delivery 0) }
    ((r, some k), s.modCtx cn fun x => { x with pending := x.pending ++ [p] })

/-- An event of a context, with its records in order: they are written when the cycle ends (R393); a fatal one takes the context to
FAULTED (R395). -/
def State.putRecords (s : State) (cn : Nat) (rs : List (Record × Option Blocked)) : State :=
  match s.ctx? cn with
  | none => s
  | some c =>
    if !c.raises || rs.isEmpty then s
    else
      let (e, s) := rs.foldl (fun (a : List (Record × Option Nat) × State) p =>
        let (x, s) := a.2.noteRecord cn p.1 p.2
        (a.1 ++ [x], s)) ([], s)
      let s := s.modCtx cn fun x => { x with raised := x.raised ++ [e] }
      if c.recording && rs.any fun p => p.1.fatal then s.faultContext cn else s

/-- One record: written, held, dropped or summarised as R395 gives. -/
def State.putRecord (s : State) (cn : Nat) (r : Record) (p : Option PendRec) : State :=
  match s.ctx? cn with
  | none => s
  | some c =>
    if r.fatal then
      if c.room ≥ 1 then s.storeRecord c r
      else s.modCtx cn fun x => { x with fatalsum := some (x.fatalsum.getD r.summary) }
    else if r.replayable then
      match p with
      | none => s
      | some p =>
        let fits := decide (c.room > 4) && p.idx.isNone && c.pending.all fun p => p.idx.isSome
        let s := if fits then s.storeRecord c r else s
        s.modCtx cn fun x => { x with pending := x.pending ++ [{ p with idx := if fits then some c.tqwrite.toNat else p.idx }] }
    else if c.room > 4 then s.storeRecord c r
    else s.modCtx cn fun x => { x with dropped := if x.dropped = 0xFFFFFFFF#32 then x.dropped else x.dropped + 1 }

/-- The head record of a `BARTIMEOUT` event says how many of its continuations there is room for: they leave the last 4 slots free
(R295, R395). -/
def Context.countConts (c : Context) (e : List (Record × Option Nat)) : List (Record × Option Nat) := match e with
  | (h, k) :: rest =>
    if h.cause = cBartimeout && !rest.isEmpty then
      ({ h with extra := h.extra.take 14 ++ leBytes 1 (min rest.length (c.room - 5)) ++ h.extra.drop 15 }, k) :: rest
    else e
  | [] => []

/-- The records of one event are written in order; TQVEC is raised once, after the last, if the first went into an empty queue or one
is fatal (R393, R396). -/
def State.writeEvent (s : State) (cn : Nat) (ps : List PendRec) (e : List (Record × Option Nat)) : State :=
  match s.ctx? cn with
  | none => s
  | some c =>
    let s := (c.countConts e).foldl (fun s x => s.putRecord cn x.1 (x.2.bind fun k => ps.find? fun p => p.key == k)) s
    let wrote := match s.ctx? cn with
      | some c' => c'.tqwrite != c.tqwrite
      | none => false
    if wrote && (c.tqread == c.tqwrite || e.any fun p => p.1.fatal) then s.raise cn c.tqvec else s

/-- Place of a record among those of one cycle: team, none first, then gid, then its lowest lane, then its cause (R393). -/
def Record.place (r : Record) : List Nat :=
  let lane := ((List.range 64).find? fun l => r.lanes.getLsbD l).map fun l => l + 1
  [if r.team = 0xFFFFFFFF then 0 else r.team + 1, r.group, lane.getD 0, r.cause]

/-- Order of places. -/
def placeLe : List Nat → List Nat → Bool
  | a :: as, b :: bs => a < b || (a == b && placeLe as bs)
  | [], _ => true
  | _ :: _, [] => false

/-- Order of the events of one cycle: each is placed by its first record; equal ones keep the order in which they were raised
(R393). -/
def eventLe (a b : List (Record × Option Nat)) : Bool :=
  let place := fun (e : List (Record × Option Nat)) => match e with
    | p :: _ => p.1.place
    | [] => []
  placeLe (place a) (place b)

/-- The events that a context has raised in the cycle are written, in their order; FAULTVEC follows where one of them was fatal (R393,
R396). -/
def State.writeRaised (s : State) (cn : Nat) : State :=
  match s.ctx? cn with
  | none => s
  | some c =>
    if c.raised.isEmpty then s
    else
      let keys := c.raised.flatMap fun e => e.filterMap fun p => p.2
      let ps := c.pending.filter fun p => keys.contains p.key
      let s := s.modCtx cn fun x => { x with raised := [], pending := x.pending.filter fun p => !keys.contains p.key }
      let s := (sortBy eventLe c.raised).foldl (fun s e => s.writeEvent cn ps e) s
      if c.raised.any fun e => e.any fun p => p.1.fatal then s.raise cn c.faultvec else s

/-- Held records are written in order as room appears (R395). -/
def State.writeHeld (s : State) (cn : Nat) : Nat → State
  | 0 => s
  | fuel + 1 =>
    match s.ctx? cn with
    | none => s
    | some c =>
      match c.pending.find? fun p => p.idx.isNone with
      | none => s
      | some p =>
        if c.room > 4 then
          let s := s.storeRecord c p.record
          let s := s.modCtx cn fun x =>
            { x with pending := updIf (fun y => y.key == p.key) (fun y => { y with idx := some c.tqwrite.toNat }) x.pending }
          s.writeHeld cn fuel
        else s

/-- The equivalence record a thread last passed (R347). -/
def Image.pointOf (i : Image) (p : Option Nat) : Option EqRec := p.bind fun id => i.equiv.find? fun e => e.id == id

/-- D-PC and L-PC of a place: the running encoding's is exact, the other is that of the last equivalence point passed, or
the kernel's entry (R35, R347). -/
def State.bothPcs (s : State) (t : Team) (point : Option Nat) (pc : DWord) : DWord × DWord :=
  match s.imageOf t with
  | none => (pc, pc)
  | some i =>
    let e := i.pointOf point
    match t.kind with
    | .dcore => (pc, match e with
      | some r => r.lpc
      | none => i.lbase)
    | .lcore => (match e with
      | some r => r.dpc
      | none => i.dbase + 4, pc)

/-- A record about a team, its group, lanes and PC filled in (R393). -/
def State.teamRecord (s : State) (t : Team) (cause group : Nat) (lanes : DWord) (word : Nat) (pcs : DWord × DWord)
    (addr : DWord) : Record :=
  let l := s.launchOf t
  { cause := cause, replayable := false, fatal := false, approx := true, enc := t.kind == .lcore,
    queue := match l with
      | some x => x.queue
      | none => 0xFF,
    group := group,
    launch := match l with
      | some x => x.ring % 65536
      | none => 0xFFFF,
    team := t.index, word := word, lanes := lanes, pcd := pcs.1, pcl := pcs.2, addr := addr, extra := [] }

/-- A record that names no thread (R393). -/
def plainRecord (cause : Nat) : Record :=
  { cause := cause, replayable := false, fatal := false, approx := false, enc := false, queue := 0xFF, group := 0xFF,
    launch := 0xFFFF, team := 0xFFFFFFFF, word := 0, lanes := 0, pcd := 0, pcl := 0, addr := 0, extra := [] }

/-- EXTRA of R458: ORIGIN, four bytes, bytes 7:4, REASON and level. -/
def extra458 (origin b1 b32 b74 reason level : Nat) : List Byte :=
  leBytes 1 origin ++ leBytes 1 b1 ++ leBytes 2 b32 ++ leBytes 4 b74 ++ leBytes 1 reason ++ leBytes 1 level ++ leBytes 6 0

/-- EXTRA of a memory fault of a word's lanes (R458). -/
def AFault.extra (f : AFault) : List Byte :=
  extra458 0 0 0 0 (if f.cause = cPageattr then f.reason else 0)
    (if f.cause = cPageattr && f.reason = 0 then f.level else 0)

/-- All live lanes of a team, ORed over its groups (R314, R345). -/
def Team.liveLanes (t : Team) : DWord := laneMask (t.groups.flatMap fun g => g.threads.map fun x => x.lane)

end Sys2Proof.Machine
end

