-- ==== Sys2Proof/Machine/Ops.lean ====
section
/-! DEFINITION. The shared operations of the meanings: squads and PCs, taking a thread trap and returning from one (R397 to
R399), faults of lane accesses (R186 to R188), failure of a routine (R311), and words performed for each thread or each
group (R145, R150). -/

namespace Sys2Proof.Machine

/-! ## Squads -/

/-- Take threads out of every squad of a team; a squad without threads ends (R146). -/
def Team.leaveSquads (t : Team) (ms : List (Nat × Nat)) : Team :=
  let qs := t.squads.map fun q => { q with members := q.members.filter (fun m => !ms.contains m) }
  { t with squads := qs.filter (fun q => !q.members.isEmpty) }

/-- The last cycle of a core's own that has begun: a squad formed now issues in a later one (R6, R27). -/
def State.ownNow (s : State) (t : Team) : Nat := match t.kind with
  | .dcore => s.now
  | .lcore => s.ownCycle t.core + s.slots t.core - 1

/-- The same for a team by its key. -/
def State.ownNowOf (s : State) (team : Nat) : Nat := match s.team? team with
  | some t => s.ownNow t
  | none => s.now

/-- A new squad of a team (R146), placed last in the round robin (R147). -/
def State.addSquad (s : State) (team : Nat) (ms : List (Nat × Nat)) (t0 tlast : Nat) (packet : Option DWord)
    (line : List Word := []) : State :=
  if ms.isEmpty then s
  else
    let (k, s) := s.newKey
    let q : Squad :=
      { key := k, members := sortBy threadLe ms, wait := none, t0 := t0, tlast := tlast, packet := packet, line := line,
        pass := [], held := [], popWait := none, since := [], holds := false, parted := false,
        join := none }
    { s.modTeam team (fun t => { t with squads := t.squads ++ [q] }) with run := s.run ++ [(team, k)] }

/-- Form new squads of the threads given, one for each PC they stand at (R148). -/
def State.squadsAt (s : State) (team : Nat) (ms : List (Nat × Nat)) (t0 tlast : Nat) (packet : Option DWord)
    (line : List Word := []) : State :=
  match s.team? team with
  | none => s
  | some t =>
    let pcs := uniq (ms.filterMap fun m => (t.thread? m.1 m.2).map fun x => x.pc)
    pcs.foldl (fun s pc =>
      s.addSquad team (ms.filter fun m => ((t.thread? m.1 m.2).map fun x => x.pc) == some pc) t0 tlast packet line) s

/-- After a word: when the threads of its squad stand at more than one PC, the squad keeps those at the word's next PC (or,
if there are none, those of its first thread) and the others form new squads (R148). -/
def State.splitSquad (s : State) (team sq : Nat) (next : DWord) : State :=
  match s.team? team with
  | none => s
  | some t =>
    match t.squad? sq with
    | none => s
    | some q =>
      let pcOf := fun (m : Nat × Nat) => match t.thread? m.1 m.2 with
        | some x => x.pc
        | none => 0
      let keep := if q.members.any fun m => pcOf m == next then next else match q.members with
        | m :: _ => pcOf m
        | [] => next
      let rest := q.members.filter fun m => pcOf m != keep
      if rest.isEmpty then s
      else (s.modTeam team fun t => t.leaveSquads rest).squadsAt team rest q.t0 q.tlast none

/-- Set the PC of threads. -/
def State.setPcs (s : State) (team : Nat) (ms : List (Nat × Nat)) (f : Nat → Thread → DWord) : State :=
  s.modTeam team fun t => t.modThreads ms fun g x => { x with pc := f g.gid x }

/-! ## Trays (R157, R158) -/

/-- Trays of a core (R157). -/
def trayCount (k : Kind) : Nat := match k with
  | .dcore => 64
  | .lcore => 16

/-- The lowest tray number that no team on the core uses; a team that stops for a save is still on it (R157). -/
def State.freeTray (s : State) (t : Team) : Option Nat :=
  let used := (s.teams.filter fun u => u.core == t.core && (u.st == .running || u.st == .stopping)).flatMap fun u =>
    u.trays.map fun y => y.num
  (List.range (trayCount t.kind)).find? fun n => !used.contains n

/-- File one thread at its PC: into the tray with that key, or a free one; `yielded` notes it as filed by `YIELD`. `none` when no
tray is free (R158, R161). -/
def State.file (s : State) (team gid lane : Nat) (perGroup yielded : Bool) : Option State :=
  match s.team? team with
  | none => some s
  | some t =>
    match t.thread? gid lane with
    | none => some s
    | some th =>
      let grp := if perGroup then some gid else none
      let late := if yielded then [(gid, lane)] else []
      match t.trays.find? fun y => y.pc == th.pc && y.group == grp with
      | some y =>
        some (s.modTeam team fun t => { t with trays := updIf (fun z => z.num == y.num) (fun z =>
          { z with held := z.held ++ [(gid, lane, s.now)], yielded := z.yielded ++ late }) t.trays })
      | none =>
        match s.freeTray t with
        | none => none
        | some n =>
          let y : Tray :=
            { num := n, pc := th.pc, group := grp, held := [(gid, lane, s.now)], yielded := late, aged := false }
          some (s.modTeam team fun t => { t with trays := t.trays ++ [y] })

/-- File threads under `.G` rules after a replay, a restore, a squash or a migration (R149, R226, R310, R343); where no tray
is free the threads of a group that stand at one PC stand ready as a squad of their own (log entry 10). -/
def State.refile (s : State) (team : Nat) (ms : List (Nat × Nat)) : State :=
  let (s, left) := ms.foldl (fun (p : State × List (Nat × Nat)) m =>
    match p.1.file team m.1 m.2 true false with
    | some s' => (s', p.2)
    | none => (p.1, p.2 ++ [m])) (s, [])
  (uniq (left.map (·.1))).foldl (fun s g => s.squadsAt team (left.filter fun m => m.1 == g) s.now (s.ownNowOf team) none) s

/-! ## Failure of a routine (R311) -/

/-- A failure at an open level: it and the levels inside it restore when the outstanding work has ended, and the level's next
routine follows (R310, R311). A level that has given its verdict and commits no longer fails. -/
def State.failLevel (s : State) (team depth code : Nat) : State :=
  let fail := fun (l : Level) =>
    if l.depth = depth then { l with st := .restoring, nextRoutine := l.routine + 1, mark := s.keys }
    else if l.depth > depth then { l with st := .restoring, mark := s.keys } else l
  let running := fun (l : Level) => l.depth == depth && l.st == .running
  s.modTeam team fun t => if t.levels.any running then { t with rbCause := code, levels := t.levels.map fail } else t

/-- The running routine of the innermost open level fails (R311). -/
def State.failRoutine (s : State) (team code : Nat) : State :=
  match s.team? team with
  | none => s
  | some t => s.failLevel team t.levels.length code

/-- Causes that inside an open block are failures of the routine, and their codes (R311 Table 5). -/
def failureCode (cause : Nat) : Option Nat :=
  if cause = cIntegrity then some 3
  else if cause = cEccunc then some 4
  else if cause = cFpx then some 5
  else if cause = cRegbound then some 6
  else none

/-! ## Parking on a page fault (R188) -/

/-- Records a context holds unwritten, at most 1,024 (R395). -/
def Context.heldCount (c : Context) : Nat := (c.pending.filter fun p => p.idx.isNone).length

/-- Park lanes (gid, lanes, record) of one word on replayable records at their PC, as one event; those for which no record can be held
stay at the word (R188, R393, R395). -/
def State.parkOn (s : State) (t : Team) (rs : List (Nat × List Nat × Record)) : State :=
  match s.ctxOf t with
  | none => s
  | some c =>
    let rs := rs.take (1024 - c.heldCount)
    if rs.isEmpty then s
    else
      let key := s.keys
      let s := s.putRecords t.ctx (rs.map fun x => ({ x.2.2 with replayable := true }, some (.lanes t.key x.1 x.2.1)))
      let s : State := { s with cur := { s.cur with parted := true } }
      rs.zipIdx.foldl (fun s x =>
        let ms := x.1.2.1.map fun l => (x.1.1, l)
        s.modTeam t.key fun t => (t.modThreads ms fun _ y => { y with park := some (.fault (key + x.2)) }).leaveSquads ms) s

/-! ## Taking a thread trap (R397, R398) -/

/-- The handler's PC for a group: `sr.tvec`, or on an L-core the PC the line table pairs with it; `none` when R398 escalates.
The flag says that `sr.tvec` is not zero. -/
def State.handlerPc (s : State) (t : Team) (tvec : DWord) : Option DWord :=
  if tvec = 0 then none
  else match t.kind with
    | .dcore => if tvec.toNat % 16 = 4 then some tvec else none
    | .lcore => (s.imageOf t).bind fun i => (i.lineMap.find? fun p => p.1 == tvec).map (·.2)

/-- The 64 bytes of a trap frame (R397 Table 7). -/
def frameBytes (th : Thread) (enc : Bool) : List Byte :=
  (List.range 8).flatMap (fun n => leBytes 4 (sget n th.v).toNat) ++ leBytes 1 (th.p ||| 1#8).toNat
    ++ leBytes 1 (if enc then 1 else 0) ++ leBytes 2 (th.cause.toNat % 512) ++ leBytes 4 th.tinst.toNat
    ++ leBytes 8 th.epcd.toNat ++ leBytes 8 th.epcl.toNat ++ leBytes 8 th.tval.toNat

/-- A write of a team's private memory counts as one of global memory: in the write signature of its innermost block or of its world
(R307, R319), and, where it is the HOLDING parent of rivals, as a commit outside their world (R325). -/
def State.privNoted (s : State) (team : Nat) (grains : List Nat) : State :=
  match s.team? team with
  | none => s
  | some t =>
    let gs := uniq grains
    let s := match t.base with
      | none => s
      | some b => s.modLam b fun l => { l with wsig := gs.foldl (fun r g => addGrain g r) l.wsig }
    if t.fork.any fun f => f.holding then
      let (k, s) := s.newKey
      { s with external := s.external ++ gs.map fun g => (g, k) }
    else s

/-- A store of the part into a thread's private memory (R179, R397). -/
def State.putPriv (s : State) (team : Nat) (sp : List Spot) (bs : List Byte) : State :=
  let put := fun (m : Bytes) (p : Spot × Byte) => match p.1.loc with
    | .priv _ at_ => bput at_ p.2 m
    | _ => m
  (s.modTeam team fun t => { t with priv := (sp.zip bs).foldl put t.priv }).privNoted team (sp.map fun x => x.grain)

/-- The bytes of `n` consecutive private bytes of a thread, word by word, or the first fault (R178, R397). -/
def State.privRange (s : State) (t : Team) (tid : Nat) (acc : Access) (off n : Nat) : Except (AFault × Nat) (List Spot) :=
  (List.range (n / 4)).foldlM (fun sp i =>
    let va := 0xFFFFF80000000000 + off + 4 * i
    match s.ctxOf t with
    | none => .ok sp
    | some c => match s.reach t c tid acc va 4 with
      | .ok l => .ok (sp ++ l)
      | .error e => .error (e, va)) []

/-! ## The register log (R307) -/

/-- Change the innermost level of a team. -/
def State.modLevel (s : State) (team : Nat) (f : Level → Level) : State :=
  s.modTeam team fun t => match t.levels with
    | l :: r => { t with levels := f l :: r }
    | [] => t

/-- Log entries of one thread over all levels (R307). -/
def Team.logCount (t : Team) (gid lane : Nat) : Nat :=
  t.levels.foldl (fun n l => n + (l.logged.filter fun x => x.1 == gid && x.2.1 == lane).length) 0

/-- The spill of a thread's log entries from number `first` to `last`, the 17th being the first: 8 bytes each, downward from the
end of its private area. What they hold is not given, so the bytes are free (R307; log entry 3); where the area cannot be written
nothing is. -/
def State.spillLog (s : State) (team gid lane first last : Nat) : State :=
  match s.team? team with
  | none => s
  | some t => match t.thread? gid lane with
    | none => s
    | some th => (upFrom (max first 17) (last + 1 - max first 17)).foldl (fun s n =>
        match s.privRange t th.tid .store (s.privSize t - 8 * (n - 16)) 8 with
        | .ok sp => s.putPriv team sp ((List.range 8).map fun i => Config.freeByte (s.fresh + 1) (8 * n + i))
        | .error _ => s) s

/-- Log the first write of registers of threads at the innermost level: from a thread's 17th entry on they spill to its private
memory, and the entry that does not fit is a failure of the routine with code 7 (R307). -/
def State.logWrites (s : State) (team : Nat) (ws : List (Nat × Nat × RegId)) : State :=
  match s.team? team with
  | none => s
  | some t => match t.levels with
    | [] => s
    | l :: _ =>
      if l.st != .running then s
      else
        let new := uniq (ws.filter fun w => !l.logged.contains w)
        let room := min 256 (s.privSize t / 8)
        let s := s.modLevel team fun l => { l with logged := l.logged ++ new }
        match s.team? team with
        | none => s
        | some u =>
          let s := (uniq (new.map fun w => (w.1, w.2.1))).foldl (fun s m =>
            s.spillLog team m.1 m.2 (t.logCount m.1 m.2 + 1) (min (u.logCount m.1 m.2) (16 + room))) s
          if new.any fun w => u.logCount w.1 w.2.1 > 16 + room then s.failRoutine team 7 else s

/-! ## Handler entry (R397, R398) -/

/-- The records of the lanes of one word that escalate, one for each distinct cause, in ascending order of their lowest
lanes (R398). Each entry: gid, lane, the record's cause, the trap, EXTRA byte 0. -/
def State.escalate (s : State) (t : Team) (es : List (Nat × Nat × Nat × Trap × Nat)) : State :=
  let kinds := uniq (es.map fun e => (e.1, e.2.2.1, e.2.2.2.1.cause))
  let rs := kinds.filterMap fun k =>
    let mine := es.filter fun e => (e.1, e.2.2.1, e.2.2.2.1.cause) == k
    match mine with
    | [] => none
    | e :: _ =>
      let tr := e.2.2.2.1
      let pcs := s.bothPcs t ((t.thread? e.1 e.2.1).bind fun x => x.point) tr.pc
      some ({ s.teamRecord t k.2.1 k.1 (laneMask (mine.map fun x => x.2.1)) tr.word.toNat pcs tr.tval with
              fatal := true, extra := leBytes 1 e.2.2.2.2 }, none)
  s.putRecords t.ctx rs

/-- Why a thread's trap escalates: the record's cause and EXTRA byte 0 (R398). -/
def State.escalation (s : State) (t : Team) (gid lane cause : Nat) : Option (Nat × Nat) :=
  match t.group? gid, t.thread? gid lane with
  | some g, some th =>
    if th.handler then some (cEscape, cause)
    else if s.tvecNow t g = 0 then some (cause, 0)
    else if (s.handlerPc t (s.tvecNow t g)).isNone then some (cause, 1)
    else none
  | _, _ => none

/-- The word at issue cannot be performed yet: its threads issue it again (R25, R221, R222). -/
def State.retryWord (s : State) : State :=
  let s := s.setPcs s.cur.team s.members fun _ _ => s.cur.first
  { s with cur := { s.cur with retry := true } }

/-- Do private bytes of a thread lie on a page that an access to them must wait for: a write while the page moves, a read for the
walk that reaches it (R178, R191)? -/
def State.privMoves (s : State) (t : Team) (th : Thread) (write : Bool) (p n : Nat) : Bool :=
  !s.moves.isEmpty && (privParts p n).any fun q =>
    let va := s.privVa t th.tid q.1
    if write then s.moving t.ctx va else s.walkWaits (laneTlbs t.core) t.ctx va

/-- Must a thread's handler entry wait: for registers that are empty (R108), or for the move of a page of its trap frame (R191)? -/
def State.entryWaits (s : State) (t : Team) (gid lane : Nat) : Bool :=
  t.threadEmpty gid lane || (t.thread? gid lane).any fun th => s.privMoves t th true th.tframe.toNat 64

/-- A fault of a trap frame's stores: gid, lane, the fault, its address and the trap (R397). -/
abbrev FrameFault := Nat × Nat × AFault × Nat × Trap

/-- A thread enters its handler: the epcs, cause, tinst and tval are saved, the frame is stored, the PC goes to the handler
(R397); in an open block the registers it writes are logged (R307). A fault of the frame leaves the entry unfinished and is
answered. Where the handler's address has become invalid meanwhile, the trap escalates (R398). -/
def State.enterHandler (s : State) (t : Team) (gid lane : Nat) (tr : Trap) : State × List FrameFault :=
  match t.group? gid, t.thread? gid lane with
  | some g, some th =>
    match s.handlerPc t (s.tvecNow t g) with
    | none =>
      let s := s.modThread t.key gid lane fun _ => { th with trap := none }
      (s.escalate t [(gid, lane, tr.cause, tr, if s.tvecNow t g = 0 then 0 else 1)], [])
    | some pc =>
      let (d, l) := s.bothPcs t th.point tr.pc
      let th1 : Thread :=
        { th with epcd := d, epcl := l, cause := BitVec.ofNat 32 (tr.cause + 256), tinst := tr.word, tval := tr.tval,
                  handler := true, trap := none }
      match s.privRange t th.tid .store th.tframe.toNat 64 with
      | .ok sp =>
        let s := (s.modThread t.key gid lane fun _ => { th1 with pc := pc }).putPriv t.key sp (frameBytes th1 (t.kind == .lcore))
        (s.logWrites t.key ((upFrom 7 8).map fun k => (gid, lane, RegId.t gid lane k)), [])
      | .error (f, va) =>
        (s.modThread t.key gid lane fun _ => { th with handler := true, trap := some tr }, [(gid, lane, f, va, tr)])
  | _, _ => (s, [])

/-- An uncorrectable ECC error reaches the MP, which sets POISON on the page (R190, R197). -/
def State.reportEcc (s : State) (ctx : Nat) (fs : List (Nat × AFault)) : State :=
  let pages := uniq ((fs.filter fun f => f.2.cause = cEccunc && windowOf f.1 == .global).map fun f => f.1 / 65536 * 65536)
  pages.foldl (fun s va => s.post .eccErrorReport [ctx, va]) s

/-- The same for accesses of threads: gid, lane, address, fault; a private address is translated first (R178). -/
def State.reportLanes (s : State) (t : Team) (fs : List (Nat × Nat × Nat × AFault)) : State :=
  s.reportEcc t.ctx (fs.map fun x => (match windowOf x.2.2.1, t.thread? x.1 x.2.1 with
    | .private_ p, some th => s.privVa t th.tid p
    | _, _ => x.2.2.1, x.2.2.2))

/-- Faults of trap frames: `PAGEFAULT` and `PROT` park their threads in HANDLER with one record per 64 KiB region, others are
fatal (R188, R397); inside an open block `INTEGRITY` and `ECCUNC` write no record and fail the routine (R311; log entry 80). -/
def State.frameFaults (s : State) (t : Team) (fs : List FrameFault) : State :=
  let fails := fun (x : FrameFault) => !t.levels.isEmpty && (failureCode x.2.2.1.cause).isSome
  let s := (fs.filter fails).foldl (fun s x => s.failRoutine t.key ((failureCode x.2.2.1.cause).getD 0)) s
  let failed := fs.filter fails
  let s := s.reportLanes t (failed.map fun x => (x.1, x.2.1, x.2.2.2.1, x.2.2.1))
  let fs := fs.filter fun x => !fails x
  let kinds := uniq (fs.map fun x => (x.1, x.2.2.1.cause, x.2.2.2.1 / 65536))
  let s := s.reportLanes t (fs.map fun x => (x.1, x.2.1, x.2.2.2.1, x.2.2.1))
  let rs := kinds.filterMap fun k =>
    let mine := fs.filter fun x => (x.1, x.2.2.1.cause, x.2.2.2.1 / 65536) == k
    match mine with
    | [] => none
    | (gid, lane, f, va, tr) :: _ =>
      let lanes := mine.map fun x => x.2.1
      let pcs := s.bothPcs t ((t.thread? gid lane).bind fun x => x.point) tr.pc
      some (gid, lanes, { s.teamRecord t f.cause gid (laneMask lanes) tr.word.toNat pcs (BitVec.ofNat 64 va) with extra := f.extra })
  let soft := fun (x : Nat × List Nat × Record) => x.2.2.cause == cPagefault || x.2.2.cause == cProt
  let s := s.parkOn t (rs.filter soft)
  (rs.filter fun x => !soft x).foldl (fun s x => s.putRecords t.ctx [({ x.2.2 with fatal := true }, none)]) s

/-- Finish pending handler entries of threads whose registers are all full and whose frames do not move, and let them run as
squads (R108, R191, R397). -/
def State.finishEntries (s : State) (team : Nat) (ms : List (Nat × Nat)) : State :=
  let ready := ms.filter fun m => match s.team? team with
    | some t => !s.entryWaits t m.1 m.2 && (match t.thread? m.1 m.2 with
      | some x => x.trap.isSome && x.park.isNone
      | none => false)
    | none => false
  let (s, fs) := ready.foldl (fun (p : State × List FrameFault) m => match p.1.team? team with
    | some t => match (t.thread? m.1 m.2).bind fun x => x.trap with
      | some tr =>
        let r := p.1.enterHandler t m.1 m.2 tr
        (r.1, p.2 ++ r.2)
      | none => p
    | none => p) (s, [])
  let s := match s.team? team with
    | some t => s.frameFaults t fs
    | none => s
  match s.team? team with
  | none => s
  | some t =>
    let inHandler := ready.filter fun m => match t.thread? m.1 m.2 with
      | some x => x.handler && x.trap.isNone && x.park.isNone
      | none => false
    s.squadsAt team inHandler s.now (s.ownNow t) none

/-- Threads at whose word a point was not passed after all, since the word does not issue in them: their last point is the one before
(R25, R347). -/
def State.unpass (s : State) (ms : List (Nat × Nat)) : State :=
  if s.cur.was.isEmpty || s.cur.pc != s.cur.first then s
  else s.modTeam s.cur.team fun t => t.modThreads ms fun g x => match s.cur.was.find? fun w => w.1 == g.gid && w.2.1 == x.lane with
    | some w => { x with point := w.2.2 }
    | none => x

/-- Thread traps of the word at issue: gid, lane, cause, tval. Inside an open block some causes fail the routine (R311);
otherwise the threads leave their squad and form one at the handler, at once or when the registers of all are full, or escalate
(R108, R149, R397, R398). epc names the word (R22, R397). The group's chunk ends (R221). -/
def State.enterTraps (s : State) (traps : List (Nat × Nat × Nat × DWord)) : State :=
  let s := s.unpass (traps.map fun x => (x.1, x.2.1))
  match s.curTeam with
  | none => s
  | some t =>
    let fails := traps.filterMap fun x => if t.levels.isEmpty then none else failureCode x.2.2.1
    let rest := traps.filter fun x => t.levels.isEmpty || (failureCode x.2.2.1).isNone
    let s := match fails with
      | c :: _ => s.failRoutine t.key c
      | [] => s
    if rest.isEmpty then s
    else
      let ms := rest.map fun x => (x.1, x.2.1)
      let s : State := { s with cur := { s.cur with parted := true } }
      let s := (s.setPcs t.key ms fun _ _ => s.cur.pc).modTeam t.key fun u => u.leaveSquads ms
      let ends := fun (l : Lam) => l.owner == .chunk && l.team == t.key && l.st == .open && (ms.any fun m => m.1 == l.gid)
      let s := { s with lams := updIf ends (fun l => { l with st := .requested }) s.lams }
      let (k, s) := s.newKey
      let trapOf := fun (x : Nat × Nat × Nat × DWord) =>
        ({ cause := x.2.2.1, tval := x.2.2.2, word := s.cur.word, pc := s.cur.pc, event := k } : Trap)
      let esc := rest.filterMap fun x => (s.escalation t x.1 x.2.1 x.2.2.1).map fun e =>
        (x.1, x.2.1, e.1, trapOf x, e.2)
      let enter := rest.filter fun x => (s.escalation t x.1 x.2.1 x.2.2.1).isNone
      let s := enter.foldl (fun s x => s.modThread t.key x.1 x.2.1 fun th => { th with trap := some (trapOf x) }) s
      let waits := fun (x : Nat × Nat × Nat × DWord) => (s.team? t.key).any fun t => s.entryWaits t x.1 x.2.1
      let s := if enter.any waits then s else s.finishEntries t.key (enter.map fun x => (x.1, x.2.1))
      if esc.isEmpty then s else s.escalate t esc

/-- Causes for which no word of the chain takes effect in the trapping threads (R35, R131). -/
def undoesChain (cause : Nat) : Bool := cause == cIllop || cause == cFpx

/-- Thread traps of the word at issue. In a chain, `ILLOP` and `FPX` are noted: the chain is performed again from its first state
without the threads they trap (R35, R131). -/
def State.takeTraps (s : State) (traps : List (Nat × Nat × Nat × DWord)) : State :=
  let whole := traps.filter fun x => undoesChain x.2.2.1
  if s.before.isSome && !whole.isEmpty then { s with cur := { s.cur with whole := s.cur.whole ++ whole } }
  else s.enterTraps traps

/-- The same trap in every thread of the word at issue. -/
def State.trapAll (s : State) (cause : Nat) (tval : DWord) : State :=
  s.takeTraps (s.members.map fun m => (m.1, m.2, cause, tval))

/-! ## Returning from a trap (R399) -/

/-- The fields V and P of a frame put back, the PC set to the resume point, the thread READY again (R399). -/
def Thread.returnFrom (th : Thread) (frame : List Byte) (d : Bool) : Thread :=
  let word := fun n => BitVec.ofNat 32 (leNat ((frame.drop (4 * n)).take 4))
  { th with v := (List.range 8).foldl (fun v n => sput n (word n) v) th.v,
            p := (frame.getD 32 0) ||| 1#8,
            handler := false,
            pc := if d then th.epcd else th.epcl }

/-! ## Faults of lane accesses (R186 to R188) -/

/-- Faults of the word at issue: gid, lane, address, fault. For a private access the address that a record and its region name is that
of the window; the spec does not say whether it is that one or the one translated (DESIGN CHOICE, log entry 28). Misaligned lanes
trap; lanes in fatal faults give one record per cause; lanes of replayable faults park with one record per 64 KiB region. -/
def State.accessFaults (s : State) (fs : List (Nat × Nat × Nat × AFault)) : State :=
  let s := s.unpass (fs.map fun x => (x.1, x.2.1))
  match s.curTeam with
  | none => s
  | some t =>
    let ms := fs.map fun x => (x.1, x.2.1)
    if fs.isEmpty then s
    else
      let s := s.reportLanes t fs
      let mis := fs.filter fun x => x.2.2.2.cause = cMisalign
      let soft := fs.filter fun x => !t.levels.isEmpty && (failureCode x.2.2.2.cause).isSome
      let rep := fs.filter fun x => x.2.2.2.cause = cPagefault || x.2.2.2.cause = cProt
      let hard := fs.filter fun x => x.2.2.2.cause ≠ cMisalign && x.2.2.2.cause ≠ cPagefault && x.2.2.2.cause ≠ cProt
        && (t.levels.isEmpty || (failureCode x.2.2.2.cause).isNone)
      let s := s.setPcs t.key ms fun _ _ => s.cur.pc
      let s := s.takeTraps (mis.map fun x => (x.1, x.2.1, cMisalign, BitVec.ofNat 64 x.2.2.1))
      let s := match soft with
        | x :: _ => s.failRoutine t.key ((failureCode x.2.2.2.cause).getD 0)
        | [] => s
      let mk := fun (mine : List (Nat × Nat × Nat × AFault)) (e : Nat × Nat × Nat × AFault) =>
        let pcs := s.bothPcs t ((t.thread? e.1 e.2.1).bind fun x => x.point) s.cur.pc
        { s.teamRecord t e.2.2.2.cause e.1 (laneMask (mine.map fun x => x.2.1)) s.cur.word.toNat pcs
            (BitVec.ofNat 64 e.2.2.1) with extra := e.2.2.2.extra }
      let regions := uniq (rep.map fun x => (x.1, x.2.2.2.cause, x.2.2.1 / 65536))
      let s := s.parkOn t (regions.filterMap fun k =>
        let mine := rep.filter fun x => (x.1, x.2.2.2.cause, x.2.2.1 / 65536) == k
        mine.head?.map fun e => (k.1, mine.map fun x => x.2.1, mk mine e))
      let kinds := uniq (hard.map fun x => (x.1, x.2.2.2.cause))
      s.putRecords t.ctx (kinds.filterMap fun k =>
        let mine := hard.filter fun x => (x.1, x.2.2.2.cause) == k
        match mine with
        | [] => none
        | e :: _ => some ({ mk mine e with fatal := true }, none))

/-! ## Words performed for each thread or group -/

/-- What a word does in one thread: a trap (cause, tval), or register writes; and float flags, raised in both cases. -/
structure LaneOut where
  trap : Option (Nat × DWord)
  regs : List (RegId × DWord)
  fl : Word

/-- Register writes and no trap. -/
def LaneOut.ok (regs : List (RegId × DWord)) : LaneOut := { trap := none, regs := regs, fl := 0 }

/-- One vector result. -/
def LaneOut.v (g l d : Nat) (x : Word) : LaneOut := .ok [(.v g l d, x.setWidth 64)]

/-- A trap. -/
def LaneOut.trapped (cause : Nat) (tval : DWord) : LaneOut := { trap := some (cause, tval), regs := [], fl := 0 }

/-- A float result with its flags: `FPX` when one of them is enabled, and then nothing is written (R84, R131). -/
def LaneOut.fp (ctl : Word) (regs : List (RegId × DWord)) (fl : Word) : LaneOut :=
  if takesFpx ctl fl then { trap := some (cFpx, fl.setWidth 64), regs := [], fl := fl }
  else { trap := none, regs := regs, fl := fl }

/-- What a word does in each executing thread: gid, lane and outcome, from the state its sources are read in (R32). -/
def State.laneOuts (s : State) (f : Team → Nat → Thread → LaneOut) : List (Nat × Nat × LaneOut) :=
  match s.readTeam with
  | none => []
  | some t => s.members.filterMap fun m => (t.thread? m.1 m.2).map fun th => (m.1, m.2, f t m.1 th)

/-- OR flags into fpflags of threads (R130). -/
def Team.orFlags (t : Team) (fs : List (Nat × Nat × Word)) : Team :=
  fs.foldl (fun t f => if f.2.2 = 0 then t else t.modThread f.1 f.2.1 fun x => { x with fpflags := x.fpflags ||| f.2.2 }) t

/-- Index that, in a late special-register effect, means that the flags are ORed into fpflags (R130). -/
def orFlagsIndex : Nat := 64

/-- A word of fixed latency performed in each executing thread: the results are written with their latency window, the
flags of a thread that does not trap land with its result, those of one that traps at once (R130, R131, R145, R149). -/
def laneWord (lat : Nat) (f : Team → Nat → Thread → LaneOut) (s : State) : State :=
  let outs := s.laneOuts f
  let good := outs.filter fun o => o.2.2.trap.isNone
  let bad := outs.filterMap fun o => o.2.2.trap.map fun tr => (o.1, o.2.1, tr.1, tr.2)
  let late := good.filterMap fun o => if o.2.2.fl = 0 then none else some (o.1, o.2.1, orFlagsIndex, o.2.2.fl)
  let s := s.modTeam s.cur.team fun t => (good.flatMap fun o => o.2.2.regs).foldl (Team.write s.now lat) t
  let s := if late.isEmpty then s else s.newOp s.cur.team [] lat (.tsr late)
  let s := s.modTeam s.cur.team fun t => t.orFlags (outs.filterMap fun o =>
    if o.2.2.trap.isSome then some (o.1, o.2.1, o.2.2.fl) else none)
  s.takeTraps bad

/-- A full/empty producer performed in each executing thread: its destinations are empty until the result is written
(R107); `lat` is the model's own delay (log entry 5). -/
def laneProducer (lat : Nat) (f : Team → Nat → Thread → LaneOut) (s : State) : State :=
  let outs := s.laneOuts f
  let good := outs.filter fun o => o.2.2.trap.isNone
  let bad := outs.filterMap fun o => o.2.2.trap.map fun tr => (o.1, o.2.1, tr.1, tr.2)
  let s := s.modTeam s.cur.team fun t => (good.flatMap fun o => o.2.2.regs).foldl (fun t w => t.markEmpty w.1) t
  let s := (uniq (good.map (·.1))).foldl (fun s g =>
    let mine := good.filter fun o => o.1 == g
    let ws := mine.flatMap fun o => o.2.2.regs.filterMap fun w => match w.1 with
      | .v g' l n => some (g', l, n, w.2.setWidth 32)
      | _ => none
    let s := s.groupOp g lat (.vres ws 0)
    let fl := mine.filterMap fun o => if o.2.2.fl = 0 then none else some (o.1, o.2.1, orFlagsIndex, o.2.2.fl)
    if fl.isEmpty then s else s.newOp s.cur.team [] lat (.tsr fl)) s
  let s := s.modTeam s.cur.team fun t => t.orFlags (outs.filterMap fun o =>
    if o.2.2.trap.isSome then some (o.1, o.2.1, o.2.2.fl) else none)
  s.takeTraps bad

/-- A word that reads or writes group state, performed once for each group, ascending (R106, R150). -/
def groupWord (lat : Nat) (f : Team → Group → List Nat → List (RegId × DWord)) (s : State) : State :=
  match s.readTeam with
  | none => s
  | some t =>
    let ws := s.curGids.flatMap fun g => match t.group? g with
      | some gr => f t gr (s.lanesOf g)
      | none => []
    s.modTeam s.cur.team fun t => ws.foldl (Team.write s.now lat) t

/-- A full/empty producer of one scalar in each group; a destination `s0` discards the value (R107, R123). -/
def groupProducer (lat d : Nat) (f : Team → Group → List Nat → Word) (s : State) : State :=
  match s.readTeam with
  | none => s
  | some t =>
    if d = 0 then s
    else s.curGids.foldl (fun s g => match t.group? g with
      | some gr =>
        let x := f t gr (s.lanesOf g)
        (s.modTeam s.cur.team fun t => t.markEmpty (.s g d)).groupOp g lat (.sres g d x)
      | none => s) s

/-! ## Waiting (R146, R149) -/

/-- Since when a squad waits at a word: a word that has waited before, and waits again for something else, waits on (R294). -/
def Squad.waitsSince (q : Squad) (pc : DWord) (now : Nat) : Nat := match q.since.find? fun x => x.1 == pc with
  | some x => x.2
  | none => now

/-- The squad of the word at issue waits at the word: its threads stand at the first word of the issue unit. -/
def State.waitOn (s : State) (w : WaitOn) : State :=
  let s := s.setPcs s.cur.team s.members fun _ _ => s.cur.first
  let s := { s with cur := { s.cur with retry := true } }
  s.modTeam s.cur.team fun t => t.modSquad s.cur.squad fun q =>
    { q with wait := some { on := w, since := q.waitsSince s.cur.pc s.now, iss := s.cur, got := [] } }

/-- The same, with the results some of its threads already hold. -/
def State.waitWith (s : State) (w : WaitOn) (got : List (Nat × Nat × Nat)) : State :=
  let note : Squad → Squad := fun q => { q with wait := q.wait.map fun (x : Wait) => { x with got := got } }
  (s.waitOn w).modTeam s.cur.team fun t => t.modSquad s.cur.squad note

/-- The wait the word at issue has passed, with its results, if its squad comes back from it. -/
def State.passed (s : State) : Option (List (Nat × Nat × Nat)) :=
  match s.curTeam.bind fun t => t.squad? s.cur.squad with
  | none => none
  | some q => (q.pass.find? fun p => p.1 == s.cur.pc).map (·.2)

/-- Does a squad come back from a wait that has ended: it goes on with the word it has issued already, in no further cycle of the
scheduler (R146, R167)? -/
def Squad.resumes (q : Squad) : Bool := !q.pass.isEmpty

/-- Has a sub-squad still to issue the word of its squad: it neither waits at it, nor has it passed a wait, nor performed it
(R150)? -/
def Squad.unissued (q : Squad) : Bool := q.wait.isNone && q.pass.isEmpty && q.join.any fun j => !j.done

/-- End a squad's wait: its next issue performs the word with these results. -/
def Squad.grant (q : Squad) (got : List (Nat × Nat × Nat)) : Squad :=
  match q.wait with
  | none => q
  | some w => { q with wait := none, pass := (q.pass.filter fun p => p.1 != w.iss.pc) ++ [(w.iss.pc, got)],
                       since := (q.since.filter fun p => p.1 != w.iss.pc) ++ [(w.iss.pc, w.since)] }

end Sys2Proof.Machine
end

