-- ==== Sys2Proof/Machine/VectorInt.lean ====
section
/-! DEFINITION. Vector integer words VALU, VALUS, VALUI (R116 to R118) and relative register access VREL (R115). -/

namespace Sys2Proof.Machine

/-! ## Table 5 of R116 -/

/-- (x + y) mod 2^32. -/
def aluAdd (x y : Word) : Word := x + y

/-- (x - y) mod 2^32. -/
def aluSub (x y : Word) : Word := x - y

/-- (x * y) mod 2^32. -/
def aluMul (x y : Word) : Word := x * y

/-- Bits 63:32 of the signed product. -/
def aluMulhS (x y : Word) : Word := BitVec.ofInt 32 ((x.toInt * y.toInt) / 4294967296)

/-- Bits 63:32 of the unsigned product. -/
def aluMulhU (x y : Word) : Word := BitVec.ofNat 32 ((x.toNat * y.toNat) / 4294967296)

/-- Bitwise and. -/
def aluAnd (x y : Word) : Word := x &&& y

/-- Bitwise or. -/
def aluOr (x y : Word) : Word := x ||| y

/-- Bitwise exclusive or. -/
def aluXor (x y : Word) : Word := x ^^^ y

/-- Shift left by y & 31. -/
def aluShl (x y : Word) : Word := x <<< (y.toNat % 32)

/-- Shift right by y & 31, zero filled. -/
def aluShr (x y : Word) : Word := x >>> (y.toNat % 32)

/-- Shift right by y & 31, sign filled. -/
def aluSar (x y : Word) : Word := x.sshiftRight (y.toNat % 32)

/-- Signed minimum. -/
def aluMinS (x y : Word) : Word := if x.toInt ≤ y.toInt then x else y

/-- Signed maximum. -/
def aluMaxS (x y : Word) : Word := if x.toInt ≤ y.toInt then y else x

/-- Unsigned minimum. -/
def aluMinU (x y : Word) : Word := if x.toNat ≤ y.toNat then x else y

/-- Unsigned maximum. -/
def aluMaxU (x y : Word) : Word := if x.toNat ≤ y.toNat then y else x

/-- Signed sum clamped to the range of i32 (R75). -/
def aluAddSat (x y : Word) : Word :=
  BitVec.ofInt 32 (max (-2147483648) (min 2147483647 (x.toInt + y.toInt)))

/-! ## The word forms -/

/-- A word with two vector sources (format V3, R116). -/
def wordVVV (lat : Nat) (op : Word → Word → Word) (d a b : BitVec 7) (s : State) : State :=
  laneWord lat (fun t g th => .v g th.lane d.toNat (op (s.rdV t g th.lane a.toNat) (s.rdV t g th.lane b.toNat))) s

/-- A word with a vector and a scalar source (format VS, R116, R117). -/
def wordVVS (lat : Nat) (op : Word → Word → Word) (d a : BitVec 7) (k : BitVec 6) (s : State) : State :=
  laneWord lat (fun t g th => .v g th.lane d.toNat (op (s.rdV t g th.lane a.toNat) (s.rdS t g k.toNat))) s

/-- A word with a vector source and an immediate (format VI, R118). -/
def wordVVI (op : Word → Word → Word) (d a : BitVec 7) (y : Word) (s : State) : State :=
  laneWord Config.latVA (fun t g th => .v g th.lane d.toNat (op (s.rdV t g th.lane a.toNat) y)) s

/-- IADD (R116). -/
def execIadd (d a b : BitVec 7) (s : State) : Host.Outcome State Fault Refusal := .next (wordVVV Config.latVA aluAdd d a b s)

/-- ISUB (R116). -/
def execIsub (d a b : BitVec 7) (s : State) : Host.Outcome State Fault Refusal := .next (wordVVV Config.latVA aluSub d a b s)

/-- IMUL (R116). -/
def execImul (d a b : BitVec 7) (s : State) : Host.Outcome State Fault Refusal := .next (wordVVV Config.latMul aluMul d a b s)

/-- IMULHI32 (R116). -/
def execImulhI32 (d a b : BitVec 7) (s : State) : Host.Outcome State Fault Refusal := .next (wordVVV Config.latMul aluMulhS d a b s)

/-- IMULHN32 (R116). -/
def execImulhN32 (d a b : BitVec 7) (s : State) : Host.Outcome State Fault Refusal := .next (wordVVV Config.latMul aluMulhU d a b s)

/-- AND (R116). -/
def execAnd (d a b : BitVec 7) (s : State) : Host.Outcome State Fault Refusal := .next (wordVVV Config.latVA aluAnd d a b s)

/-- OR (R116). -/
def execOr (d a b : BitVec 7) (s : State) : Host.Outcome State Fault Refusal := .next (wordVVV Config.latVA aluOr d a b s)

/-- XOR (R116). -/
def execXor (d a b : BitVec 7) (s : State) : Host.Outcome State Fault Refusal := .next (wordVVV Config.latVA aluXor d a b s)

/-- SHL (R116). -/
def execShl (d a b : BitVec 7) (s : State) : Host.Outcome State Fault Refusal := .next (wordVVV Config.latVA aluShl d a b s)

/-- SHR (R116). -/
def execShr (d a b : BitVec 7) (s : State) : Host.Outcome State Fault Refusal := .next (wordVVV Config.latVA aluShr d a b s)

/-- SAR (R116). -/
def execSar (d a b : BitVec 7) (s : State) : Host.Outcome State Fault Refusal := .next (wordVVV Config.latVA aluSar d a b s)

/-- IMINI32 (R116). -/
def execIminI32 (d a b : BitVec 7) (s : State) : Host.Outcome State Fault Refusal := .next (wordVVV Config.latVA aluMinS d a b s)

/-- IMAXI32 (R116). -/
def execImaxI32 (d a b : BitVec 7) (s : State) : Host.Outcome State Fault Refusal := .next (wordVVV Config.latVA aluMaxS d a b s)

/-- IMINN32 (R116). -/
def execIminN32 (d a b : BitVec 7) (s : State) : Host.Outcome State Fault Refusal := .next (wordVVV Config.latVA aluMinU d a b s)

/-- IMAXN32 (R116). -/
def execImaxN32 (d a b : BitVec 7) (s : State) : Host.Outcome State Fault Refusal := .next (wordVVV Config.latVA aluMaxU d a b s)

/-- IADDSI32 (R116). -/
def execIaddsI32 (d a b : BitVec 7) (s : State) : Host.Outcome State Fault Refusal := .next (wordVVV Config.latVA aluAddSat d a b s)

/-- IADD, scalar form (R116). -/
def execIaddVs (d a : BitVec 7) (k : BitVec 6) (s : State) : Host.Outcome State Fault Refusal := .next (wordVVS Config.latVA aluAdd d a k s)

/-- ISUB, scalar form (R116). -/
def execIsubVs (d a : BitVec 7) (k : BitVec 6) (s : State) : Host.Outcome State Fault Refusal := .next (wordVVS Config.latVA aluSub d a k s)

/-- IMUL, scalar form (R116). -/
def execImulVs (d a : BitVec 7) (k : BitVec 6) (s : State) : Host.Outcome State Fault Refusal := .next (wordVVS Config.latMul aluMul d a k s)

/-- IMULHI32, scalar form (R116). -/
def execImulhI32Vs (d a : BitVec 7) (k : BitVec 6) (s : State) : Host.Outcome State Fault Refusal := .next (wordVVS Config.latMul aluMulhS d a k s)

/-- IMULHN32, scalar form (R116). -/
def execImulhN32Vs (d a : BitVec 7) (k : BitVec 6) (s : State) : Host.Outcome State Fault Refusal := .next (wordVVS Config.latMul aluMulhU d a k s)

/-- AND, scalar form (R116). -/
def execAndVs (d a : BitVec 7) (k : BitVec 6) (s : State) : Host.Outcome State Fault Refusal := .next (wordVVS Config.latVA aluAnd d a k s)

/-- OR, scalar form (R116). -/
def execOrVs (d a : BitVec 7) (k : BitVec 6) (s : State) : Host.Outcome State Fault Refusal := .next (wordVVS Config.latVA aluOr d a k s)

/-- XOR, scalar form (R116). -/
def execXorVs (d a : BitVec 7) (k : BitVec 6) (s : State) : Host.Outcome State Fault Refusal := .next (wordVVS Config.latVA aluXor d a k s)

/-- SHL, scalar form (R116). -/
def execShlVs (d a : BitVec 7) (k : BitVec 6) (s : State) : Host.Outcome State Fault Refusal := .next (wordVVS Config.latVA aluShl d a k s)

/-- SHR, scalar form (R116). -/
def execShrVs (d a : BitVec 7) (k : BitVec 6) (s : State) : Host.Outcome State Fault Refusal := .next (wordVVS Config.latVA aluShr d a k s)

/-- SAR, scalar form (R116). -/
def execSarVs (d a : BitVec 7) (k : BitVec 6) (s : State) : Host.Outcome State Fault Refusal := .next (wordVVS Config.latVA aluSar d a k s)

/-- IMINI32, scalar form (R116). -/
def execIminI32Vs (d a : BitVec 7) (k : BitVec 6) (s : State) : Host.Outcome State Fault Refusal := .next (wordVVS Config.latVA aluMinS d a k s)

/-- IMAXI32, scalar form (R116). -/
def execImaxI32Vs (d a : BitVec 7) (k : BitVec 6) (s : State) : Host.Outcome State Fault Refusal := .next (wordVVS Config.latVA aluMaxS d a k s)

/-- IMINN32, scalar form (R116). -/
def execIminN32Vs (d a : BitVec 7) (k : BitVec 6) (s : State) : Host.Outcome State Fault Refusal := .next (wordVVS Config.latVA aluMinU d a k s)

/-- IMAXN32, scalar form (R116). -/
def execImaxN32Vs (d a : BitVec 7) (k : BitVec 6) (s : State) : Host.Outcome State Fault Refusal := .next (wordVVS Config.latVA aluMaxU d a k s)

/-- IADDSI32, scalar form (R116). -/
def execIaddsI32Vs (d a : BitVec 7) (k : BitVec 6) (s : State) : Host.Outcome State Fault Refusal := .next (wordVVS Config.latVA aluAddSat d a k s)

/-- MOVS: vd := s (R117). -/
def execMovs (d : BitVec 7) (k : BitVec 6) (s : State) : Host.Outcome State Fault Refusal :=
  .next (laneWord Config.latVA (fun t g th => .v g th.lane d.toNat (s.rdS t g k.toNat)) s)

/-- IMACS: vd := (vd + va * s) mod 2^32 (R117). -/
def execImacs (d a : BitVec 7) (k : BitVec 6) (s : State) : Host.Outcome State Fault Refusal :=
  .next (laneWord Config.latMul (fun t g th =>
    .v g th.lane d.toNat (s.rdV t g th.lane d.toNat + s.rdV t g th.lane a.toNat * s.rdS t g k.toNat)) s)

/-- IADDI (R118). -/
def execIaddi (d a : BitVec 7) (i : BitVec 8) (s : State) : Host.Outcome State Fault Refusal := .next (wordVVI aluAdd d a (i.signExtend 32) s)

/-- ANDI (R118). -/
def execAndi (d a : BitVec 7) (i : BitVec 8) (s : State) : Host.Outcome State Fault Refusal := .next (wordVVI aluAnd d a (i.signExtend 32) s)

/-- ORI (R118). -/
def execOri (d a : BitVec 7) (i : BitVec 8) (s : State) : Host.Outcome State Fault Refusal := .next (wordVVI aluOr d a (i.setWidth 32) s)

/-- XORI (R118). -/
def execXori (d a : BitVec 7) (i : BitVec 8) (s : State) : Host.Outcome State Fault Refusal := .next (wordVVI aluXor d a (i.setWidth 32) s)

/-- SHLI (R118). -/
def execShli (d a : BitVec 7) (i : BitVec 5) (s : State) : Host.Outcome State Fault Refusal := .next (wordVVI aluShl d a (i.setWidth 32) s)

/-- SHRI (R118). -/
def execShri (d a : BitVec 7) (i : BitVec 5) (s : State) : Host.Outcome State Fault Refusal := .next (wordVVI aluShr d a (i.setWidth 32) s)

/-- SARI (R118). -/
def execSari (d a : BitVec 7) (i : BitVec 5) (s : State) : Host.Outcome State Fault Refusal := .next (wordVVI aluSar d a (i.setWidth 32) s)

/-- MOVI: vd := i, sign-extended (R118). -/
def execMovi (d : BitVec 7) (i : BitVec 8) (s : State) : Host.Outcome State Fault Refusal :=
  .next (laneWord Config.latVA (fun _ g th => .v g th.lane d.toNat (i.signExtend 32)) s)

/-! ## Relative register access (R115) -/

/-- Number of vector registers of the team's kernel (R39, R103). -/
def State.vregs (s : State) (t : Team) : Nat := match s.imageOf t with
  | some i => i.vregs
  | none => 128

/-- RREAD: vd := v[a + vb], a full/empty producer; a number at or above `.vregs` raises `REGBOUND` (R115). -/
def execRread (d a b : BitVec 7) (s : State) : Host.Outcome State Fault Refusal :=
  .next (laneProducer s.delay (fun t g th =>
    let n := a.toNat + (s.rdV t g th.lane b.toNat).toNat
    if s.vregs t ≤ n then .trapped cRegbound (BitVec.ofNat 64 n)
    else .v g th.lane d.toNat (s.rdV t g th.lane n)) s)

/-- RWRITE: v[a + vb] := vd; a number at or above `.vregs` raises `REGBOUND` (R115). -/
def execRwrite (d a b : BitVec 7) (s : State) : Host.Outcome State Fault Refusal :=
  .next (laneWord Config.latVA (fun t g th =>
    let n := a.toNat + (s.rdV t g th.lane b.toNat).toNat
    if s.vregs t ≤ n then .trapped cRegbound (BitVec.ofNat 64 n)
    else .v g th.lane n (s.rdV t g th.lane d.toNat)) s)

end Sys2Proof.Machine
end

