-- ==== Sys2Proof/Machine/VectorPred.lean ====
section
/-! DEFINITION. Compare, predicate, select and move words SETP, PLOG, SEL, VMOV (R119 to R123). -/

namespace Sys2Proof.Machine

/-! ## Comparison (R119, R126) -/

/-- Conditions EQ, NE, LT, LE, GT, GE on a three-way order of integers (R119). -/
def condInt (cond : Nat) (x y : Int) : Bool :=
  match cond with
  | 0 => decide (x = y)
  | 1 => decide (x ≠ y)
  | 2 => decide (x < y)
  | 3 => decide (x ≤ y)
  | 4 => decide (y < x)
  | 5 => decide (y ≤ x)
  | _ => false

/-- Conditions EQ to OR on floats: a NaN makes the pair unordered (R119). -/
def condFp (cond : Nat) (x y : Val) : Bool :=
  let un := isNan x || isNan y
  let lt := ltVal x y
  let gt := ltVal y x
  match cond with
  | 0 => !un && !lt && !gt
  | 1 => un || lt || gt
  | 2 => !un && lt
  | 3 => !un && !gt
  | 4 => !un && gt
  | 5 => !un && !lt
  | 6 => un
  | _ => !un

/-- The float format of a `SETP` type (R119). -/
def cmpFmt (t : Nat) : Fmt := if t = 2 then fmtF32 else if t = 3 then fmtF16 else fmtBf16

/-- Low bits of a register that a `SETP` of type t reads (R119). -/
def cmpCode (t : Nat) (x : Word) : Nat := if t = 2 then x.toNat else x.toNat % 65536

/-- SETP: compares and writes a predicate; FTZ, signalling NaNs and `FPX` apply to float types (R119). -/
def execSetp (p : BitVec 3) (ty : BitVec 4) (a b : BitVec 7) (k : BitVec 4) (s : State) : Host.Outcome State Fault Refusal :=
  .next (laneWord Config.latVA (fun t g th =>
    let l := th.lane
    let out := fun (r : Bool) => [(RegId.p g l p.toNat, if r then (1 : DWord) else 0)]
    match ty.toNat with
    | 0 => .ok (out (condInt k.toNat (s.rdV t g l a.toNat).toInt (s.rdV t g l b.toNat).toInt))
    | 1 => .ok (out (condInt k.toNat (s.rdV t g l a.toNat).toNat (s.rdV t g l b.toNat).toNat))
    | 5 => .ok (out (condInt k.toNat (s.rdV2 t g l a.toNat).toInt (s.rdV2 t g l b.toNat).toInt))
    | 6 => .ok (out (condInt k.toNat (s.rdV2 t g l a.toNat).toNat (s.rdV2 t g l b.toNat).toNat))
    | n =>
      let ctl := (s.peekReg t (.t g l 5)).setWidth 32
      let f := cmpFmt n
      let x := ftzIn (fpFtz ctl) f (decodeFp f (cmpCode n (s.rdV t g l a.toNat)))
      let y := ftzIn (fpFtz ctl) f (decodeFp f (cmpCode n (s.rdV t g l b.toNat)))
      .fp ctl (out (condFp k.toNat x y)) (sigFlag x ||| sigFlag y)) s)

/-! ## Predicate logic (R120) -/

/-- A predicate source with its negation bit (R120). -/
def State.predSrc (s : State) (t : Team) (g l : Nat) (n : BitVec 3) (neg : BitVec 1) : Bool :=
  (s.rdP t g l n.toNat) != (neg == 1#1)

/-- A predicate word of two sources. -/
def wordPPP (op : Bool → Bool → Bool) (d a b : BitVec 3) (x y : BitVec 1) (s : State) : State :=
  laneWord Config.latVA (fun t g th =>
    .ok [(.p g th.lane d.toNat, if op (s.predSrc t g th.lane a x) (s.predSrc t g th.lane b y) then 1 else 0)]) s

/-- PAND (R120). -/
def execPand (d a b : BitVec 3) (x y : BitVec 1) (s : State) : Host.Outcome State Fault Refusal := .next (wordPPP (· && ·) d a b x y s)

/-- POR (R120). -/
def execPor (d a b : BitVec 3) (x y : BitVec 1) (s : State) : Host.Outcome State Fault Refusal := .next (wordPPP (· || ·) d a b x y s)

/-- PXOR (R120). -/
def execPxor (d a b : BitVec 3) (x y : BitVec 1) (s : State) : Host.Outcome State Fault Refusal := .next (wordPPP (· != ·) d a b x y s)

/-- PMOV (R120). -/
def execPmov (d a : BitVec 3) (x : BitVec 1) (s : State) : Host.Outcome State Fault Refusal :=
  .next (laneWord Config.latVA (fun t g th =>
    .ok [(.p g th.lane d.toNat, if s.predSrc t g th.lane a x then 1 else 0)]) s)

/-- PFROMM: pd := bit lane of mask mN (R120). -/
def execPfromm (d : BitVec 3) (m : BitVec 4) (s : State) : Host.Outcome State Fault Refusal :=
  .next (laneWord Config.latVA (fun t g th =>
    .ok [(.p g th.lane d.toNat, if (s.rdM t g m.toNat).getLsbD th.lane then 1 else 0)]) s)

/-- SEL: vd := (p[p] xor neg) ? va : vb (R121). -/
def execSel (d a b : BitVec 7) (n : BitVec 1) (p : BitVec 3) (s : State) : Host.Outcome State Fault Refusal :=
  .next (laneWord Config.latVA (fun t g th =>
    .v g th.lane d.toNat
      (if s.predSrc t g th.lane p n then s.rdV t g th.lane a.toNat else s.rdV t g th.lane b.toNat)) s)

/-! ## Moves (R122, R123) -/

/-- MOV (R122). -/
def execMov (d a : BitVec 7) (s : State) : Host.Outcome State Fault Refusal :=
  .next (laneWord Config.latVA (fun t g th => .v g th.lane d.toNat (s.rdV t g th.lane a.toNat)) s)

/-- LANEID (R122). -/
def execLaneid (d : BitVec 7) (s : State) : Host.Outcome State Fault Refusal :=
  .next (laneWord Config.latVA (fun _ g th => .v g th.lane d.toNat (BitVec.ofNat 32 th.lane)) s)

/-- TID (R122). -/
def execTid (d : BitVec 7) (s : State) : Host.Outcome State Fault Refusal :=
  .next (laneWord Config.latVA (fun _ g th => .v g th.lane d.toNat (BitVec.ofNat 32 th.tid)) s)

/-- RDTSR: a full/empty producer of a per-thread special register (R109, R122). -/
def execRdtsr (d : BitVec 7) (k : BitVec 6) (s : State) : Host.Outcome State Fault Refusal :=
  .next (laneProducer s.delay (fun t g th =>
    .v g th.lane d.toNat ((s.peekReg t (.t g th.lane k.toNat)).setWidth 32)) s)

/-- WRTSR: a write to fpctl or fpflags lands 4 cycles later, a write to the others
has the latency of a VA word for a reader (R48, R109, R129, R130). -/
def execWrtsr (a : BitVec 7) (k : BitVec 6) (s : State) : Host.Outcome State Fault Refusal :=
  match s.readTeam with
  | none => .next s
  | some t =>
    let ws := s.members.map fun m => (m.1, m.2, k.toNat, s.rdV t m.1 m.2 a.toNat)
    if k = 5 || k = 6 then .next (s.wordOp Config.latVA (.tsr ws))
    else .next (s.modTeam s.cur.team fun u => (ws.map fun w =>
      (RegId.t w.1 w.2.1 w.2.2.1, w.2.2.2.setWidth 64)).foldl (Team.write s.now Config.latVA) u)

/-- RFAL: sk := va of the lowest-lane thread of the sub-squad (R123). -/
def execRfal (a : BitVec 7) (k : BitVec 6) (s : State) : Host.Outcome State Fault Refusal :=
  .next (groupProducer s.delay k.toNat (fun t gr lanes => match lanes with
    | l :: _ => s.rdV t gr.gid l a.toNat
    | [] => 0) s)

/-- RLANE: sk := va of the group's thread at lane l, when that register is full; 0 when no live thread is there (R123). -/
def execRlane (l : BitVec 6) (a : BitVec 7) (k : BitVec 6) (s : State) : Host.Outcome State Fault Refusal :=
  .next (groupProducer s.delay k.toNat (fun t gr _ => match gr.thread? l.toNat with
    | some _ => s.rdV t gr.gid l.toNat a.toNat
    | none => match gr.ended.find? fun x => x.lane == l.toNat with
      | some x => sget a.toNat x.v
      | none => 0) s)

end Sys2Proof.Machine
end

