-- ==== Sys2Proof/Machine/VectorFloat.lean ====
section
/-! DEFINITION. Floating-point words VFP, VFPS, conversions and bit operations VCVT, transcendentals VTRANS and random draws
RNG (R129 to R142). -/

namespace Sys2Proof.Machine

/-! ## Elements and operations (R132) -/

/-- fpctl of a thread as a word at issue reads it (R129). -/
def State.fpctlOf (s : State) (t : Team) (g l : Nat) : Word := (s.peekReg t (.t g l 5)).setWidth 32

/-- Three-operand float operations of R132 on codes of one element; the last operand is read only by the fused forms. -/
abbrev FpOp := Fmt → Word → Nat → Nat → Nat → Nat × Word

/-- Operand of a format under FTZ (R81). -/
def fpIn (f : Fmt) (ctl : Word) (x : Nat) : Val := ftzIn (fpFtz ctl) f (decodeFp f x)

/-- x + y. -/
def opAdd : FpOp := fun f ctl x y _ => ftzOut (fpFtz ctl) f (fpAdd f (fpRm ctl) (fpIn f ctl x) (fpIn f ctl y))

/-- x - y. -/
def opSub : FpOp := fun f ctl x y _ => ftzOut (fpFtz ctl) f (fpAdd f (fpRm ctl) (fpIn f ctl x) (negVal (fpIn f ctl y)))

/-- x * y. -/
def opMul : FpOp := fun f ctl x y _ => ftzOut (fpFtz ctl) f (fpMul f (fpRm ctl) (fpIn f ctl x) (fpIn f ctl y))

/-- x * y + z with one rounding. -/
def opFma : FpOp := fun f ctl x y z =>
  ftzOut (fpFtz ctl) f (fpFma f (fpRm ctl) (fpIn f ctl x) (fpIn f ctl y) (fpIn f ctl z))

/-- Minimum by R79. -/
def opMin : FpOp := fun f ctl x y _ => fpMinMax f (fpFtz ctl) false x y

/-- Maximum by R79. -/
def opMax : FpOp := fun f ctl x y _ => fpMinMax f (fpFtz ctl) true x y

/-- An f32 operation on registers. -/
def single (op : FpOp) (ctl x y z : Word) : Word × Word :=
  let r := op fmtF32 ctl x.toNat y.toNat z.toNat
  (BitVec.ofNat 32 r.1, r.2)

/-- A packed operation: each element on its own, the flags of both (R76, R77, R132). -/
def packed (f : Fmt) (op : FpOp) (ctl x y z : Word) : Word × Word :=
  let lo := op f ctl (x.toNat % 65536) (y.toNat % 65536) (z.toNat % 65536)
  let hi := op f ctl (x.toNat / 65536) (y.toNat / 65536) (z.toNat / 65536)
  (BitVec.ofNat 32 (hi.1 * 65536 + lo.1), lo.2 ||| hi.2)

/-- A VFP word: sources va, vb and the old vd (R132). -/
def wordFp (op : Word → Word → Word → Word → Word × Word) (d a b : BitVec 7) (s : State) : State :=
  laneWord Config.latVF (fun t g th =>
    let l := th.lane
    let ctl := s.fpctlOf t g l
    let r := op ctl (s.rdV t g l a.toNat) (s.rdV t g l b.toNat) (s.rdV t g l d.toNat)
    .fp ctl [(.v g l d.toNat, r.1.setWidth 64)] r.2) s

/-- A VFPS word: the second source is the scalar (R134). -/
def wordFps (op : Word → Word → Word → Word → Word × Word) (d a : BitVec 7) (k : BitVec 6) (s : State) : State :=
  laneWord Config.latVF (fun t g th =>
    let l := th.lane
    let ctl := s.fpctlOf t g l
    let r := op ctl (s.rdV t g l a.toNat) (s.rdS t g k.toNat) (s.rdV t g l d.toNat)
    .fp ctl [(.v g l d.toNat, r.1.setWidth 64)] r.2) s

/-- FADD (R132, R133). -/
def execFadd (d a b : BitVec 7) (s : State) : Host.Outcome State Fault Refusal := .next (wordFp (single opAdd) d a b s)

/-- FSUB (R132, R133). -/
def execFsub (d a b : BitVec 7) (s : State) : Host.Outcome State Fault Refusal := .next (wordFp (single opSub) d a b s)

/-- FMUL (R132, R133). -/
def execFmul (d a b : BitVec 7) (s : State) : Host.Outcome State Fault Refusal := .next (wordFp (single opMul) d a b s)

/-- FMIN (R132, R133). -/
def execFmin (d a b : BitVec 7) (s : State) : Host.Outcome State Fault Refusal := .next (wordFp (single opMin) d a b s)

/-- FMAX (R132, R133). -/
def execFmax (d a b : BitVec 7) (s : State) : Host.Outcome State Fault Refusal := .next (wordFp (single opMax) d a b s)

/-- FFMA (R132, R133). -/
def execFfma (d a b : BitVec 7) (s : State) : Host.Outcome State Fault Refusal := .next (wordFp (single opFma) d a b s)

/-- HADD2 (R132, R133). -/
def execHadd2 (d a b : BitVec 7) (s : State) : Host.Outcome State Fault Refusal := .next (wordFp (packed fmtF16 opAdd) d a b s)

/-- HMUL2 (R132, R133). -/
def execHmul2 (d a b : BitVec 7) (s : State) : Host.Outcome State Fault Refusal := .next (wordFp (packed fmtF16 opMul) d a b s)

/-- HFMA2 (R132, R133). -/
def execHfma2 (d a b : BitVec 7) (s : State) : Host.Outcome State Fault Refusal := .next (wordFp (packed fmtF16 opFma) d a b s)

/-- BADD2 (R132, R133). -/
def execBadd2 (d a b : BitVec 7) (s : State) : Host.Outcome State Fault Refusal := .next (wordFp (packed fmtBf16 opAdd) d a b s)

/-- BMUL2 (R132, R133). -/
def execBmul2 (d a b : BitVec 7) (s : State) : Host.Outcome State Fault Refusal := .next (wordFp (packed fmtBf16 opMul) d a b s)

/-- BFMA2 (R132, R133). -/
def execBfma2 (d a b : BitVec 7) (s : State) : Host.Outcome State Fault Refusal := .next (wordFp (packed fmtBf16 opFma) d a b s)

/-- HMIN2 (R132, R133). -/
def execHmin2 (d a b : BitVec 7) (s : State) : Host.Outcome State Fault Refusal := .next (wordFp (packed fmtF16 opMin) d a b s)

/-- HMAX2 (R132, R133). -/
def execHmax2 (d a b : BitVec 7) (s : State) : Host.Outcome State Fault Refusal := .next (wordFp (packed fmtF16 opMax) d a b s)

/-- FADDS (R134). -/
def execFadds (d a : BitVec 7) (k : BitVec 6) (s : State) : Host.Outcome State Fault Refusal := .next (wordFps (single opAdd) d a k s)

/-- FSUBS (R134). -/
def execFsubs (d a : BitVec 7) (k : BitVec 6) (s : State) : Host.Outcome State Fault Refusal := .next (wordFps (single opSub) d a k s)

/-- FMULS (R134). -/
def execFmuls (d a : BitVec 7) (k : BitVec 6) (s : State) : Host.Outcome State Fault Refusal := .next (wordFps (single opMul) d a k s)

/-- FFMAS (R134). -/
def execFfmas (d a : BitVec 7) (k : BitVec 6) (s : State) : Host.Outcome State Fault Refusal := .next (wordFps (single opFma) d a k s)

/-- FMINS (R134). -/
def execFmins (d a : BitVec 7) (k : BitVec 6) (s : State) : Host.Outcome State Fault Refusal := .next (wordFps (single opMin) d a k s)

/-- FMAXS (R134). -/
def execFmaxs (d a : BitVec 7) (k : BitVec 6) (s : State) : Host.Outcome State Fault Refusal := .next (wordFps (single opMax) d a k s)

/-- HFMA2S (R134). -/
def execHfma2s (d a : BitVec 7) (k : BitVec 6) (s : State) : Host.Outcome State Fault Refusal := .next (wordFps (packed fmtF16 opFma) d a k s)

/-- BFMA2S (R134). -/
def execBfma2s (d a : BitVec 7) (k : BitVec 6) (s : State) : Host.Outcome State Fault Refusal := .next (wordFps (packed fmtBf16 opFma) d a k s)

/-! ## Conversions (R135, R136) -/

/-- A conversion word: the source code, the result and its flags; fpctl is read only for the trap enables (R136). -/
def wordCvt (op : Nat → Nat × Word) (d a : BitVec 7) (s : State) : State :=
  laneWord Config.latVF (fun t g th =>
    let l := th.lane
    let r := op (s.rdV t g l a.toNat).toNat
    .fp (s.fpctlOf t g l) [(.v g l d.toNat, BitVec.ofNat 64 r.1)] r.2) s

/-- An operation on bits: no flag, no trap (R135). -/
def wordBits (op : Word → Word) (d a : BitVec 7) (s : State) : State :=
  laneWord Config.latVF (fun t g th => .v g th.lane d.toNat (op (s.rdV t g th.lane a.toNat))) s

/-- CVT_F32_I32 (R136). -/
def execCvtF32I32 (d a : BitVec 7) (r : BitVec 2) (s : State) : Host.Outcome State Fault Refusal :=
  .next (wordCvt (fun x => cvtFromInt r.toNat (sval 32 x)) d a s)

/-- CVT_F32_N32 (R136). -/
def execCvtF32N32 (d a : BitVec 7) (r : BitVec 2) (s : State) : Host.Outcome State Fault Refusal :=
  .next (wordCvt (fun x => cvtFromInt r.toNat x) d a s)

/-- CVT_I32_F32 (R90, R136). -/
def execCvtI32F32 (d a : BitVec 7) (r : BitVec 2) (sat : BitVec 1) (s : State) : Host.Outcome State Fault Refusal :=
  .next (wordCvt (fun x => cvtToInt true r.toNat (sat == 1#1) (decodeFp fmtF32 x)) d a s)

/-- CVT_N32_F32 (R90, R136). -/
def execCvtN32F32 (d a : BitVec 7) (r : BitVec 2) (sat : BitVec 1) (s : State) : Host.Outcome State Fault Refusal :=
  .next (wordCvt (fun x => cvtToInt false r.toNat (sat == 1#1) (decodeFp fmtF32 x)) d a s)

/-- CVT_F16_F32 (R90, R136). -/
def execCvtF16F32 (d a : BitVec 7) (r : BitVec 2) (sat : BitVec 1) (s : State) : Host.Outcome State Fault Refusal :=
  .next (wordCvt (fun x => cvtFp fmtF16 r.toNat (sat == 1#1) (decodeFp fmtF32 x)) d a s)

/-- CVT_BF16_F32 (R90, R136). -/
def execCvtBf16F32 (d a : BitVec 7) (r : BitVec 2) (sat : BitVec 1) (s : State) : Host.Outcome State Fault Refusal :=
  .next (wordCvt (fun x => cvtFp fmtBf16 r.toNat (sat == 1#1) (decodeFp fmtF32 x)) d a s)

/-- CVT_E4M3_F32 (R90, R136). -/
def execCvtE4m3F32 (d a : BitVec 7) (r : BitVec 2) (sat : BitVec 1) (s : State) : Host.Outcome State Fault Refusal :=
  .next (wordCvt (fun x => cvtFp fmtE4m3 r.toNat (sat == 1#1) (decodeFp fmtF32 x)) d a s)

/-- CVT_E5M2_F32 (R90, R136). -/
def execCvtE5m2F32 (d a : BitVec 7) (r : BitVec 2) (sat : BitVec 1) (s : State) : Host.Outcome State Fault Refusal :=
  .next (wordCvt (fun x => cvtFp fmtE5m2 r.toNat (sat == 1#1) (decodeFp fmtF32 x)) d a s)

/-- CVT_F32_F16: exact (R90, R136). -/
def execCvtF32F16 (d a : BitVec 7) (s : State) : Host.Outcome State Fault Refusal :=
  .next (wordCvt (fun x => cvtFp fmtF32 0 false (decodeFp fmtF16 (x % 65536))) d a s)

/-- CVT_F32_BF16: exact (R90, R136). -/
def execCvtF32Bf16 (d a : BitVec 7) (s : State) : Host.Outcome State Fault Refusal :=
  .next (wordCvt (fun x => cvtFp fmtF32 0 false (decodeFp fmtBf16 (x % 65536))) d a s)

/-- CVT_F32_E4M3: exact (R90, R136). -/
def execCvtF32E4m3 (d a : BitVec 7) (s : State) : Host.Outcome State Fault Refusal :=
  .next (wordCvt (fun x => cvtFp fmtF32 0 false (decodeFp fmtE4m3 (x % 256))) d a s)

/-- CVT_F32_E5M2: exact (R90, R136). -/
def execCvtF32E5m2 (d a : BitVec 7) (s : State) : Host.Outcome State Fault Refusal :=
  .next (wordCvt (fun x => cvtFp fmtF32 0 false (decodeFp fmtE5m2 (x % 256))) d a s)

/-- CVT_DM8_F32: sat is ignored (R89, R135). -/
def execCvtDm8F32 (d a : BitVec 7) (_sat : BitVec 1) (s : State) : Host.Outcome State Fault Refusal :=
  .next (wordCvt (fun x => encodeDm8 (decodeFp fmtF32 x)) d a s)

/-- CVT_F32_DM8 (R88). -/
def execCvtF32Dm8 (d a : BitVec 7) (r : BitVec 2) (s : State) : Host.Outcome State Fault Refusal :=
  .next (wordCvt (fun x => cvtFp fmtF32 r.toNat false (decodeDm8 (x % 256))) d a s)

/-- Number of 1 bits (R135). -/
def popCount (x : Word) : Word := BitVec.ofNat 32 ((List.range 32).countP fun i => x.getLsbD i)

/-- Leading zeros from bit 31 (R135). -/
def leadingZeros (x : Word) : Word := if x = 0 then 32 else BitVec.ofNat 32 (31 - Nat.log2 x.toNat)

/-- Bit i becomes source bit 31 - i (R135). -/
def bitReverse (x : Word) : Word :=
  BitVec.ofNat 32 ((List.range 32).foldl (fun acc i => 2 * acc + (if x.getLsbD i then 1 else 0)) 0)

/-- FABS (R135). -/
def execFabs (d a : BitVec 7) (s : State) : Host.Outcome State Fault Refusal := .next (wordBits (· &&& 0x7FFFFFFF#32) d a s)

/-- FNEG (R135). -/
def execFneg (d a : BitVec 7) (s : State) : Host.Outcome State Fault Refusal := .next (wordBits (· ^^^ 0x80000000#32) d a s)

/-- POPC (R135). -/
def execPopc (d a : BitVec 7) (s : State) : Host.Outcome State Fault Refusal := .next (wordBits popCount d a s)

/-- CLZ (R135). -/
def execClz (d a : BitVec 7) (s : State) : Host.Outcome State Fault Refusal := .next (wordBits leadingZeros d a s)

/-- BREV (R135). -/
def execBrev (d a : BitVec 7) (s : State) : Host.Outcome State Fault Refusal := .next (wordBits bitReverse d a s)

/-- SX8 (R135). -/
def execSx8 (d a : BitVec 7) (s : State) : Host.Outcome State Fault Refusal := .next (wordBits (fun x => (x.setWidth 8).signExtend 32) d a s)

/-- SX16 (R135). -/
def execSx16 (d a : BitVec 7) (s : State) : Host.Outcome State Fault Refusal := .next (wordBits (fun x => (x.setWidth 16).signExtend 32) d a s)

/-- ZX8 (R135). -/
def execZx8 (d a : BitVec 7) (s : State) : Host.Outcome State Fault Refusal := .next (wordBits (fun x => (x.setWidth 8).setWidth 32) d a s)

/-- ZX16 (R135). -/
def execZx16 (d a : BitVec 7) (s : State) : Host.Outcome State Fault Refusal := .next (wordBits (fun x => (x.setWidth 16).setWidth 32) d a s)

/-! ## Transcendentals (R137) -/

/-- A VTRANS word: a full/empty producer whose flags land with the result (R130, R131, R137). -/
def wordTrans (f : Nat) (d a : BitVec 7) (s : State) : State :=
  laneProducer s.delay (fun t g th =>
    let l := th.lane
    let ctl := s.fpctlOf t g l
    let r := transOf f (fpFtz ctl) (s.rdV t g l a.toNat).toNat
    .fp ctl [(.v g l d.toNat, BitVec.ofNat 64 r.1)] r.2) s

/-- RCP (R137). -/
def execRcp (d a : BitVec 7) (s : State) : Host.Outcome State Fault Refusal := .next (wordTrans 0 d a s)

/-- RSQ (R137). -/
def execRsq (d a : BitVec 7) (s : State) : Host.Outcome State Fault Refusal := .next (wordTrans 1 d a s)

/-- SQRT (R137). -/
def execSqrt (d a : BitVec 7) (s : State) : Host.Outcome State Fault Refusal := .next (wordTrans 2 d a s)

/-- EXP2 (R137). -/
def execExp2 (d a : BitVec 7) (s : State) : Host.Outcome State Fault Refusal := .next (wordTrans 3 d a s)

/-- LOG2 (R137). -/
def execLog2 (d a : BitVec 7) (s : State) : Host.Outcome State Fault Refusal := .next (wordTrans 4 d a s)

/-- SINRV (R137). -/
def execSinrv (d a : BitVec 7) (s : State) : Host.Outcome State Fault Refusal := .next (wordTrans 5 d a s)

/-- COSRV (R137). -/
def execCosrv (d a : BitVec 7) (s : State) : Host.Outcome State Fault Refusal := .next (wordTrans 6 d a s)

/-- TANH (R137). -/
def execTanh (d a : BitVec 7) (s : State) : Host.Outcome State Fault Refusal := .next (wordTrans 7 d a s)

/-! ## Random draws (R138 to R142) -/

/-- The draw of a thread: key from the pair, counter, c2 from the team index and tid, stream word (R139). -/
def State.draw (s : State) (t : Team) (g : Nat) (th : Thread) (a : BitVec 7) (k : BitVec 5) : Word × Word × Word × Word :=
  let key := s.rdS2 t g k.toNat
  xr10 (key.setWidth 32) ((key >>> 32).setWidth 32) (th.draw.setWidth 32) ((th.draw >>> 32).setWidth 32)
    (BitVec.ofNat 32 (t.index * s.tpt t + th.tid)) (s.rdV t g th.lane a.toNat)

/-- A RNG word: the draw counter advances at issue, from the count that the word draws with (R32); the results come full/empty (R140,
R141). -/
def wordDraw (n : Nat) (out : Word × Word × Word × Word → List Word) (d : Nat) (a : BitVec 7) (k : BitVec 5) (s : State) :
    State :=
  let s' := laneProducer s.delay (fun t g th => .ok (quadWrites g th.lane d ((out (s.draw t g th a k)).take n))) s
  let drawn := fun (g : Group) (x : Thread) => ((s.readTeam.bind fun t => t.thread? g.gid x.lane).getD x).draw
  s'.modTeam s.cur.team fun t => t.modThreads s.members fun g x => { x with draw := drawn g x + 1 }

/-- RAND (R140). -/
def execRand (d a : BitVec 7) (k : BitVec 5) (s : State) : Host.Outcome State Fault Refusal :=
  .next (wordDraw 1 (fun x => [x.1]) d.toNat a k s)

/-- RANDF: (x0 >> 8) * 2^-24, exact (R140). -/
def execRandf (d a : BitVec 7) (k : BitVec 5) (s : State) : Host.Outcome State Fault Refusal :=
  .next (wordDraw 1 (fun x => [BitVec.ofNat 32 (roundTo fmtF32 0 false false (x.1 >>> 8).toNat (-24)).1]) d.toNat a k s)

/-- RAND4: the four words into vd to vd+3 (R140). -/
def execRand4 (d : BitVec 5) (a : BitVec 7) (k : BitVec 5) (s : State) : Host.Outcome State Fault Refusal :=
  .next (wordDraw 4 (fun x => [x.1, x.2.1, x.2.2.1, x.2.2.2]) (4 * d.toNat) a k s)

end Sys2Proof.Machine
end

