-- ==== Sys2Proof/Machine/Scalar.lean ====
section
/-! DEFINITION. Scalar words SALU, SADDI, SADDI64, SLUI, SCMP, QLOG, special registers SSR, and lane masks MASK (R110 to
R112, R124 to R128, R163 to R166). -/

namespace Sys2Proof.Machine

/-- A scalar result; `s0` discards it when written (R105). -/
def sWrite (g d : Nat) (x : Word) : List (RegId × DWord) := [(.s g d, x.setWidth 64)]

/-- A SALU word of two 32-bit sources (format S3, R124). -/
def wordSSS (lat : Nat) (op : Word → Word → Word) (d a b : BitVec 6) (s : State) : State :=
  groupWord lat (fun t g _ => sWrite g.gid d.toNat (op (s.rdS t g.gid a.toNat) (s.rdS t g.gid b.toNat))) s

/-- SADD (R116, R124). -/
def execSadd (d a b : BitVec 6) (s : State) : Host.Outcome State Fault Refusal :=
  .next (wordSSS Config.latSC aluAdd d a b s)

/-- SSUB (R116, R124). -/
def execSsub (d a b : BitVec 6) (s : State) : Host.Outcome State Fault Refusal :=
  .next (wordSSS Config.latSC aluSub d a b s)

/-- SMUL (R116, R124). -/
def execSmul (d a b : BitVec 6) (s : State) : Host.Outcome State Fault Refusal :=
  .next (wordSSS Config.latSlowSC aluMul d a b s)

/-- SMULHI32 (R116, R124). -/
def execSmulhI32 (d a b : BitVec 6) (s : State) : Host.Outcome State Fault Refusal :=
  .next (wordSSS Config.latSlowSC aluMulhS d a b s)

/-- SMULHN32 (R116, R124). -/
def execSmulhN32 (d a b : BitVec 6) (s : State) : Host.Outcome State Fault Refusal :=
  .next (wordSSS Config.latSlowSC aluMulhU d a b s)

/-- SAND (R116, R124). -/
def execSand (d a b : BitVec 6) (s : State) : Host.Outcome State Fault Refusal :=
  .next (wordSSS Config.latSC aluAnd d a b s)

/-- SOR (R116, R124). -/
def execSor (d a b : BitVec 6) (s : State) : Host.Outcome State Fault Refusal :=
  .next (wordSSS Config.latSC aluOr d a b s)

/-- SXOR (R116, R124). -/
def execSxor (d a b : BitVec 6) (s : State) : Host.Outcome State Fault Refusal :=
  .next (wordSSS Config.latSC aluXor d a b s)

/-- SSHL (R116, R124). -/
def execSshl (d a b : BitVec 6) (s : State) : Host.Outcome State Fault Refusal :=
  .next (wordSSS Config.latSC aluShl d a b s)

/-- SSHR (R116, R124). -/
def execSshr (d a b : BitVec 6) (s : State) : Host.Outcome State Fault Refusal :=
  .next (wordSSS Config.latSC aluShr d a b s)

/-- SSAR (R116, R124). -/
def execSsar (d a b : BitVec 6) (s : State) : Host.Outcome State Fault Refusal :=
  .next (wordSSS Config.latSC aluSar d a b s)

/-- SMINI32 (R116, R124). -/
def execSminI32 (d a b : BitVec 6) (s : State) : Host.Outcome State Fault Refusal :=
  .next (wordSSS Config.latSC aluMinS d a b s)

/-- SMAXI32 (R116, R124). -/
def execSmaxI32 (d a b : BitVec 6) (s : State) : Host.Outcome State Fault Refusal :=
  .next (wordSSS Config.latSC aluMaxS d a b s)

/-- SMINN32 (R116, R124). -/
def execSminN32 (d a b : BitVec 6) (s : State) : Host.Outcome State Fault Refusal :=
  .next (wordSSS Config.latSC aluMinU d a b s)

/-- SMAXN32 (R116, R124). -/
def execSmaxN32 (d a b : BitVec 6) (s : State) : Host.Outcome State Fault Refusal :=
  .next (wordSSS Config.latSC aluMaxU d a b s)

/-- SMOV (R116, R124). -/
def execSmov (d a : BitVec 6) (s : State) : Host.Outcome State Fault Refusal :=
  .next (groupWord Config.latSC (fun t g _ => sWrite g.gid d.toNat (s.rdS t g.gid a.toNat)) s)

/-- SADD64 (R124). -/
def execSadd64 (d a b : BitVec 5) (s : State) : Host.Outcome State Fault Refusal :=
  .next (groupWord Config.latSC (fun t g _ =>
    pairWrites g.gid d.toNat (s.rdS2 t g.gid a.toNat + s.rdS2 t g.gid b.toNat)) s)

/-- SSUB64 (R124). -/
def execSsub64 (d a b : BitVec 5) (s : State) : Host.Outcome State Fault Refusal :=
  .next (groupWord Config.latSC (fun t g _ =>
    pairWrites g.gid d.toNat (s.rdS2 t g.gid a.toNat - s.rdS2 t g.gid b.toNat)) s)

/-- SSHL64: by sb & 63 (R124). -/
def execSshl64 (d a : BitVec 5) (b : BitVec 6) (s : State) : Host.Outcome State Fault Refusal :=
  .next (groupWord Config.latSC (fun t g _ =>
    pairWrites g.gid d.toNat (s.rdS2 t g.gid a.toNat <<< ((s.rdS t g.gid b.toNat).toNat % 64))) s)

/-- SSHR64: by sb & 63, zero filled (R124). -/
def execSshr64 (d a : BitVec 5) (b : BitVec 6) (s : State) : Host.Outcome State Fault Refusal :=
  .next (groupWord Config.latSC (fun t g _ =>
    pairWrites g.gid d.toNat (s.rdS2 t g.gid a.toNat >>> ((s.rdS t g.gid b.toNat).toNat % 64))) s)

/-- SMULW: the 64-bit unsigned product (R124). -/
def execSmulw (d : BitVec 5) (a b : BitVec 6) (s : State) : Host.Outcome State Fault Refusal :=
  .next (groupWord Config.latSlowSC (fun t g _ =>
    pairWrites g.gid d.toNat ((s.rdS t g.gid a.toNat).setWidth 64 * (s.rdS t g.gid b.toNat).setWidth 64)) s)

/-- SADDI (R125). -/
def execSaddi (d a : BitVec 6) (i : BitVec 13) (s : State) : Host.Outcome State Fault Refusal :=
  .next (groupWord Config.latSC (fun t g _ => sWrite g.gid d.toNat (s.rdS t g.gid a.toNat + i.signExtend 32)) s)

/-- SLUI: sd := i << 13 (R125). -/
def execSlui (d : BitVec 6) (i : BitVec 19) (s : State) : Host.Outcome State Fault Refusal :=
  .next (groupWord Config.latSC (fun _ g _ => sWrite g.gid d.toNat (i.setWidth 32 <<< 13)) s)

/-- SADDI64 (R125). -/
def execSaddi64 (d a : BitVec 5) (i : BitVec 13) (s : State) : Host.Outcome State Fault Refusal :=
  .next (groupWord Config.latSC (fun t g _ => pairWrites g.gid d.toNat (s.rdS2 t g.gid a.toNat + i.signExtend 64)) s)

/-- SCMP: compares scalars or pairs into a uniform predicate (R126). -/
def execScmp (q : BitVec 3) (ty : BitVec 4) (a b : BitVec 6) (k : BitVec 4) (s : State) : Host.Outcome State Fault Refusal :=
  .next (groupWord Config.latSC (fun t g _ =>
    let x := s.rdS t g.gid a.toNat
    let y := s.rdS t g.gid b.toNat
    let xx := s.rdS2 t g.gid (a.toNat / 2)
    let yy := s.rdS2 t g.gid (b.toNat / 2)
    let r := match ty.toNat with
      | 0 => condInt k.toNat x.toInt y.toInt
      | 1 => condInt k.toNat x.toNat y.toNat
      | 5 => condInt k.toNat xx.toInt yy.toInt
      | _ => condInt k.toNat xx.toNat yy.toNat
    [(.q g.gid q.toNat, if r then 1 else 0)]) s)

/-- A uniform predicate source with its negation bit (R127). -/
def State.uniSrc (s : State) (t : Team) (g : Nat) (n : BitVec 3) (neg : BitVec 1) : Bool :=
  (s.rdQ t g n.toNat) != (neg == 1#1)

/-- A QLOG word of two sources (R127). -/
def wordQQQ (op : Bool → Bool → Bool) (d a b : BitVec 3) (x y : BitVec 1) (s : State) : State :=
  groupWord Config.latSC (fun t g _ =>
    [(.q g.gid d.toNat, if op (s.uniSrc t g.gid a x) (s.uniSrc t g.gid b y) then 1 else 0)]) s

/-- QAND (R127). -/
def execQand (d a b : BitVec 3) (x y : BitVec 1) (s : State) : Host.Outcome State Fault Refusal := .next (wordQQQ (· && ·) d a b x y s)

/-- QOR (R127). -/
def execQor (d a b : BitVec 3) (x y : BitVec 1) (s : State) : Host.Outcome State Fault Refusal := .next (wordQQQ (· || ·) d a b x y s)

/-- QXOR (R127). -/
def execQxor (d a b : BitVec 3) (x y : BitVec 1) (s : State) : Host.Outcome State Fault Refusal := .next (wordQQQ (· != ·) d a b x y s)

/-- QMOV (R127). -/
def execQmov (d a : BitVec 3) (x : BitVec 1) (s : State) : Host.Outcome State Fault Refusal :=
  .next (groupWord Config.latSC (fun t g _ => [(.q g.gid d.toNat, if s.uniSrc t g.gid a x then 1 else 0)]) s)

/-! ## Special registers (R110 to R112, R128) -/

/-- Quads of a context in which cores of a kind lie (R388): quad numbers 14 x die + quad. -/
def ctxQuads (c : Context) (k : Kind) : List Nat :=
  (List.range 112).filter fun q => c.quads.testBit q && (decide (q % 14 < 12) == (k == .dcore))

/-- `sr.ctxcores`: enabled cores of the kind in the context's quads (R110). -/
def State.ctxCores (s : State) (c : Context) (k : Kind) : Nat :=
  4 * ((ctxQuads c k).filter fun q => quadEnabled s.part.gradeA q).length

/-- The clock of a group as a sub-squad reads it: the core's own cycles, or in a DET context the logical count of its
lowest-lane thread (R112). -/
def State.clock (s : State) (t : Team) (g : Group) (lanes : List Nat) : DWord :=
  if s.isDet t then match lanes with
    | l :: _ => match g.thread? l with
      | some x => x.clock
      | none => 0
    | [] => 0
  else BitVec.ofNat 64 (s.ownCycle t.core)

/-- The low half of a register or its high half. -/
def halfOf (hi : Bool) (x : DWord) : Word := if hi then (x >>> 32).setWidth 32 else x.setWidth 32

/-- `sr.mode`: deterministic, narrow-wave, interlocked (R110). -/
def State.modeReg (s : State) (t : Team) : Word :=
  let i := match s.imageOf t with
    | some i => i.interlocked || i.forced
    | none => false
  BitVec.ofNat 32 ((if s.isDet t then 1 else 0) + (if s.narrow t then 2 else 0) + (if i then 4 else 0))

/-- `sr.core`: the physical core, or in a DET context the logical core of the placement plan, index modulo PLANCORES in the
team's order of start (R110, R112, R367). -/
def State.coreReg (s : State) (t : Team) : Word :=
  if s.isDet t then match s.launchOf t with
    | some l => BitVec.ofNat 32 (t.index % max 1 l.planCores)
    | none => 0
  else BitVec.ofNat 32 t.core

/-- The value `SSRR` reads from a special register (R110, R111). -/
def State.readSr (s : State) (t : Team) (g : Group) (lanes : List Nat) (n : Nat) : Word :=
  let launch := s.launchOf t
  let nteams := BitVec.ofNat 64 (match launch with
    | some l => l.nteams
    | none => 0)
  match n with
  | 0x000 => BitVec.ofNat 32 g.gid
  | 0x001 => halfOf false (BitVec.ofNat 64 t.index)
  | 0x002 => halfOf true (BitVec.ofNat 64 t.index)
  | 0x003 => halfOf false nteams
  | 0x004 => halfOf true nteams
  | 0x005 => BitVec.ofNat 32 (match launch with
    | some l => l.gpt
    | none => 0)
  | 0x006 => BitVec.ofNat 32 (s.tpt t)
  | 0x008 => halfOf false (s.clock t g lanes)
  | 0x009 => g.clockLatch
  | 0x00A => s.coreReg t
  | 0x00B => if t.kind == .lcore then 1 else 0
  | 0x00C => BitVec.ofNat 32 (Config.ncoresd s.part.gradeA)
  | 0x00D => BitVec.ofNat 32 Config.ncoresl
  | 0x00E => if s.isDet t then BitVec.ofNat 32 (match launch with
    | some l => l.planCores
    | none => 0) else 0
  | 0x00F => BitVec.ofNat 32 (match s.ctxOf t with
    | some c => s.ctxCores c t.kind
    | none => 0)
  | 0x010 => halfOf false t.tags
  | 0x011 => g.tagsLatch
  | 0x012 => halfOf false t.tagerr
  | 0x013 => g.tagerrLatch
  | 0x018 => halfOf false g.tvec
  | 0x019 => halfOf true g.tvec
  | 0x020 => t.world
  | 0x030 => s.part.stepping
  | 0x031 => s.modeReg t
  | 0x032 => t.trayage
  | n => if 0x028 ≤ n ∧ n ≤ 0x02F then (s.part.accepted >>> (32 * (n - 0x028))).setWidth 32 else 0

/-- A 32-bit value as a word takes it that issues at this moment: within the latency of the word that writes it an undefined choice of
the old and the new value (R49, R106, R111; log entry 4). -/
def State.lateValue (s : State) (t : Team) (gid n : Nat) (new : Word) : Word := match s.srWindow t gid n with
  | some w => if Config.freeBit s.fresh (regCode (.sr gid n)) then new else w.old.setWidth 32
  | none => new

/-- The number of the read latch that an `SSRR` of a pair's low number writes, its value so far, and the high half it takes (R111). -/
def State.latching (s : State) (t : Team) (g : Group) (clock : DWord) (n : Nat) : Option (Nat × Word × Word) :=
  match n with
  | 0x008 => some (0x208, g.clockLatch, halfOf true clock)
  | 0x010 => some (0x210, g.tagsLatch, halfOf true t.tags)
  | 0x012 => some (0x212, g.tagerrLatch, s.lateValue t g.gid 0x213 (halfOf true t.tagerr))
  | _ => none

/-- A group with a read latch written (R111). -/
def Group.latch (g : Group) (n : Nat) (x : Word) : Group :=
  match n with
  | 0x208 => { g with clockLatch := x }
  | 0x210 => { g with tagsLatch := x }
  | 0x212 => { g with tagerrLatch := x }
  | _ => g

/-- An `SSRR` of a pair's low number latches the high half, which words that issue 4 cycles later read (R111). -/
def State.latchPair (s : State) (team : Nat) (t : Team) (g : Group) (lanes : List Nat) (n : Nat) : State :=
  match s.latching t g (s.clock t g lanes) n with
  | none => s
  | some (k, old, x) =>
    let w : Window := { reg := .sr g.gid k, old := old.setWidth 64, ready := some (s.now + Config.latSlowSC) }
    s.modTeam team fun u => { (u.modGroup g.gid fun y => y.latch k x) with windows := u.windows ++ [w] }

/-- The value `SSRR` returns (R106, R110, R111). -/
def State.srValue (s : State) (t : Team) (g : Group) (lanes : List Nat) (n : Nat) : Word :=
  s.lateValue t g.gid ((srTaken n).headD n) (s.readSr t g lanes n)

/-- A team observes some tags set: fills that they tell complete are seen by the rounds that follow an `OFENCE` (R230, R231). -/
def State.observeTags (s : State) (team : Nat) (m : DWord) : State :=
  let see := fun (f : Fill) => if f.tags.any fun t => m.getLsbD t then { f with seen := true } else f
  s.modTeam team fun t =>
    if t.slots.isEmpty then t else { t with slots := t.slots.map fun x => { x with fills := x.fills.map see } }

/-- SSRR: reads a special register into a scalar, and latches the high half of a pair (R111, R128); a read of `sr.tags` observes the
tags that are set (R230). -/
def execSsrr (k : BitVec 6) (r : BitVec 12) (s : State) : Host.Outcome State Fault Refusal :=
  let s' := groupWord Config.latSlowSC (fun t g lanes => sWrite g.gid k.toNat (s.srValue t g lanes r.toNat)) s
  let s' := match s.readTeam with
    | some t => if r = 0x010 then s'.observeTags t.key t.tags else s'
    | none => s'
  .next (match s.readTeam with
    | none => s'
    | some t => s.curGids.foldl (fun x gid => match t.group? gid with
      | some g => x.latchPair s.cur.team t g (s.lanesOf gid) r.toNat
      | none => x) s')

/-- The team with a special register of a group written: tag errors clear the bits written as 1, the low half of `sr.tvec`
goes to its latch and lands with the high half, `sr.trayage` keeps 16 bits and takes 0 as 1 (R110, R111, R128). -/
def Team.writeSr (t : Team) (gid n : Nat) (x : Word) : Team :=
  match n with
  | 0x012 => { t with tagerr := t.tagerr &&& ~~~(x.setWidth 64) }
  | 0x013 => { t with tagerr := t.tagerr &&& ~~~(x.setWidth 64 <<< 32) }
  | 0x018 => t.modGroup gid fun g => { g with tvecLatch := x }
  | 0x019 => t.modGroup gid fun g => { g with tvec := x ++ g.tvecLatch }
  | 0x032 => { t with trayage := x &&& 0xFFFF#32 }
  | _ => t

/-- The numbers under which an `SSRW`'s windows stand: the register, the low half that an `SSRW` of `tvechi` writes with it, and,
as the model's own numbers, the write latch (0x118), the whole of `sr.tvec` (0x119) and the high half of the tag errors (0x213)
(R111). -/
def srWritten (n : Nat) : List Nat :=
  if n = 0x018 then [0x118] else if n = 0x013 then [0x213] else if n = 0x019 then [0x018, 0x019, 0x119] else [n]

/-- The value before an `SSRW` under one of those numbers. -/
def State.srOld (s : State) (t : Team) (g : Group) (lanes : List Nat) (n : Nat) : DWord :=
  match n with
  | 0x118 => g.tvecLatch.setWidth 64
  | 0x119 => g.tvec
  | 0x213 => (halfOf true t.tagerr).setWidth 64
  | _ => (s.readSr t g lanes n).setWidth 64

/-- The write latch of `sr.tvec` as an `SSRW` of `tvechi` takes it (R49, R111). -/
def State.latchValue (s : State) (t : Team) (g : Group) : Word := s.lateValue t g.gid 0x118 g.tvecLatch

/-- An `SSRW` word: the effect can be read 4 cycles later (R111, R128). -/
def wordSsrw (k : BitVec 6) (r : BitVec 12) (s : State) : State :=
  match s.readTeam with
  | none => s
  | some t =>
    let windows := s.curGids.flatMap fun gid => match t.group? gid with
      | some g => (srWritten r.toNat).map fun n =>
          ({ reg := .sr gid n, old := s.srOld t g (s.lanesOf gid) n, ready := some (s.now + Config.latSlowSC) } : Window)
      | none => []
    let latch := fun (u : Team) (gid : Nat) => match t.group? gid with
      | some g => if r.toNat = 0x019 then u.modGroup gid fun y => { y with tvecLatch := s.latchValue t g } else u
      | none => u
    s.modTeam s.cur.team fun u =>
      let u := s.curGids.foldl (fun u g => (latch u g).writeSr g r.toNat (s.rdS t g k.toNat)) u
      { u with windows := u.windows ++ windows }

/-! ## Lane masks (R163 to R165) -/

/-- Mask bits a group has: in narrow-wave bits 63:32 read as 0 and ignore writes (R163). -/
def State.maskBits (s : State) (t : Team) (x : DWord) : DWord := if s.narrow t then x &&& 0xFFFFFFFF#64 else x

/-- What the words issued in this cycle do to a mask (R165). -/
def Team.maskNow (t : Team) (now gid m : Nat) : MaskLog :=
  (t.maskLog.find? fun x => x.gid == gid && x.m == m && x.cycle == now).getD
    { gid := gid, m := m, cycle := now, set := 0, clr := 0, whole := none }

/-- The team with that noted; what earlier cycles did is forgotten. -/
def Team.noteMask (t : Team) (x : MaskLog) : Team :=
  { t with maskLog := x :: t.maskLog.filter fun y => y.cycle == x.cycle && !(y.gid == x.gid && y.m == x.m) }

/-- `JOIN` and `LEAVE` on a mask of a group: some bits are set, others cleared (R164, R165). -/
def Team.maskBits (t : Team) (now gid m : Nat) (set clr : DWord) : Team :=
  let x := t.maskNow now gid m
  (Team.write now Config.latSC t (.m gid m, (t.peek (.m gid m) ||| set) &&& ~~~clr)).noteMask
    { x with set := (x.set ||| set) &&& ~~~clr, clr := (x.clr ||| clr) &&& ~~~set }

/-- A whole-mask write of a group: the bit changes of the same cycle are applied after it; of two whole-mask writes of one cycle an
undefined choice stays (R165; log entry 4). -/
def Team.maskWhole (t : Team) (now fresh gid m : Nat) (v : DWord) : Team :=
  let x := t.maskNow now gid m
  let v := match x.whole with
    | some old => if Config.freeBit fresh (regCode (.m gid m)) then v else old
    | none => v
  (Team.write now Config.latSC t (.m gid m, (v ||| x.set) &&& ~~~x.clr)).noteMask { x with whole := some v }

/-- A word that writes a mask, performed once for each group (R106, R150). -/
def maskWord (f : Team → Group → List Nat → Team → Team) (s : State) : State :=
  match s.readTeam with
  | none => s
  | some t => s.modTeam s.cur.team fun u => s.curGids.foldl (fun u g => match t.group? g with
      | some gr => f t gr (s.lanesOf g) u
      | none => u) u

/-- JOIN: the bits of the issuing threads become 1 (R164, R165). -/
def execJoin (m : BitVec 4) (s : State) : Host.Outcome State Fault Refusal :=
  .next (maskWord (fun _ g lanes u => u.maskBits s.now g.gid m.toNat (laneMask lanes) 0) s)

/-- LEAVE: the bits of the issuing threads become 0 (R164, R165). -/
def execLeave (m : BitVec 4) (s : State) : Host.Outcome State Fault Refusal :=
  .next (maskWord (fun _ g lanes u => u.maskBits s.now g.gid m.toNat 0 (laneMask lanes)) s)

/-- MSET: mask := pair (R164). -/
def execMset (m : BitVec 4) (k : BitVec 5) (s : State) : Host.Outcome State Fault Refusal :=
  .next (maskWord (fun t g _ u => u.maskWhole s.now s.fresh g.gid m.toNat (s.maskBits t (s.rdS2 t g.gid k.toNat))) s)

/-- MGET: pair := mask (R164). -/
def execMget (m : BitVec 4) (k : BitVec 5) (s : State) : Host.Outcome State Fault Refusal :=
  .next (groupWord Config.latSC (fun t g _ => pairWrites g.gid k.toNat (s.rdM t g.gid m.toNat)) s)

/-- A MASK word of two masks (R164). -/
def wordMask (op : DWord → DWord → DWord) (m n : BitVec 4) (s : State) : State :=
  maskWord (fun t g _ u => u.maskWhole s.now s.fresh g.gid m.toNat (op (s.rdM t g.gid m.toNat) (s.rdM t g.gid n.toNat))) s

/-- MAND (R164). -/
def execMand (m n : BitVec 4) (s : State) : Host.Outcome State Fault Refusal := .next (wordMask (· &&& ·) m n s)

/-- MOR (R164). -/
def execMor (m n : BitVec 4) (s : State) : Host.Outcome State Fault Refusal := .next (wordMask (· ||| ·) m n s)

/-- MANDN (R164). -/
def execMandn (m n : BitVec 4) (s : State) : Host.Outcome State Fault Refusal := .next (wordMask (fun x y => x &&& ~~~y) m n s)

/-- MPOPC: number of set bits (R164). -/
def execMpopc (m : BitVec 4) (k : BitVec 6) (s : State) : Host.Outcome State Fault Refusal :=
  .next (groupWord Config.latSC (fun t g _ =>
    let x := s.rdM t g.gid m.toNat
    sWrite g.gid k.toNat (BitVec.ofNat 32 ((List.range 64).countP fun i => x.getLsbD i))) s)

/-- MSELF: pair := lanes of the issuing sub-squad (R164). -/
def execMself (k : BitVec 5) (s : State) : Host.Outcome State Fault Refusal :=
  .next (groupWord Config.latSC (fun _ g lanes => pairWrites g.gid k.toNat (laneMask lanes)) s)

/-- WAITM: the squad waits until the release condition of R166 holds for all its threads; a thread whose bit is clear does
not wait for the others (R166). -/
def execWaitm (m : BitVec 4) (s : State) : Host.Outcome State Fault Refusal :=
  match s.passed with
  | some _ => .next s
  | none => .next (s.waitOn (.mask m.toNat))

end Sys2Proof.Machine
end

