-- ==== Sys2Proof/Machine/Collective.lean ====
section
/-! DEFINITION. Collective lane operations VSHUF (R167 to R172). A thread that reaches one arrives and waits; when every
member of `m0` of its group waits at the same word, the operation is performed once over them, and each squad's next issue
of the word writes the results. -/

namespace Sys2Proof.Machine

/-- One participant: its lane and the operands its word names, a value, an index and a predicate (R169, R170). -/
structure Part1 where
  lane : Nat
  x : Word
  n : Word
  p : Bool

/-- The participant at a lane. -/
def partAt (ps : List Part1) (l : Nat) : Option Part1 := ps.find? fun p => p.lane == l

/-- Source lane of a shuffle, if it lies within the group's lanes (R169). -/
def shuffleSource (f lane n width : Nat) : Option Nat :=
  let r : Int := match f with
    | 0 => n
    | 1 => (lane : Int) - n
    | 2 => (lane : Int) + n
    | _ => (lane ^^^ n : Nat)
  if 0 ≤ r ∧ r < width then some r.toNat else none

/-- What each participant of a shuffle receives (R169). -/
def shuffle (f width : Nat) (ps : List Part1) : List (Nat × Word) :=
  ps.map fun p =>
    let got := (shuffleSource f p.lane (p.n.toNat % width) width).bind (partAt ps)
    (p.lane, match got with
      | some q => q.x
      | none => p.x)

/-- The fixed tree of R99 over a list of 2^k values: neighbours are combined level by level, the lower lane on the left. -/
def tree {α : Type} (op : α → α → α) (d : α) : Nat → List α → α
  | 0, l => l.headD d
  | k + 1, l => tree op d k ((List.range (l.length / 2)).map fun i => op (l.getD (2 * i) d) (l.getD (2 * i + 1) d))

/-- Reduction of the participants with identities elsewhere (R99, R171). -/
def reduce (op : Nat → Nat → Nat) (identity : Nat) (ps : List Part1) : Nat :=
  tree op identity 6 ((List.range 64).map fun l => match partAt ps l with
    | some p => p.x.toNat
    | none => identity)

/-- Inclusive scan in lane order (R100, R171). -/
def scan (op : Nat → Nat → Nat) (identity : Nat) (ps : List Part1) : List (Nat × Word) :=
  ((List.range 64).foldl (fun (acc : Nat × List (Nat × Word)) l => match partAt ps l with
    | some p =>
      let a := op acc.1 p.x.toNat
      (a, acc.2 ++ [(l, BitVec.ofNat 32 a)])
    | none => acc) (identity, [])).2

/-- Sum modulo 2^32. -/
def addN32 (x y : Nat) : Nat := (x + y) % 4294967296

/-- FMAX and FMIN by R79 without FTZ (R99 Table 10, R101). -/
def maxF32 (x y : Nat) : Nat := (fpMinMax fmtF32 false true x y).1
def minF32 (x y : Nat) : Nat := (fpMinMax fmtF32 false false x y).1

/-- What every participant of a VSHUF sub-op receives (R169 to R171): a register value, or for a vote 0 or 1. -/
def collective (f width : Nat) (ps : List Part1) : List (Nat × Word) :=
  let all := fun (x : Nat) => ps.map fun p => (p.lane, BitVec.ofNat 32 x)
  match f with
  | 0 | 1 | 2 | 3 => shuffle f width ps
  | 4 => all (if ps.any fun p => p.p then 1 else 0)
  | 5 => all (if ps.all fun p => p.p then 1 else 0)
  | 6 => ps.map fun p => (p.lane, if p.p then 1 else 0)
  | 7 => all (reduce addN32 0 ps)
  | 8 => all (reduce addF32 0x80000000 ps)
  | 9 => all (reduce maxF32 0x7FC00000 ps)
  | 10 => all (reduce minF32 0x7FC00000 ps)
  | 11 => scan addN32 0 ps
  | _ => scan addF32 0x80000000 ps

/-- Sub-op, value register, index register and predicate of a VSHUF word (R168). -/
def shufFields (w : Word) : Nat × Nat × Nat × Nat :=
  (bits w.toNat 3 0, bits w.toNat 17 11, bits w.toNat 10 4, bits w.toNat 13 11)

/-- The participant a thread makes at a VSHUF word (R169, R170). -/
def State.partOf (s : State) (t : Team) (g l : Nat) (w : Word) : Part1 :=
  let f := shufFields w
  { lane := l, x := s.rdV t g l f.2.1, n := s.rdV t g l f.2.2.1, p := s.rdP t g l (f.2.2.2 % 8) }

/-- The threads of a group that wait at a collective word, with the PC of the word (R167). -/
def Team.collWaiters (t : Team) (gid : Nat) : List (DWord × Word × Nat) :=
  t.squads.flatMap fun q => match q.wait with
    | some w => match w.on with
      | .collective => (w.iss.members.filter fun m => q.members.contains m && m.1 == gid
          && !(w.got.any fun r => r.1 == m.1 && r.2.1 == m.2)).map fun m => (w.iss.pc, w.iss.word, m.2)
      | _ => []
    | none => []

/-- Record the results of one performance for the squads whose threads took part; a squad whose threads all hold one goes on
(R149, R167). -/
def Team.collResults (t : Team) (rs : List (Nat × Nat × Nat)) : Team :=
  let give := fun (q : Squad) => match q.wait with
    | some w => match w.on with
      | .collective =>
        let got := w.got ++ rs.filter (fun r => q.members.contains (r.1, r.2.1))
        let q' := { q with wait := some { w with got := got } }
        if q.members.all (fun m => got.any fun r => r.1 == m.1 && r.2.1 == m.2) then q'.grant got else q'
      | _ => q
    | none => q
  { t with squads := t.squads.map give }

/-- Perform one collective word over participants of a group: results for each, and for a BALLOT the group's pair, bit l for a
participant at lane l whose predicate is true (R170). -/
def State.performColl (s : State) (team gid : Nat) (w : Word) (lanes : List Nat) : State :=
  match s.team? team with
  | none => s
  | some t =>
    let f := (shufFields w).1
    let rs := (collective f (s.width t) ((sortBy (fun a b => decide (a ≤ b)) lanes).map fun l => s.partOf t gid l w)).map
      fun r => (gid, r.1, r.2.toNat)
    let t' := t.collResults rs
    let pair := if f = 6 then
        pairWrites gid (bits w.toNat 23 18 / 2) (laneMask ((rs.filter fun r => r.2.2 != 0).map fun r => r.2.1))
      else []
    s.modTeam team fun _ => pair.foldl (Team.write s.now Config.latColl) t'

/-- Perform the collectives of a group that are complete: a waiting thread whose bit of `m0` is clear acts alone; the waiting
members of one word act together when every member of `m0` waits there (R167). -/
def State.collectives (s : State) (team gid : Nat) : State :=
  match s.team? team with
  | none => s
  | some t =>
    let m0 := t.landed s.now (.m gid 0)
    let waiting := t.collWaiters gid
    let s := (waiting.filter fun w => !m0.getLsbD w.2.2).foldl (fun s w => s.performColl team gid w.2.1 [w.2.2]) s
    (uniq (waiting.map fun w => w.1)).foldl (fun s pc =>
      let here := waiting.filter fun w => w.1 == pc && m0.getLsbD w.2.2
      match here with
      | [] => s
      | w :: _ =>
        if (List.range 64).all fun l => !m0.getLsbD l || here.any fun w => w.2.2 == l then
          s.performColl team gid w.2.1 (here.map fun x => x.2.2)
        else s) s

/-- A VSHUF word with a vector destination: arrives and waits, or writes its results (R167). -/
def wordColl (d : Nat) (s : State) : State :=
  match s.passed with
  | none => s.waitOn .collective
  | some got => s.modTeam s.cur.team fun t =>
      ((got.filter fun r => s.members.contains (r.1, r.2.1)).map fun r =>
        (RegId.v r.1 r.2.1 d, BitVec.ofNat 64 r.2.2)).foldl (Team.write s.now Config.latColl) t

/-- A vote: the result is a predicate (R170). -/
def wordVote (d : Nat) (s : State) : State :=
  match s.passed with
  | none => s.waitOn .collective
  | some got => s.modTeam s.cur.team fun t =>
      ((got.filter fun r => s.members.contains (r.1, r.2.1)).map fun r =>
        (RegId.p r.1 r.2.1 d, BitVec.ofNat 64 r.2.2)).foldl (Team.write s.now Config.latColl) t

/-- SHFL (R169). -/
def execShfl (d _a _b : BitVec 7) (s : State) : Host.Outcome State Fault Refusal := .next (wordColl d.toNat s)

/-- SHFLUP (R169). -/
def execShflup (d _a _b : BitVec 7) (s : State) : Host.Outcome State Fault Refusal := .next (wordColl d.toNat s)

/-- SHFLDN (R169). -/
def execShfldn (d _a _b : BitVec 7) (s : State) : Host.Outcome State Fault Refusal := .next (wordColl d.toNat s)

/-- SHFLX (R169). -/
def execShflx (d _a _b : BitVec 7) (s : State) : Host.Outcome State Fault Refusal := .next (wordColl d.toNat s)

/-- VANY (R170). -/
def execVany (d _a : BitVec 3) (s : State) : Host.Outcome State Fault Refusal := .next (wordVote d.toNat s)

/-- VALL (R170). -/
def execVall (d _a : BitVec 3) (s : State) : Host.Outcome State Fault Refusal := .next (wordVote d.toNat s)

/-- BALLOT: the pair is written when the operation is performed (R170). -/
def execBallot (_d : BitVec 6) (_a : BitVec 3) (s : State) : Host.Outcome State Fault Refusal :=
  match s.passed with
  | none => .next (s.waitOn .collective)
  | some _ => .next s

/-- REDADD_I32 (R171). -/
def execRedaddI32 (d _a : BitVec 7) (s : State) : Host.Outcome State Fault Refusal := .next (wordColl d.toNat s)

/-- REDADD_F32 (R171). -/
def execRedaddF32 (d _a : BitVec 7) (s : State) : Host.Outcome State Fault Refusal := .next (wordColl d.toNat s)

/-- REDMAX_F32 (R171). -/
def execRedmaxF32 (d _a : BitVec 7) (s : State) : Host.Outcome State Fault Refusal := .next (wordColl d.toNat s)

/-- REDMIN_F32 (R171). -/
def execRedminF32 (d _a : BitVec 7) (s : State) : Host.Outcome State Fault Refusal := .next (wordColl d.toNat s)

/-- SCANADD_I32 (R171). -/
def execScanaddI32 (d _a : BitVec 7) (s : State) : Host.Outcome State Fault Refusal := .next (wordColl d.toNat s)

/-- SCANADD_F32 (R171). -/
def execScanaddF32 (d _a : BitVec 7) (s : State) : Host.Outcome State Fault Refusal := .next (wordColl d.toNat s)

end Sys2Proof.Machine
end

