-- ==== Sys2Proof/Machine/Control.lean ====
section
/-! DEFINITION. Control transfer BRA, BRP, BRQ, CALL, CALLR, JMPR, RET (R151 to R155), trays REFORM and YIELD (R157 to R161),
and the return stack (R113, R114). -/

namespace Sys2Proof.Machine

/-- Target of a direct transfer: the word's address + 4 x the signed offset (R151). -/
def State.branchTarget {w : Nat} (s : State) (o : BitVec w) : DWord := s.cur.pc + 4 * o.signExtend 64

/-- May a target be transferred to in the running encoding: in a D-packet only a slot-0 address (R22)? In the L-stream the spec calls
any word address a legal target (R40) and says nothing of an address that is not a multiple of 4: that the model takes it without a
trap, and fetches the 4 bytes there, is the model's choice (DESIGN CHOICE, log entry 13). -/
def targetOk (t : Team) (pc : DWord) : Bool := t.kind == .lcore || pc.toNat % 16 == 4

/-- Threads (gid, lane, target) go to their targets; they execute no later word of the packet (R23). -/
def State.goTo (s : State) (ts : List (Nat × Nat × DWord)) : State :=
  let s := s.modTeam s.cur.team fun u => ts.foldl (fun u x => u.modThread x.1 x.2.1 fun th => { th with pc := x.2.2 }) u
  { s with cur := { s.cur with gone := s.cur.gone ++ ts.map fun x => (x.1, x.2.1) } }

/-- Transfer threads (gid, lane, target): each whose target is bad raises `BADTARGET` with the target and keeps its PC, the
others go; `more` are traps of other threads of the word, taken with these (R22, R149, R154). -/
def State.transfer (s : State) (ts : List (Nat × Nat × DWord)) (more : List (Nat × Nat × Nat × DWord) := []) : State :=
  match s.curTeam with
  | none => s
  | some t =>
    let bad := ts.filter fun x => !targetOk t x.2.2
    (s.goTo (ts.filter fun x => targetOk t x.2.2)).takeTraps (bad.map (fun x => (x.1, x.2.1, cBadtarget, x.2.2)) ++ more)

/-- BRA: every executing thread (R151). -/
def execBra (o : BitVec 25) (s : State) : Host.Outcome State Fault Refusal :=
  .next (s.transfer (s.members.map fun m => (m.1, m.2, s.branchTarget o)))

/-- BRP: each thread for which p[p] xor neg is true (R151). -/
def execBrp (n : BitVec 1) (p : BitVec 3) (o : BitVec 21) (s : State) : Host.Outcome State Fault Refusal :=
  match s.readTeam with
  | none => .next s
  | some t => .next (s.transfer ((s.members.filter fun m => s.predSrc t m.1 m.2 p n).map fun m =>
      (m.1, m.2, s.branchTarget o)))

/-- BRQ: every executing thread of a group whose q[q] xor neg is true (R151). -/
def execBrq (n : BitVec 1) (q : BitVec 3) (o : BitVec 21) (s : State) : Host.Outcome State Fault Refusal :=
  match s.readTeam with
  | none => .next s
  | some t => .next (s.transfer ((s.members.filter fun m => s.uniSrc t m.1 q n).map fun m =>
      (m.1, m.2, s.branchTarget o)))

/-! ## The return stack (R113, R152) -/

/-- The PC pushed by a call: in the D-packet encoding slot 0 of the next packet, in the L-stream the next word (R152). -/
def State.returnPc (s : State) (t : Team) : DWord :=
  match t.kind with
  | .dcore => BitVec.ofNat 64 (s.cur.pc.toNat / 16 * 16 + 20)
  | .lcore => s.cur.pc + 4

/-- Private bytes of a spilled entry (R113). -/
def spillOff (th : Thread) (e : Nat) : Nat := th.rsp.toNat + 8 * e

/-- Does a call (`true`) or a return of some threads wait for the move of a page of their spilled entries (R113, R191)? -/
def State.stackMoves (s : State) (t : Team) (ms : List (Nat × Nat)) (push : Bool) : Bool :=
  !s.moves.isEmpty && ms.any fun m => (t.thread? m.1 m.2).any fun th =>
    let e := if push then th.depth - 8 else th.depth - 9
    th.depth ≥ (if push then 8 else 9) && s.privMoves t th push (spillOff th e) 8

/-- Push in one thread: with 8 entries held, the oldest is spilled first (R113). The result is the new state, or the fault of
the spill and its address. -/
def State.push (s : State) (t : Team) (gid : Nat) (th : Thread) (x : DWord) : Except (AFault × Nat) State :=
  let keep := fun (st : List DWord) (s : State) => s.modThread t.key gid th.lane fun y =>
    { y with stack := x :: st, depth := y.depth + 1, unsure := min y.unsure (th.depth - 8) }
  if th.depth < 8 then .ok (keep th.stack s)
  else match s.privRange t th.tid .store (spillOff th (th.depth - 8)) 8 with
    | .error e => .error e
    | .ok sp => .ok (keep (th.stack.take 7) (s.putPriv t.key sp (leBytes 8 (th.stack.getD 7 0).toNat)))

/-- A 64-bit value that the spec leaves undefined (log entry 4). -/
def freeDWord (fresh k : Nat) : DWord := Config.freeWord fresh (2 * k) ++ Config.freeWord fresh (2 * k + 1)

/-- Pop in one thread that has entries: the top, and with more than 8 entries the refill of the oldest (R113). A refill of an entry
that was spilled before rsp changed has an undefined value (R114). -/
def State.pop (s : State) (t : Team) (gid : Nat) (th : Thread) : Except (AFault × Nat) (DWord × State) :=
  let top := th.stack.headD 0
  let keep := fun (st : List DWord) => s.modThread t.key gid th.lane fun y =>
    { y with stack := st, depth := y.depth - 1, unsure := min y.unsure (th.depth - 9) }
  if th.depth ≤ 8 then .ok (top, keep (th.stack.drop 1))
  else match s.privRange t th.tid .load (spillOff th (th.depth - 9)) 8 with
    | .error e => .error e
    | .ok sp =>
      let old := BitVec.ofNat 64 (s.readSpots t { team := t.key, gid := gid, lane := th.lane } sp)
      let old := if th.depth - 9 < th.unsure then freeDWord s.fresh (gid * 64 + th.lane) else old
      .ok (top, keep (th.stack.drop 1 ++ [old]))

/-- A call of threads (gid, lane, target): the return PC is pushed in each thread that transfers; a bad target or a spill
fault has no effect in its thread (R114, R152). A spill to a page under a move waits (R191). -/
def State.callTo (s : State) (ts : List (Nat × Nat × DWord)) : State :=
  match s.curTeam with
  | none => s
  | some t =>
    if !s.cur.cleared && s.stackMoves t (ts.map fun x => (x.1, x.2.1)) true then s.retryWord else
    let ret := s.returnPc t
    let bad := ts.filter fun x => !targetOk t x.2.2
    let (s, done, faults) := (ts.filter fun x => targetOk t x.2.2).foldl
      (fun (p : State × List (Nat × Nat × DWord) × List (Nat × Nat × Nat × AFault)) x =>
        match t.thread? x.1 x.2.1 with
        | none => p
        | some th => match p.1.push t x.1 th ret with
          | .ok s' => (s', p.2.1 ++ [x], p.2.2)
          | .error e => (p.1, p.2.1, p.2.2 ++ [(x.1, x.2.1, e.2, e.1)])) (s, [], [])
    ((s.transfer done).transfer bad).accessFaults faults

/-- CALL (R151, R152). -/
def execCall (o : BitVec 25) (s : State) : Host.Outcome State Fault Refusal :=
  .next (s.callTo (s.members.map fun m => (m.1, m.2, s.branchTarget o)))

/-- CALLR: each thread's target is its own pair (R153, R154). -/
def execCallr (a : BitVec 6) (s : State) : Host.Outcome State Fault Refusal :=
  match s.readTeam with
  | none => .next s
  | some t => .next (s.callTo (s.members.map fun m => (m.1, m.2, s.rdV2 t m.1 m.2 (2 * a.toNat))))

/-- JMPR (R153, R154). -/
def execJmpr (a : BitVec 6) (s : State) : Host.Outcome State Fault Refusal :=
  match s.readTeam with
  | none => .next s
  | some t => .next (s.transfer (s.members.map fun m => (m.1, m.2, s.rdV2 t m.1 m.2 (2 * a.toNat))))

/-- RET: pops in each thread and transfers; an empty stack raises `RSTACK`; after a bad popped PC the entry stays popped
(R155). -/
def execRet (s : State) : Host.Outcome State Fault Refusal :=
  match s.curTeam with
  | none => .next s
  | some t =>
    if !s.cur.cleared && s.stackMoves t s.members false then .next s.retryWord else
    let ths := s.members.filterMap fun m => (t.thread? m.1 m.2).map fun th => (m.1, th)
    let empty := ths.filter fun x => x.2.depth = 0
    let (s, go, faults) := (ths.filter fun x => x.2.depth ≠ 0).foldl
      (fun (p : State × List (Nat × Nat × DWord) × List (Nat × Nat × Nat × AFault)) x =>
        match p.1.pop t x.1 x.2 with
        | .ok (pc, s') => (s', p.2.1 ++ [(x.1, x.2.lane, pc)], p.2.2)
        | .error e => (p.1, p.2.1, p.2.2 ++ [(x.1, x.2.lane, e.2, e.1)])) (s, [], [])
    .next ((s.transfer go (empty.map fun x => (x.1, x.2.lane, cRstack, 0))).accessFaults faults)

/-! ## Trays (R157 to R161) -/

/-- File threads of the executing squad at the slot after the word; those a tray takes leave the squad, and where no tray is free
they go on past the word (R158). For a squad of several groups, each group is filed on its own, in the order of R150: where the
trays suffice for some groups only, those are filed and the others go on as the squad, which is the model's choice (DESIGN CHOICE, log
entry 14); the spec says only that the squad is not ended when no tray is free. -/
def State.fileMembers (s : State) (ms : List (Nat × Nat)) (perGroup yielded : Bool) : State :=
  match s.curTeam with
  | none => s
  | some t =>
    let s1 := s.setPcs s.cur.team ms fun _ _ => nextSlot t.kind s.cur.pc
    let filed := ms.foldl (fun (p : Option State) m => p.bind fun s => s.file s.cur.team m.1 m.2 perGroup yielded) (some s1)
    match filed with
    | none => s
    | some s' => s'.modTeam s.cur.team fun t => t.leaveSquads ms

/-- REFORM.G: each thread into the tray of its next PC and its group (R158). -/
def execReformG (s : State) : Host.Outcome State Fault Refusal :=
  .next (s.curGids.foldl (fun x g => x.fileMembers (s.members.filter fun m => m.1 == g) true false) s)

/-- REFORM.T: each thread into the tray of its next PC (R158). -/
def execReformT (s : State) : Host.Outcome State Fault Refusal := .next (s.fileMembers s.members false false)

/-- YIELD: as REFORM.G, drawn under rule 3 only after the others of the scheduler (R161). -/
def execYield (s : State) : Host.Outcome State Fault Refusal :=
  .next (s.curGids.foldl (fun x g => x.fileMembers (s.members.filter fun m => m.1 == g) true true) s)

end Sys2Proof.Machine
end

