-- ==== Sys2Proof/Machine/Arrays.lean ====
section
/-! DEFINITION. The arrays of a core and what of them is reserved for a team: the scratchpad SRAM and the physical operand slots
(R13, R144, R176, R257, R258). -/

namespace Sys2Proof.Machine

/-! ## Sizes (R13, R459) -/

/-- What a core of a kind holds: threads, register bytes, slots, tiles, array bytes (R13, R459). -/
def coreHolds (k : Kind) : List Nat := match k with
  | .dcore => [2048, 524288, 32, 8, 448 * 1024]
  | .lcore => [512, 262144, 4, 2, 192 * 1024]

/-- Groups a core of a kind holds (R13). -/
def coreGroups (k : Kind) : Nat := match k with
  | .dcore => 16
  | .lcore => 8

/-! ## Reservations (R144, R176, R257; log entry 17) -/

/-- The free pieces of an array of `cap` bytes from `lo` on, given the reserved ones in rising order. -/
def freePieces (cap : Nat) : List (Nat × Nat) → Nat → List (Nat × Nat)
  | [], lo => if lo < cap then [(lo, cap - lo)] else []
  | p :: ps, lo => (if lo < p.1 then [(lo, p.1 - lo)] else []) ++ freePieces cap ps (max lo (p.1 + p.2))

/-- The first `n` bytes of some pieces. -/
def takePieces : Nat → List (Nat × Nat) → List (Nat × Nat)
  | _, [] => []
  | n, p :: ps => if n = 0 then [] else (p.1, min n p.2) :: takePieces (n - p.2) ps

/-- The place in its core's array of a team's scratchpad byte. -/
def pieceAt : List (Nat × Nat) → Nat → Option Nat
  | [], _ => none
  | p :: ps, off => if off < p.2 then some (p.1 + off) else pieceAt ps (off - p.2)

/-- Teams on a core with a reservation there. -/
def State.placed (s : State) (core : Nat) : List (Team × Place) :=
  s.teams.filterMap fun t => if t.core == core then t.place.map fun p => (t, p) else none

/-- The reservation made for a team on its core: array bytes for its scratchpad and journal, and as many physical slots as its
kernel declares, the lowest that are free. -/
def State.placeFor (s : State) (t : Team) : Place :=
  let others := (s.placed t.core).filter fun x => x.1.key != t.key
  let hold := coreHolds t.kind
  let (bytes, n) := match s.imageOf t with
    | some i => (i.scratch + i.rbjournal, i.opslots)
    | none => (0, 0)
  let used := sortBy (fun (a b : Nat × Nat) => decide (a.1 ≤ b.1)) (others.flatMap fun x => x.2.sram)
  let taken := others.flatMap fun x => x.2.slots
  { sram := takePieces bytes (freePieces (hold.getD 4 0) used 0),
    slots := ((List.range (hold.getD 2 0)).filter fun k => !taken.contains k).take n, image := false, journal := 0 }

/-- Claimed slots bound to distinct reserved physical slots: those whose binding still holds keep it (R257, R281). -/
def bindSlots (slots : List Nat) (xs : List Slot) : List Slot :=
  xs.foldl (fun done x =>
    let used := done.map fun y => y.phys
    if slots.contains x.phys && !used.contains x.phys then done ++ [x]
    else
      let later := xs.map fun y => y.phys
      let free := slots.filter fun k => !used.contains k
      done ++ [{ x with phys := ((free.find? fun k => !later.contains k).or free.head?).getD 0 }]) []

/-- The same for a team's slots put back to an earlier state (R310, R325). -/
def Team.bound (t : Team) (xs : List Slot) : List Slot := match t.place with
  | some p => bindSlots p.slots xs
  | none => xs

/-- A team takes its reservation on its core. For a new team the part zeroes the array bytes that another context wrote last; its
other bytes are undefined until it writes them. The bytes of a restored team, and those of a rival, are all written (R176, R323,
R403). -/
def State.occupy (s : State) (team : Nat) (new : Bool) : State :=
  match s.team? team with
  | none => s
  | some t =>
    let p := s.placeFor t
    let n := match s.imageOf t with
      | some i => i.scratch + i.rbjournal
      | none => 0
    let foreign := fun (a : Nat) => s.sram.any fun w => w.1 == t.core && w.2.1 == a && w.2.2 != t.ctx
    let zero := if new && s.sram.any fun w => w.1 == t.core && w.2.2 != t.ctx then
        (List.range n).filter fun off => (pieceAt p.sram off).any foreign
      else []
    s.modTeam team fun u =>
      { u with place := some { p with image := !new }, slots := bindSlots p.slots u.slots, scratch := zero.foldl (fun m off => bput off 0 m) u.scratch }

/-- What a physical slot holds when its claim ends (R258). -/
def Slot.left (x : Slot) (t : Team) : FreeSlot :=
  { core := t.core, phys := x.phys, ctx := t.ctx, bytes := x.bytes, clean := x.clean, origin := x.origin }

/-- Physical slots of a team go back unclaimed with their bytes (R258). -/
def State.leaveSlots (s : State) (t : Team) (xs : List Slot) : State :=
  { s with opstore := xs.foldl (fun (l : List FreeSlot) x =>
      (l.filter fun f => !(f.core == t.core && f.phys == x.phys)) ++ [x.left t]) s.opstore }

/-- Offsets of a team's array bytes that its context has written: all of them where its image was loaded or copied, else what its
words and engines have stored and what its journal has taken of the area after the scratchpad (R176, R308). -/
def State.arrayWrites (s : State) (t : Team) (p : Place) : List Nat :=
  let (scratch, journal) := match s.imageOf t with
    | some i => (i.scratch, i.rbjournal)
    | none => (0, 0)
  if p.image then List.range (scratch + journal)
  else uniq (t.scratch.map (fun b => b.1) ++ upFrom scratch (min journal p.journal))

/-- A team gives its reservation up: its context is the last writer of the array bytes that the team has written, and the slots
keep their bytes (R144, R176, R258). -/
def State.vacate (s : State) (team : Nat) : State :=
  match s.team? team with
  | none => s
  | some t => match t.place with
    | none => s
    | some p =>
      let wrote := (s.arrayWrites t p).filterMap fun o => pieceAt p.sram o
      let keep := s.sram.filter fun w => !(w.1 == t.core && wrote.contains w.2.1)
      let s : State := { s with sram := keep ++ wrote.map fun a => (t.core, a, t.ctx) }
      (s.leaveSlots t t.slots).modTeam team fun u => { u with place := none }

/-- A new claim of a name is bound to one of the team's reserved slots that no other claim holds, which one is free. It holds what
it held when the same context released it last, zeros after another context, else undefined bytes (R258; log entries 3 and 4). -/
def State.newSlot (s : State) (t : Team) (name claim : Nat) : Slot :=
  let mine := match t.place with
    | some p => p.slots
    | none => []
  let free := mine.filter fun k => !(t.slots.any fun x => x.phys == k)
  let phys := free.getD ((Config.freeWord s.fresh claim).toNat % max 1 free.length) 0
  let blank : Slot :=
    { name := name, claim := claim, phys := phys, bytes := [], clean := false, origin := claim, releasing := false, fills := [] }
  match s.opstore.find? fun f => f.core == t.core && f.phys == phys with
  | none => blank
  | some f => if f.ctx == t.ctx then { blank with bytes := f.bytes, clean := f.clean, origin := f.origin } else { blank with clean := true }

/-- The byte that a slot holds at an offset (R258). -/
def Slot.byte (x : Slot) (off : Nat) : Byte :=
  (bget off x.bytes).getD (if x.clean then 0 else Config.freeByte (2 * x.origin + 1) off)

end Sys2Proof.Machine
end

