-- ==== Sys2Proof/Machine/Tile.lean ====
section
/-! DEFINITION. Tiles: shape records and their checks, tile geometry, the storage formats of the copy engine, and the places
a tile copy reads and writes (R235 to R239, R263). -/

namespace Sys2Proof.Machine

/-- Signed 16-bit and 32-bit numbers (R74). -/
def s16 (x : Nat) : Int := sval 16 x
def s32 (x : Int) : Int := sval 32 (wrapTo 32 x)

/-! ## Shape records (R235, R236) -/

/-- A little-endian field of some bytes. -/
def fieldOf (bs : List Byte) (at_ n : Nat) : Nat := leNat ((bs.drop at_).take n)

/-- The record in 64 bytes (R235 Table 2). -/
def readShape (bs : List Byte) : Shape :=
  { base := fieldOf bs 0 8, base2 := fieldOf bs 8 8, fmt := fieldOf bs 16 1, tgt := fieldOf bs 17 1, swz := fieldOf bs 18 1,
    rows := fieldOf bs 20 2, cols := fieldOf bs 22 2, pad := fieldOf bs 24 4,
    ext := [fieldOf bs 32 4, fieldOf bs 36 4, fieldOf bs 40 4, fieldOf bs 44 4],
    rowstride := fieldOf bs 48 4, stride2 := fieldOf bs 52 4, stride3 := fieldOf bs 56 4,
    rsv := fieldOf bs 19 1 != 0 || fieldOf bs 28 4 != 0 || fieldOf bs 60 4 != 0 }

def Shape.extent (s : Shape) (i : Nat) : Nat := s.ext.getD i 0

/-- Is the format one of the two fp6 formats (R236)? -/
def Shape.fp6 (s : Shape) : Bool := s.fmt == 5 || s.fmt == 6

/-- Is the format fp4? -/
def Shape.fp4 (s : Shape) : Bool := s.fmt == 7

/-- Bytes of a storage element; 0 for the formats below a byte (R236 Table 3). -/
def elemSize (fmt : Nat) : Nat :=
  if fmt = 0 then 4 else if fmt = 1 || fmt = 2 then 2 else if fmt = 5 || fmt = 6 || fmt = 7 then 0 else 1

/-- Half bytes of a storage element; the fp6 planes have none of their own (R236 Table 3). -/
def elemNibbles (fmt : Nat) : Nat := if fmt = 7 then 1 else 2 * elemSize fmt

/-- Bytes of a canonical element (R236). -/
def targetSize (tgt : Nat) : Nat := if tgt = 2 || tgt = 3 then 2 else 1

/-- FMT of a copy's result (R236). -/
def resultFmt (s : Shape) : Nat := match s.tgt with
  | 0 => 9
  | 1 => 8
  | 2 => 1
  | 3 => 2
  | _ => s.fmt

/-- Is a format and target a pair of Table 9 (R93)? -/
def pairOk (fmt tgt : Nat) : Bool := match tgt with
  | 0 => fmt ≤ 7 || fmt == 9
  | 1 => fmt == 8
  | 2 => fmt ≤ 7
  | 3 => fmt ≤ 7
  | _ => false

/-- Bytes of a swizzle chunk (R238). -/
def swzChunk (swz : Nat) : Nat := 8 * 2 ^ swz

/-- Is an address in the own-scratchpad window? -/
def inScratch (va : Nat) : Bool := match windowOf va with
  | .scratch _ => true
  | _ => false

/-- Is an address in the private window or in an unassigned one (code 13)? -/
def badTileWindow (va : Nat) : Bool := match windowOf va with
  | .private_ _ => true
  | .bad => true
  | _ => false

/-- The lowest of some codes whose condition holds. -/
def lowestCode (cs : List (Bool × Nat)) : Option Nat := (cs.find? fun c => c.1).map (·.2)

/-- The checks of a record (R239 Table 4): as a destination or a source, towards a slot or not, with the copy's first column
and the format a destination must have. -/
def Shape.code (s : Shape) (dest slot : Bool) (x0 : Int) (result : Nat) : Option Nat :=
  let size := elemSize s.fmt
  let sub := s.fp6 || s.fp4
  lowestCode [
    (s.fmt > 9, 1),
    (if dest then s.tgt != 15
      else !(s.tgt ≤ 3 || s.tgt == 15) || (s.tgt != 15 && !pairOk s.fmt s.tgt) || (s.tgt == 15 && slot), 2),
    (s.swz > 3, 3),
    (s.swz != 0 && (!inScratch s.base || s.rowstride % (8 * swzChunk s.swz) != 0), 4),
    (s.ext.any fun e => e == 0, 5),
    (s.rows == 0 || s.rows > 256 || s.cols == 0 || s.cols > 256, 6),
    (if sub then s.base % 256 != 0 || s.base2 % 256 != 0 else s.base % size != 0, 7),
    (s.base2 != 0 && !s.fp6, 8),
    ((s.fp6 && (s.extent 0 % 4 != 0 || s.cols % 4 != 0 || x0 % 4 != 0 || s.rowstride % 2 != 0 || s.stride2 % 2 != 0
        || s.stride3 % 2 != 0)) || (s.fp4 && (s.extent 0 % 2 != 0 || s.cols % 2 != 0 || x0 % 2 != 0)), 9),
    (dest && (2 * s.rowstride < s.extent 0 * elemNibbles s.fmt || (s.extent 2 > 1 && s.stride2 < s.extent 1 * s.rowstride)
        || (s.extent 3 > 1 && s.stride3 < s.extent 2 * s.stride2)), 10),
    (!dest && slot && s.rows * s.cols * targetSize s.tgt > 32768, 11),
    (dest && (s.fmt != result || sub), 12),
    (badTileWindow s.base || (s.fp6 && badTileWindow s.base2), 13),
    (s.rsv, 14)]

/-! ## Geometry (R237, R238) -/

/-- Row and column of every element of a tile. -/
def tileElems (s : Shape) : List (Nat × Nat) := (List.range s.rows).flatMap fun r => (List.range s.cols).map fun c => (r, c)

/-- Does element (r, c) of the tile at coordinates `xs` lie inside the tensor (R237)? -/
def Shape.inside (s : Shape) (xs : List Int) (r c : Nat) : Bool :=
  let ok := fun (x : Int) (e : Nat) => decide (0 ≤ x) && decide (x < e)
  ok (xs.getD 0 0 + c) (s.extent 0) && ok (xs.getD 1 0 + r) (s.extent 1) && ok (xs.getD 2 0) (s.extent 2)
    && ok (xs.getD 3 0) (s.extent 3)

/-- Offset of a row, modulo 2^64 (R237). -/
def Shape.rowOff (s : Shape) (xs : List Int) (r : Nat) : Nat :=
  ((xs.getD 3 0).toNat * s.stride3 + (xs.getD 2 0).toNat * s.stride2 + (xs.getD 1 0 + r).toNat * s.rowstride) % 2 ^ 64

/-- Offset within a row under the swizzle (R238). -/
def swizzle (swz y o : Nat) : Nat :=
  if swz = 0 then o
  else
    let b := swzChunk swz
    ((o / b) ^^^ (y % 8)) * b + o % b

/-- Addresses of the bytes of an element inside the tensor: for fp6 its nibble byte and its 2-bit byte (R92, R237). -/
def Shape.bytesOf (s : Shape) (xs : List Int) (r c : Nat) : List Nat :=
  let ro := s.rowOff xs r
  let col := (xs.getD 0 0 + c).toNat
  if s.fp6 then [(s.base + ro + col / 2) % 2 ^ 64, (s.base2 + ro / 2 + col / 4) % 2 ^ 64]
  else if s.fp4 then [(s.base + ro + col / 2) % 2 ^ 64]
  else
    let size := elemSize s.fmt
    let o := swizzle s.swz (xs.getD 1 0 + r).toNat (col * size)
    (List.range size).map fun i => (s.base + ro + o + i) % 2 ^ 64

/-- The storage bits of an element from its bytes (R92, R237). -/
def Shape.bitsOf (s : Shape) (xs : List Int) (c : Nat) (bs : List Byte) : Nat :=
  let col := (xs.getD 0 0 + c).toNat
  let nib := ((bs.getD 0 0).toNat >>> (4 * (col % 2))) % 16
  if s.fp6 then nib * 4 + ((bs.getD 1 0).toNat >>> (2 * (col % 4))) % 4
  else if s.fp4 then nib
  else leNat bs

/-! ## Conversion (R93) -/

/-- The value of storage bits. -/
def storageVal (fmt x : Nat) : Val := match fmt with
  | 0 => decodeFp fmtF32 x
  | 1 => decodeFp fmtBf16 x
  | 2 => decodeFp fmtF16 x
  | 3 => decodeFp fmtE4m3 x
  | 4 => decodeFp fmtE5m2 x
  | 5 => decodeFp fmtE3m2 x
  | 6 => decodeFp fmtE2m3 x
  | 7 => decodeFp fmtE2m1 x
  | _ => decodeDm8 x

/-- Expansion of storage bits into a canonical type, or unchanged for TGT 15 (R93 Table 9, R236). For a bf16 NaN taken to bf16,
and an f16 NaN to f16, that is not the canonical one, Table 9 says identical and the text after it says the canonical NaN: the
bits stay (DESIGN CHOICE, log entry 83). -/
def tileConvert (fmt tgt x : Nat) : Nat := match tgt with
  | 0 => if fmt = 9 then x else (encodeDm8 (storageVal fmt x)).1
  | 1 => x
  | 2 => if fmt = 1 then x else (cvtFp fmtBf16 0 false (storageVal fmt x)).1
  | 3 => if fmt = 2 then x else (cvtFp fmtF16 0 false (storageVal fmt x)).1
  | _ => x

/-- Bytes of a result element: the canonical type, or the storage element of a raw copy. -/
def resultSize (s : Shape) : Nat := if s.tgt = 15 then elemSize s.fmt else targetSize s.tgt

/-- The pad value (R235). -/
def Shape.padValue (s : Shape) : Nat := s.pad % 2 ^ (8 * resultSize s)

/-! ## Operand slots (R263) -/

/-- Byte offset of an element of a slot, for elements of `e` bytes (R263). -/
def slotOff (e r c : Nat) : Nat := e * (c / 128 * (16384 / e) + r * 128 + c % 128)

/-- Does another element of a tile lie at the same place of a slot (R263)? -/
def slotTwin (e rows cols r c : Nat) : Bool :=
  let panel := 16384 / e / 128
  (c ≥ 128 && r + panel < rows) || (c < 128 && r ≥ panel && c + 128 < cols)

/-! ## Places of a copy -/

/-- Addresses a copy's destination record names, for elements inside the tensor (R241). -/
def Copy.dstVas (cp : Copy) : List Nat :=
  if cp.slot.isSome then []
  else (tileElems cp.src).flatMap fun e =>
    if cp.dst.inside cp.xd e.1 e.2 then cp.dst.bytesOf cp.xd e.1 e.2 else []

/-- The place of one byte of a tile engine's access, translated by the walk-ahead TLB (R183), with the check a whole sector's
write avoids (R186, R197, R245). -/
def State.tileSpot (s : State) (t : Team) (acc : Access) (whole : Bool) (va : Nat) : Except AFault Spot :=
  match s.ctxOf t with
  | none => .error (AFault.of cPagefault)
  | some c =>
    let us := [TlbUnit.ahead t.core]
    let r := if whole then s.reachBy us t c 0 acc (va / 32 * 32) 32 else s.reachBy us t c 0 acc va 1
    match r with
    | .error e => .error e
    | .ok sp => .ok (sp.getD (if whole then va % 32 else 0) (plainSpot (.pod 0 0)))

/-- A number for a place, to index free bytes. -/
def Loc.code : Loc → Nat
  | .scratch k off => 4 * (k * 2 ^ 40 + off)
  | .priv k at_ => 4 * (k * 2 ^ 130 + at_) + 1
  | .mem pa => 4 * pa + 2
  | .pod e off => 4 * (e * 2 ^ 34 + off) + 3

/-! ## Layers of engines (R256, R308, R309) -/

/-- The lamina that work started at a recovery depth writes: that of the deepest open level not below it, else the world
view (R256, R298). -/
def Team.layer (t : Team) (level : Nat) : Option Nat :=
  match t.levels.find? fun l => l.depth ≤ level with
  | some l => some l.lam
  | none => t.view

/-- Does a copy of a team write a place, as work of the layer `lay` sees it: a byte of memory is shared where the copy's layer is
that layer or one it is built on (R230, R241, R256)? -/
def State.copyWrites (s : State) (lay : Option Nat) (l : Loc) (t : Team) (cp : Copy) : Bool :=
  let level := match t.chains.find? fun (c : Chain) => c.h == cp.h with
    | some c => c.level
    | none => 0
  let shared : Bool := match l with
    | .mem _ => (s.lamChain s.lams.length lay).contains (t.layer level)
    | _ => true
  shared && cp.dstVas.any fun va => match s.tileSpot t .store false va with
    | .ok sp => sp.loc == l
    | .error _ => false

/-- Is a place a destination of a copy in flight (R230)? -/
def State.copyHits (s : State) (lay : Option Nat) (l : Loc) : Bool :=
  s.teams.any fun t => t.copies.any fun cp => s.copyWrites lay l t cp

/-- Does a place belong to what a running chain writes: a copy in flight writes it, or an ended one did whose tag completes only at a
`SETTAG` of the chain (R230, R241)? -/
def State.chainHits (s : State) (lay : Option Nat) (l : Loc) : Bool :=
  let shared := fun (t : Team) (c : Chain) => match l with
    | .mem _ => (s.lamChain s.lams.length lay).contains (t.layer c.level)
    | _ => true
  s.copyHits lay l || s.teams.any fun t => t.chains.any fun c => c.wrote.contains l && shared t c

/-- A thread has written a place that a copy in flight also writes: the final value is undefined (R230). -/
def State.spoilCopies (s : State) (lay : Option Nat) (l : Loc) : State :=
  { s with teams := s.teams.map fun t =>
      { t with copies := t.copies.map fun cp => if s.copyWrites lay l t cp then { cp with spoil := cp.spoil ++ [l] } else cp } }

/-- Write a scratchpad byte of team `k`, done by work of team `w` at a recovery depth: the first write of a word at an open
level is journalled; a full journal fails the routine, and the entry stands for the restore all the same, since a restore puts back
every word that the block wrote (R308, R310). -/
def State.putScratch (s : State) (w k level off : Nat) (b : Byte) : State :=
  match s.team? w with
  | none => s
  | some t =>
    let prior := match s.team? k with
      | some u => (List.range 4).map fun i => bget (off / 4 * 4 + i) u.scratch
      | none => []
    let lv := t.levels.find? fun l => l.depth ≤ level
    let fresh := match lv with
      | some l => !(l.journal.any fun j => j.1 == k && j.2.1 == off / 4)
      | none => false
    let used := t.levels.foldl (fun n l => n + l.journal.length) 0
    let cap := match s.imageOf t with
      | some i => i.rbjournal / 8
      | none => 0
    let s := match lv with
      | some l =>
        if !fresh then s
        else
          let note := fun (x : Level) => { x with journal := x.journal ++ [(k, off / 4, prior)] }
          let s := s.modTeam w fun t =>
            { t with levels := updIf (fun (x : Level) => x.depth == l.depth) note t.levels,
                     place := t.place.map fun (p : Place) => { p with journal := max p.journal (8 * (used + 1)) } }
          if used ≥ cap then s.failRoutine w 7 else s
      | none => s
    s.modTeam k fun u => { u with scratch := bput off b u.scratch }

end Sys2Proof.Machine
end

