-- ==== Sys2Proof/Machine/Chunk.lean ====
section
/-! DEFINITION. Chunks (R221 to R229): opening, ending, what their signatures record, commit and the stages of a committed write,
squash, commit priority, what a core holds back (R216, R218), aliases (R206, R219), and writes that enter memory outside chunks.
The lamina of a recovery level or of a world is written through the same operations (R298). -/

namespace Sys2Proof.Machine

/-- The open chunk of a group (R221). -/
def State.openChunk? (s : State) (team gid : Nat) : Option Lam :=
  s.lams.find? fun l => l.owner == .chunk && l.team == team && l.gid == gid && l.st == .open

/-- The chunks of a group that have not committed. -/
def State.groupChunks (s : State) (team gid : Nat) : List Lam :=
  s.lams.filter fun l => l.owner == .chunk && l.team == team && l.gid == gid

/-- Is a wait's effect outside the group's checkpoint already made: an arrival, a signature, a `KLAUNCH`, an `ICINV` (R226)? -/
def WaitOn.made (w : WaitOn) : Bool := match w with
  | .arrive _ | .phases _ _ _ | .sign | .delivery _ | .fence _ => true
  | _ => false

/-- The threads of a group that stand at such a wait or have passed one (R226). -/
def State.stoodIn (s : State) (team gid : Nat) : List Stood := match s.team? team with
  | none => []
  | some t => t.squads.flatMap fun q =>
      let w := q.wait.bind fun w => if w.on.made then some w else none
      if w.isNone && q.pass.isEmpty then []
      else (q.members.filter fun m => m.1 == gid).map fun m => { gid := gid, lane := m.2, wait := w, pass := q.pass }

/-- Open a chunk of a group, with its checkpoint; it depends on the group's chunks that have not committed (R221, R223). -/
def State.openChunk (s : State) (t : Team) (g : Group) : State :=
  let deps := (s.groupChunks t.key g.gid).map fun l => l.key
  let (k, s) := s.newKey
  let l : Lam :=
    { key := k, owner := .chunk, st := .open, ctx := t.ctx, team := t.key, gid := g.gid, core := t.core, parent := t.base,
      lines := [], rsig := [], wsig := [], strong := false, deps := deps, checkpoint := some g,
      stood := s.stoodIn t.key g.gid, packets := 0, lastIssue := s.now, squashes := 0, fourth := none, fixed := false }
  { s with lams := s.lams ++ [l] }

/-- The group's open chunk, opened now if there is none. -/
def State.withChunk (s : State) (team gid : Nat) : State :=
  match s.openChunk? team gid with
  | some _ => s
  | none => match s.team? team with
    | some t => match t.group? gid with
      | some g => s.openChunk t g
      | none => s
    | none => s

/-- Lamina identifiers of a die (R297). -/
def lamCount : Nat := 4096

/-- Are this many identifiers free on a die (R299)? -/
def State.lamsFree (s : State) (die n : Nat) : Bool := (s.lams.filter fun l => dieOf l.core == die).length + n ≤ lamCount

/-- Did a lamina open when no identifier was free on its die: those opened before it hold them all (R299)? -/
def State.nameless (s : State) (l : Lam) : Bool :=
  (s.lams.filter fun x => dieOf x.core == dieOf l.core && x.key < l.key).length ≥ lamCount

/-- Packets or L-stream words after which a chunk ends (R221). -/
def chunkPackets : Nat := 4096

/-- Has a chunk reached its packet limit (R221)? -/
def Lam.full (l : Lam) : Bool := l.packets ≥ chunkPackets

/-- Can a chunk still be squashed: it has read a STRONG page or depends on another chunk (R222)? -/
def Lam.squashable (l : Lam) : Bool := !l.rsig.isEmpty || !l.deps.isEmpty

/-- Is a store operation of a group one to global memory that L1 has not accepted (R221)? -/
def Op.globalStore (o : Op) (team gid : Nat) : Bool := match o.what with
  | .store ws _ => ws.any fun w => w.who.team == team && w.who.gid == gid && (match w.at_.loc with
    | .mem _ => true
    | _ => false)
  | _ => false

/-- Has a group global stores that L1 has not accepted (R221)? -/
def State.storesPending (s : State) (team gid : Nat) : Bool := s.ops.any fun o => o.globalStore team gid

/-- Has a group external operations of its threads that are still to be performed (R189)? -/
def State.ioPending (s : State) (team gid : Nat) : Bool :=
  s.ops.any fun o => match o.what with
    | .store ws _ => ws.any fun w => w.at_.io && w.who.team == team && w.who.gid == gid
    | .atomic u _ _ _ ls => o.team == team && u.any (fun x => x.io) && ls.any fun l => l.gid == gid
    | _ => false

/-- The group's chunk ends: its commit is requested; one that holds nothing, depends on nothing and expects no store is gone at
once (R221). -/
def State.endChunk (s : State) (team gid : Nat) : State :=
  match s.openChunk? team gid with
  | none => s
  | some l =>
    if l.lines.isEmpty && !l.squashable && !s.storesPending team gid then
      { s with lams := s.lams.filter fun x => x.key != l.key }
    else s.modLam l.key fun x => { x with st := .requested }

/-- A chunk ends and the next one opens at once (R221). -/
def State.turnChunk (s : State) (team gid : Nat) : State := (s.endChunk team gid).withChunk team gid

/-- A word that ends the chunks of its groups: it waits until their earlier stores are accepted (R221). -/
def State.endingWord (s : State) (k : State → State) : State :=
  if !s.cur.cleared && s.curGids.any fun g => s.storesPending s.cur.team g then s.retryWord
  else k (s.curGids.foldl (fun s g => s.turnChunk s.cur.team g) s)

/-- The word's squad holds its groups: until it has acted, their other squads begin nothing that could be squashed (R222). -/
def State.holdGroups (s : State) : State :=
  s.modTeam s.cur.team fun t => t.modSquad s.cur.squad fun q => { q with holds := true }

/-- Does another squad hold a group of the word at issue (R222)? -/
def State.groupsHeld (s : State) : Bool := match s.curTeam with
  | none => false
  | some t => t.squads.any fun q => q.key != s.cur.squad && q.holds && q.members.any fun m => s.curGids.contains m.1

/-- Has an open chunk nothing of its own yet: it only follows chunks of its group that have not committed? -/
def State.freshChunk (s : State) (l : Lam) : Bool :=
  l.lines.isEmpty && l.rsig.isEmpty && l.deps.all fun d => (s.groupChunks l.team l.gid).any fun x => x.key == d

/-- The open chunks of some groups end, but those that hold nothing yet. -/
def State.turnUsed (s : State) (gs : List Nat) : State :=
  gs.foldl (fun s g => if (s.openChunk? s.cur.team g).any s.freshChunk then s else s.turnChunk s.cur.team g) s

/-- An effect that a squash could not undo: a squashable chunk of the group ends first, and the effect waits until it and
those it depends on have committed (R222). -/
def State.irrevocable (s : State) (k : State → State) : State :=
  let open_ := s.curGids.filter fun g => match s.openChunk? s.cur.team g with
    | some l => l.squashable
    | none => false
  let waiting := s.curGids.any fun g => (s.groupChunks s.cur.team g).any fun l => l.st == .requested && l.squashable
  if !s.cur.cleared && (!open_.isEmpty || waiting) then ((s.turnUsed open_).retryWord).holdGroups
  else
    let mark := fun (l : Lam) => l.owner == .chunk && l.team == s.cur.team && s.curGids.contains l.gid && l.st == .open
    k { s with lams := updIf mark (fun l => { l with fixed := true }) s.lams }

/-- A word that ends the chunks of its groups and has an effect that a squash could not undo: a barrier arrival, a chain, a
signature, a drain, a launch. It waits, too, until the chunks it ends, where they can be squashed, have committed, so that a
squash changes nothing outside the checkpoint (R221, R222, R226; log entry 42). -/
def State.endingEffect (s : State) (k : State → State) : State :=
  if !s.cur.cleared && s.curGids.any fun g => s.storesPending s.cur.team g then s.retryWord
  else
    let open_ := s.curGids.filter fun g => match s.openChunk? s.cur.team g with
      | some l => l.squashable
      | none => false
    let waiting := s.curGids.any fun g => (s.groupChunks s.cur.team g).any fun l => l.st == .requested && l.squashable
    if !s.cur.cleared && (!open_.isEmpty || waiting) then ((s.turnUsed open_).retryWord).holdGroups
    else k (s.curGids.foldl (fun s g => s.turnChunk s.cur.team g) s)

/-! ## Signatures -/

/-- Chunks of other groups that hold a provisional byte of a grain and that the reader's view shows (R223). -/
def State.grainWriters (s : State) (t : Team) (gid grain : Nat) : List Nat :=
  let bases := s.lamChain s.lams.length t.base
  (s.lams.filter fun l => l.owner == .chunk && l.core == t.core && !(l.team == t.key && l.gid == gid)
    && bases.contains l.parent && sigHits l.wsig grain).map fun l => l.key

/-- The chunks that some chunks depend on, directly or not, and they themselves (R223). -/
def depsOf (ls : List Lam) : Nat → List Nat → List Nat
  | 0, ks => ks
  | fuel + 1, ks =>
    let more := uniq ((ls.filter fun l => ks.contains l.key).flatMap fun l => l.deps.filter fun d => !ks.contains d)
    if more.isEmpty then ks else depsOf ls fuel (ks ++ more)

/-- Does a chunk depend on another, directly or not? -/
def State.dependsOn (s : State) (l d : Nat) : Bool := l != d && (depsOf s.lams s.lams.length [l]).contains d

/-- Remember the virtual page by which a frame is used; under a new name the bytes written through another one may still read as they
did before (R206). -/
def State.noteName (s : State) (g pa : Nat) : State :=
  let e := (pa / 65536, g / 65536)
  if s.names.contains e then s
  else
    let mine := s.writes.filter fun w => w.pa / 65536 == pa / 65536 && w.name / 65536 != g / 65536
    let old : Shadow → Shadow := fun w => { w with name := g / 65536 * 65536 + w.pa % 65536 }
    { s with names := e :: s.names, shadows := s.shadows ++ mine.map old }

/-- The writes that a thread has observed and that are still on their way (R208, R210); those performed everywhere are dropped. -/
def State.noteSeen (s : State) (team gid lane : Nat) (ks : List Nat) : State :=
  if ks.isEmpty then s
  else
    let alive := fun (k : Nat) =>
      (s.lams.any fun l => l.key == k) || (s.flights.any fun f => f.lam == k) || s.held.any fun h => h.dirty && h.line.seq == k
    s.modTeam team fun t => { t with seen := uniq ((t.seen.filter fun x => alive x.2.2) ++ ks.map fun k => (gid, lane, k)) }

/-- A core keeps a clean copy of a LOOSE byte it reads, unless it holds one of its own (R216). -/
def State.keepCopy (s : State) (t : Team) (x : Spot) : State :=
  match x.loc with
  | .mem pa =>
    if x.ord ≠ 2 || x.io || s.held.any (fun h => h.core == t.core && h.dirty && h.line.holds x.grain pa) then s
    else
      let line : Line := { pa := pa, byte := (s.coreByte t.core x.grain pa).1, seq := 0, grain := x.grain, ord := 2, ds := x.ds, nt := none }
      let copy : Held := { core := t.core, ctx := t.ctx, team := t.key, line := line, dirty := false, due := none }
      { s with held := copy :: s.held.filter fun h => !(h.core == t.core && h.line.holds x.grain pa) }
  | _ => s

/-- A core that reads a LOOSE byte takes the byte's whole sector into its L1 (R216, R220). -/
def State.keepSector (s : State) (t : Team) (x : Spot) : State :=
  match x.loc with
  | .mem pa =>
    if x.ord ≠ 2 || x.io then s
    else (upFrom (pa / 32 * 32) 32).foldl (fun s a => s.keepCopy t { x with loc := .mem a }) s
  | _ => s

/-- One byte for each sector among some bytes of memory. -/
def sectorHeads (sp : List Spot) : List Spot :=
  sp.foldl (fun r x => if r.any fun y => y.grain == x.grain && (match y.loc, x.loc with
    | .mem a, .mem b => a / 32 == b / 32
    | _, _ => false) then r else r ++ [x]) []

/-- Is a place one of global memory, private memory included: what the signatures of a block and of a world cover (R309, R319,
R325)? -/
def Loc.counts (l : Loc) : Bool := match l with
  | .mem _ | .priv _ _ => true
  | _ => false

/-- A read at a layer enters its lamina's read signature, on every kind of page (R309, R325). -/
def State.readsAt (s : State) (layer : Option Nat) (sp : List Spot) : State :=
  match layer with
  | none => s
  | some k =>
    let glob := sp.filter fun x => x.loc.counts
    s.modLam k fun l =>
      { l with rsig := glob.foldl (fun r x => addGrain x.grain r) l.rsig, strong := l.strong || glob.any fun x => x.ord = 1 }

/-- Must a group's chunk end before a read: it has performed what a squash could not undo and would become squashable (R222), a
writer of what it reads depends on it, or it has commit priority and conflicts with such a writer (R223, R227; log entry 21)? -/
def State.endsFirst (s : State) (l : Lam) (strong : Bool) (writers : List Nat) : Bool :=
  (l.fixed && (strong || !writers.isEmpty)) || writers.any fun w => s.dependsOn w l.key
    || (l.squashes ≥ 4 && match s.lam? w with
      | some x => sigsMeet x.wsig l.rsig
      | none => false)

/-- A read of global bytes by a thread: the chunk's read signature takes grains of STRONG pages, the chunk comes to depend on the
chunks whose provisional grains it reads, the lamina below takes every grain, and the thread has observed what it read (R210, R222,
R223, R309, R325). -/
def State.noteRead (s : State) (t : Team) (gid lane : Nat) (sp : List Spot) : State :=
  let s := s.readsAt t.base sp
  let glob := sp.filter fun x => match x.loc with
    | .mem _ => !x.io
    | _ => false
  match glob with
  | [] => s
  | x :: _ =>
    let grains := uniq (glob.map fun y => y.grain)
    let writers := uniq (grains.flatMap fun g => s.grainWriters t gid g)
    let strong := x.ord = 1
    let seen := uniq (glob.filterMap fun y => match y.loc with
      | .mem pa => (s.teamView t y.grain pa).2
      | _ => none)
    let s := match x.loc with
      | .mem pa => s.noteName x.grain pa
      | _ => s
    let s := (sectorHeads glob).foldl (fun s y => s.keepSector t y) s
    let first := match s.openChunk? t.key gid with
      | some l => s.endsFirst l strong writers
      | none => false
    let s := if first then s.turnChunk t.key gid else s.withChunk t.key gid
    let own := match s.openChunk? t.key gid with
      | some l => if glob.any fun y => (s.ownStore { team := t.key, gid := gid, lane := lane } y).isSome then [l.key] else []
      | none => []
    let s := s.noteSeen t.key gid lane (seen ++ own)
    match s.openChunk? t.key gid with
    | none => s
    | some l => s.modLam l.key fun l =>
        { l with rsig := if strong then grains.foldl (fun r g => addGrain g r) l.rsig else l.rsig,
                 strong := l.strong || strong,
                 deps := writers.foldl (fun r g => addGrain g r) l.deps }

/-- The lines of a lamina with one byte written, latest in its location's order (R212). -/
def Lam.put (l : Lam) (x : Line) : Lam :=
  { l with lines := (l.lines.filter fun y => !y.holds x.grain x.pa) ++ [x], wsig := addGrain x.grain l.wsig,
           strong := l.strong || x.ord = 1 }

/-- A line for a byte written at a place. -/
def Spot.line (x : Spot) (pa : Nat) (b : Byte) (seq : Nat) (nt : Option (Nat × Nat)) : Line :=
  { pa := pa, byte := b, seq := seq, grain := x.grain, ord := x.ord, ds := x.ds, nt := if x.ord = 1 then none else nt }

/-- Has a chunk no room for one line more: it holds 4,096 bytes of lines and as many more as its die grants (R221, R299)? -/
def Lam.crowded (l : Lam) : Bool := l.lines.length ≥ 4096 && l.lines.length ≥ 4096 + Config.lineRoom (dieOf l.core)

/-- Would a grain new to a chunk hold its commit back behind a chunk with commit priority that depends on it (R227; log entry 21)? -/
def State.splitsFor (s : State) (l : Lam) (grain : Nat) : Bool :=
  !l.wsig.contains grain && s.lams.any fun x => x.squashes ≥ 4 && x.deps.contains l.key && sigHits x.rsig grain

/-- The chunk that the writes of a group's store go into: the one that was open when its word issued; one that is full, or that
must not write one of the grains, ends first, so that the store goes whole into the next (R205, R221, R223). -/
def State.storeTarget (s : State) (team gid op : Nat) (grains : List Nat) : Option Nat × State :=
  let before := (s.groupChunks team gid).filter fun l => l.key < op
  let old := before.foldl (fun (best : Option Lam) l => match best with
    | some m => if m.key < l.key then some l else best
    | none => some l) none
  match old with
  | some l =>
    if l.st == .open && (l.crowded || grains.any (s.splitsFor l)) then
      let s := s.turnChunk team gid
      ((s.openChunk? team gid).map fun n => n.key, s)
    else (some l.key, s)
  | none =>
    let s := s.withChunk team gid
    ((s.openChunk? team gid).map fun n => n.key, s)

/-- A provisional write: one byte goes into a chunk (R223). -/
def State.chunkWrite (s : State) (chunk : Nat) (x : Spot) (pa : Nat) (b : Byte) (nt : Option (Nat × Nat)) : State :=
  let (k, s) := (s.noteName x.grain pa).newKey
  s.modLam chunk fun l => l.put (x.line pa b k nt)

/-! ## Results -/

/-- A late effect on a special register of a thread (R129, R130). -/
def Team.lateTsr (t : Team) (w : Nat × Nat × Nat × Word) : Team :=
  t.modThread w.1 w.2.1 fun x =>
    if w.2.2.1 = orFlagsIndex then { x with fpflags := x.fpflags ||| w.2.2.2 } else x.setTsr w.2.2.1 w.2.2.2

/-- What a result does when it is written: registers become full, flags are raised (R107, R130), and a special register of a thread is
logged (R307). -/
def State.writeResult (s : State) (o : Op) : State :=
  match o.what with
  | .vres ws fl => s.modTeam o.team fun t =>
      (ws.foldl (fun t w => t.fill (.v w.1 w.2.1 w.2.2.1, w.2.2.2.setWidth 64)) t).orFlags
        (ws.map fun w => (w.1, w.2.1, fl))
  | .tsr ws => (s.modTeam o.team fun t => ws.foldl Team.lateTsr t).logWrites o.team
      (ws.map fun w => (w.1, w.2.1, RegId.t w.1 w.2.1 (if w.2.2.1 = orFlagsIndex then 6 else w.2.2.1)))
  | .sres g n x => s.modTeam o.team fun t => t.fill (.s g n, x.setWidth 64)
  | _ => s

/-- Operations whose only event is the write of a result. -/
def OpKind.isResult : OpKind → Bool
  | .flagOnly | .vres _ _ | .tsr _ | .sres _ _ _ | .cctl => true
  | _ => false

/-! ## Squash (R226) -/

/-- Chunks that fall with one: those that depend on it, directly or not. -/
def dependents (ls : List Lam) : Nat → List Nat → List Nat
  | 0, ks => ks
  | fuel + 1, ks =>
    let more := (ls.filter fun l => l.owner == .chunk && !ks.contains l.key && l.deps.any ks.contains).map fun l => l.key
    if more.isEmpty then ks else dependents ls fuel (ks ++ more)

/-- A group put back to a checkpoint: flags idle, every register full (R226). A thread that is parked on a record stays
unparked: it re-executes from the checkpoint. Queues, read positions and `TKDONE` are not of the checkpoint (R222). -/
def Group.backToCheckpoint (now g : Group) : Group :=
  { g with flags := [], queue := now.queue, pushed := now.pushed, popped := now.popped, tkdone := now.tkdone,
           threads := g.threads.map fun t => { t with park := none, trap := none } }

/-- The registers that an operation in flight will write. -/
def Op.dests (o : Op) : List RegId := match o.what with
  | .vres ws _ => ws.map fun w => .v w.1 w.2.1 w.2.2.1
  | .sres g n _ => [.s g n]
  | .qpop g l v _ _ => [.v g l v]
  | .atomic _ op _ (some d) ls => ls.flatMap fun x =>
      ((upFrom d (if op = 1 then 2 else 1)).filter fun n => !x.lost.contains n).map fun n => .v x.gid x.lane n
  | .remote ws _ _ _ => ws.map fun w => .v w.1 w.2.1 w.2.2
  | _ => []

/-- What an operation still does once a group's part of it is cancelled: nothing, where it was that group's alone. -/
def Op.cut (o : Op) (team gid : Nat) : Option Op :=
  if o.team != team || !(o.iss.members.any fun m => m.1 == gid) then some o
  else if o.iss.members.all fun m => m.1 == gid then none
  else match o.what with
    | .vres ws fl => some { o with what := .vres (ws.filter fun w => w.1 != gid) fl }
    | .tsr ws => some { o with what := .tsr (ws.filter fun w => w.1 != gid) }
    | .sres g _ _ => if g = gid then none else some o
    | .store ws nt => if ws.all fun w => w.who.gid == gid then none else some { o with what := .store (ws.filter fun w => w.who.gid != gid) nt }
    | .atomic _ _ _ _ ls => if ls.any fun l => l.gid == gid then none else some o
    | .fence _ _ g _ _ => if g = gid then none else some o
    | .icinv _ _ g _ _ => if g = gid then none else some o
    | .qpop g _ _ _ _ => if g = gid then none else some o
    | .remote ws va n act =>
      some { o with what := .remote (ws.map fun w => if w.1 = gid then (w.1, w.2.1, 128) else w) va n act }
    | .engine _ _ _ _ _ => some o
    | .flagOnly | .cctl | .klaunch _ _ _ _ => some o

/-- Cancel the words of a group that are outstanding since a key was given out, and its flag counts (R226). -/
def State.cancelGroup (s : State) (team gid since : Nat) : State :=
  { s with
    ops := s.ops.filterMap fun o => if o.key ≥ since then o.cut team gid else some o,
    toks := s.toks.filter fun k => !(k.team == team && k.gid == gid) }

/-- Results of a group's words from before a key was given out are written at once: the words belong to the checkpoint, and every
register is full (R226; log entry 22). -/
def State.finishOld (s : State) (team gid since : Nat) : State :=
  let mine := s.ops.filter fun o => o.team == team && o.key < since && o.what.isResult && o.iss.members.any fun m => m.1 == gid
  mine.foldl (fun s o => (s.writeResult o).dropOp o.key) s

/-- Registers of a group that words issued before a key was given out have still to write. -/
def State.oldDests (s : State) (team since : Nat) : List RegId :=
  (s.ops.filter fun o => o.team == team && o.key < since && !o.what.isResult).flatMap Op.dests

/-- Threads that stood at a wait at the checkpoint stand there again: the effect of their word is not made twice (R226). -/
def State.standAgain (s : State) (team : Nat) (st : List Stood) : State :=
  let kinds := uniq (st.map fun x => (x.wait, x.pass))
  kinds.foldl (fun s k =>
    let mine := (st.filter fun x => (x.wait, x.pass) == k).map fun x => (x.gid, x.lane)
    let quiet : Wait → Wait := fun w => { w with iss := { w.iss with toks := [] } }
    let put : Squad → Squad := fun q =>
      if q.members.all mine.contains then { q with wait := k.1.map quiet, pass := k.2 } else q
    (s.squadsAt team (sortBy threadLe mine) s.now s.now none).modTeam team fun t => { t with squads := t.squads.map put }) s

/-- Does a register belong to a group? -/
def RegId.inGroup (r : RegId) (gid : Nat) : Bool := match r with
  | .v g _ _ => g == gid
  | .p g _ _ => g == gid
  | .t g _ _ => g == gid
  | .s g _ => g == gid
  | .q g _ => g == gid
  | .m g _ => g == gid
  | .sr g _ => g == gid

/-- A squashed chunk's group goes back to the chunk's checkpoint: its threads are filed at their checkpoint PCs, and a new chunk
opens there with one squash more (R226). Words from before the checkpoint are part of it: their results are written, and those that
have still to be performed stay outstanding (log entry 22). -/
def State.rollBack (s : State) (l : Lam) : State :=
  match l.checkpoint, s.team? l.team with
  | some g, some t =>
    let ms := g.threads.map fun x => (g.gid, x.lane)
    let now := match t.group? g.gid with
      | some x => x.threads.map fun y => (g.gid, y.lane)
      | none => []
    let keep := s.oldDests l.team l.key
    let s := s.cancelGroup l.team g.gid l.key
    let inTray := fun (y : Tray) => { y with held := y.held.filter fun h => h.1 != g.gid }
    let s := s.modTeam l.team fun t =>
      let t := t.leaveSquads (now ++ ms)
      { t with groups := updIf (fun x => x.gid == g.gid) (fun x => x.backToCheckpoint g) t.groups,
               windows := t.windows.filter fun w => !w.reg.inGroup g.gid || (w.ready.isNone && keep.contains w.reg),
               trays := (t.trays.map inTray).filter fun y => !y.held.isEmpty }
    let s := s.finishOld l.team g.gid l.key
    let there := l.stood.filter fun x => ms.contains (x.gid, x.lane)
    let s := s.refile l.team (sortBy threadLe (ms.filter fun m => !(there.any fun x => x.gid == m.1 && x.lane == m.2)))
    let s := s.standAgain l.team there
    match s.team? l.team with
    | some t =>
      let (k, s) := s.newKey
      let s := s.openChunk t g
      let new := fun (x : Lam) => x.owner == .chunk && x.team == l.team && x.gid == g.gid && x.st == .open
      let count : Lam → Lam := fun x =>
        { x with squashes := l.squashes + 1, fourth := l.fourth.or (if l.squashes + 1 ≥ 4 then some k else none) }
      { s with lams := updIf new count s.lams }
    | none => s
  | _, _ => s

/-- The earliest of some chunks by group: its checkpoint is the one that stands. -/
def earliest (ls : List Lam) : List Lam :=
  ls.filter fun l => !(ls.any fun m => m.team == l.team && m.gid == l.gid && m.key < l.key)

/-- Squash chunks and all that depend on them: every one's lamina is discarded, with the accesses it would have staged (R367), and
each group goes back to the checkpoint of its earliest (R223, R226). -/
def State.squash (s : State) (ks : List Nat) : State :=
  if ks.isEmpty then s
  else
    let all := dependents s.lams s.lams.length ks
    let gone := s.lams.filter fun l => all.contains l.key
    let unstage : Team → Team := fun t =>
      if t.staged.isEmpty then t else { t with staged := t.staged.filter fun e => !(e.chunk.any all.contains) }
    let s : State := { s with lams := s.lams.filter (fun l => !all.contains l.key), teams := s.teams.map unstage }
    (earliest gone).foldl State.rollBack s

/-! ## Commit priority (R227) -/

/-- Has a chunk commit priority: it was squashed four times in a row, and no other such chunk of its die, nor one it conflicts
with, comes before it in the order of the fourth squashes (R227; log entry 21)? -/
def State.hasPriority (s : State) (l : Lam) : Bool :=
  l.owner == .chunk && l.squashes ≥ 4 && !(s.lams.any fun x => x.owner == .chunk && x.squashes ≥ 4 && x.key != l.key
    && x.fourth.getD 0 < l.fourth.getD 0
    && (dieOf x.core == dieOf l.core || sigsMeet x.wsig l.rsig || sigsMeet l.wsig x.rsig))

/-- Does a chunk with commit priority hold back a write signature: not that of a chunk it depends on, nor of one that comes before
it (R227; log entry 21)? -/
def State.heldBack (s : State) (key : Option Nat) (fourth : Option Nat) (grains : List Nat) : Bool :=
  s.lams.any fun x => x.squashes ≥ 4 && some x.key != key && s.hasPriority x && sigsMeet grains x.rsig
    && !(fourth.any fun n => n < x.fourth.getD 0) && !(key.any fun k => s.dependsOn x.key k)

/-- Apply a write signature at some dies: every chunk there whose read signature it meets is squashed, but for the writer's own
chunk and for one with commit priority (R226, R227). -/
def State.applySignature (s : State) (dies : List Nat) (grains : List Nat) (own fourth : Option Nat) : State :=
  let hit := s.lams.filter fun l => l.owner == .chunk && dies.contains (dieOf l.core) && some l.key != own
    && sigsMeet grains l.rsig && (!s.hasPriority l || fourth.any fun n => n < l.fourth.getD 0)
  s.squash (hit.map fun l => l.key)

/-- Does a STRONG read of a chunk with commit priority wait: a signature that its die has still to apply meets the grain, so that
every arbiter knows the chunk's read signature first (R227; log entry 21)? -/
def State.priorityWaits (s : State) (t : Team) (gid : Nat) (x : Spot) : Bool :=
  x.ord == 1 && (match s.openChunk? t.key gid with
    | some l => l.squashes ≥ 4 && ((s.flights.any fun f => !f.acks.contains (dieOf t.core) && sigHits f.grains x.grain)
        || s.gathered.any fun e => sigHits e.2 x.grain)
    | none => false)

/-- All dies (R11). -/
def allDies : List Nat := List.range 8

/-! ## Aliases (R206, R219) -/

/-- The grains by which a physical byte's 32-byte sector is known, one for each virtual page that has used its frame (R206). -/
def State.physGrains (s : State) (pa : Nat) : List Nat :=
  (s.names.filter fun e => e.1 == pa / 65536).map fun e => e.2 * 65536 + pa % 65536 / 32 * 32

/-- A write to a byte through one name leaves each other name of the byte, one used later included, with a value it may still read as;
the name written through reads as its own (R206, R219). -/
def State.castShadow (s : State) (core g pa : Nat) : State :=
  let name := byteName g pa
  let others := ((s.names.filter fun e => e.1 == pa / 65536 && e.2 != name / 65536).map fun e => e.2 * 65536 + pa % 65536)
  let old := s.homeValue pa
  let again : Shadow → Shadow := fun h => { h with core := core, back := false, cleared := [] }
  let same := fun (h : Shadow) => h.pa == pa && h.name == name
  let ws := if s.writes.any same then updIf same again s.writes
    else s.writes ++ [{ name := name, pa := pa, byte := old, core := core, back := false, cleared := [] }]
  let s : State := { s with writes := ws }
  if others.isEmpty && s.shadows.isEmpty then s
  else
    let rest := s.shadows.filter fun h => !(h.pa == pa && h.name == name)
    let mine := fun (h : Shadow) => h.pa == pa && others.contains h.name
    let new := (others.filter fun n => !(rest.any fun h => h.pa == pa && h.name == n)).map fun n =>
      ({ name := n, pa := pa, byte := old, core := core, back := false, cleared := [] } : Shadow)
    { s with shadows := updIf mine again rest ++ new }

/-! ## Writes outside chunks (R225) -/

/-- A grain joins the signature that a die's arbiter gathers. -/
def gather (g die : Nat) (l : List (Nat × List Nat)) : List (Nat × List Nat) :=
  if l.any fun e => e.1 == die then updIf (fun e => e.1 == die) (fun e => (e.1, addGrain g e.2)) l else l ++ [(die, [g])]

/-- A byte put into memory outside any chunk, as every agent sees it: writes to it that are still on their way come before it in its
coherence order (R212, R225); every die's arbiter gathers its signature, which is applied before any word issues and any chunk it
meets commits, and it counts for the interference tests (R225). -/
def State.enterByte (s : State) (pa : Nat) (b : Byte) (grains : List Nat) : State :=
  let (k, s) := s.newKey
  let past : Flight → Flight := fun f => { f with lines := f.lines.filter fun x => x.pa != pa }
  { s with mem := memPut pa b s.mem, flights := s.flights.map past, external := s.external ++ grains.map fun g => (g, k),
           gathered := grains.foldl (fun e g => allDies.foldl (fun l d => gather g d l) e) s.gathered }

/-- A byte written outside any chunk under some names; where it meets the read signature of a chunk with commit priority it waits
until that has committed, as a chunk's commit would (R225, R227). -/
def State.outsideWrite (s : State) (pa : Nat) (b : Byte) (grains : List Nat) : State :=
  if s.heldBack none none grains || s.waiting.any (fun w => w.1 == pa) then
    { s with waiting := s.waiting ++ (match grains with
      | [] => [(pa, b, 0)]
      | gs => gs.map fun g => (pa, b, g)) }
  else s.enterByte pa b grains

/-- A core's own clean copies of a byte fall with a write of its own to the byte (R212, R216). -/
def State.dropCopies (s : State) (core g pa : Nat) : State :=
  { s with held := s.held.filter fun h => !(h.core == core && !h.dirty && h.line.holds g pa) }

/-- A byte written outside any chunk through a virtual address, for a core (R225). -/
def State.externalByte (s : State) (core pa : Nat) (b : Byte) (grain : Nat) : State :=
  (((s.noteName grain pa).castShadow core grain pa).dropCopies core grain pa).outsideWrite pa b [grain]

/-- A byte written outside any chunk through its physical address, as the host and the part do: every name of it sees it (R192,
R225). -/
def State.physByte (s : State) (pa : Nat) (b : Byte) : State :=
  { s with shadows := s.shadows.filter (fun h => h.pa != pa), writes := s.writes.filter fun h => h.pa != pa }.outsideWrite pa b
    (s.physGrains pa)

/-- Bytes written outside chunks from a physical address (R225). -/
def State.physBytes (s : State) (pa : Nat) (bs : List Byte) : State :=
  bs.zipIdx.foldl (fun s p => s.physByte (pa + p.2) p.1) s

/-- Outside writes that waited for a chunk with commit priority are performed once nothing holds them back (R225, R227). -/
def State.releaseWaiting (s : State) : State :=
  if s.waiting.isEmpty then s
  else s.waiting.foldl (fun s w =>
    if s.heldBack none none [w.2.2] || s.waiting.any (fun x => x.1 == w.1) then { s with waiting := s.waiting ++ [w] }
    else s.enterByte w.1 w.2.1 [w.2.2]) { s with waiting := [] }

/-- Sectors written whole are good again: a new check is formed, and no error is left (R196, R197). -/
def State.healSectors (s : State) (pa n : Nat) : State :=
  let whole := fun x => pa ≤ 32 * x && 32 * x + 32 ≤ pa + n
  { s with checks := s.checks.filter (fun e => !whole e.1), badEcc := s.badEcc.filter (fun x => !whole x) }

/-- The same for the sectors that some writes cover whole (R196). -/
def State.healWritten (s : State) (pas : List Nat) : State :=
  if s.checks.isEmpty && s.badEcc.isEmpty then s
  else (uniq (pas.map fun a => a / 32)).foldl (fun s x =>
    if (upFrom (32 * x) 32).all pas.contains then s.healSectors (32 * x) 32 else s) s

/-- The byte of a place as an engine's work at a layer reads it: no write that a squash could undo, so of the chunks above only those
whose commit is a matter of time (R222, R230); of a STRONG page the last write granted (R215); pod bytes are those that the remote
module has sent (R411). -/
def State.engineRead (s : State) (t : Team) (level : Nat) (got : List (Nat × Byte)) (x : Spot) : Byte :=
  match x.loc with
  | .mem pa =>
    let home := match if x.ord = 1 then s.strongByte pa else none with
      | some b => (b, none)
      | none => s.coreByte t.core x.grain pa
    (s.viewByte t.core x.grain pa (fun l => l.st == .requested && !l.squashable) home
      (s.lamChain s.lams.length (t.layer level))).1
  | .pod e off => match got.find? fun p => p.1 == podVa e off with
    | some p => p.2
    | none => Config.freeByte s.fresh (e * 2 ^ 34 + off)
  | _ => s.locByte t x

/-- What a core wrote earlier to a byte and keeps back comes before an engine's write to it: chunks whose commit is only a matter
of time, and what the core holds (R212, R218, R230). -/
def State.passBy (s : State) (core : Nat) (base : Option Nat) (g pa : Nat) : State :=
  let ended := fun (l : Lam) => l.owner == .chunk && l.core == core && l.parent == base && l.st == .requested && !l.squashable
  let drop : Lam → Lam := fun l => { l with lines := l.lines.filter fun x => !x.holds g pa }
  { s with lams := updIf ended drop s.lams, held := s.held.filter fun h => !(h.core == core && h.line.holds g pa) }

/-- A global byte written into a layer by an engine or an atomic unit of a team: into that layer's lamina, else into memory (R225,
R256, R282, R298, R309). -/
def State.intoLayer (s : State) (t : Team) (layer : Option Nat) (pa : Nat) (b : Byte) (x : Spot) : State :=
  match layer with
  | none => s.externalByte t.core pa b x.grain
  | some k =>
    let (q, s) := (s.noteName x.grain pa).newKey
    s.modLam k fun l => l.put (x.line pa b q none)

/-- The read signature of a layer takes the grains an engine's work reads there (R309, R325). -/
def State.layerReads (s : State) (t : Team) (level : Nat) (sp : List Spot) : State := s.readsAt (t.layer level) sp

/-- A byte written by an engine's work at a recovery depth to any place here: scratchpads are journalled; bytes of memory go into a
lamina, those of an IO page outside any; pod bytes leave the part by requests of their own (R189, R241, R308, R411). -/
def State.engineWrite (s : State) (t : Team) (level : Nat) (lam : Option Nat) (sp : Spot) (b : Byte) : State :=
  match sp.loc with
  | .scratch k off => s.putScratch t.key k level off b
  | .mem pa => (s.passBy t.core (t.layer level) sp.grain pa).intoLayer t (if sp.io then t.layer level else lam) pa b sp
  | .pod _ _ => s
  | .priv _ _ => s

/-- A write set of a team that no word of a group has made: what an engine has written, or what a core has kept back (R216, R224,
R225). -/
def engineGid : Nat := 2 ^ 32

/-- A write set of its own on a core, for what enters memory outside chunks (R216, R225). -/
def writeSet (key ctx team core now : Nat) (lines : List Line) : Lam :=
  { key := key, owner := .chunk, st := .requested, ctx := ctx, team := team, gid := engineGid, core := core, parent := none,
    lines := lines, rsig := [], wsig := uniq (lines.map fun x => x.grain), strong := lines.any fun x => x.ord = 1, deps := [],
    checkpoint := none, stood := [], packets := 0, lastIssue := now, squashes := 0, fourth := none, fixed := false }

/-- The bytes that a COPY or a drain writes: into the lamina of its layer; where there is none they are a write set of their own,
which the agents of the core see at once and which passes the stages of a commit, so that other agents see them when those are
reached, at the latest after a release of a thread that has observed the completion (R224, R225, R230, R232). -/
def State.engineWrites (s : State) (t : Team) (level : Nat) (ws : List (Spot × Byte)) : State :=
  let put := fun (lam : Option Nat) (s : State) => ws.foldl (fun s w => s.engineWrite t level lam w.1 w.2) s
  let memory := ws.any fun w => !w.1.io && (match w.1.loc with
    | .mem _ => true
    | _ => false)
  if (t.layer level).isSome || !memory then put (t.layer level) s
  else
    let (k, s) := s.newKey
    put (some k) { s with lams := s.lams ++ [writeSet k t.ctx t.key t.core s.now []] }

/-! ## Commit (R224, R228, R229) -/

/-- Has a die applied every STRONG commit so far: one that takes the next number may be granted there (R228)? -/
def State.strongClear (s : State) (die : Nat) : Bool := s.flights.all fun f => f.strong.isNone || f.acks.contains die

/-- Are the stores that belong to a chunk all accepted: those issued while it was open (R221)? -/
def State.chunkFilled (s : State) (l : Lam) : Bool :=
  let next := (s.groupChunks l.team l.gid).filter fun m => l.key < m.key
  !(s.ops.any fun o => l.key < o.key && o.globalStore l.team l.gid && next.all fun m => o.key < m.key)

/-- Is a grant of this chunk possible: it is requested with its stores accepted, every chunk it depends on has committed, no
commit-priority chunk reads what it writes, no signature that its arbiter has still to gather meets it, and, for a STRONG one,
its die has applied every STRONG commit before it (R221, R223 to R228)? -/
def State.grantable (s : State) (l : Lam) : Bool :=
  l.owner == .chunk && l.st == .requested && s.chunkFilled l
    && !(s.lams.any fun x => x.owner == .chunk && l.deps.contains x.key)
    && (l.parent.isSome
      || (!(s.gathered.any fun e => e.1 == dieOf l.core && sigsMeet e.2 l.rsig)
        && !(s.heldBack (some l.key) (if s.hasPriority l then l.fourth else none) l.wsig) && (!l.strong || s.strongClear (dieOf l.core))))

/-- Lines moved into a parent lamina: a later write of a byte replaces an earlier one (R298). -/
def mergeLines (parent lines : List Line) : List Line :=
  lines.foldl (fun p x => (p.filter fun y => !y.holds x.grain x.pa) ++ [x]) parent

/-- Older writes that other chunks of a core hold of bytes that a chunk of it commits come before it in their coherence order, so
they are not left to commit after it (R212). -/
def State.supersede (s : State) (l : Lam) : State :=
  let other := fun (m : Lam) => m.owner == .chunk && m.core == l.core && m.parent == l.parent
  let past := fun (x : Line) => l.lines.any fun y => y.holds x.grain x.pa && x.seq < y.seq
  { s with lams := updIf other (fun m => { m with lines := m.lines.filter fun x => !past x }) s.lams }

/-- A write set leaves on its stages: it counts for the interference tests, and a STRONG one takes the next sequence number (R224,
R225, R228). -/
def State.launchFlight (s : State) (l : Lam) (lines : List Line) : State :=
  let (k, s) := s.newKey
  let f : Flight :=
    { key := k, lam := l.key, ctx := l.ctx, team := l.team, core := l.core, die := dieOf l.core, grains := l.wsig, lines := lines,
      acks := [], strong := if l.strong then some s.strongSeq else none, since := s.now, fourth := l.fourth }
  let a : Applied := { num := k, grains := l.wsig, team := l.team, die := dieOf l.core, first := true }
  { s with flights := s.flights ++ [f], strongSeq := (if l.strong then s.strongSeq + 1 else s.strongSeq), applied := s.applied ++ [a] }

/-- Does a core keep a line that a chunk of it commits from the rest of the part: a non-temporal store, or, by a free choice, a LOOSE
byte? The bytes of 16 aligned ones share the choice, so that no agent sees a part of one access (R205, R216, R218; log entry 4). -/
def State.keepsBack (s : State) (l : Lam) (x : Line) : Bool :=
  l.owner == .chunk && (x.nt.isSome || (x.ord == 2 && Config.freeBit s.fresh (4 * (x.pa / 16) + 3)))

/-- Do two bytes lie in 16 aligned ones: as far as one access reaches (R205)? -/
def Line.near (x y : Line) : Bool := x.pa / 16 == y.pa / 16

/-- Lines of a lamina become the values at their locations (R224): they go on their stages, but for those the core keeps back, which
other agents see later (R216, R218). -/
def State.publish (s : State) (l : Lam) : State :=
  let s := l.lines.foldl (fun s x => s.castShadow l.core x.grain x.pa) s
  let kept := l.lines.filter (s.keepsBack l)
  let out := l.lines.filter fun x => !s.keepsBack l x
  let own := fun (x : Line) (dirty : Bool) =>
    let near := (s.held.find? fun h => h.dirty && h.core == l.core && h.line.near x).bind fun h => h.due
    let due := if dirty then some (near.getD (s.now + 1 + Config.freeDelay s.fresh (x.pa / 16))) else none
    ({ core := l.core, ctx := l.ctx, team := l.team, line := x, dirty := dirty, due := due } : Held)
  let rest := s.held.filter fun h => !(h.core == l.core && l.lines.any fun x => x.holds h.line.grain h.line.pa)
  let s : State := { s with
    held := rest ++ kept.map (fun x => own x true) ++ (out.filter fun x => x.ord == 2).map fun x => own x false }
  if l.wsig.isEmpty && !l.strong then s else s.launchFlight l out

/-- Grant a lamina's commit: its lines become the values of its parent lamina, or of memory (R224, R229). -/
def State.grant (s : State) (l : Lam) : State :=
  let l : Lam := match l.owner, s.team? l.team with
    | .chunk, _ => l
    | _, some t => { l with core := t.core }
    | _, none => l
  let free : Lam → Lam := fun x => { x with deps := x.deps.filter (fun d => d != l.key) }
  let s : State := { s with lams := (s.lams.filter (fun x => x.key != l.key)).map free }
  let s := s.supersede l
  match l.parent with
  | some p => s.modLam p fun x =>
      { x with lines := mergeLines x.lines l.lines, wsig := l.wsig.foldl (fun r g => addGrain g r) x.wsig,
               strong := x.strong || l.strong }
  | none => s.publish l

/-- Grant every chunk of some groups that can be granted, repeatedly: used where a save or a restore needs them committed
(R229, R401). -/
def State.commitAll (s : State) (pick : Lam → Bool) : Nat → State
  | 0 => s
  | fuel + 1 => match s.lams.find? fun l => pick l && s.grantable l with
    | some l => (s.grant l).commitAll pick fuel
    | none => s

/-! ## What a core keeps back (R216, R218) -/

/-- Writes that a core has kept back leave under another key: threads that have observed them, and fences that wait for them,
follow it (R208, R210). -/
def State.renameSeen (s : State) (old : List Nat) (new : Nat) : State :=
  let name := fun (k : Nat) => if old.contains k then new else k
  let team : Team → Team := fun t =>
    if t.seen.any fun x => old.contains x.2.2 then { t with seen := uniq (t.seen.map fun x => (x.1, x.2.1, name x.2.2)) } else t
  let fence : Op → Op := fun o => match o.what with
    | .fence k sc g ls lams => { o with what := .fence k sc g ls (uniq (lams.map name)) }
    | _ => o
  { s with teams := s.teams.map team, ops := s.ops.map fence }

/-- A core gives up some of the bytes it keeps dirty: for each team they leave on their stages as one write set; LOOSE copies stay,
clean. Bytes that one access may have written leave together (R205). The keys that name the write sets are returned (R202, R216,
R218). -/
def State.giveUp (s : State) (pick : Held → Bool) : List Nat × State :=
  let picked := s.held.filter fun h => h.dirty && pick h
  let mine := s.held.filter fun h => h.dirty && picked.any fun g => g.core == h.core && g.line.near h.line
  (uniq (mine.map fun h => (h.core, h.ctx, h.team))).foldl (fun (r : List Nat × State) u =>
    let set := mine.filter fun h => (h.core, h.ctx, h.team) == u
    let (k, s) := r.2.newKey
    let lines := set.map fun h => h.line
    let l := writeSet k u.2.1 u.2.2 u.1 s.now lines
    let s := s.renameSeen (lines.map fun x => x.seq) k
    let clean := r.2.held.filterMap fun h =>
      if !(set.contains h) then some h else if h.line.ord == 2 then some { h with dirty := false, due := none } else none
    (r.1 ++ [k], { s with held := clean }.launchFlight l lines)) ([], s)

/-- A core gives up the LOOSE bytes it keeps dirty, as for a `FENCE.AR` (R208, R216). -/
def State.looseGoes (s : State) (core : Nat) : State := (s.giveUp fun h => h.core == core && h.line.ord == 2).2

/-- A core drops the clean LOOSE copies it keeps, as a `FENCE.AR` beyond its own scope does (R208, R216). -/
def State.looseFresh (s : State) (core : Nat) : State := { s with held := s.held.filter fun h => h.dirty || h.core != core }

/-- Must a core give up a byte it keeps: its free delay is over, or the team that wrote it is being saved or is gone (R213, R216,
R218, R401; log entry 5)? -/
def State.leaves (s : State) (h : Held) : Bool :=
  h.dirty && ((h.due.any fun d => d ≤ s.now) || (match s.team? h.team with
    | some t => t.st != .running && t.st != .suspended
    | none => true))

/-- The bytes that a core no longer keeps leave it (R213, R216, R218). -/
def State.giveUpDue (s : State) : State := if s.held.any s.leaves then (s.giveUp s.leaves).2 else s

end Sys2Proof.Machine
end

