-- ==== Sys2Proof/Machine/Access.lean ====
section
/-! DEFINITION. Lane accesses LD, ST, ATOM, RED (R198 to R201), fences FENCE (R207 to R209), cache control CCTL (R202), and
how their operations are performed and completed (R25, R208, R366 to R368). -/

namespace Sys2Proof.Machine

/-! ## The lanes of a memory word -/

/-- One lane of a memory word: group, lane, address, the bytes it reaches. -/
structure LaneAcc where
  gid : Nat
  lane : Nat
  va : Nat
  spots : List Spot

/-- Effective address of a lane: pair + sign-extended offset; 127 means no offset (R198). -/
def State.laneVa (s : State) (t : Team) (gid lane : Nat) (k : BitVec 5) (i : BitVec 7) : Nat :=
  let off := if i = 127 then 0 else (s.rdV t gid lane i.toNat).signExtend 64
  (s.rdS2 t gid k.toNat + off).toNat

/-- The lanes of the word that take no fault, and the faults of the others, alignment first (R186, R198). -/
def State.laneAccesses (s : State) (acc : Access) (k : BitVec 5) (i : BitVec 7) (n : Nat) :
    List LaneAcc × List (Nat × Nat × Nat × AFault) :=
  match s.readTeam with
  | none => ([], [])
  | some t => match s.ctxOf t with
    | none => ([], [])
    | some c =>
      s.members.foldl (fun r m =>
        let va := s.laneVa t m.1 m.2 k i
        let tid := match t.thread? m.1 m.2 with
          | some x => x.tid
          | none => 0
        if misaligned va n then (r.1, r.2 ++ [(m.1, m.2, va, AFault.of cMisalign)])
        else match s.reach t c tid acc va n with
          | .ok sp => (r.1 ++ [{ gid := m.1, lane := m.2, va := va, spots := sp }], r.2)
          | .error e => (r.1, r.2 ++ [(m.1, m.2, va, e)])) ([], [])

/-- Does an address lie in the cluster window (R174)? -/
def inCluster (va : Nat) : Bool := match windowOf va with
  | .cluster _ _ => true
  | _ => false

/-- A team's access to the cluster window (R293). -/
def State.noteCluster (s : State) (team : Nat) (vas : List Nat) : State :=
  if vas.any inCluster then s.modTeam team fun t => { t with clusterOpen := true } else s

/-- The global addresses that an access of a thread translates: its own, or those of the words of its private bytes (R178, R183). -/
def State.placesOf (s : State) (t : Team) (gid lane va n : Nat) : List Nat := match windowOf va with
  | .global => [va]
  | .private_ p => match t.thread? gid lane with
    | some x => (privParts p n).map fun q => s.privVa t x.tid q.1
    | none => []
  | _ => []

/-- The global addresses that the lanes of a word translate. -/
def State.lanePlaces (s : State) (t : Team) (ls : List LaneAcc) : List Nat :=
  ls.flatMap fun l => s.placesOf t l.gid l.lane l.va l.spots.length

/-- Remember the translations that the lanes used (R183). -/
def State.fillPages (s : State) (t : Team) (ls : List LaneAcc) : State :=
  match s.ctxOf t with
  | none => s
  | some c =>
    let pages := uniq ((s.lanePlaces t ls).map fun va => va / 65536)
    pages.foldl (fun s p => match s.lookup t.core c (p * 65536) with
      | .ok g => s.fillTlb t.core c.num (p * 65536) g
      | .error _ => s) s

/-- Remember the translations that the lanes of an access used (R183), an access to the cluster window (R293), and the addresses
of the lanes (R406). -/
def State.fillLanes (s : State) (t : Team) (ls : List LaneAcc) : State :=
  let s := s.noteCluster t.key (ls.map fun l => l.va)
  let s : State := { s with cur := { s.cur with vas := ls.map fun l => (l.gid, l.lane, l.va) } }
  s.fillPages t ls

def LaneAcc.isPod (l : LaneAcc) : Bool := l.spots.any fun x => match x.loc with
  | .pod _ _ => true
  | _ => false

def LaneAcc.isIo (l : LaneAcc) : Bool := l.spots.any fun x => x.io

def LaneAcc.isGlobal (l : LaneAcc) : Bool := l.spots.any fun x => match x.loc with
  | .mem _ => true
  | _ => false

def LaneAcc.isScratch (l : LaneAcc) : Bool := l.spots.any fun x => match x.loc with
  | .scratch _ _ => true
  | _ => false

/-- First physical byte of a global access. -/
def LaneAcc.pa (l : LaneAcc) : Option Nat := match l.spots with
  | x :: _ => match x.loc with
    | .mem a => some a
    | _ => none
  | [] => none

/-- Does a lane's address lie in a window whose stores are non-temporal with h = 2: global or pod (R199, R218)? -/
def LaneAcc.mayNt (l : LaneAcc) : Bool := l.isGlobal || l.isPod

/-- Does an access to some global addresses wait for the move of a page: a write or an atomic for the move, a read for the walk
(R191)? -/
def State.moveWaits (s : State) (t : Team) (write : Bool) (vas : List Nat) : Bool :=
  !s.moves.isEmpty && vas.any fun va => if write then s.moving t.ctx va else s.walkWaits (laneTlbs t.core) t.ctx va

/-- Does a team hold back external operations: inside an open block or as a rival (R315, R329)? -/
def Team.defers (t : Team) : Bool := !t.levels.isEmpty || t.parent.isSome

/-- Entries of the block outbox or of the world outbox allow one more (R315, R330). -/
def Team.outboxRoom (t : Team) : Bool :=
  match t.levels.getLast? with
  | some l => t.outbox.length < l.outLen + 64
  | none => t.outbox.length < 256

/-- A rival's view or outbox is exhausted (R330): the rival is to be aborted with cause 3 at the end of the word. -/
def State.viewExhausted (s : State) (team : Nat) : State := s.post .rivalDone [team, 3]

/-- Append an external operation to the outbox; a full one fails the routine with code 7, or aborts the rival (R315, R330). -/
def State.toOutbox (s : State) (team : Nat) (e : OutEntry) : State :=
  match s.team? team with
  | none => s
  | some t =>
    if t.outboxRoom then s.modTeam team fun t => { t with outbox := t.outbox ++ [e] }
    else if t.levels.isEmpty then s.viewExhausted team
    else s.failRoutine team 7

/-! ## DET staging (R366 to R368) -/

/-- A held-back or staged operation of a lane of the word at issue, with what a record of it names (R374). -/
def State.heldEntry (s : State) (t : Team) (gid lane : Nat) (op : OutOp) : OutEntry :=
  let pcs := s.bothPcs t ((t.thread? gid lane).bind fun x => x.point) s.cur.pc
  { gid := gid, lane := lane, op := op, word := s.cur.word, pcs := pcs, chunk := none }

/-- Stage an access: it leaves its group's chunk for the staging when that commits (R367). -/
def State.stage (s : State) (team : Nat) (e : OutEntry) : State :=
  let s := s.withChunk team e.gid
  let chunk := (s.openChunk? team e.gid).map fun l => l.key
  s.modTeam team fun t => { t with staged := t.staged ++ [{ e with chunk := chunk }] }

/-- Does an access order itself by the bakery: a DS page in a DET context (R366)? -/
def State.dsAccess (s : State) (t : Team) (l : LaneAcc) : Bool := s.isDet t && l.spots.any fun x => x.ds

/-- The old and new value of a 32-bit or 64-bit word under an atomic operation (R200 Table 8). -/
def atomicNew (op m x cmp : Nat) : Nat :=
  match op with
  | 0 => (m + x) % 2 ^ 32
  | 1 => (m + x) % 2 ^ 64
  | 2 => m &&& x
  | 3 => m ||| x
  | 4 => m ^^^ x
  | 5 => if sval 32 m ≤ sval 32 x then m else x
  | 6 => if sval 32 m ≤ sval 32 x then x else m
  | 7 => min m x
  | 8 => max m x
  | 9 => x
  | 10 => if m = cmp then x else m
  | 11 => addF32 m x
  | 12 => (fpAdd fmtF16 0 (decodeFp fmtF16 (m / 65536)) (decodeFp fmtF16 (x / 65536))).1 * 65536
      + (fpAdd fmtF16 0 (decodeFp fmtF16 (m % 65536)) (decodeFp fmtF16 (x % 65536))).1
  | 13 => (fpAdd fmtBf16 0 (decodeFp fmtBf16 (m / 65536)) (decodeFp fmtBf16 (x / 65536))).1 * 65536
      + (fpAdd fmtBf16 0 (decodeFp fmtBf16 (m % 65536)) (decodeFp fmtBf16 (x % 65536))).1
  | _ => if m ≥ x then 0 else m + 1

/-- Width of an atomic operation in bytes (R200). -/
def atomicWidth (op : Nat) : Nat := if op = 1 then 8 else 4

/-- The bytes a staged or held-back operation writes, given what it reads. -/
def OutOp.bytes (o : OutOp) (read : Nat → Byte) : List (Nat × Byte) :=
  match o with
  | .store _ (some pa) n v => (leBytes n v).zipIdx.map fun p => (pa + p.2, p.1)
  | .red _ (some pa) op v =>
    let n := atomicWidth op
    let m := leNat ((upFrom pa n).map read)
    (leBytes n (atomicNew op m v 0)).zipIdx.map fun p => (pa + p.2, p.1)
  | _ => []

/-- Has a rival a version of a byte in its own view, newer than what its parents staged before the fork (R319, R332)? -/
def State.viewHolds (s : State) (t : Team) (pa : Nat) : Bool :=
  t.parent.isSome && s.lams.any fun l => (l.team == t.key || some l.key == t.base) && l.lines.any fun x => x.pa == pa

/-- What a team's own staged operations leave at a byte, read under a name (R366). -/
def State.stagedByte (s : State) (t : Team) (g pa : Nat) : Byte :=
  if s.viewHolds t pa then s.teamByte t g pa else
  let look := fun (ov : List (Nat × Byte)) a => match ov.find? fun p => p.1 == a with
    | some p => p.2
    | none => s.teamByte t g a
  let ov := t.staged.foldl (fun ov e => (e.op.bytes (look ov)) ++ ov) []
  look ov pa

/-- The byte a thread's load returns: its own unaccepted store, its team's staged writes, its view; a place that a chain's
copy is writing gives an undefined value (R199, R230, R366; log entry 3). -/
def State.loadByte (s : State) (t : Team) (a : Agent) (x : Spot) : Byte :=
  if s.chainHits (t.layer t.levels.length) x.loc then Config.freeByte s.fresh x.loc.code
  else match s.ownStore a x with
    | some b => b
    | none => match x.loc with
      | .mem pa => if t.staged.isEmpty then s.locByte t x else s.stagedByte t x.grain pa
      | _ => s.locByte t x

/-- Has the team's turn begun: DS accesses are direct (R366, R367)? -/
def Team.direct (t : Team) : Bool := t.turn

/-- Bytes that a team's staged accesses take. The spec does not give the size of one in the staging (log entry 77). -/
def Team.stagingUse (t : Team) : Nat := t.staged.length * Config.stagingSize

/-- Is a team's staging full: it holds its own 16 KiB, and the 4 MiB of its die are taken, 16 KiB of them at least by each other team
there (R367)? -/
def State.stagingFull (s : State) (t : Team) : Bool :=
  let others := s.teams.filter fun u => u.key != t.key && dieOf u.core == dieOf t.core && s.isDet u
    && (u.st == .running || u.st == .stopping || !u.staged.isEmpty)
  let taken := others.foldl (fun n u => n + max 16384 u.stagingUse) t.stagingUse
  t.stagingUse ≥ 16384 && taken ≥ 4 * 2 ^ 20

/-- A DS access of a group must wait: the group does not hold the token, or (an `ATOM`, a full staging, or a `RED` in an open
block, whose writes go into the block's lamina and so are not staged) the team's turn has not begun (R309, R367, R368; log entry
78). -/
def State.dsWaits (s : State) (t : Team) (atom red : Bool) (ls : List LaneAcc) : Bool :=
  (ls.filter fun l => s.dsAccess t l).any fun l =>
    t.token != some l.gid || (!t.turn && t.parent.isNone
      && (atom || if t.levels.isEmpty then s.stagingFull t else red))

/-- Has a group of a team executed `TKDONE` (R369)? -/
def Team.tokenDone (t : Team) (gid : Nat) : Bool := match t.group? gid with
  | some g => g.tkdone
  | none => false

/-- Lanes of groups that have executed `TKDONE` and make a DS store, `ATOM` or `RED`: `ILLOP` with the address (R369). -/
def State.dsDone (s : State) (t : Team) (ls : List LaneAcc) : List LaneAcc :=
  (ls.filter fun l => s.dsAccess t l).filter fun l => t.tokenDone l.gid

/-- Does a faulting lane make such an access: a field check comes before every fault of the access (R46, R369)? -/
def State.dsDoneFault (s : State) (t : Team) (f : Nat × Nat × Nat × AFault) : Bool :=
  s.isDet t && t.tokenDone f.1 && windowOf f.2.2.1 == .global && (match s.ctxOf t with
    | some c => (match s.lookup t.core c f.2.2.1 with
      | .ok p => p.ds
      | .error _ => false)
    | none => false)

/-! ## Loads (R198, R199) -/

/-- Bytes of an access by width code (R198). -/
def widthBytes (w : Nat) : Nat := match w with
  | 0 => 1
  | 1 => 2
  | 2 => 4
  | 3 => 8
  | 4 => 16
  | 5 => 1
  | _ => 2

/-- The register values of a loaded value by width code (R198). -/
def loadRegs (w x : Nat) : List Word :=
  match w with
  | 3 => [BitVec.ofNat 32 x, BitVec.ofNat 32 (x >>> 32)]
  | 4 => (List.range 4).map fun i => BitVec.ofNat 32 (x >>> (32 * i))
  | 5 => [(BitVec.ofNat 8 x).signExtend 32]
  | 6 => [(BitVec.ofNat 16 x).signExtend 32]
  | _ => [BitVec.ofNat 32 x]

/-- Is every route of a pod-window entry DOWN, so that a request fails (R412)? Ports are links 1 to 16. -/
def State.podDown (s : State) (c : Context) (e : Nat) : Bool :=
  match c.podEntry? e with
  | none => true
  | some x =>
    let ports := match s.part.routes.find? fun r => r.1 == x.module with
      | some r => r.2
      | none => []
    ports.all fun p => s.part.links.all fun l => l.num != p + 1 || l.st == .down

/-- A unit sent on a channel: a permit is spent, a slot of the receiver is occupied (R414). -/
def Channel.spend (c : Channel) : Channel := { c with held := c.held - 1, occupied := c.occupied + 1 }

/-- A flit for a module leaves on the first port of its route that is UP or DEGRADED; it spends a permit of its class and is kept
until it is acknowledged (R407, R409, R414). With no such port, or without a permit, it waits (R412, R414). -/
def State.sendFlit (s : State) (module cls : Nat) : State :=
  let ports := match s.part.routes.find? fun r => r.1 == module with
    | some r => r.2
    | none => []
  let up := fun (p : Nat) => s.part.links.any fun l => l.num == p + 1 && (l.st == .up || l.st == .degraded)
  match ports.find? up with
  | none => s
  | some p =>
    let mine := fun (c : Channel) => c.kind == 1 && c.num == p && c.cls == cls
    if s.part.channels.any fun c => mine c && c.held = 0 then s
    else
      let send : Port → Port := fun x => { x with next := x.next + 1, unacked := x.unacked ++ [x.next] }
      { s with part := { s.part with
          ports := updIf (fun x => x.num == p) send s.part.ports, channels := updIf mine Channel.spend s.part.channels } }

/-- The module of a pod-window entry. -/
def Context.podModule (c : Context) (e : Nat) : Nat := match c.podEntry? e with
  | some x => x.module
  | none => 0

/-- Send a pod-window request (R407, R411). -/
def State.sendPod (s : State) (c : Context) (tag va width : Nat) (act : RemoteAct) : State :=
  (s.emit (.podRequest tag c.num va width act)).sendFlit (c.podModule (bits va 41 34)) 0

/-- The pod-window requests of a word: one operation for each unit of lanes, which its response completes; lanes whose every route is
DOWN raise `WINDOW` with REASON 3 (R201, R411, R412). -/
def State.podRequests (s : State) (t : Team) (us : List (List LaneAcc)) (n : Nat) (regs : LaneAcc → List (Nat × Nat × Nat))
    (act : List LaneAcc → RemoteAct) : State :=
  match s.ctxOf t with
  | none => s
  | some c =>
    let entry := fun (l : LaneAcc) => bits l.va 41 34
    let dead := us.flatten.filter fun l => s.podDown c (entry l)
    let s := us.foldl (fun (s : State) u => match u.filter fun l => !s.podDown c (entry l) with
      | [] => s
      | l :: rest =>
        let keys := (l :: rest).map fun x => (x.gid, x.lane)
        let s := { s with cur := { s.cur with members := keys } }.groupOp l.gid 0
          (.remote ((l :: rest).flatMap regs) l.va n (act (l :: rest)))
        s.sendPod c (s.keys - 1) l.va n (act (l :: rest))) s |> fun x => { x with cur := s.cur }
    match dead with
    | [] => s
    | l :: _ =>
      let pcs := s.bothPcs t ((t.thread? l.gid l.lane).bind fun x => x.point) s.cur.pc
      let r := s.teamRecord t cWindow l.gid (laneMask (dead.map fun x => x.lane)) s.cur.word.toNat pcs (BitVec.ofNat 64 l.va)
      s.putRecords t.ctx [({ r with fatal := true, extra := extra458 3 0 0 0 3 0 }, none)]

/-- Destinations of a load are empty from issue (R107, R198). -/
def emptyRegs (ls : List LaneAcc) (d n : Nat) (t : Team) : Team :=
  ls.foldl (fun t l => (upFrom d n).foldl (fun t r => t.markEmpty (.v l.gid l.lane r)) t) t

/-- The write sets that a fence of some threads waits for: those the threads have observed (R208, R210), and, unless it is an
acquire alone, the group's own. -/
def State.fenceSets (s : State) (kind team gid : Nat) (lanes : List Nat) : List Nat :=
  let own := if kind = 0 then [] else ((s.groupChunks team gid).filter fun l => l.st == .requested).flatMap fun l => l.key :: l.deps
  let seen := match s.team? team with
    | some t => if kind = 3 then [] else (t.seen.filter fun x => x.1 == gid && lanes.contains x.2.1).map fun x => x.2.2
    | none => []
  uniq (own ++ seen)

/-- Put a fence of the word at issue in flight for each of its groups (R208). -/
def State.fenceOps (s : State) (kind scope : Nat) (toks : Bool) : State :=
  s.curGids.foldl (fun s g =>
    s.newOp s.cur.team (if toks then s.curToks g else []) 0
      (.fence kind scope g (s.lanesOf g) (s.fenceSets kind s.cur.team g (s.lanesOf g)))) s

/-- Plain part of a load: values are read now and delivered when the destination fills (R198, R199). -/
def State.loadLanes (s : State) (t : Team) (v w : Nat) (ls : List LaneAcc) : State :=
  let s := s.fillLanes t ls
  let s := ls.foldl (fun s l => s.noteRead t l.gid l.lane l.spots) s
  let s := s.modTeam t.key (emptyRegs ls v (widthRegs w))
  let pods := ls.filter fun l => l.isPod
  let here := ls.filter fun l => !l.isPod
  let s := (uniq (here.map fun l => l.gid)).foldl (fun s g =>
    let ws := (here.filter fun l => l.gid == g).flatMap fun l =>
      let x := leNat (l.spots.map fun p => s.loadByte t { team := t.key, gid := l.gid, lane := l.lane } p)
      (loadRegs w x).zipIdx.map fun r => (l.gid, l.lane, v + r.2, r.1)
    s.groupOp g s.delay (.vres ws 0)) s
  s.podRequests t (pods.map fun l => [l]) (widthBytes w) (fun l => (upFrom v (widthRegs w)).map fun r => (l.gid, l.lane, r)) fun _ => .load

/-- Would a lane's read make its group's chunk one that can be squashed: it reads a STRONG page or another group's provisional
grain (R222)? -/
def State.couldSquash (s : State) (t : Team) (l : LaneAcc) : Bool :=
  l.isGlobal && l.spots.any fun x => x.ord == 1 || !(s.grainWriters t l.gid x.grain).isEmpty

/-- Has a thread an atomic request outstanding on a byte that a lane of it reads or writes: its next access of the byte comes after
(R199, R212)? -/
def State.atomPending (s : State) (l : LaneAcc) (team : Nat) : Bool :=
  s.ops.any fun o => o.team == team && (match o.what with
    | .atomic u _ _ _ ls => (ls.any fun x => x.gid == l.gid && x.lane == l.lane) && u.any fun x => l.spots.any fun y => x.same y
    | _ => false)

/-- Must a load wait: for an atomic of its own thread on the byte (R212), for a signature that a chunk with commit priority must not
miss (R227), for the walk of a page under a move (R191), for stores that a chunk it ends still expects (R221), or for earlier external
operations (R189)? -/
def State.loadWaits (s : State) (t : Team) (ls : List LaneAcc) : Bool :=
  ls.any (fun l => s.atomPending l t.key || l.spots.any fun x => s.priorityWaits t l.gid x)
    || s.moveWaits t false (s.lanePlaces t ls) || ls.any fun l => l.isIo && s.ioPending t.key l.gid

/-- LD: faulting lanes fault; an acquire, and an access to an IO page, ends the chunk; an acquire is followed by its fence
(R189, R198, R209, R221). -/
def execLd (v : BitVec 7) (k : BitVec 5) (i : BitVec 7) (w : BitVec 3) (h : BitVec 2) (s : State) :
    Host.Outcome State Fault Refusal :=
  match s.readTeam with
  | none => .next s
  | some t =>
    let (ls, fs) := s.laneAccesses .load k i (widthBytes w.toNat)
    let late := fun (s1 : State) => if s1.cur.retry then s1 else s1.accessFaults fs
    if !s.cur.cleared && ((s.groupsHeld && ls.any (s.couldSquash t)) || s.loadWaits t ls) then .next s.retryWord
    else if h = 1 then
      let scope := if ls.any fun l => l.isPod then 4 else 3
      .next (late (s.endingWord fun s => (s.loadLanes t v.toNat w.toNat ls).fenceOps 0 scope false))
    else if ls.any fun l => l.isIo then .next (late (s.endingWord fun s => s.loadLanes t v.toNat w.toNat ls))
    else .next ((s.loadLanes t v.toNat w.toNat ls).accessFaults fs)

/-! ## Stores -/

/-- The value a lane stores (R198). -/
def State.storeData (s : State) (t : Team) (g l v w : Nat) : Nat :=
  leNat ((upFrom v (widthRegs w)).flatMap fun r => leBytes 4 (s.rdV t g l r).toNat) % 2 ^ (8 * widthBytes w)

/-- The lanes of a store or RED by how they are performed: held back in the outbox, staged, sent to a pod, or performed here. -/
inductive Route where
  | outbox
  | staged
  | pod
  | here
  deriving DecidableEq, Repr

/-- How an external or ordinary write of a lane goes: a DS write of an open block goes into its lamina as every global write of it
does (R189, R309, R315, R329, R366; log entry 78). -/
def State.routeOf (s : State) (t : Team) (l : LaneAcc) : Route :=
  if (l.isIo || l.isPod) && t.defers then .outbox
  else if l.isPod then .pod
  else if s.dsAccess t l && !t.turn && t.parent.isNone && t.levels.isEmpty then .staged
  else .here

/-- Is a cluster-window write of a team in an open block to a member outside its conversation (R308, R312)? -/
def State.clusterForbidden (s : State) (t : Team) (l : LaneAcc) : Bool :=
  !t.levels.isEmpty && l.spots.any fun x => match x.loc with
    | .scratch k _ => k != t.key && (match s.team? k with
      | some u => t.conv.isNone || u.conv != t.conv
      | none => true)
    | _ => false

/-- Of the bytes that one `ST` word of a squad stores in several operations, each is left to the operation of its highest lane (R150,
R199). -/
def State.highestLane (s : State) (team : Nat) : State :=
  let mine := fun (o : Op) => o.team == team && o.iss.round == s.cur.round && o.iss.word == s.cur.word
  let beaten := fun (w : StoreByte) => s.ops.any fun o => mine o && (match o.what with
    | .store ws _ => ws.any fun x => x.who.lane > w.who.lane && x.at_.same w.at_
    | _ => false)
  let cut := fun (o : Op) => match o.what with
    | .store ws nt => { o with what := .store (ws.filter fun w => !beaten w) nt }
    | _ => o
  { s with ops := updIf mine cut s.ops }

/-- Perform the store lanes of a word (R198, R199): the lanes' bytes go to L1 as one operation per group. -/
def State.storeLanes (s : State) (t : Team) (v w : Nat) (nt : Bool) (ls : List LaneAcc) : State :=
  let s := s.fillLanes t ls
  let data := fun (l : LaneAcc) => s.storeData t l.gid l.lane v w
  let n := widthBytes w
  let route := fun (l : LaneAcc) => s.routeOf t l
  let s := ls.foldl (fun s l => match route l with
    | .outbox => s.toOutbox t.key (s.heldEntry t l.gid l.lane (.store l.va l.pa n (data l)))
    | .staged => s.stage t.key (s.heldEntry t l.gid l.lane (.store l.va l.pa n (data l)))
    | _ => s) s
  let here := ls.filter fun l => route l == .here
  let bytes := fun (l : LaneAcc) => (l.spots.zip (leBytes n (data l))).map fun p =>
    ({ who := { team := t.key, gid := l.gid, lane := l.lane }, at_ := p.1, byte := p.2,
       direct := p.1.io || (p.1.ds && s.isDet t && t.parent.isNone && t.levels.isEmpty) } : StoreByte)
  let put := fun (s : State) (nt : Bool) (ls : List LaneAcc) => (uniq (ls.map fun l => l.gid)).foldl (fun s g =>
    s.groupOp g s.delay (.store ((ls.filter fun l => l.gid == g).flatMap bytes) nt)) s
  let s := put s false (here.filter fun l => !(nt && l.mayNt))
  let s := (put s true (here.filter fun l => nt && l.mayNt)).highestLane t.key
  s.podRequests t ((ls.filter fun l => route l == .pod).map fun l => [l]) n (fun _ => []) fun u => .store (match u with
    | l :: _ => data l
    | [] => 0)

/-- ST: faulting lanes fault; a release is a fence before the store; scratchpad, cluster and remote stores, and DS and IO
ones, wait as their rules give (R189, R198, R209, R222, R366 to R369). -/
def execSt (v : BitVec 7) (k : BitVec 5) (i : BitVec 7) (w : BitVec 3) (h : BitVec 2) (s : State) :
    Host.Outcome State Fault Refusal :=
  match s.readTeam with
  | none => .next s
  | some t =>
    let (all, fs) := s.laneAccesses .store k i (widthBytes w.toNat)
    let done := s.dsDone t all
    let ls := all.filter fun l => !(done.any fun d => d.gid == l.gid && d.lane == l.lane)
    let traps := done.map (fun l => (l.gid, l.lane, cIllop, BitVec.ofNat 64 l.va))
      ++ (fs.filter (s.dsDoneFault t)).map fun f => (f.1, f.2.1, cIllop, BitVec.ofNat 64 f.2.2.1)
    let finish := fun (s : State) => (s.takeTraps traps).accessFaults (fs.filter fun f => !s.dsDoneFault t f)
    let put := fun (s : State) => finish (s.storeLanes t v.toNat w.toNat (h == 2) ls)
    if ls.any fun l => s.clusterForbidden t l then .next (s.failRoutine t.key 11)
    else if !s.cur.cleared && (s.dsWaits t false false ls || s.moveWaits t true (s.lanePlaces t ls)
        || ls.any fun l => l.isIo && s.ioPending t.key l.gid) then .next s.retryWord
    else if h = 1 then
      let scope := if ls.any fun l => l.isPod then 4 else 3
      .next (s.endingWord fun s => put (s.fenceOps 1 scope false))
    else if ls.any fun l => l.isIo then .next (s.endingWord put)
    else if ls.any fun l => l.isScratch || l.isPod then .next (s.irrevocable put)
    else .next (put s)

/-! ## Atomics (R200, R201) -/

/-- Operand of an atomic in a lane: the register, the pair of `add.i64`, and the comparand of `cas` (R200). -/
def State.atomOperand (s : State) (t : Team) (g l d op : Nat) : DWord × Word :=
  if op = 1 then (s.rdV2 t g l d, 0)
  else ((s.rdV t g l d).setWidth 64, if op = 10 then s.rdV t g l (d + 1) else 0)

/-- What makes lanes of an atomic word one request: one group and one unit; a lane on an IO page is a request of its own (R189,
R201). -/
def LaneAcc.unitKey (l : LaneAcc) : Nat × Option Nat × List Spot := (l.gid, if l.isIo then some l.lane else none, l.spots)

/-- Group the lanes of an atomic word by the unit they address; units in the order of their first lane (R201). -/
def unitsOf (ls : List LaneAcc) : List (List LaneAcc) :=
  (uniq (ls.map LaneAcc.unitKey)).map fun u => ls.filter fun l => l.unitKey == u

/-- Send the requests of an atomic word, one per group and unit (R201). -/
def State.atomLanes (s : State) (t : Team) (d op : Nat) (r ret : Bool) (ls : List LaneAcc) : State :=
  let s := s.fillLanes t ls
  let operand := fun (l : LaneAcc) => s.atomOperand t l.gid l.lane d op
  let route := fun (l : LaneAcc) => s.routeOf t l
  let s := if ret then s.modTeam t.key (emptyRegs ls d (if op = 1 then 2 else 1)) else s
  let s := ls.foldl (fun s l => match route l with
    | .outbox => s.toOutbox t.key (s.heldEntry t l.gid l.lane (.red l.va l.pa op (operand l).1.toNat))
    | .staged => s.stage t.key (s.heldEntry t l.gid l.lane (.red l.va l.pa op (operand l).1.toNat))
    | _ => s) s
  let s := (unitsOf (ls.filter fun l => route l == .here)).foldl (fun s u => match u with
    | [] => s
    | l :: _ =>
      let lanes := u.map fun x => ({ gid := x.gid, lane := x.lane, x := (operand x).1, cmp := (operand x).2, lost := [] } : AtomLane)
      s.groupOp l.gid s.delay (.atomic l.spots op r (if ret then some d else none) lanes)) s
  s.podRequests t (unitsOf (ls.filter fun l => route l == .pod)) (atomicWidth op) (fun l =>
    if ret then (upFrom d (if op = 1 then 2 else 1)).map fun n => (l.gid, l.lane, n) else [])
    fun u => .atom op ret r (u.map fun l => ((operand l).1.toNat, (operand l).2.toNat))

/-- An ATOM or RED word (R200, R201): a global or pod-window one ends the chunk; a scratchpad or cluster one waits like every
effect a squash could not undo (R221, R222); an `ATOM` on a pod window inside a block fails the routine (R312), and in a rival it
aborts the rival with cause 4 (R331). -/
def wordAtomic (ret : Bool) (d : BitVec 7) (k : BitVec 5) (i : BitVec 7) (op : BitVec 4) (r : BitVec 1) (s : State) : State :=
  match s.readTeam with
  | none => s
  | some t =>
    let (all, fs) := s.laneAccesses (if ret then .atomic else .red) k i (atomicWidth op.toNat)
    let done := s.dsDone t all
    let ls := sortBy (fun a b => threadLe (a.gid, a.lane) (b.gid, b.lane))
      (all.filter fun l => !(done.any fun x => x.gid == l.gid && x.lane == l.lane))
    let traps := done.map (fun l => (l.gid, l.lane, cIllop, BitVec.ofNat 64 l.va))
      ++ (fs.filter (s.dsDoneFault t)).map fun f => (f.1, f.2.1, cIllop, BitVec.ofNat 64 f.2.2.1)
    let put := fun (s : State) =>
      ((s.atomLanes t d.toNat op.toNat (r == 1) ret ls).takeTraps traps).accessFaults (fs.filter fun f => !s.dsDoneFault t f)
    if ls.any (fun l => s.clusterForbidden t l) || (ret && !t.levels.isEmpty && ls.any fun l => l.isPod) then
      s.failRoutine t.key 11
    else if ret && t.parent.isSome && ls.any fun l => l.isPod then s.abortRival t.key 4
    else if !s.cur.cleared && (s.dsWaits t ret true ls || s.moveWaits t true (s.lanePlaces t ls)) then s.retryWord
    else if ls.any fun l => l.isGlobal || l.isPod then s.endingWord put
    else s.irrevocable put

/-- ATOM (R200). -/
def execAtom (d : BitVec 7) (k : BitVec 5) (i : BitVec 7) (o : BitVec 4) (r : BitVec 1) (s : State) :
    Host.Outcome State Fault Refusal := .next (wordAtomic true d k i o r s)

/-- RED (R200). -/
def execRed (d : BitVec 7) (k : BitVec 5) (i : BitVec 7) (o : BitVec 4) (r : BitVec 1) (s : State) :
    Host.Outcome State Fault Refusal := .next (wordAtomic false d k i o r s)

/-! ## Fences and cache control -/

/-- A FENCE word: it ends the chunk, and is in flight until its condition is met (R208, R221). -/
def wordFence (kind : Nat) (sc : BitVec 3) (s : State) : State := s.endingWord fun s => s.fenceOps kind sc.toNat true

/-- FENCE.ACQ (R208). -/
def execFenceAcq (g : BitVec 3) (s : State) : Host.Outcome State Fault Refusal := .next (wordFence 0 g s)

/-- FENCE.REL (R208). -/
def execFenceRel (g : BitVec 3) (s : State) : Host.Outcome State Fault Refusal := .next (wordFence 1 g s)

/-- FENCE.AR (R208). -/
def execFenceAr (g : BitVec 3) (s : State) : Host.Outcome State Fault Refusal := .next (wordFence 2 g s)

/-- DRAIN.NT (R208, R218). -/
def execDrainNt (g : BitVec 3) (s : State) : Host.Outcome State Fault Refusal := .next (wordFence 3 g s)

/-- ALIASFENCE (R208, R219). -/
def execAliasfence (g : BitVec 3) (s : State) : Host.Outcome State Fault Refusal := .next (wordFence 4 g s)

/-- Lanes of a CCTL word, their faults as a store's, without an alignment rule (R202). -/
def State.cctlLanes (s : State) (k : BitVec 5) (i : BitVec 7) : List LaneAcc × List (Nat × Nat × Nat × AFault) :=
  match s.readTeam with
  | none => ([], [])
  | some t => match s.ctxOf t with
    | none => ([], [])
    | some c => s.members.foldl (fun r m =>
        let va := s.laneVa t m.1 m.2 k i
        let tid := match t.thread? m.1 m.2 with
          | some x => x.tid
          | none => 0
        match s.reach t c tid .store va 1 with
        | .ok sp => (r.1 ++ [{ gid := m.1, lane := m.2, va := va, spots := sp }], r.2)
        | .error e => (r.1, r.2 ++ [(m.1, m.2, va, e)])) ([], [])

/-- A CCTL word's completion, for each group (R25, R202). -/
def State.cctlOps (s : State) : State := s.curGids.foldl (fun s g => s.groupOp g s.delay .cctl) s

/-- The sectors of the 512-byte blocks of some addresses come into a core's L1: of LOOSE pages it keeps copies (R202, R216, R220). -/
def State.fetchBlocks (s : State) (t : Team) (vas : List Nat) : State :=
  match s.ctxOf t with
  | none => s
  | some c => (uniq (vas.map fun va => va / 512)).foldl (fun s b => match s.lookup t.core c (512 * b) with
      | .error _ => s
      | .ok p =>
        let pa := p.base + 512 * b % 2 ^ p.bits
        let s := s.fillTlb t.core c.num (512 * b) p
        if !s.paValid pa then s
        else (sectorHeads (p.spots c.num (512 * b) pa 512)).foldl (fun s x => s.keepSector t x) s) s

/-- PREFETCH: the lanes' blocks are fetched into L1; it never faults, and a failed translation has no effect (R202). -/
def execPrefetch (k : BitVec 5) (i : BitVec 7) (s : State) : Host.Outcome State Fault Refusal :=
  match s.readTeam with
  | none => .next s
  | some t =>
    let vas := s.members.flatMap fun m => s.placesOf t m.1 m.2 (s.laneVa t m.1 m.2 k i) 1
    .next (s.fetchBlocks t vas).cctlOps

/-- Does WBL act on an address as on a global one: not in the scratchpad, cluster and pod windows, where it has no effect
(R202 Table 9)? -/
def wblActs (va : Nat) : Bool := match windowOf va with
  | .scratch _ => false
  | .cluster _ _ => false
  | .pod _ _ => false
  | _ => true

/-- Does a byte under a name lie in one of some virtual 512-byte blocks of a context (R202)? -/
def inBlocks (ctx : Nat) (vas : List Nat) (g pa : Nat) : Bool := vas.any fun va => (ctx * 2 ^ 64 + va) / 512 == byteName g pa / 512

/-- The dirty bytes of some blocks go back to their home: what the core keeps of LOOSE bytes leaves it, and what it has not committed
yet will leave it at its commit (R202, R216). -/
def State.writeBack (s : State) (t : Team) (vas : List Nat) : State :=
  let mine := inBlocks t.ctx vas
  let out : Line → Line := fun x => if x.ord == 2 && mine x.grain x.pa then { x with ord := 0 } else x
  let outLam : Lam → Lam := fun l => { l with lines := l.lines.map out }
  let outByte : StoreByte → StoreByte := fun w => match w.at_.loc with
    | .mem pa => if w.at_.ord == 2 && mine w.at_.grain pa then { w with at_ := { w.at_ with ord := 0 } } else w
    | _ => w
  let outOp : Op → Op := fun o => match o.what with
    | .store ws nt => { o with what := .store (ws.map outByte) nt }
    | _ => o
  let s : State := { s with lams := updIf (fun l => l.owner == .chunk && l.core == t.core) outLam s.lams,
                            ops := updIf (fun o => o.team == t.key) outOp s.ops }
  (s.giveUp fun h => h.core == t.core && h.line.ord == 2 && mine h.line.grain h.line.pa).2

/-- The dirty private bytes of some 512-byte blocks go to memory (R179, R202); a rival's and an open block's stay its own. -/
def State.writeBackPriv (s : State) (t : Team) (pas : List Nat) : State :=
  if t.parent.isSome || !t.levels.isEmpty then s
  else
    let mine := fun (p : Nat × Byte) => pas.any fun a => a / 2 ^ 64 / 512 == p.1 / 2 ^ 64 / 512
    { s with mem := (t.priv.filter mine).foldl (fun m p => memPut (privPa p.1) p.2 m) s.mem }

/-- WBL: faults as a store on global and private addresses; dirty bytes of the lanes' blocks go home, the copies stay (R202, R216). -/
def execWbl (k : BitVec 5) (i : BitVec 7) (s : State) : Host.Outcome State Fault Refusal :=
  let (ls, fs) := s.cctlLanes k i
  match s.readTeam with
  | none => .next s
  | some t =>
    if !s.cur.cleared && s.moveWaits t true (s.lanePlaces t ls) then .next s.retryWord else
    let s := s.fillPages t ls
    let s := s.writeBack t ((ls.filter LaneAcc.isGlobal).map fun l => l.va)
    let s := s.writeBackPriv t (ls.flatMap fun l => l.spots.filterMap fun x => match x.loc with
      | .priv _ a => some a
      | _ => none)
    .next (s.cctlOps.accessFaults (fs.filter fun f => wblActs f.2.2.1))

/-- INVL: `ILLOP` with the address outside global pages and on a page whose ORD is not LOOSE; faults as a store, which come before
that `ILLOP` where both apply: the rule gives no order (DESIGN CHOICE, log entry 24). Dirty bytes of the lanes' blocks go home and the
core drops its copies (R202, R216). -/
def execInvl (k : BitVec 5) (i : BitVec 7) (s : State) : Host.Outcome State Fault Refusal :=
  let (ls, fs) := s.cctlLanes k i
  let bad := ls.filter fun l => !l.isGlobal || l.spots.any fun x => x.ord ≠ 2
  let good := ls.filter fun l => l.isGlobal && l.spots.all fun x => x.ord = 2
  let fs' := fs.filter fun f => windowOf f.2.2.1 == .global || windowOf f.2.2.1 == .bad
  let bad' := (fs.filter fun f => !(windowOf f.2.2.1 == .global || windowOf f.2.2.1 == .bad)).map fun f =>
    (f.1, f.2.1, cIllop, BitVec.ofNat 64 f.2.2.1)
  match s.readTeam with
  | none => .next s
  | some t =>
    let vas := good.map fun l => l.va
    if !s.cur.cleared && s.moveWaits t true (s.lanePlaces t ls) then .next s.retryWord else
    let s := s.fillPages t ls
    let s := s.writeBack t vas
    let s : State := { s with
      held := s.held.filter fun h => !(h.core == t.core && !h.dirty && h.line.ord == 2 && inBlocks t.ctx vas h.line.grain h.line.pa) }
    .next ((s.cctlOps.takeTraps ((bad.map fun l => (l.gid, l.lane, cIllop, BitVec.ofNat 64 l.va)) ++ bad')).accessFaults fs')

end Sys2Proof.Machine
end

