-- ==== Sys2Proof/Machine/Tce.lean ====
section
/-! DEFINITION. The tensor copy engine: chains and their entries, tags, group queues, and the words of TCE (R233 to R256). -/

namespace Sys2Proof.Machine

/-! ## Chains -/

def Team.chain? (t : Team) (h : Nat) : Option Chain := t.chains.find? fun c => c.h == h

def Team.copy? (t : Team) (k : Nat) : Option Copy := t.copies.find? fun c => c.key == k

def State.modChain (s : State) (team h : Nat) (f : Chain → Chain) : State :=
  s.modTeam team fun t => { t with chains := updIf (fun (c : Chain) => c.h == h) f t.chains }

/-- COPYs of a chain in flight. -/
def Team.chainCopies (t : Team) (h : Nat) : List Copy := t.copies.filter fun c => c.h == h

/-- A chain becomes FREE: the flag counts of its words fall (R234, R250, R253). -/
def State.freeChain (s : State) (team h : Nat) : State :=
  match (s.team? team).bind fun t => t.chain? h with
  | none => s
  | some c => (s.modTeam team fun t => { t with chains := t.chains.filter fun (x : Chain) => x.h != h }).toksDone c.toks

/-- A STOPPING chain without copies in flight is FREE (R234). -/
def State.reapChain (s : State) (team h : Nat) : State :=
  match s.team? team with
  | none => s
  | some t => match t.chain? h with
    | none => s
    | some c => if c.st == .stopping && (t.chainCopies h).isEmpty then s.freeChain team h else s

/-- A chain goes to STOPPING (R247, R253): a COPY stalled on a fault still completes when its fault is resolved. -/
def State.haltChain (s : State) (team h : Nat) : State :=
  (s.modChain team h fun c => { c with st := .stopping }).reapChain team h

/-! ## Tags (R248) -/

/-- Usable tags of a team (R248). -/
def State.tagCount (s : State) (t : Team) : Nat := match s.imageOf t with
  | some i => i.tags
  | none => 0

/-- Set a tag; a tag at or above `.tags` stays 0. The cycle is kept, for a clear in the same cycle loses to the set (R248). -/
def State.setTag (s : State) (team tag : Nat) : State :=
  match s.team? team with
  | none => s
  | some t =>
    if tag ≥ s.tagCount t then s
    else
      let bit := BitVec.ofNat 64 (2 ^ tag)
      let before := if t.tagsSet.1 = s.now then t.tagsSet.2 else 0
      s.modTeam team fun t => { t with tags := t.tags ||| bit, tagsSet := (s.now, before ||| bit) }

/-- Set a tag's error bit (R247). -/
def State.setTagErr (s : State) (team tag : Nat) : State :=
  match s.team? team with
  | none => s
  | some t =>
    if tag ≥ s.tagCount t then s
    else s.modTeam team fun t => { t with tagerr := t.tagerr ||| BitVec.ofNat 64 (2 ^ tag) }

/-- Clear tags and their error bits, but for tags set in this cycle (R248, R251); a tag cleared no longer tells a fill complete. -/
def State.clearTags (s : State) (team : Nat) (m : DWord) : State :=
  s.modTeam team fun t =>
    let kept := if t.tagsSet.1 = s.now then t.tagsSet.2 else 0
    let gone := m &&& ~~~kept
    let forget := fun (f : Fill) => { f with tags := f.tags.filter fun n => !gone.getLsbD n }
    { t with tags := t.tags &&& ~~~gone, tagerr := t.tagerr &&& ~~~m,
             slots := t.slots.map fun x => { x with fills := x.fills.map forget } }

/-- A tag that a `SETTAG` of a chain sets tells the chain's earlier fills complete (R231, R243). -/
def State.tellFills (s : State) (team chain tag : Nat) : State :=
  let tell := fun (f : Fill) => if f.chain == chain && !f.seen then { f with tags := f.tags ++ [tag] } else f
  s.modTeam team fun t => { t with slots := t.slots.map fun x => { x with fills := x.fills.map tell } }

/-- A mask with the bits at or above `.tags` cleared (R251). -/
def State.tagMask (s : State) (t : Team) (x : DWord) : DWord :=
  x &&& BitVec.ofNat 64 (2 ^ min 64 (s.tagCount t) - 1)

/-! ## Errors of a chain (R245, R247) -/

/-- A record about a chain's entry, in the layout of R458; its PCs, word and group are those of the `TCHAIN` (R247). -/
def State.chainRecord (s : State) (t : Team) (c : Chain) (cause code off addr : Nat) (f : AFault) : Record :=
  { s.teamRecord t cause c.gid 0 c.word.toNat c.pcs (BitVec.ofNat 64 addr) with
    extra := extra458 4 c.h code off (if cause = cPageattr || cause = cWindow then f.reason else 0)
      (if cause = cPageattr && f.reason = 0 then f.level else 0) }

/-- The tag of a failing entry and its error bit (R247). -/
def State.failTag (s : State) (team : Nat) (tag : Option Nat) : State :=
  match tag with
  | some n => if n < 64 then (s.setTag team n).setTagErr team n else s
  | none => s

/-- `SHAPEREC` or `TAGERR`: tag and error bits, an information record, STOPPING (R247). -/
def State.chainError (s : State) (team h cause code : Nat) (tag : Option Nat) : State :=
  match s.team? team with
  | none => s
  | some t => match t.chain? h with
    | none => s
    | some c =>
      ((s.failTag team tag).putRecords t.ctx [(s.chainRecord t c cause code c.off 0 (AFault.of 0), none)]).haltChain team h

/-! ## Entries (R240 to R244) -/

/-- Scratchpad bytes as the walker reads them (R240). -/
def Team.scratchBytes (t : Team) (off n : Nat) : List Byte := (upFrom off n).map fun o => scratchByte t o

/-- The codes for which an `IFTAG` or a `SETTAG` fails as soon as the walker reaches it (R243). -/
def State.tagEntryCode (s : State) (t : Team) (e : List Byte) : Option Nat :=
  let f := fieldOf e
  let rest := if f 0 1 = 3 then f 3 1 != 0 || leNat (e.drop 6) != 0 else leNat (e.drop 3) != 0
  lowestCode [(f 1 1 ≥ 64 || f 1 1 ≥ s.tagCount t, 2), (f 2 1 > 1 || rest, 5)]

/-- Does the walker take an entry while earlier COPYs of its chain are in flight: `COPY`, `LOOP`, and a broken `IFTAG` or `SETTAG`
(R240, R243)? -/
def State.takenEarly (s : State) (t : Team) (e : List Byte) : Bool :=
  let k := fieldOf e 0 1
  k == 1 || k == 2 || ((k == 3 || k == 5) && (s.tagEntryCode t e).isSome)

/-- The chain and its team, with the entry's 32 bytes, when the walker can take an entry of the given kind now: it is
RUNNING, and its earlier COPYs are complete where the entry waits for them (R240, R243). -/
def State.entryAt (s : State) (kind : Nat) : Option (Team × Chain × List Byte) :=
  match s.arg with
  | [team, h] =>
    match s.team? team with
    | none => none
    | some t => match t.chain? h with
      | none => none
      | some c =>
        let e := t.scratchBytes c.off 32
        let k := fieldOf e 0 1
        if c.st == .running && c.off + 32 ≤ s.scratchSize t && k == kind
            && (s.takenEarly t e || (t.chainCopies h).isEmpty) then some (t, c, e)
        else none
  | _ => none

/-- The walker goes on at an offset. -/
def State.advance (s : State) (team h off : Nat) : State :=
  s.modChain team h fun c => { c with off := off, due := s.now + s.delay }

/-- The four signed 16-bit fields from a byte. -/
def i16s (e : List Byte) (at_ : Nat) : List Int := (List.range 4).map fun i => s16 (fieldOf e (at_ + 2 * i) 2)

/-- The coordinates moved by increments, `n` times; the spec has them exact in 32 bits and does not say what a sum beyond those is: it
wraps (R241, R242; DESIGN CHOICE, log entry 85). -/
def moveBy (n : Int) (xs ds : List Int) : List Int := (xs.zip ds).map fun p => s32 (p.1 + n * p.2)

/-- The checks of a COPY entry (R239 Table 4). -/
def State.copyCode (s : State) (t : Team) (e : List Byte) : Option Nat :=
  let f := fieldOf e
  let tag := f 1 1
  let dk := f 2 1
  let badRec := fun (o : Nat) => o % 64 != 0 || o + 64 > s.scratchSize t
  lowestCode [
    (tag != 255 && tag ≥ s.tagCount t, 2),
    (badRec (f 4 4) || (dk == 1 && badRec (f 8 4)), 3),
    (dk == 0 && !(t.slots.any fun x => x.name == f 3 1), 4),
    (dk > 1 || f 12 4 != 0 || (dk == 0 && (f 8 4 != 0 || f 24 8 != 0)) || (dk == 1 && f 3 1 != 0), 5)]

/-- Start a COPY into a slot while an issued `MMA` reads it: that `MMA`'s result is undefined (R279). The rule names the tile, the
drained memory and the slot as places of undefined values and does not say which: the model takes the result, as Table 5's row of that
case does, and leaves the slot the bytes that the COPY writes (DESIGN CHOICE, log entry 88). -/
def State.slotClash (s : State) (team slot : Nat) : State :=
  let reads := fun (m : MatOp) => match m.op with
    | .mma _ _ oa ob _ => oa == slot || ob == slot
    | _ => false
  s.modTeam team fun t => { t with mops := updIf reads (fun (m : MatOp) => { m with clash := true }) t.mops }

/-! ## The walk-ahead TLB (R183, R246) -/

/-- Addresses at both ends of the part of each row of a tile that lies inside the tensor: the pages of these are its pages, for a row
is shorter than a page (R235). -/
def Shape.rowEnds (x : Shape) (xs : List Int) : List Nat :=
  (List.range x.rows).flatMap fun r =>
    let cs := (List.range x.cols).filter fun c => x.inside xs r c
    (cs.head?.toList ++ cs.getLast?.toList).flatMap fun c => x.bytesOf xs r c

/-- The same of a copy's source and destination tiles. -/
def Copy.rowVas (cp : Copy) : List Nat :=
  cp.src.rowEnds cp.xs ++ if cp.slot.isSome then [] else cp.dst.rowEnds cp.xd

/-- The coordinate that moves by the largest stride, of those that some increments move. -/
def Shape.largest (x : Shape) (d : List Int) : Option Nat :=
  [3, 2, 1, 0].foldl (fun (best : Option (Nat × Nat)) i =>
    let st := [elemSize x.fmt, x.rowstride, x.stride2, x.stride3].getD i 0
    if d.getD i 0 = 0 then best else match best with
      | some b => if b.2 < st then some (i, st) else best
      | none => some (i, st)) none |>.map (·.1)

/-- Coordinates moved along the record's largest moving stride alone. -/
def Shape.ahead (x : Shape) (xs d : List Int) : List Int := match x.largest d with
  | some i => xs.zipIdx.map fun p => if p.2 = i then s32 (p.1 + d.getD i 0) else p.1
  | none => xs

/-- The tiles of a COPY in the next pass of the loop that encloses it: the first LOOP entry after it that jumps back to it (R246). -/
def State.nextPass (s : State) (t : Team) (c : Chain) (cp : Copy) : List Nat :=
  let entry := fun (i : Nat) => t.scratchBytes (c.off + 32 * i) 32
  let loop := (upFrom 1 (min 65535 ((s.scratchSize t - c.off) / 32 - 1))).find? fun i =>
    t.scratchBytes (c.off + 32 * i) 1 == [2#8] && fieldOf (entry i) 2 2 ≥ i
  match loop with
  | none => []
  | some i =>
    let e := entry i
    cp.src.rowEnds (cp.src.ahead cp.xs (i16s e 8))
      ++ if cp.slot.isSome then [] else cp.dst.rowEnds (cp.dst.ahead cp.xd (i16s e 16))

/-- The walk-ahead TLB of a team's core takes the translations of some addresses that have one (R183, R246). -/
def State.walkAhead (s : State) (t : Team) (vas : List Nat) : State :=
  match s.ctxOf t with
  | none => s
  | some c =>
    let u := TlbUnit.ahead t.core
    let pages := uniq ((vas.filter fun va => windowOf va == .global).map fun va => va / 65536)
    pages.foldl (fun s p =>
      if s.walkWaits [u] t.ctx (p * 65536) then s
      else match s.lookupBy [u] c (p * 65536) with
        | .ok g => s.putTlb u t.ctx (p * 65536) g
        | .error _ => s) s

/-- Does a tile engine's work wait for the move of a page: for the walk where it reads, for the move where it writes (R191)? -/
def State.moveHolds (s : State) (t : Team) (reads writes : List Nat) : Bool :=
  !s.moves.isEmpty && ((reads.any fun va => windowOf va == .global && s.walkWaits [.ahead t.core] t.ctx va)
    || writes.any fun va => windowOf va == .global && s.moving t.ctx va)

/-- COPY_ENTRY: the walker checks a COPY entry and its records and starts the copy; an entry beyond the scratchpad and an entry of
an unassigned kind fail here as well (R239 to R241). Where the next entry would lie beyond the scratchpad the spec does not say
which entry fails: it is the next one, whose offset the record names, and no tag is set (DESIGN CHOICE, log entry 86). A sum of
coordinates that does not fit in 32 bits wraps (DESIGN CHOICE, log entry 85). -/
def execCopyEntry (s : State) : Host.Outcome State Fault Refusal :=
  match s.arg with
  | [team, h] =>
    match s.team? team with
    | none => .next s
    | some t => match t.chain? h with
      | none => .next s
      | some c =>
        if c.st != .running then .next s
        else if c.off + 32 > s.scratchSize t then .next (s.chainError team h cTagerr 8 none)
        else
          let e := t.scratchBytes c.off 32
          let f := fieldOf e
          if f 0 1 > 5 then .next (s.chainError team h cTagerr 1 none)
          else if f 0 1 != 1 || (t.chainCopies h).length ≥ 4 then .next s
          else
            let tag := f 1 1
            match s.copyCode t e with
            | some code => .next (s.chainError team h cTagerr code (some tag))
            | none =>
              let slot := f 2 1 == 0
              let xs := (c.u.zip (i16s e 16)).map fun p => s32 (p.1 + p.2)
              let xd := (c.w.zip (i16s e 24)).map fun p => s32 (p.1 + p.2)
              let src := readShape (t.scratchBytes (f 4 4) 64)
              let dst := if slot then src else readShape (t.scratchBytes (f 8 4) 64)
              let bad := match src.code false slot (xs.getD 0 0) 0 with
                | some x => some x
                | none => if slot then none else dst.code true false (xd.getD 0 0) (resultFmt src)
              match bad with
              | some code => .next (s.chainError team h cShaperec code (some tag))
              | none =>
                let (k, s) := s.newKey
                let cp : Copy :=
                  { key := k, h := h, off := c.off, tag := tag, slot := if slot then some (f 3 1) else none, src := src,
                    dst := dst, xs := xs, xd := xd, faults := [], due := s.now + s.delay, stage := 0, got := [], spoil := [],
                    slotSpoil := [] }
                let s := s.modTeam team fun t => { t with copies := t.copies ++ [cp] }
                let s := s.walkAhead t (cp.rowVas ++ s.nextPass t c cp)
                let s := if slot then s.slotClash team (f 3 1) else s
                .next (s.advance team h (c.off + 32))
  | _ => .next s

/-- The counter and the coordinates of a chain at a LOOP entry whose level another active loop uses or has used: undefined (R242; log
entry 4). -/
def State.loopLost (s : State) (c : Chain) (level : Nat) : Chain :=
  let free := fun (k : Nat) => s32 ((Config.freeWord s.fresh (16 * c.key + k)).toNat : Int)
  { c with u := (List.range 4).map free, w := (List.range 4).map fun i => free (4 + i),
           it := c.it.set level (Config.freeWord s.fresh (16 * c.key + 8)).toNat }

/-- The active loops of a level, each with whether another one has shared the level with it, after the LOOP entry at an offset: it is
active while it goes again, and loops that share a level both lose their counts (R242). -/
def loopsAfter (active : List (Nat × Bool)) (off : Nat) (lost again : Bool) : List (Nat × Bool) :=
  let rest := (active.filter fun x => x.1 != off).map fun x => (x.1, true)
  if again then rest ++ [(off, lost)] else rest

/-- LOOP_ENTRY: a pass more, or the end of the loop (R242). -/
def execLoopEntry (s : State) : Host.Outcome State Fault Refusal :=
  match s.entryAt 2 with
  | none => .next s
  | some (t, c, e) =>
    let f := fieldOf e
    let level := f 1 1
    let back := f 2 2
    let bad := lowestCode [(f 24 8 != 0, 5),
      (level > 3 || back == 0 || f 4 4 == 0 || c.off < c.head + 32 * back, 6)]
    match bad with
    | some code => .next (s.chainError t.key c.h cTagerr code none)
    | none =>
      let active := c.loops.getD level []
      let lost := active.any fun x => x.1 != c.off || x.2
      let c := if lost then s.loopLost c level else c
      let it := c.it.getD level 0
      let again := it + 1 < f 4 4
      let n : Int := if again then 1 else -(it : Int)
      let c' : Chain :=
        { c with it := c.it.set level (if again then it + 1 else 0), u := moveBy n c.u (i16s e 8),
                 w := moveBy n c.w (i16s e 16), loops := c.loops.set level (loopsAfter active c.off lost again) }
      let s := s.modChain t.key c.h fun _ => c'
      .next (s.advance t.key c.h (if again then c.off - 32 * back else c.off + 32))

/-- IFTAG_ENTRY: a tag seen set is observed by the team's later chain (R230, R243). -/
def execIftagEntry (s : State) : Host.Outcome State Fault Refusal :=
  match s.entryAt 3 with
  | none => .next s
  | some (t, c, e) =>
    let f := fieldOf e
    let tag := f 1 1
    match s.tagEntryCode t e with
    | some code => .next (s.chainError t.key c.h cTagerr code (some tag))
    | none =>
      let skip := t.tags.getLsbD tag == (f 2 1 == 1)
      let s := s.observeTags t.key (t.tags &&& BitVec.ofNat 64 (2 ^ tag))
      .next (s.advance t.key c.h (c.off + 32 + if skip then 32 * f 4 2 else 0))

/-- SETTAG_ENTRY (R243). -/
def execSettagEntry (s : State) : Host.Outcome State Fault Refusal :=
  match s.entryAt 5 with
  | none => .next s
  | some (t, c, e) =>
    let f := fieldOf e
    let tag := f 1 1
    match s.tagEntryCode t e with
    | some code => .next (s.chainError t.key c.h cTagerr code none)
    | none =>
      let s := if f 2 1 = 0 then
          ((s.setTag t.key tag).tellFills t.key c.key tag).modChain t.key c.h fun c => { c with wrote := [] }
        else s.clearTags t.key (BitVec.ofNat 64 (2 ^ tag))
      .next (s.advance t.key c.h (c.off + 32))

/-! ## Group queues (R244, R252) -/

/-- Entries of a queue that exist. -/
def Group.entries (g : Group) (q : Nat) : List QEntry := g.queue.filter fun x => x.queue == q

/-- Entries a thread has popped from a queue (R252). -/
def Group.poppedOf (g : Group) (lane q : Nat) : Nat :=
  match g.popped.find? fun p => p.1 == lane && p.2.1 == q with
  | some p => p.2.2
  | none => 0

/-- Entries that every live thread has popped are freed (R252). -/
def Group.freeEntries (g : Group) : Group :=
  { g with queue := g.queue.filter fun x => g.threads.any fun t => g.poppedOf t.lane x.queue ≤ x.seq }

/-- Pops that wait for an entry receive it (R252): each becomes a result that is written next. -/
def State.feedPops (s : State) (team gid q seq : Nat) (words : List Word) : State :=
  let feed := fun (o : Op) => match o.what with
    | .qpop g lane v q' n =>
      if o.team == team && g == gid && q' == q && n == seq then
        { o with due := s.now + s.delay, what := .vres (if v = 128 then [] else [(g, lane, v, words.getD lane 0)]) 0 }
      else o
    | _ => o
  { s with ops := s.ops.map feed }

/-- QFEED_ENTRY: pushes one vector, or stalls on a full queue; a group that has retired discards it (R244). -/
def execQfeedEntry (s : State) : Host.Outcome State Fault Refusal :=
  match s.entryAt 4 with
  | none => .next s
  | some (t, c, e) =>
    let f := fieldOf e
    let q := f 1 1
    let gid := f 2 1
    let a : Int := f 4 4 + ((c.u.zip (i16s e 8)).map fun p => p.1 * p.2).sum
    let gpt := match s.launchOf t with
      | some l => l.gpt
      | none => 0
    let bad := lowestCode [(f 3 1 != 0 || leNat (e.drop 16) != 0, 5),
      (q > 3 || gid ≥ gpt || a % 4 != 0 || a < 0 || a + 256 > s.scratchSize t, 7)]
    match bad with
    | some code => .next (s.chainError t.key c.h cTagerr code none)
    | none => match t.group? gid with
      | none => .next (s.advance t.key c.h (c.off + 32))
      | some g =>
        if (g.entries q).length ≥ 8 then .next (s.modChain t.key c.h fun c => { c with st := .stalledQueue })
        else
          let words := (List.range 64).map fun l => BitVec.ofNat 32 (leNat (t.scratchBytes (a.toNat + 4 * l) 4))
          let seq := g.pushed.getD q 0
          let push : Group → Group := fun g =>
            { g with queue := g.queue ++ [{ queue := q, seq := seq, words := words }], pushed := g.pushed.set q (seq + 1) }
          let s := (s.modGroup t.key gid fun x => Group.freeEntries (push x)).feedPops t.key gid q seq words
          .next (s.advance t.key c.h (c.off + 32))

/-- QFEED_RESUME: the queue that a chain waits for has room again (R234, R244). -/
def execQfeedResume (s : State) : Host.Outcome State Fault Refusal :=
  match s.arg with
  | [team, h] => match s.team? team with
    | none => .next s
    | some t => match t.chain? h with
      | none => .next s
      | some c =>
        let e := t.scratchBytes c.off 32
        let room := match t.group? (fieldOf e 2 1) with
          | some g => (g.entries (fieldOf e 1 1)).length < 8
          | none => true
        if c.st == .stalledQueue && room then .next (s.modChain team h fun c => { c with st := .running, due := s.now })
        else .next s
  | _ => .next s

/-- END_ENTRY: the chain is FREE; an `END` with other bytes fails (R240). -/
def execEndEntry (s : State) : Host.Outcome State Fault Refusal :=
  match s.entryAt 0 with
  | none => .next s
  | some (t, c, e) =>
    if leNat e != 0 then .next (s.chainError t.key c.h cTagerr 5 none) else .next (s.freeChain t.key c.h)

/-! ## Completion of a COPY (R241, R245) -/

/-- Faults of a tile engine's accesses: address and fault. -/
def State.tileFaults (s : State) (t : Team) (acc : Access) (whole : Nat → Bool) (vas : List Nat) : List (Nat × AFault) :=
  vas.filterMap fun va => match s.tileSpot t acc (whole va) va with
    | .ok _ => none
    | .error e => some (va, e)

/-- Addresses a copy reads. -/
def Copy.srcVas (cp : Copy) : List Nat :=
  (tileElems cp.src).flatMap fun e => if cp.src.inside cp.xs e.1 e.2 then cp.src.bytesOf cp.xs e.1 e.2 else []

/-- Is the whole sector of an address among those written, so that its old check does not matter (R196, R197)? -/
def State.wholeSector (s : State) (vas : List Nat) (va : Nat) : Bool :=
  !s.checks.isEmpty && (upFrom (va / 32 * 32) 32).all vas.contains

/-- The result bits of element (r, c) of a copy: the converted element, or PAD outside the source tensor (R237, R241). -/
def State.copyValue (s : State) (t : Team) (level : Nat) (cp : Copy) (r c : Nat) : Nat :=
  if cp.src.inside cp.xs r c then
    let bs := (cp.src.bytesOf cp.xs r c).map fun va => match s.tileSpot t .load false va with
      | .ok sp => s.engineRead t level cp.got sp
      | .error _ => 0
    tileConvert cp.src.fmt cp.src.tgt (cp.src.bitsOf cp.xs c bs)
  else cp.src.padValue

/-- Bytes a copy into a slot writes: offset, and the byte or none where two elements share the place (R241, R263). The spec does not
say where the elements of such a tile go whose offset lies beyond the slot: they are dropped (DESIGN CHOICE, log entry 87). -/
def State.slotWrites (s : State) (t : Team) (level : Nat) (cp : Copy) : List (Nat × Option Byte) :=
  let e := targetSize cp.src.tgt
  (tileElems cp.src).flatMap fun p =>
    let x := s.copyValue t level cp p.1 p.2
    let twin := slotTwin e cp.src.rows cp.src.cols p.1 p.2
    ((leBytes e x).zipIdx.map fun b =>
      (slotOff e p.1 p.2 + b.2, if twin then none else some b.1)).filter fun b => b.1 < 32768

/-- Bytes a copy into memory writes: place and byte (R241). -/
def State.recordWrites (s : State) (t : Team) (level : Nat) (cp : Copy) (whole : Nat → Bool) : List (Spot × Byte) :=
  (tileElems cp.src).flatMap fun p =>
    if cp.dst.inside cp.xd p.1 p.2 then
      let x := s.copyValue t level cp p.1 p.2
      ((cp.dst.bytesOf cp.xd p.1 p.2).zip (leBytes (elemSize cp.dst.fmt) x)).filterMap fun b =>
        match s.tileSpot t .store (whole b.1) b.1 with
        | .ok sp => some (sp, b.2)
        | .error _ => none
    else []

/-- Write the bytes of a fill: the slot notes what they replace (R231), and bytes that another COPY in flight also fills are
undefined (R241). One port takes the slot's fills, so the other COPYs into it go on no earlier than in the next cycle (R56). -/
def State.fillSlot (s : State) (team slot chain tag : Nat) (mine : List Nat) (ws : List (Nat × Option Byte)) : State :=
  let put := fun (m : Bytes) (w : Nat × Option Byte) =>
    let byte := match w.2 with
      | some b => if mine.contains w.1 then Config.freeByte s.fresh w.1 else b
      | none => Config.freeByte s.fresh w.1
    bput w.1 byte m
  let fill := fun (x : Slot) =>
    let f : Fill := { chain := chain, tags := if tag = 255 then [] else [tag], seen := false, fenced := [],
                      told := [], old := ws.map fun w => (w.1, bget w.1 x.bytes) }
    { x with bytes := ws.foldl put x.bytes, fills := x.fills ++ [f] }
  let later := fun (c : Copy) => { c with due := max c.due (s.now + 1) }
  s.modTeam team fun t =>
    { t with slots := updIf (fun (x : Slot) => x.name == slot) fill t.slots,
             copies := updIf (fun (c : Copy) => c.slot == some slot) later t.copies }

/-- Physical addresses among some places. -/
def memSpots (sp : List Spot) : List Nat := sp.filterMap fun x => match x.loc with
  | .mem a => some a
  | _ => none

/-- Does a write of an engine go to the scratchpad of a team outside the conversation (R312)? -/
def State.outsideConv (s : State) (t : Team) (l : Loc) : Bool := match l with
  | .scratch k _ => k != t.key && (match s.team? k with
    | some u => t.conv.isNone || u.conv != t.conv
    | none => true)
  | _ => false

/-- Note that work of a recovery depth has written an operand slot or an accumulator tile (R310). -/
def State.touch (s : State) (team level code : Nat) : State :=
  let note := fun (l : Level) => if l.depth ≤ level then { l with touched := addGrain code l.touched } else l
  s.modTeam team fun t => { t with levels := t.levels.map note }

/-! ## Pod-window requests of engines (R245, R277, R411, R412) -/

/-- Is an address in the pod windows (R174)? -/
def inPod (va : Nat) : Bool := match windowOf va with
  | .pod _ _ => true
  | _ => false

/-- Addresses gathered into runs that stay within a sector: first address and bytes (R205). -/
def sectorRuns (vas : List Nat) : List (Nat × Nat) :=
  (vas.foldl (fun (r : List (Nat × Nat)) va => match r with
    | (a, n) :: rest => if a + n = va && a / 32 = va / 32 then (a, n + 1) :: rest else (va, 1) :: r
    | [] => [(va, 1)]) []).reverse

/-- Has an engine's work pod-window requests outstanding? -/
def State.podPending (s : State) (team : Nat) (own : EngineRef) : Bool :=
  s.ops.any fun o => o.team == team && (match o.what with
    | .engine x _ _ _ _ => x == own
    | _ => false)

/-- Send one pod-window request of an engine's work. -/
def State.sendEngine (s : State) (t : Team) (own : EngineRef) (va n : Nat) (act : RemoteAct) : State :=
  match s.ctxOf t with
  | none => s
  | some c =>
    let s := s.newOp t.key [] 0 (.engine own va n act none)
    s.sendPod c (s.keys - 1) va n act

/-- Ask for the pod bytes that an engine's work reads. -/
def State.askPods (s : State) (t : Team) (own : EngineRef) (vas : List Nat) : State :=
  (sectorRuns (uniq vas)).foldl (fun s r => s.sendEngine t own r.1 r.2 .load) s

/-- Send the pod bytes that an engine's work writes. -/
def State.tellPods (s : State) (t : Team) (own : EngineRef) (ws : List (Nat × Byte)) : State :=
  (sectorRuns (ws.map (·.1))).foldl (fun s r =>
    let val := leNat ((upFrom r.1 r.2).map fun a => ((ws.find? fun w => w.1 == a).map (·.2)).getD 0)
    s.sendEngine t own r.1 r.2 (.store val)) s

/-- The pod bytes among some writes, by address. -/
def podWrites (ws : List (Spot × Byte)) : List (Nat × Byte) := ws.filterMap fun w => match w.1.loc with
  | .pod e off => some (podVa e off, w.2)
  | _ => none

/-- Accesses of an engine's work to pod windows whose every route is DOWN fail: `WINDOW` with REASON 3 (R412). -/
def State.podDead (s : State) (t : Team) (vas : List Nat) : List (Nat × AFault) :=
  match s.ctxOf t with
  | none => []
  | some c => (vas.filter fun va => inPod va && (c.podEntry? (bits va 41 34)).isSome && s.podDown c (bits va 41 34)).map fun va =>
      (va, { cause := cWindow, reason := 3, level := 0 })

/-- Perform a COPY whose accesses all succeed (R241); the pod bytes it writes are returned. The spec leaves the order of a COPY's
sector accesses among themselves, and so of other agents' accesses between them, open; that they are performed in one step, at a time
that is free, is the model's choice (R205; DESIGN CHOICE, log entry 33). -/
def State.performCopy (s : State) (t : Team) (level : Nat) (cp : Copy) (whole : Nat → Bool) : List (Nat × Byte) × State :=
  let others := s.modTeam t.key fun u => { u with copies := u.copies.filter fun (x : Copy) => x.key != cp.key }
  match cp.slot with
  | some n =>
    let ws := s.slotWrites t level cp
    let rivals := (t.copies.filter fun x => x.key != cp.key && x.slot == some n)
    let shared := rivals.flatMap fun x => (s.slotWrites t level x).map (·.1)
    let chain := match t.chain? cp.h with
      | some c => c.key
      | none => 0
    let s := s.fillSlot t.key n chain cp.tag (cp.slotSpoil ++ shared) ws
    let mark := fun (x : Copy) => { x with slotSpoil := x.slotSpoil ++ ws.map (·.1) }
    let same : Copy → Bool := fun x => x.key != cp.key && x.slot == some n
    ([], (s.touch t.key level n).modTeam t.key fun t => { t with copies := updIf same mark t.copies })
  | none =>
    let ws := s.recordWrites t level cp whole
    let src := cp.srcVas.filterMap fun va => match s.tileSpot t .load false va with
      | .ok sp => some sp.loc
      | .error _ => none
    let many := others.teams.any fun u => u.copies.any fun x => x.slot.isNone
    let ws := ws.map fun w =>
      let undef := cp.spoil.contains w.1.loc || src.contains w.1.loc || (many && others.copyHits (t.layer level) w.1.loc)
      (w.1, if undef then Config.freeByte s.fresh w.1.loc.code else w.2)
    let s := s.engineWrites t level ws
    let s := if cp.tag = 255 then
        s.modChain t.key cp.h fun c => { c with wrote := uniq (c.wrote ++ ws.map fun w => w.1.loc) }
      else s
    let s := if many then ws.foldl (fun s w => s.spoilCopies (t.layer level) w.1.loc) s else s
    (podWrites ws, s.healWritten (memSpots (ws.map (·.1))))

/-- Remove a COPY that has ended; a STOPPING chain may then be FREE. -/
def State.dropCopy (s : State) (team : Nat) (cp : Copy) : State :=
  (s.modTeam team fun t => { t with copies := t.copies.filter fun (x : Copy) => x.key != cp.key }).reapChain team cp.h

/-- The keys of the pending records that a blocked thing waits for. -/
def State.waitKeys (s : State) (ctx : Nat) (b : Blocked) : List Nat := match s.ctx? ctx with
  | some c => (c.pending.filter fun p => p.blocked == b).map fun p => p.key
  | none => []

/-- Is every replayable fault's record to be held back for want of room (R395)? -/
def State.recordsFull (s : State) (ctx : Nat) : Bool := match s.ctx? ctx with
  | some c => c.heldCount ≥ 1024
  | none => true

/-- The code of R311 for a fault that ends a tile engine's work. -/
def integrityCode (cause : Nat) : Nat := if cause = cIntegrity then 3 else 4

/-- Change one COPY of a team. -/
def State.modCopy (s : State) (team k : Nat) (f : Copy → Copy) : State :=
  s.modTeam team fun t => { t with copies := updIf (fun (x : Copy) => x.key == k) f t.copies }

/-- A fault that ends a COPY: `INTEGRITY` and `ECCUNC` complete its tag with the error bit, and fail the routine of an open block;
every other one is fatal (R245). `r` is its record. -/
def State.copyFails (s : State) (t : Team) (cp : Copy) (cause : Nat) (r : Record) : State :=
  let s := s.reportEcc t.ctx [(r.addr.toNat, AFault.of cause)]
  let soft := cause = cIntegrity || cause = cEccunc
  let s := if soft then s.failTag t.key (some cp.tag) else s
  let s := if soft && !t.levels.isEmpty then s.failRoutine t.key (integrityCode cause)
    else s.putRecords t.ctx [({ r with fatal := true }, none)]
  (s.haltChain t.key cp.h).dropCopy t.key cp

/-- A replayable fault stalls a chain (R245). -/
def State.stallChain (s : State) (team h : Nat) : State :=
  s.modChain team h fun c => if c.st == .running then { c with st := .stalledFault } else c

/-- The faults of a COPY's accesses: replayable ones stall it with one record per 64 KiB region, the first other one ends it (R245).
`none` when there are none. -/
def State.copyFaults (s : State) (t : Team) (c : Chain) (cp : Copy) (fs : List (Nat × AFault)) : Option State :=
  let hard := fs.filter fun f => f.2.cause ≠ cPagefault && f.2.cause ≠ cProt
  match hard, fs with
  | [], [] => none
  | f :: _, _ => some (s.copyFails t cp f.2.cause (s.chainRecord t c f.2.cause 0 cp.off f.1 f.2))
  | [], _ =>
    if s.recordsFull t.ctx then some (s.modCopy t.key cp.key fun x => { x with due := s.now + 1 })
    else
      let regions := uniq (fs.map fun f => (f.2.cause, f.1 / 65536))
      let b := Blocked.chain t.key cp.h cp.key
      let recs := regions.filterMap fun r => (fs.find? fun f => (f.2.cause, f.1 / 65536) == r).map fun f =>
        ({ s.chainRecord t c f.2.cause 0 cp.off f.1 f.2 with replayable := true }, some b)
      let s := s.putRecords t.ctx recs
      let keys := s.waitKeys t.ctx b
      some ((s.modCopy t.key cp.key fun x => { x with faults := keys }).stallChain t.key cp.h)

/-- A COPY has written all its elements: its tag completes (R241). -/
def State.endCopy (s : State) (team : Nat) (cp : Copy) : State :=
  (if cp.tag = 255 then s else s.setTag team cp.tag).dropCopy team cp

/-- COPY_COMPLETE: every element is read, converted and written and the tag completes; a copy that reads a pod window first asks for
its bytes, and one that writes there waits for the answers (R241, R245, R411). -/
def execCopyComplete (s : State) : Host.Outcome State Fault Refusal :=
  match s.arg with
  | [team, k] =>
    match s.team? team with
    | none => .next s
    | some t => match t.copy? k with
      | none => .next s
      | some cp => match t.chain? cp.h with
        | none => .next (s.dropCopy team cp)
        | some c =>
          let own := EngineRef.copy cp.h cp.key
          if !cp.faults.isEmpty || s.podPending team own then .next s
          else if cp.stage = 2 then .next (s.endCopy team cp)
          else
            let dst := cp.dstVas
            let whole := s.wholeSector dst
            let src := cp.srcVas
            let s := s.noteCluster team (src ++ dst)
            let fs := s.podDead t (src ++ dst) ++ s.tileFaults t .load (fun _ => false) src ++ s.tileFaults t .store whole dst
            match s.copyFaults t c cp fs with
            | some s' => .next s'
            | none =>
              let writes := dst.filterMap fun va => match s.tileSpot t .store (whole va) va with
                | .ok sp => some sp.loc
                | .error _ => none
              let reads := src.filter inPod
              if c.level > 0 && !t.levels.isEmpty && writes.any fun l => s.outsideConv t l then
                .next ((s.dropCopy team cp).failRoutine team 11)
              else if cp.stage = 0 && !reads.isEmpty then
                .next ((s.askPods t own reads).modCopy team k fun x => { x with stage := 1 })
              else
                let (pods, s) := s.performCopy t c.level cp whole
                let s := s.layerReads t c.level (src.filterMap fun va => match s.tileSpot t .load false va with
                  | .ok sp => some sp
                  | .error _ => none)
                if pods.isEmpty then .next (s.endCopy team cp)
                else .next ((s.tellPods t own pods).modCopy team k fun x => { x with stage := 2 })
  | _ => .next s

/-! ## The words of TCE (R249 to R253) -/

/-- A fatal record of the word at issue about lanes of one group. -/
def State.fatalWord (s : State) (t : Team) (gid : Nat) (lanes : List Nat) (cause : Nat) (addr : DWord) (extra : List Byte) :
    State :=
  let pcs := s.bothPcs t ((lanes.head?.bind fun l => t.thread? gid l).bind fun x => x.point) s.cur.pc
  s.putRecords t.ctx [({ s.teamRecord t cause gid (laneMask lanes) s.cur.word.toNat pcs addr with
                         fatal := true, extra := extra }, none)]

/-- `TCHAIN` for one group (R250). -/
def State.startChain (s : State) (t : Team) (d : BitVec 6) (k : BitVec 5) (gid : Nat) : State :=
  match s.curTeam with
  | none => s
  | some u =>
    let head := s.rdS2 t gid k.toNat
    let lanes := s.lanesOf gid
    let put := fun (s : State) (x : DWord) => s.modTeam t.key fun t => Team.write s.now Config.latSlowSC t (.s gid d.toNat, x)
    match (List.range 16).find? fun h => (u.chain? h).isNone with
    | none => put s 0xFFFFFFFF
    | some h =>
      if head.toNat % 32 ≠ 0 then s.takeTraps (lanes.map fun l => (gid, l, cMisalign, head))
      else
        let off := head.toNat % 2 ^ 40
        if !inScratch head.toNat || off + 32 > s.scratchSize t then s.fatalWord t gid lanes cWindow head []
        else
          let toks := s.curToks gid
          let s := toks.foldl State.tokHold s
          let pcs := s.bothPcs t ((lanes.head?.bind fun l => t.thread? gid l).bind fun x => x.point) s.cur.pc
          let (key, s) := s.newKey
          let c : Chain :=
            { key := key, h := h, st := .running, head := off, off := off, u := [0, 0, 0, 0], w := [0, 0, 0, 0],
              it := [0, 0, 0, 0], loops := [[], [], [], []],
              toks := toks, gid := gid, word := s.cur.word, pcs := pcs, level := u.levels.length, due := s.now + s.delay,
              wrote := [] }
          put (s.modTeam t.key fun t => { t with chains := t.chains ++ [c] }) (BitVec.ofNat 64 h)

/-- Have threads of the word at issue atomics, or requests to a pod, outstanding: a chain's reads come after them (R230)? -/
def State.atomsPending (s : State) : Bool :=
  let ms := s.members
  s.ops.any fun o => o.team == s.cur.team && (match o.what with
    | .atomic _ _ _ _ ls => ls.any fun l => ms.contains (l.gid, l.lane)
    | .remote _ _ _ _ => o.iss.members.any ms.contains
    | _ => false)

/-- TCHAIN (R230, R250). -/
def execTchain (d : BitVec 6) (k : BitVec 5) (s : State) : Host.Outcome State Fault Refusal :=
  match s.readTeam with
  | none => .next s
  | some t => if !s.cur.cleared && s.atomsPending then .next s.retryWord
    else .next (s.endingEffect fun s => s.curGids.foldl (fun s g => s.startChain t d k g) s)

/-- Masks of the word at issue, one per group (R251). -/
def State.tagMasks (s : State) (k : BitVec 5) : List DWord := match s.readTeam with
  | none => []
  | some t => s.curGids.map fun g => s.tagMask t (s.rdS2 t g k.toNat)

/-- Are all tags of the masks set? -/
def allTags (tags : DWord) (ms : List DWord) : Bool := ms.all fun m => tags &&& m == m

/-- Is a tag of each mask set, or the mask empty? -/
def anyTags (tags : DWord) (ms : List DWord) : Bool := ms.all fun m => tags &&& m != 0 || m == 0

/-- TAGWAIT_ALL: the squad waits until every tag of M is set (R251). -/
def execTagwaitAll (k : BitVec 5) (s : State) : Host.Outcome State Fault Refusal :=
  match s.curTeam with
  | none => .next s
  | some t =>
    let ms := s.tagMasks k
    if s.passed.isSome || allTags t.tags ms then .next (s.observeTags t.key (ms.foldl (· ||| ·) 0))
    else .next (s.waitOn (.tagAll (ms.foldl (· ||| ·) 0)))

/-- TAGWAIT_ANY: the squad waits until some tag of M is set, or M is 0 (R251). -/
def execTagwaitAny (k : BitVec 5) (s : State) : Host.Outcome State Fault Refusal :=
  match s.curTeam with
  | none => .next s
  | some t =>
    let ms := s.tagMasks k
    if s.passed.isSome || anyTags t.tags ms then .next (s.observeTags t.key (ms.foldl (· ||| ·) 0 &&& t.tags)) else .next (s.waitOn (.tagAny ms))

/-- Lowest set bit, or all ones (R251). -/
def lowestTag (x : DWord) : Word := match (List.range 64).find? fun i => x.getLsbD i with
  | some i => BitVec.ofNat 32 i
  | none => 0xFFFFFFFF#32

/-- TAGFIRST: the tag it names is observed (R230, R251). -/
def execTagfirst (d : BitVec 6) (k : BitVec 5) (s : State) : Host.Outcome State Fault Refusal :=
  let s' := groupProducer s.delay d.toNat (fun t g _ => lowestTag (t.tags &&& s.tagMask t (s.rdS2 t g.gid k.toNat))) s
  .next (match s.readTeam with
    | none => s'
    | some t => (s.tagMasks k).foldl (fun x m =>
        x.observeTags t.key ((BitVec.ofNat 64 1) <<< (lowestTag (t.tags &&& m)).toNat)) s')

/-- TAGCLR (R222, R251). -/
def execTagclr (k : BitVec 5) (s : State) : Host.Outcome State Fault Refusal :=
  .next (s.irrevocable fun s => (s.tagMasks k).foldl (fun s m => s.clearTags s.cur.team m) s)

/-- One thread's pop: an entry that exists is delivered next; else the pop waits for it (R252). -/
def State.popOne (s : State) (v q gid lane : Nat) : State :=
  match (s.curTeam).bind fun t => t.group? gid with
  | none => s
  | some g =>
    let seq := g.poppedOf lane q
    let s := s.modTeam s.cur.team fun t => t.markEmpty (.v gid lane v)
    let s := match (g.entries q).find? fun x => x.seq == seq with
      | some x => s.groupOp gid s.delay (.vres [(gid, lane, v, x.words.getD lane 0)] 0)
      | none => s.groupOp gid 0 (.qpop gid lane v q seq)
    let other : Nat × Nat × Nat → Bool := fun p => !(p.1 == lane && p.2.1 == q)
    let note : Group → Group := fun x => { x with popped := x.popped.filter other ++ [(lane, q, seq + 1)] }
    s.modGroup s.cur.team gid fun x => Group.freeEntries (note x)

/-- QPOP (R222, R252). -/
def execQpop (v : BitVec 7) (q : BitVec 2) (s : State) : Host.Outcome State Fault Refusal :=
  .next (s.irrevocable fun s => s.members.foldl (fun s m => s.popOne v.toNat q.toNat m.1 m.2) s)

/-- TCANCEL: the chain stops, and the word completes when it is FREE (R253). -/
def execTcancel (k : BitVec 6) (s : State) : Host.Outcome State Fault Refusal :=
  match s.readTeam with
  | none => .next s
  | some t => .next (s.endingEffect fun s => s.curGids.foldl (fun s g =>
      let h := (s.rdS t g k.toNat).toNat
      match s.curTeam.bind fun u => u.chain? h with
      | none => s
      | some _ =>
        let toks := s.curToks g
        let s := toks.foldl State.tokHold s
        (s.modChain t.key h fun c => { c with toks := c.toks ++ toks }).haltChain t.key h) s)

/-- SSRW: a write of a team register is an effect a squash could not undo (R111, R128, R222). -/
def execSsrw (k : BitVec 6) (r : BitVec 12) (s : State) : Host.Outcome State Fault Refusal :=
  if r = 0x012 || r = 0x013 || r = 0x032 then .next (s.irrevocable fun s => wordSsrw k r s) else .next (wordSsrw k r s)

end Sys2Proof.Machine
end

