-- ==== Sys2Proof/Machine/Matrix.lean ====
section
/-! DEFINITION. Operand slots, accumulator tiles, convergence registers, matrix operations, drains and loads: the words of
OSLOT, MMA and MOPS, and the events that perform what they issue (R257 to R282). -/

namespace Sys2Proof.Machine

/-! ## Operand slots (R257 to R263) -/

def Team.slot? (t : Team) (n : Nat) : Option Slot := t.slots.find? fun x => x.name == n

def Team.conv? (t : Team) (n : Nat) : Option Conv := t.convs.find? fun c => c.n == n

/-- The slots an operation reads. -/
def TileOp.slots : TileOp → List Nat
  | .mma _ _ oa ob _ => [oa, ob]
  | _ => []

/-- Is a slot BUSY: a COPY into it in flight, an issued `MMA` reading it, or a round naming it with a signature (R257)? -/
def Team.slotBusy (t : Team) (n : Nat) : Bool :=
  (t.copies.any fun c => c.slot == some n) || (t.mops.any fun m => m.op.slots.contains n)
    || t.convs.any fun c => match c.round with
      | some r => bits r.word 16 12 == n || bits r.word 11 7 == n
      | none => false

/-- Releases take effect where the slot is not BUSY, or no longer: its bytes stay in the physical slot (R257, R258, R261). -/
def State.finishReleases (s : State) (team : Nat) : State :=
  match s.team? team with
  | none => s
  | some t =>
    let done := fun (x : Slot) => x.releasing && !t.slotBusy x.name
    if t.slots.any done then
      (s.leaveSlots t (t.slots.filter done)).modTeam team fun t => { t with slots := t.slots.filter fun x => !done x }
    else s

/-- Slots a kernel declares (R257). -/
def State.slotCount (s : State) (t : Team) : Nat := match s.imageOf t with
  | some i => i.opslots
  | none => 0

/-- `OCLAIM` for one group: the lowest FREE name, or all ones (R258, R260). -/
def State.claimOne (s : State) (d gid : Nat) : State :=
  match s.curTeam with
  | none => s
  | some t =>
    let name := if t.slots.length < s.slotCount t then (List.range 32).find? fun n => (t.slot? n).isNone else none
    let (k, s) := s.newKey
    let s := match name with
      | some n => s.modTeam t.key fun t => { t with slots := t.slots ++ [s.newSlot t n k] }
      | none => s
    let x := match name with
      | some n => BitVec.ofNat 32 n
      | none => 0xFFFFFFFF#32
    if d = 0 then s else (s.modTeam t.key fun t => t.markEmpty (.s gid d)).groupOp gid s.delay (.sres gid d x)

/-- OCLAIM (R222, R260). -/
def execOclaim (d : BitVec 6) (s : State) : Host.Outcome State Fault Refusal :=
  .next (s.irrevocable fun s => s.curGids.foldl (fun s g => s.claimOne d.toNat g) s)

/-- ORELEASE: names of slots that are not BUSY are freed at once; for the others the release and the squad wait (R222, R261). -/
def execOrelease (k : BitVec 6) (s : State) : Host.Outcome State Fault Refusal :=
  match s.readTeam with
  | none => .next s
  | some t =>
    if s.passed.isSome then .next s
    else .next (s.irrevocable fun s =>
      let names := (s.curGids.map fun g => (s.rdS t g k.toNat).toNat).filter fun n => n < 32
      let mark := fun (x : Slot) => { x with releasing := true }
      let s := (s.modTeam t.key fun t =>
        { t with slots := updIf (fun (x : Slot) => names.contains x.name) mark t.slots }).finishReleases t.key
      let waiting := match s.curTeam with
        | some u => (u.slots.filter fun x => names.contains x.name).map fun x => x.claim
        | none => []
      if waiting.isEmpty then s else s.waitOn (.slots waiting))

/-- Have the threads of the word scratchpad stores that are not yet performed (R262)? -/
def State.scratchPending (s : State) : Bool :=
  let ms := s.members
  s.ops.any fun o => match o.what with
    | .store ws _ => ws.any fun w => w.who.team == s.cur.team && ms.contains (w.who.gid, w.who.lane) && (match w.at_.loc with
      | .scratch _ _ => true
      | _ => false)
    | _ => false

/-- OFENCE: when the threads' scratchpad stores are performed, the fills they observed are seen by rounds they sign later
(R231, R262). -/
def execOfence (s : State) : Host.Outcome State Fault Refusal :=
  if !s.cur.cleared && s.scratchPending then .next s.retryWord
  else
    let mark := fun (f : Fill) => if f.seen then { f with fenced := uniq (f.fenced ++ s.members) } else f
    .next (s.modTeam s.cur.team fun t => { t with slots := t.slots.map fun x => { x with fills := x.fills.map mark } })

/-! ## Shapes (R268 Table 3) -/

/-- Element types of a shape: 0 dm8, 1 i8, 2 bf16, 3 f16. -/
def shapeType (h : Nat) : Nat := if h = 4 then 1 else if h = 5 || h = 6 then 2 else if h = 7 then 3 else 0

/-- Does a shape write a pair of tiles? -/
def shapePair (h : Nat) : Bool := h == 0 || h == 1 || h == 4 || h == 6

/-- Rows, columns and depth of a shape. -/
def shapeDims (h : Nat) : Nat × Nat × Nat := match h with
  | 0 => (128, 256, 128)
  | 1 => (256, 128, 128)
  | 2 => (128, 128, 128)
  | 3 => (128, 128, 256)
  | 4 => (128, 256, 128)
  | 5 => (128, 128, 64)
  | 6 => (128, 256, 64)
  | _ => (128, 128, 64)

/-- D-core cycles of a shape. -/
def shapeCycles (h : Nat) : Nat := if h = 2 || h = 5 || h = 7 then 64 else 128

/-- Tiles an operation names: both of a pair (R264, R268, R275). -/
def TileOp.tiles : TileOp → List Nat
  | .mma h a _ _ _ => if shapePair h then [a, a + 1] else [a]
  | .mzero a => [a]
  | .mdrain a d => if bits d.flags 2 1 = 0 then [a] else [a, a + 1]
  | .mload a d => if bits d.flags 2 1 = 0 then [a] else [a, a + 1]

def TileOp.isMma : TileOp → Bool
  | .mma _ _ _ _ _ => true
  | _ => false

/-- Tile and element index of element (i, j) of a result in a layout: 2 for the one whose second tile holds the rows from 128
on, else columns (R264, R268, R275). -/
def tilePlace (rowsSplit : Bool) (i j : Nat) : Nat × Nat :=
  if rowsSplit then (i / 128, 128 * (i % 128) + j) else (j / 128, 128 * i + j % 128)

/-- Tiles a kernel declares (R264). -/
def State.accCount (s : State) (t : Team) : Nat := match s.imageOf t with
  | some i => i.acc
  | none => 0

/-- Cycles of a core's own clock in D-core cycles (R6, R271). -/
def ownCycles (k : Kind) (n : Nat) : Nat := match k with
  | .dcore => n
  | .lcore => (n * 18 + 25) / 26

/-! ## Issuing an operation -/

/-- Does an operation depend on the contents of its tiles as an earlier one left them: a drain does, and an `MMA` that adds to what
another word than an `MMA` has written (R270, R279)? -/
def TileOp.needs (op : TileOp) (a : Acc) : Bool := match op, a.last with
  | .mdrain _ _, some _ => true
  | .mma _ _ _ _ z, some (_, isMma) => !z && !isMma
  | _, _ => false

/-- Issue an operation for some threads. Where an earlier operation on one of its tiles is outstanding, and not both are `MMA`s, both
results are undefined; its own is, too, where no `MWAIT` of those threads has rejoined the one it depends on, and where a COPY
into a slot that it reads is in flight (R232, R270, R279; log entry 19). -/
def State.issueMat (s : State) (team key gid : Nat) (op : TileOp) (toks : List Nat) (iss : Issue) (by_ : List (Nat × Nat)) (lat : Nat) :
    State :=
  match s.team? team with
  | none => s
  | some t =>
    let meets := fun (m : MatOp) => (m.op.tiles.any op.tiles.contains) && !(m.op.isMma && op.isMma)
    let apart := t.accs.any fun a => op.tiles.contains a.n && op.needs a && !(by_.any a.joined.contains)
    let filling := t.copies.any fun c => c.slot.any op.slots.contains
    let clash := t.mops.any meets || apart || filling
    let (q, s) := s.newKey
    let m : MatOp :=
      { key := key, seq := q, op := op, toks := toks, start := none, gid := gid, iss := iss, faults := [],
        due := s.now + lat, clash := clash, signers := by_, read := [], level := t.levels.length, stage := 0,
        got := [] }
    let hit := fun (x : MatOp) => { x with clash := true }
    s.modTeam team fun t => { t with mops := updIf meets hit t.mops ++ [m] }

/-! ## Convergence registers and signing (R265 to R267) -/

/-- Issued rounds on a core that wait for the array (R271). -/
def State.arrayQueue (s : State) (core : Nat) : List (Nat × MatOp) :=
  (s.teams.filter fun t => t.core == core && t.st != .saved).flatMap fun t =>
    (t.mops.filter fun m => m.op.isMma && m.start.isNone).map fun m => (t.key, m)

/-- Has the array's queue room for another round (R271)? -/
def State.arrayRoom (s : State) (core : Nat) : Bool := (s.arrayQueue core).length < 4

/-- The signing set a mask gives: live threads of the groups whose bits are set (R265). -/
def Team.signingSet (t : Team) (mask gpt : Nat) : List (Nat × Nat) :=
  (t.groups.filter fun g => mask.testBit g.gid && g.gid < gpt).flatMap fun g => g.threads.map fun x => (g.gid, x.lane)

/-- Groups per team (R358). -/
def State.gptOf (s : State) (t : Team) : Nat := match s.launchOf t with
  | some l => l.gpt
  | none => 0

/-- The operation of an `MMA` word's bits 24:0 (R268). -/
def mmaOp (w : Nat) : TileOp := .mma (bits w 24 20) (bits w 19 17) (bits w 16 12) (bits w 11 7) (w.testBit 3)

/-- Issue a round whose signing set has signed (R266). -/
def State.issueRound (s : State) (team cv : Nat) : State :=
  match s.team? team with
  | none => s
  | some t => match (t.conv? cv).bind fun c => c.round with
    | none => s
    | some r =>
      let op := mmaOp r.word
      let s := s.issueMat team r.key (r.signers.head?.map (·.1) |>.getD 0) op r.toks r.iss r.signers 1
      let close := fun (c : Conv) => { c with round := none }
      s.modTeam team fun t => { t with convs := updIf (fun (c : Conv) => c.n == cv) close t.convs }

/-- Has every live thread of a round's signing set signed (R266)? -/
def State.roundFull (s : State) (t : Team) (r : Round) : Bool := (t.signingSet r.mask (s.gptOf t)).all r.signers.contains

/-- Rounds that an exit has completed issue, where the array's queue has room (R156, R266, R271). -/
def State.closeRounds (s : State) (team : Nat) : State :=
  match s.team? team with
  | none => s
  | some t => t.convs.foldl (fun s c => match c.round, s.team? team with
    | some r, some u => if s.roundFull u r && s.arrayRoom u.core then s.issueRound team c.n else s
    | _, _ => s) s

/-- Is an operation's tile or slot missing (R268, R272)? -/
def State.slotFault (s : State) (t : Team) (op : TileOp) : Bool :=
  (op.tiles.any fun a => a ≥ s.accCount t) || op.slots.any fun n => (t.slot? n).isNone

/-- `SLOT`: one fatal record for each group of some threads of the word (R268, R272). -/
def State.slotRecords (s : State) (t : Team) (ms : List (Nat × Nat)) : State :=
  s.putRecords t.ctx ((uniq (ms.map (·.1))).map fun g =>
    let lanes := (ms.filter fun m => m.1 == g).map (·.2)
    let pcs := s.bothPcs t ((lanes.head?.bind fun l => t.thread? g l).bind fun x => x.point) s.cur.pc
    ({ s.teamRecord t cSlot g (laneMask lanes) s.cur.word.toNat pcs 0 with fatal := true }, none))

/-- Some threads sign a round, or an operation of their own, of a key: the fills that one of them has executed `OFENCE` after are
seen by it (R231, R262). -/
def State.tellSigned (s : State) (team key : Nat) (ms : List (Nat × Nat)) : State :=
  let note := fun (f : Fill) => if ms.any f.fenced.contains then { f with told := uniq (f.told ++ [key]) } else f
  s.modTeam team fun t => { t with slots := t.slots.map fun x => { x with fills := x.fills.map note } }

/-- Threads of the word perform the operation alone, while the array's queue has room; the rest are returned (R266, R271). A tile or
slot that is missing raises `SLOT` (R268). -/
def State.signAlone (s : State) (w : Nat) (ms : List (Nat × Nat)) : State × List (Nat × Nat) :=
  if ms.isEmpty then (s, [])
  else ms.foldl (fun p m => match p.1.curTeam with
    | none => p
    | some t =>
      if p.1.slotFault t (mmaOp w) then (if some m == ms.head? then p.1.slotRecords t ms else p.1, p.2)
      else if p.1.arrayRoom t.core then
        let toks := p.1.curToks m.1
        let (k, s) := (toks.foldl State.tokHold p.1).newKey
        ((s.tellSigned t.key k [m]).issueMat t.key k m.1 (mmaOp w) toks s.cur [m] 1, p.2)
      else (p.1, p.2 ++ [m])) (s, [])

/-- Sign a round for some threads; those it has no place for now are returned (R266, R271). A tile or slot that is missing raises
`SLOT` and nothing is signed (R268). -/
def State.signRound (s : State) (cv w : Nat) (ms : List (Nat × Nat)) : State × List (Nat × Nat) :=
  match s.curTeam with
  | none => (s, [])
  | some t => match t.conv? cv with
    | none => (s, [])
    | some c =>
      let (k, s1) := s.newKey
      let r := c.round.getD { key := k, mask := c.mask, word := w, signers := [], toks := [], iss := s.cur }
      let now := ms.filter fun m => !r.signers.contains m
      let again := ms.filter r.signers.contains
      if now.isEmpty then (s, again)
      else if s.slotFault t (mmaOp w) then (s.slotRecords t now, again)
      else
        let toks := (uniq (now.map (·.1))).flatMap fun g => s.curToks g
        let r' := { r with signers := sortBy threadLe (r.signers ++ now), toks := r.toks ++ toks }
        if s.roundFull t r' && !s.arrayRoom t.core then (s, ms)
        else
          let keep := fun (x : Conv) => { x with round := some r' }
          let s := ((toks.foldl State.tokHold s1).tellSigned t.key r.key now).modTeam t.key fun t =>
            { t with convs := updIf (fun (x : Conv) => x.n == cv) keep t.convs }
          (if s.roundFull t r' then s.issueRound t.key cv else s, again)

/-- The threads of an `MMA` word sign: those outside the signing set act alone, a word other than the latched one traps, and
threads that have signed already wait (R266). -/
def State.signMma (s : State) (cv w : Nat) (pend : List (Nat × Nat)) : Nat → State × List (Nat × Nat)
  | 0 => (s, pend)
  | fuel + 1 => match s.curTeam with
    | none => (s, [])
    | some t => match t.conv? cv with
      | none => (s, [])
      | some c =>
        let mask := match c.round with
          | some r => r.mask
          | none => c.mask
        let inSet := t.signingSet mask (s.gptOf t)
        let mine := pend.filter inSet.contains
        let (s, left) := s.signAlone w (pend.filter fun m => !inSet.contains m)
        match c.round with
        | some r =>
          if r.word ≠ w then
            (s.takeTraps (mine.map fun m => (m.1, m.2, cIllop, BitVec.ofNat 64 r.word)), left)
          else
            let (s, again) := s.signRound cv w mine
            if again.isEmpty || again.length = mine.length then (s, left ++ again)
            else
              let (s, rest) := s.signMma cv w again fuel
              (s, left ++ rest)
        | none =>
          if mine.isEmpty then (s, left)
          else
            let (s, again) := s.signRound cv w mine
            (s, left ++ again)

/-- Bits 24:0 of an `MMA` word with these operands (R268). -/
def mmaWord (h : BitVec 5) (a : BitVec 3) (x y : BitVec 5) (v : BitVec 3) (z : BitVec 1) : Nat :=
  h.toNat * 2 ^ 20 + a.toNat * 2 ^ 17 + x.toNat * 2 ^ 12 + y.toNat * 2 ^ 7 + v.toNat * 2 ^ 4 + z.toNat * 2 ^ 3

/-- MMA: every thread signs the round of the word's convergence register (R266); the chunk ends (R221). -/
def execMma (h : BitVec 5) (a : BitVec 3) (x y : BitVec 5) (v : BitVec 3) (z : BitVec 1) (s : State) :
    Host.Outcome State Fault Refusal :=
  match s.curTeam with
  | none => .next s
  | some _ =>
    .next (s.endingEffect fun s =>
      let done := (s.passed.getD []).map fun r => (r.1, r.2.1)
      let pend := s.members.filter fun m => !done.contains m
      let (s, left) := s.signMma v.toNat (mmaWord h a x y v z) pend 4
      let left := left.filter s.members.contains
      if left.isEmpty then s
      else
        let held := (s.members.filter fun m => !left.contains m).map fun m => (m.1, m.2, 1)
        s.waitWith .sign held)

/-- CVSET: the mask that governs the next round (R222, R267). -/
def execCvset (v : BitVec 3) (k : BitVec 6) (s : State) : Host.Outcome State Fault Refusal :=
  match s.readTeam with
  | none => .next s
  | some t => .next (s.irrevocable fun s => s.curGids.foldl (fun s g =>
      let mask := (s.rdS t g k.toNat).toNat % 65536
      let put := fun (c : Conv) => { c with mask := mask }
      s.modTeam t.key fun t => { t with convs := updIf (fun (c : Conv) => c.n == v.toNat) put t.convs }) s)

/-! ## Accumulator words (R272 to R278) -/

/-- Keys of the operations on a tile that an `MWAIT` waits for: every issued one, and rounds naming the tile that one of the
threads has signed (R273). -/
def State.tileWaits (s : State) (t : Team) (a : Nat) : List Nat :=
  let ms := s.members
  let rounds := t.convs.filterMap fun c => match c.round with
    | some r => if (mmaOp r.word).tiles.contains a && r.signers.any ms.contains then some r.key else none
    | none => none
  (t.mops.filter fun m => m.op.tiles.contains a).map (fun m => m.key) ++ rounds

/-- Is an operation or a round with this key still to complete? -/
def Team.tileOpen (t : Team) (k : Nat) : Bool :=
  (t.mops.any fun m => m.key == k) || t.convs.any fun c => match c.round with
    | some r => r.key == k
    | none => false

/-- The threads of the word rejoin the operation that wrote a tile last, on every tile that it wrote (R232, R279). -/
def State.rejoin (s : State) (a : Nat) : State :=
  s.modTeam s.cur.team fun t =>
    let last := (t.accs.find? fun x => x.n == a).bind fun x => x.last
    let join := fun (x : Acc) => if x.last == last then { x with joined := uniq (x.joined ++ s.members) } else x
    { t with accs := t.accs.map join }

/-- MWAIT: the squad waits for the tile's operations, and rejoins them (R273, R279). -/
def execMwait (a : BitVec 3) (s : State) : Host.Outcome State Fault Refusal :=
  match s.curTeam with
  | none => .next s
  | some t =>
    if a.toNat ≥ s.accCount t then .next (s.slotRecords t s.members)
    else if s.passed.isSome then .next (s.rejoin a.toNat)
    else
      let ks := s.tileWaits t a.toNat
      if ks.isEmpty then .next (s.rejoin a.toNat) else .next (s.waitOn (.tile a.toNat ks))

/-- MZERO (R222, R274). -/
def execMzero (a : BitVec 3) (s : State) : Host.Outcome State Fault Refusal :=
  match s.curTeam with
  | none => .next s
  | some t =>
    if a.toNat ≥ s.accCount t then .next (s.slotRecords t s.members)
    else .next (s.irrevocable fun s => s.curGids.foldl (fun s g =>
      let toks := s.curToks g
      let (k, s) := (toks.foldl State.tokHold s).newKey
      s.issueMat t.key k g (.mzero a.toNat) toks s.cur ((s.lanesOf g).map fun l => (g, l)) 16) s)

/-- The descriptor in 32 bytes (R275 Table 4). -/
def readDesc (bs : List Byte) : Desc :=
  { addr := fieldOf bs 0 8, stride := fieldOf bs 8 4, type := fieldOf bs 12 1, rm := fieldOf bs 13 1, flags := fieldOf bs 14 1,
    rsv := fieldOf bs 15 1, rowsc := fieldOf bs 16 8, colsc := fieldOf bs 24 8 }

/-- Bytes of an element in memory (R275). -/
def Desc.size (d : Desc) : Nat := match d.type with
  | 0 => 4
  | 1 => 2
  | 2 => 2
  | 3 => 1
  | _ => 4

/-- Rows and columns of a geometry (R275). -/
def Desc.dims (d : Desc) : Nat × Nat := match bits d.flags 2 1 with
  | 1 => (128, 256)
  | 2 => (256, 128)
  | _ => (128, 128)

/-- The checks of a descriptor, the lowest code first (R277). -/
def State.descCode (s : State) (t : Team) (load : Bool) (a : Nat) (d : Desc) : Option Nat :=
  let geom := bits d.flags 2 1
  let tiles := if geom = 0 then [a] else [a, a + 1]
  let int := t.accs.any fun x => tiles.contains x.n && x.int
  let scaled := d.rowsc != 0 || d.colsc != 0
  lowestCode [
    (badTileWindow d.addr || badTileWindow d.rowsc || badTileWindow d.colsc, 13),
    (d.type > 4 || d.rm > 3, 16),
    (geom == 3 || (geom != 0 && (a % 2 == 1 || a + 1 ≥ s.accCount t)), 17),
    (d.addr % d.size != 0 || d.stride % d.size != 0 || d.stride < d.dims.2 * d.size, 18),
    (d.rowsc % 4 != 0 || d.colsc % 4 != 0, 19),
    (scaled && (d.type == 4 || int), 20),
    (load && (!(d.type == 0 || d.type == 4) || d.rm != 0 || d.flags.testBit 0 || scaled), 21),
    (d.rsv != 0 || d.flags / 8 != 0, 22)]

/-- Address of element (i, j) (R275). -/
def Desc.elemVa (d : Desc) (i j : Nat) : Nat := (d.addr + i * d.stride + j * d.size) % 2 ^ 64

/-- `MDRAIN` or `MLOAD` for one group: the descriptor is read by the executing lanes, checked, and the operation issued (R275,
R277). The flag tells an `MLOAD`. -/
def State.issueDrain (s : State) (t : Team) (load : Bool) (a : Nat) (k : BitVec 5) (gid : Nat) : State :=
  match s.ctxOf t with
  | none => s
  | some c =>
    let va := (s.rdS2 t gid k.toNat).toNat
    let lanes := s.lanesOf gid
    if va % 32 ≠ 0 then s.takeTraps (lanes.map fun l => (gid, l, cMisalign, BitVec.ofNat 64 va))
    else
      let got : Except AFault (List Spot) := match windowOf va with
        | .private_ _ => .error (AFault.of cWindow)
        | .pod _ _ => .error (AFault.of cWindow)
        | _ => s.reach t c 0 .load va 32
      match got with
      | .error f => s.accessFaults (lanes.map fun l => (gid, l, va, f))
      | .ok sp =>
        let s := lanes.foldl (fun s l => s.noteRead t gid l sp) (s.noteCluster t.key [va])
        let agent : Agent := { team := t.key, gid := gid, lane := lanes.headD 0 }
        let d := readDesc (sp.map fun x => s.loadByte t agent x)
        match s.descCode t load a d with
        | some code => s.fatalWord t gid lanes cShaperec 0 (extra458 5 a code 0 0 0)
        | none =>
          let toks := s.curToks gid
          let (key, s) := (toks.foldl State.tokHold s).newKey
          let n := d.dims.1 * d.dims.2 * d.size / 256
          let s := s.walkAhead t ((List.range d.dims.1).flatMap fun i => [d.elemVa i 0, d.elemVa i (d.dims.2 - 1)])
          s.issueMat t.key key gid (if load then .mload a d else .mdrain a d) toks s.cur
            (lanes.map fun l => (gid, l)) n

/-- An `MDRAIN` or `MLOAD` word (R221, R272). -/
def wordDrain (load : Bool) (a : BitVec 3) (k : BitVec 5) (s : State) : State :=
  match s.readTeam with
  | none => s
  | some t =>
    if a.toNat ≥ s.accCount t then s.slotRecords t s.members
    else s.endingEffect fun s => s.curGids.foldl (fun s g => s.issueDrain t load a.toNat k g) s

/-- MDRAIN (R276). -/
def execMdrain (a : BitVec 3) (k : BitVec 5) (s : State) : Host.Outcome State Fault Refusal := .next (wordDrain false a k s)

/-- MLOAD (R278). -/
def execMload (a : BitVec 3) (k : BitVec 5) (s : State) : Host.Outcome State Fault Refusal := .next (wordDrain true a k s)

/-! ## Performing operations -/

/-- The team and operation with a key. -/
def State.matOp? (s : State) (k : Nat) : Option (Team × MatOp) :=
  s.teams.findSome? fun t => (t.mops.find? fun m => m.key == k).map fun m => (t, m)

/-- The operation is complete: it leaves its tiles, and its flag counts fall (R25, R264). -/
def State.endMat (s : State) (team : Nat) (m : MatOp) : State :=
  let written := match m.op with
    | .mdrain _ _ => []
    | op => op.tiles
  let s := written.foldl (fun s a => s.touch team m.level (1000 + a)) s
  let note := fun (a : Acc) => { a with last := some (m.seq, m.op.isMma), joined := [] }
  (s.modTeam team fun t => { t with
    accs := updIf (fun (a : Acc) => written.contains a.n) note t.accs, mops := t.mops.filter fun (x : MatOp) => x.key != m.key }).toksDone m.toks

/-- An accumulator element. -/
def Team.accElem (t : Team) (n i : Nat) : Word := match t.accs.find? fun a => a.n == n with
  | some a => sget i a.elems
  | none => 0

/-- Write tiles from a function of tile and element index, and set their kind (R264). -/
def Team.setAccs (t : Team) (tiles : List Nat) (int : Bool) (f : Nat → Nat → Word) : Team :=
  let put := fun (a : Acc) =>
    { a with int := int, elems := (List.range 16384).filterMap fun i =>
        let x := f a.n i
        if x = 0 then none else some (i, x) }
  { t with accs := updIf (fun (a : Acc) => tiles.contains a.n) put t.accs }

/-- A byte of a slot under fills that may be unseen, the newest first: a fill that a signer has executed `OFENCE` after, and before it
signed, is seen; of any other, which one is free (R231; log entry 4). -/
def unseenByte (key : Nat) (pick : Nat → Bool) (off : Nat) : List Fill → Option Byte → Option Byte
  | [], b => b
  | f :: fs, b => match f.old.find? fun p => p.1 == off with
    | none => unseenByte key pick off fs b
    | some p => if f.told.contains key || pick fs.length then b else unseenByte key pick off fs p.2

/-- A byte of an operand slot as an operation reads it, from the slots as they stood when it began (R231, R258, R269; log entries 3
and 4). -/
def State.slotByte (s : State) (m : MatOp) (n off : Nat) : Byte :=
  match m.read.find? fun x => x.name == n with
  | none => 0
  | some x =>
    let pick := fun (k : Nat) => Config.freeBit s.fresh ((32 * k + n) * 32768 + off)
    let byte := unseenByte m.key pick off x.fills.reverse (bget off x.bytes)
    byte.getD (({ x with bytes := [] } : Slot).byte off)

/-- An operand element's bits (R263). -/
def State.slotElem (s : State) (m : MatOp) (n e r c : Nat) : Nat :=
  leNat ((List.range e).map fun i => s.slotByte m n (slotOff e r c + i))

/-- The value of an operand element by type: 0 dm8, 2 bf16, 3 f16. -/
def operandVal (ty x : Nat) : Val := match ty with
  | 0 => decodeDm8 x
  | 2 => decodeFp fmtBf16 x
  | _ => decodeFp fmtF16 x

/-- One element of an operation's result (R94 to R96, R269). -/
def State.mmaElem (s : State) (m : MatOp) (h oa ob : Nat) (c0 : Word) (i j : Nat) : Word :=
  let ty := shapeType h
  let e := if ty = 2 || ty = 3 then 2 else 1
  let a := fun k => s.slotElem m oa e i k
  let b := fun k => s.slotElem m ob e k j
  let depth := (shapeDims h).2.2
  if ty = 1 then
    let sum := (List.range depth).foldl (fun (acc : Int) k => acc + sval 8 (a k) * sval 8 (b k)) (sval 32 c0.toNat)
    BitVec.ofInt 32 sum
  else
    let block := if ty = 0 then 32 else 16
    BitVec.ofNat 32 ((List.range (depth / block)).foldl (fun c q =>
      accumulate c ((List.range block).map fun x =>
        mulVal (operandVal ty (a (q * block + x))) (operandVal ty (b (q * block + x))))) c0.toNat)

/-- The team with an `MMA` performed; an undefined result is free (R269, R279; log entry 4). -/
def State.mmaResult (s : State) (t : Team) (m : MatOp) (h acc oa ob : Nat) (z : Bool) : Team :=
  let split := h = 1
  t.setAccs (TileOp.mma h acc oa ob z).tiles (h == 4) fun n idx =>
    if m.clash then Config.freeWord s.fresh (n * 16384 + idx)
    else
      let i := idx / 128 + if split then 128 * (n - acc) else 0
      let j := idx % 128 + if split then 0 else 128 * (n - acc)
      s.mmaElem m h oa ob (if z then 0 else t.accElem n idx) i j

/-- Cycles an `MMA` with one slot in both places takes the array for, over those of its shape: twice, or, on a stepping that erratum 7
affects, three times for shape 3 (R268, R271, R427). -/
def sameSlotTimes (step h : Nat) : Nat := if h = 3 && Erratum.seven.affects step then 3 else 2

/-- D-core cycles for which an operation occupies the array (R268, R271). -/
def arrayCycles (step : Nat) (k : Kind) (op : TileOp) : Nat := match op with
  | .mma h _ oa ob _ =>
    let n := shapeCycles h * (if oa = ob then sameSlotTimes step h else 1)
    match k with
    | .dcore => n
    | .lcore => ownCycles .lcore (8 * n)
  | _ => 0

/-- Is the core's array occupied (R271)? -/
def State.arrayBusy (s : State) (core : Nat) : Bool :=
  s.teams.any fun t => t.core == core && t.mops.any fun m => m.op.isMma && (match m.start with
    | some x => s.now < x + arrayCycles s.part.stepping.toNat t.kind m.op
    | none => false)

/-- MATRIX_OP_START: the first issued round that waits starts on the core's array when it is free, not before the cycle after its
issue; it reads its slots as they stand (R231, R269, R271). -/
def execMatrixOpStart (s : State) : Host.Outcome State Fault Refusal :=
  match s.arg with
  | [core] =>
    if s.arrayBusy core then .next s
    else match sortBy (fun (a b : Nat × MatOp) => decide (a.2.seq ≤ b.2.seq)) (s.arrayQueue core) with
      | [] => .next s
      | (team, m) :: _ => if m.due > s.now then .next s else match s.team? team with
        | none => .next s
        | some t =>
          let go := fun (x : MatOp) =>
            { x with
              start := some s.now, read := t.slots.filter fun y => x.op.slots.contains y.name,
              due := s.now + arrayCycles s.part.stepping.toNat t.kind m.op + ownCycles t.kind 16 }
          .next (s.modTeam team fun t => { t with mops := updIf (fun (x : MatOp) => x.key == m.key) go t.mops })
  | _ => .next s

/-- An earlier `MMA` on one of the tiles has not finished writing (R270). -/
def Team.matBefore (t : Team) (m : MatOp) : Bool :=
  t.mops.any fun x => x.op.isMma && x.seq < m.seq && x.op.tiles.any m.op.tiles.contains

/-- MATRIX_OP_COMPLETE (R269, R271). -/
def execMatrixOpComplete (s : State) : Host.Outcome State Fault Refusal :=
  match s.arg with
  | [k] => match s.matOp? k with
    | some (t, m) => match m.op with
      | .mma h a oa ob z =>
        if m.start.isNone || t.matBefore m then .next s
        else .next ((s.modTeam t.key fun _ => s.mmaResult t m h a oa ob z).endMat t.key m)
      | _ => .next s
    | none => .next s
  | _ => .next s

/-- MZERO_COMPLETE (R274). -/
def execMzeroComplete (s : State) : Host.Outcome State Fault Refusal :=
  match s.arg with
  | [k] => match s.matOp? k with
    | some (t, m) => match m.op with
      | .mzero a =>
        let x := fun (n i : Nat) => if m.clash then Config.freeWord s.fresh (n * 16384 + i) else 0
        .next ((s.modTeam t.key fun t => t.setAccs [a] false x).endMat t.key m)
      | _ => .next s
    | none => .next s
  | _ => .next s

/-- Rows and columns of every element. -/
def Desc.elems (d : Desc) : List (Nat × Nat) :=
  (List.range d.dims.1).flatMap fun i => (List.range d.dims.2).map fun j => (i, j)

/-- Addresses of the bytes of every element. -/
def Desc.vas (d : Desc) : List Nat := d.elems.flatMap fun e => (upFrom (d.elemVa e.1 e.2) d.size).map fun a => a % 2 ^ 64

/-- Addresses of the scale vectors (R97). -/
def Desc.scaleVas (d : Desc) : List Nat :=
  (if d.rowsc = 0 then [] else upFrom d.rowsc (4 * d.dims.1)) ++ (if d.colsc = 0 then [] else upFrom d.colsc (4 * d.dims.2))

/-- A little-endian number an operation reads at an address. -/
def State.tileNat (s : State) (t : Team) (m : MatOp) (va n : Nat) : Nat :=
  leNat ((upFrom va n).map fun a => match s.tileSpot t .load false (a % 2 ^ 64) with
    | .ok sp => s.engineRead t m.level m.got sp
    | .error _ => 0)

/-- The element a drain writes (R97, R276): `acc` the tile's element, `int` its kind, `old` the destination's bits. -/
def drainElem (d : Desc) (int : Bool) (acc r c old : Nat) : Nat :=
  let add := d.flags.testBit 0
  if d.type = 4 then
    if !add then acc
    else if int then (old + acc) % 2 ^ 32
    else addF32 acc old
  else
    let x := if int then (cvtFromInt 0 (sval 32 acc)).1 else acc
    let u := mulF32 (mulF32 x r) c
    let oldVal := match d.type with
      | 0 => decodeFp fmtF32 old
      | 1 => decodeFp fmtBf16 old
      | 2 => decodeFp fmtF16 old
      | _ => decodeDm8 old
    let u := if add then (fpAdd fmtF32 0 (decodeFp fmtF32 u) oldVal).1 else u
    match d.type with
    | 0 => u
    | 1 => (cvtFp fmtBf16 d.rm false (decodeFp fmtF32 u)).1
    | 2 => (cvtFp fmtF16 d.rm false (decodeFp fmtF32 u)).1
    | _ => (encodeDm8 (decodeFp fmtF32 u)).1

/-- A record about a drain's or load's access, in the layout of R458 (R277). -/
def State.drainRecord (s : State) (t : Team) (m : MatOp) (a cause addr : Nat) (f : AFault) : Record :=
  let point := (m.iss.members.head?.bind fun x => t.thread? x.1 x.2).bind fun x => x.point
  { s.teamRecord t cause m.gid 0 m.iss.word.toNat (s.bothPcs t point m.iss.first) (BitVec.ofNat 64 addr) with
    extra := extra458 5 a 0 0 (if cause = cPageattr || cause = cWindow then f.reason else 0)
      (if cause = cPageattr && f.reason = 0 then f.level else 0) }

/-- A fault that ends a drain or a load: `INTEGRITY` and `ECCUNC` fail the routine of an open block, every other one is fatal (R277).
`r` is its record. -/
def State.drainFails (s : State) (t : Team) (m : MatOp) (cause : Nat) (r : Record) : State :=
  let s := s.reportEcc t.ctx [(r.addr.toNat, AFault.of cause)]
  let soft := (cause = cIntegrity || cause = cEccunc) && !t.levels.isEmpty
  (if soft then s.failRoutine t.key (integrityCode cause) else s.putRecords t.ctx [({ r with fatal := true }, none)]).endMat t.key m

/-- Change one matrix operation of a team. -/
def State.modMop (s : State) (team k : Nat) (f : MatOp → MatOp) : State :=
  s.modTeam team fun t => { t with mops := updIf (fun (m : MatOp) => m.key == k) f t.mops }

/-- The faults of an operation's accesses: replayable ones stall it with one record per 64 KiB region, `WINDOW` and `PAGEATTR`
are fatal, `INTEGRITY` and `ECCUNC` end it (R245, R277). `none` when there are none. -/
def State.drainFaults (s : State) (t : Team) (m : MatOp) (a : Nat) (fs : List (Nat × AFault)) : Option State :=
  let hard := fs.filter fun f => f.2.cause ≠ cPagefault && f.2.cause ≠ cProt
  match hard, fs with
  | [], [] => none
  | [], _ =>
    if s.recordsFull t.ctx then
      let wait := fun (x : MatOp) => { x with due := s.now + 1 }
      some (s.modTeam t.key fun t => { t with mops := updIf (fun (x : MatOp) => x.key == m.key) wait t.mops })
    else
      let regions := uniq (fs.map fun f => (f.2.cause, f.1 / 65536))
      let b := Blocked.mop t.key m.key
      let recs := regions.filterMap fun r => (fs.find? fun f => (f.2.cause, f.1 / 65536) == r).map fun f =>
        ({ s.drainRecord t m a f.2.cause f.1 f.2 with replayable := true }, some b)
      let s := s.putRecords t.ctx recs
      let keys := s.waitKeys t.ctx b
      let stall := fun (x : MatOp) => { x with faults := keys }
      some (s.modTeam t.key fun t => { t with mops := updIf (fun (x : MatOp) => x.key == m.key) stall t.mops })
  | f :: _, _ => some (s.drainFails t m f.2.cause (s.drainRecord t m a f.2.cause f.1 f.2))

/-- The bytes a drain writes, with their places (R97, R276). -/
def State.drainWrites (s : State) (t : Team) (m : MatOp) (a : Nat) (d : Desc) (whole : Nat → Bool) : List (Spot × Byte) :=
  let split := bits d.flags 2 1 = 2
  let one := 0x3F800000
  d.elems.flatMap fun e =>
    let p := tilePlace split e.1 e.2
    let int := t.accs.any fun x => x.n == a + p.1 && x.int
    let r := if d.rowsc = 0 then one else s.tileNat t m (d.rowsc + 4 * e.1) 4
    let c := if d.colsc = 0 then one else s.tileNat t m (d.colsc + 4 * e.2) 4
    let va := d.elemVa e.1 e.2
    let old := if d.flags.testBit 0 then s.tileNat t m va d.size else 0
    let x := drainElem d int (t.accElem (a + p.1) p.2).toNat r c old
    (leBytes d.size x).zipIdx.filterMap fun b =>
      let v := (va + b.2) % 2 ^ 64
      match s.tileSpot t .store (whole v) v with
      | .ok sp => some (sp, if m.clash then Config.freeByte s.fresh sp.loc.code else b.1)
      | .error _ => none

/-- DRAIN_COMPLETE: every element is scaled, converted and written; pod bytes are asked for first, and pod writes answered (R97, R276,
R277, R411). -/
def execDrainComplete (s : State) : Host.Outcome State Fault Refusal :=
  match s.arg with
  | [k] => match s.matOp? k with
    | some (t, m) => match m.op with
      | .mdrain a d =>
        let own := EngineRef.mop m.key
        if !m.faults.isEmpty || s.podPending t.key own then .next s
        else if m.stage = 2 then .next (s.endMat t.key m)
        else
          let dst := d.vas
          let whole := s.wholeSector dst
          let reads := d.scaleVas ++ if d.flags.testBit 0 then dst else []
          let s := s.noteCluster t.key (dst ++ d.scaleVas)
          let fs := s.podDead t (reads ++ dst) ++ s.tileFaults t .load (fun _ => false) reads ++ s.tileFaults t .store whole dst
          match s.drainFaults t m a fs with
          | some s' => .next s'
          | none =>
            let pods := reads.filter inPod
            if m.stage = 0 && !pods.isEmpty then .next ((s.askPods t own pods).modMop t.key m.key fun x => { x with stage := 1 })
            else
              let ws := s.drainWrites t m a d whole
              if m.level > 0 && !t.levels.isEmpty && ws.any fun w => s.outsideConv t w.1.loc then
                .next ((s.endMat t.key m).failRoutine t.key 11)
              else
                let s := s.engineWrites t m.level ws
                let s := s.healWritten (memSpots (ws.map (·.1)))
                let s := s.layerReads t m.level (reads.filterMap fun va => match s.tileSpot t .load false va with
                  | .ok sp => some sp
                  | .error _ => none)
                match podWrites ws with
                | [] => .next (s.endMat t.key m)
                | pods => .next ((s.tellPods t own pods).modMop t.key m.key fun x => { x with stage := 2 })
      | _ => .next s
    | none => .next s
  | _ => .next s

/-- MLOAD_COMPLETE: every element's bits are read; the kind is float for TYPE f32, integer for raw; pod bytes are asked for first
(R264, R278, R411). -/
def execMloadComplete (s : State) : Host.Outcome State Fault Refusal :=
  match s.arg with
  | [k] => match s.matOp? k with
    | some (t, m) => match m.op with
      | .mload a d =>
        let own := EngineRef.mop m.key
        if !m.faults.isEmpty || s.podPending t.key own then .next s
        else
          let s := s.noteCluster t.key d.vas
          match s.drainFaults t m a (s.podDead t d.vas ++ s.tileFaults t .load (fun _ => false) d.vas) with
          | some s' => .next s'
          | none =>
            let pods := d.vas.filter inPod
            if m.stage = 0 && !pods.isEmpty then .next ((s.askPods t own pods).modMop t.key m.key fun x => { x with stage := 1 })
            else
              let split := bits d.flags 2 1 = 2
              let x := fun (n idx : Nat) =>
                if m.clash then Config.freeWord s.fresh (n * 16384 + idx)
                else
                  let i := idx / 128 + if split then 128 * (n - a) else 0
                  let j := idx % 128 + if split then 0 else 128 * (n - a)
                  BitVec.ofNat 32 (s.tileNat t m (d.elemVa i j) 4)
              let s := s.modTeam t.key fun t => t.setAccs m.op.tiles (d.type == 4) x
              let s := s.layerReads t m.level (d.vas.filterMap fun va => match s.tileSpot t .load false va with
                | .ok sp => some sp
                | .error _ => none)
              .next (s.endMat t.key m)
      | _ => .next s
    | none => .next s
  | _ => .next s

end Sys2Proof.Machine
end

