-- ==== Sys2Proof/Machine/Barrier.lean ====
section
/-! DEFINITION. Barriers: instances, arrivals, phases, results, and the words of BAR (R283 to R292); their release and the
messages of pod barriers (R289, R413). -/

namespace Sys2Proof.Machine

/-! ## Instances (R283) -/

/-- The home module and number that a pod identifier names for a context (R413). -/
def Context.podBar? (c : Context) (id : Nat) : Option (Nat × Nat) := (c.podbar.find? fun p => p.1 == id).map (·.2)

/-- Whose instance a scope and identifier name for a team, and its number there; `none` for a pod identifier that is not
mapped (R283, R284). -/
def State.barOwner (s : State) (t : Team) (sc id : Nat) : Option (BarOwner × Nat) :=
  match sc with
  | 0 => some (.team t.key, id)
  | 1 => some (if s.clusterSize t ≤ 1 then .team t.key else .cluster t.launch (t.index / s.clusterSize t), id)
  | 2 => some (.die t.launch (dieOf t.core), id)
  | 3 => some (.launch t.launch, id)
  | _ => ((s.ctxOf t).bind fun c => c.podBar? id).map fun p => (.pod p.1 p.2, 0)

/-- The key of an instance, which starts at phase 0 with count "all" and no arrivals (R283). -/
def State.withBar (s : State) (o : BarOwner) (sc id : Nat) : Nat × State :=
  match s.bars.find? fun b => b.owner == o && b.scope == sc && b.id == id with
  | some b => (b.key, s)
  | none =>
    let (k, s) := s.newKey
    let b : Bar :=
      { key := k, owner := o, scope := sc, id := id, phase := 0, expected := none, coming := [], arrived := [], fences := [], complete := [],
        results := [], seen := [] }
    (k, { s with bars := s.bars ++ [b] })

/-- Live threads of a team (R283). -/
def Team.liveThreads (t : Team) : List (Nat × Nat × Nat) :=
  t.groups.flatMap fun g => g.threads.map fun x => (t.key, g.gid, x.lane)

/-- The threads that count "all" names; `none` while teams that are not placed yet count, and for a pod barrier (R283). -/
def State.barLive (s : State) (o : BarOwner) : Option (List (Nat × Nat × Nat)) :=
  let teams := fun (p : Team → Bool) => (s.teams.filter p).flatMap Team.liveThreads
  match o with
  | .team k => some (teams fun t => t.key == k)
  | .cluster l n => some (teams fun t => t.launch == l && t.parent.isNone && t.index / s.clusterSize t == n)
  | .die l d => some (teams fun t => t.launch == l && t.parent.isNone && t.st != .saved && dieOf t.core == d)
  | .launch l => match s.launch? l with
    | some x => if x.started < x.nteams then none else some (teams fun t => t.launch == l && t.parent.isNone)
    | none => none
  | .pod _ _ => none

/-! ## Phases (R285 to R290) -/

/-- The phase number that waiters compare with: phases complete but not released do not count (R289, R292). -/
def Bar.released (b : Bar) : Nat := match b.complete with
  | r :: _ => r.phase
  | [] => b.phase

/-- Has the phase a token names completed (R292)? -/
def Bar.tokenDone (b : Bar) (token : Nat) : Bool :=
  let d := (b.released + 65536 - token) % 65536
  1 ≤ d && d ≤ 32767

/-- Release delays after completion, by scope (R289). -/
def releaseDelay (sc : Nat) : Nat := match sc with
  | 0 => 8
  | 1 => 40
  | 2 => 200
  | _ => 600

/-- The linear index of a team, also of one that has retired (R290, R357). -/
def State.teamIndex (s : State) (k : Nat) : Nat := match s.team? k with
  | some t => t.index
  | none => (s.launches.findSome? fun l => (l.gone.find? fun g => g.1 == k).map fun g => g.2).getD 0

/-- Is a team's context DET, also if the team has retired? -/
def State.teamDet (s : State) (k : Nat) : Bool := match s.team? k with
  | some t => s.isDet t
  | none => s.launches.any fun l => (l.gone.any fun g => g.1 == k) && (match s.ctx? l.ctx with
    | some c => c.det
    | none => false)

/-- Are the phases of an instance those of a DET context (R290)? A pod barrier's are, where a context that maps it is one (log entry
82). -/
def State.barDet (s : State) (b : Bar) : Bool := match b.owner with
  | .pod home n => s.ctxs.any fun c => c.det && c.podbar.any fun p => p.2 == (home, n)
  | _ => (b.arrived.getLast?).any fun a => s.teamDet a.1

/-- A thread of another module, as an arrival (R413): told apart by the module and a running number, with its team's linear index and
its group. -/
def remoteThread (module team gid n : Nat) : Nat × Nat × Nat := (2 ^ 64 + module, team * 64 + gid % 64, n)

/-- Team linear index and gid of a counted thread, here or of another module (R290). -/
def State.arrivalPlace (s : State) (a : Nat × Nat × Nat) : Nat × Nat :=
  if a.1 ≥ 2 ^ 64 then (a.2.1 / 64, a.2.1 % 64) else (s.teamIndex a.1, a.2.1)

/-- The elected group of a phase: of its last counted thread, or in a DET context the highest (team index, gid) (R290). -/
def State.elect (s : State) (b : Bar) : Nat × Nat :=
  let best := b.arrived.foldl (fun (m : Option (Nat × Nat × Nat)) a => match m with
    | none => some a
    | some x => if !s.barDet b || threadLe (s.arrivalPlace x) (s.arrivalPlace a) then some a else m) none
  match best with
  | some a => (a.1, (s.arrivalPlace a).2)
  | none => (0, 0)

/-- The lowest live group of a team (R368). -/
def Team.lowestGroup (t : Team) : Option Nat :=
  ((sortBy (fun (a b : Group) => decide (a.gid ≤ b.gid)) (t.groups.filter fun g => !g.threads.isEmpty)).head?).map fun g => g.gid

/-- Close the open phase: it waits for release with its elected group, and the next phase opens (R289). A completed cluster
phase with count "all" covers its members' window accesses (R293); a team phase gives the token to the lowest live group
(R368). `here` tells that the elected group is one of this module's (R290). -/
def State.completePhase (s : State) (b : Bar) (here : Bool := true) : State :=
  let e := if here then s.elect b else (2 ^ 64, 0)
  let due := s.now + releaseDelay b.scope
  let r : Release := { phase := b.phase, team := e.1, gid := e.2, fences := b.fences, due := due }
  let s := s.modBar b.key fun x =>
    { x with phase := (b.phase + 1) % 65536, expected := none, arrived := [], fences := [], complete := x.complete ++ [r] }
  match b.owner with
  | .cluster l n =>
    if b.expected.isSome then s
    else
      let member := fun (t : Team) => t.launch == l && t.parent.isNone && t.index / s.clusterSize t == n
      { s with teams := updIf member (fun (t : Team) => { t with clusterOpen := false }) s.teams }
  | .team k =>
    if b.scope = 0 then s.modTeam k fun t => if t.token.isSome then { t with token := t.lowestGroup, turnOver := false } else t else s
  | _ => s

/-- Complete the open phase if its count is met (R285, R288). The spec says that a phase completes when the number of arrivals
equals n, and not what an `ARRIVEX` does whose n is below the number already counted: the phase completes at once (R287; DESIGN
CHOICE, log entry 89). Phases of a pod barrier whose home is another module complete by its message (R413). -/
def State.checkBar (s : State) (key : Nat) : State :=
  match s.bar? key with
  | none => s
  | some b =>
    let away := match b.owner with
      | .pod home _ => home != s.part.moduleNum
      | _ => false
    let full := match b.expected with
      | some n => n ≤ b.arrived.length
      | none => match s.barLive b.owner with
        | some live => !b.arrived.isEmpty && live.all b.arrived.contains
        | none => false
    if full && !away then s.completePhase b else s

/-- Have all live threads of a group arrived in a phase? -/
def Team.groupIn (t : Team) (arrived : List (Nat × Nat × Nat)) (gid : Nat) : Bool :=
  (t.group? gid).any fun g => g.threads.all fun x => arrived.contains (t.key, gid, x.lane)

/-- The turn of the group that holds the commit token ends with the arrival by which all its live threads have arrived in a phase
(R368). -/
def State.noteTurn (s : State) (key : Nat) (who : Nat × Nat × Nat) : State :=
  match s.team? who.1, s.bar? key with
  | some t, some b =>
    if t.token == some who.2.1 && t.groupIn b.arrived who.2.1 then s.modTeam t.key fun t => { t with turnOver := true } else s
  | _, _ => s

/-- An arrival of one thread, counted in the open phase unless it has arrived in it already; the phase is returned (R286,
R287). An arrival at another module's pod barrier is sent to its home (R413). -/
def State.arrive (s : State) (key : Nat) (who : Nat × Nat × Nat) (count : Option Nat) (fences : List Nat) : State × Option Nat :=
  match s.bar? key with
  | none => (s, none)
  | some b =>
    if b.arrived.contains who then (s, none)
    else
      let expected := match b.expected with
        | some n => some n
        | none => count
      let s := s.modBar key fun x => { x with
        arrived := x.arrived ++ [who], expected := expected, fences := x.fences ++ fences.filter fun k => !x.fences.contains k,
        seen := if x.seen.contains (who.1, b.phase) then x.seen else x.seen ++ [(who.1, b.phase)] }
      let s := s.noteTurn key who
      let s := match b.owner with
        | .pod home n => if home != s.part.moduleNum then (s.emit (.podArrival home n (count.getD 0) (s.teamIndex who.1) who.2.1)).sendFlit home 2 else s
        | _ => s
      (s.checkBar key, some b.phase)

/-- A thread's arrival has been counted in a phase: the squad that waits for that holds the phase (R286). -/
def Team.noteArrival (t : Team) (key gid lane phase : Nat) : Team :=
  let note := fun (q : Squad) => match q.wait with
    | some w =>
      if w.on == WaitOn.arrive key && q.members.contains (gid, lane) then
        { q with wait := some { w with got := w.got ++ [(gid, lane, phase)] } }
      else q
    | none => q
  { t with squads := t.squads.map note }

/-- The same for a checkpoint at which the squad stood at that wait: a squash does not undo the arrival (R226, R286). -/
def Lam.noteArrival (l : Lam) (key gid lane phase : Nat) : Lam :=
  let note := fun (x : Stood) => match x.wait with
    | some w =>
      if w.on == WaitOn.arrive key && w.iss.members.contains (gid, lane) then
        { x with wait := some { w with got := w.got ++ [(gid, lane, phase)] } }
      else x
    | none => x
  { l with stood := l.stood.map note }

/-- An arrival has been counted: its squad and the checkpoints of its team hold the phase (R226, R286). -/
def State.noteArrival (s : State) (key : Nat) (who : Nat × Nat × Nat) (phase : Nat) : State :=
  let s := s.modTeam who.1 fun t => t.noteArrival key who.2.1 who.2.2 phase
  { s with lams := updIf (fun l => l.team == who.1 && !l.stood.isEmpty) (fun l => l.noteArrival key who.2.1 who.2.2 phase) s.lams }

/-- Order of the arrivals of one cycle: ascending (team index, gid, lane) (R286). -/
def State.arrivalLe (s : State) (a b : Arrival) : Bool :=
  let i := s.teamIndex a.who.1
  let j := s.teamIndex b.who.1
  if i = j then threadLe a.who.2 b.who.2 else decide (i < j)

/-- Count arrivals at an instance, in order; those of threads that have arrived in the open phase already stay (R286). -/
def State.countAt (s : State) (key : Nat) : List Arrival → State × List Arrival
  | [] => (s, [])
  | a :: as => match s.arrive key a.who a.count a.fences with
    | (s, none) =>
      let r := s.countAt key as
      (r.1, a :: r.2)
    | (s, some phase) => (s.noteArrival key a.who phase).countAt key as

/-- The same until no arrival can be counted any more: when a phase completes, the rest arrive in the next one (R286). -/
def State.countRounds (s : State) (key : Nat) : Nat → List Arrival → State × List Arrival
  | 0, l => (s, l)
  | n + 1, l => match s.countAt key l with
    | (s, rest) => if rest.isEmpty || rest.length = l.length then (s, rest) else s.countRounds key n rest

/-- The arrivals that have reached the instances by the end of a cycle are counted (R286). -/
def State.countArrivals (s : State) : State :=
  (s.bars.filter fun b => !b.coming.isEmpty).foldl (fun s (b : Bar) =>
    let live := b.coming.filter fun a => (s.team? a.who.1).any fun t => (t.thread? a.who.2.1 a.who.2.2).isSome
    let (s, rest) := s.countRounds b.key live.length (sortBy s.arrivalLe live)
    s.modBar b.key fun x => { x with coming := rest }) s

/-! ## The words of BAR (R292) -/

/-- Identifiers of a scope (R283). -/
def scopeIds (sc : Nat) : Nat := match sc with
  | 0 => 16
  | 1 => 32
  | 2 => 64
  | 3 => 64
  | _ => 16

/-- The arrivals of the word's threads, with the fences placed at them, on their way to an instance (R209, R286). -/
def State.sendArrivals (s : State) (key sc : Nat) (count : Nat → Option Nat) : State :=
  let before := s.ops.map fun o => o.key
  let s := s.fenceOps 2 sc false
  let new := (s.ops.map fun o => o.key).filter fun k => !before.contains k
  let mine := s.members.map fun m => ({ who := (s.cur.team, m.1, m.2), count := count m.1, fences := new } : Arrival)
  s.modBar key fun b => { b with coming := b.coming ++ mine }

/-- The destinations of a BAR word are empty from its issue on (R107, R290). -/
def State.emptyResults (s : State) (d : Nat) : State :=
  if d = 0 then s else s.modTeam s.cur.team fun t => s.curGids.foldl (fun t g => t.markEmpty (.s g d)) t

/-- The threads of a BAR word are released: `FENCE.AR` at the barrier's scope is placed there (R209, R289). -/
def State.released (s : State) (sc : Nat) : State := s.fenceOps 2 sc false

/-- The results a BAR word writes: one scalar per group, as a full/empty producer (R290). -/
def State.barResults (s : State) (d : Nat) (x : Nat → Word) : State :=
  if d = 0 then s
  else s.curGids.foldl (fun s g => s.groupOp g s.delay (.sres g d (x g))) (s.emptyResults d)

/-- The result of a completed phase for a group (R290). -/
def Bar.result (b : Bar) (team gid phase : Nat) : Word :=
  BitVec.ofNat 32 (phase * 65536 + if b.results.contains (phase, team, gid) then 1 else 0)

/-- The later phase in which a group's threads arrived (R286). -/
def laterPhase (got : List (Nat × Nat × Nat)) (gid : Nat) : Nat :=
  match (got.filter fun r => r.1 == gid).getLast? with
  | some r => r.2.2
  | none => 0

/-- `ARRIVE`, `ARRIVEX` and `SYNC` at an instance: the arrivals are counted when the cycle ends, later ones wait under R286, and a
`SYNC` waits until the phase completes. -/
def State.barWord (s : State) (key sc : Nat) (sync : Bool) (count : Nat → Option Nat) (d : Nat) : State :=
  match s.passed with
  | none => ((s.sendArrivals key sc count).emptyResults d).waitOn (.arrive key)
  | some got =>
    let tokens := s.curGids.map fun g => laterPhase got g
    match s.bar? key with
    | none => s
    | some b =>
      let s := s.modTeam s.cur.team fun t =>
        { t with voids := if sc = 2 then t.voids.filter fun v => !(v.1 == b.id && tokens.contains v.2) else t.voids }
      if sync then
        if tokens.all b.tokenDone then (s.released sc).barResults d fun g => b.result s.cur.team g (laterPhase got g)
        else s.waitWith (.phases key tokens true) got
      else s.barResults d fun g => BitVec.ofNat 32 (laterPhase got g * 65536)

/-- What a BAR word meets before it acts: no pod links, a forbidden scope, an unmapped identifier (R284, R312, R331); else
the instance's key, and the groups' chunks end (R221). -/
def State.barBegin (s : State) (sc id : Nat) (k : Nat → State → State) : State :=
  match s.curTeam with
  | none => s
  | some t =>
    if sc = 4 && !s.feature 5 then s.trapAll cIllop 0
    else if sc ≠ 0 && !t.levels.isEmpty then s.failRoutine t.key 11
    else if sc ≠ 0 && t.parent.isSome then s.abortRival t.key 4
    else match s.barOwner t sc id with
      | none => s.curGids.foldl (fun s g => s.fatalWord t g (s.lanesOf g) cWindow 0 []) s
      | some (o, n) =>
        let go := fun (s : State) =>
          let (key, s) := s.withBar o sc n
          k key s
        if s.passed.isSome then go s else s.endingEffect go

/-- ARRIVE (R292). -/
def execArrive (g : BitVec 3) (b d : BitVec 6) (s : State) : Host.Outcome State Fault Refusal :=
  .next (s.barBegin g.toNat b.toNat fun key s => s.barWord key g.toNat false (fun _ => none) d.toNat)

/-- SYNC (R292). -/
def execSync (g : BitVec 3) (b d : BitVec 6) (s : State) : Host.Outcome State Fault Refusal :=
  .next (s.barBegin g.toNat b.toNat fun key s => s.barWord key g.toNat true (fun _ => none) d.toNat)

/-- ARRIVEX: n, as read at issue, is the count; n = 0 or n ≥ 2^31 raises `ILLOP` in the groups that hold it (R106, R287, R292). -/
def execArrivex (g : BitVec 3) (b k d : BitVec 6) (s : State) : Host.Outcome State Fault Refusal :=
  match s.readTeam with
  | none => .next s
  | some t =>
    let n := fun gid => (s.rdS t gid k.toNat).toNat
    let bad := if s.passed.isSome then [] else s.members.filter fun m => n m.1 = 0 || n m.1 ≥ 2 ^ 31
    let s := s.takeTraps (bad.map fun m => (m.1, m.2, cIllop, BitVec.ofNat 64 (n m.1)))
    if s.members.isEmpty then .next s
    else .next (s.barBegin g.toNat b.toNat fun key s => s.barWord key g.toNat false (fun gid => some (n gid)) d.toNat)

/-- WAITB: waits until the phase each group's token, as read at issue, names has completed; a token of a die left behind completes
at once with VOID (R106, R291, R292). -/
def execWaitb (g : BitVec 3) (b k d : BitVec 6) (s : State) : Host.Outcome State Fault Refusal :=
  match s.readTeam with
  | none => .next s
  | some t => .next (s.barBegin g.toNat b.toNat fun key s =>
      match s.bar? key with
      | none => s
      | some bar =>
        let token := fun gid => match s.passed with
          | some got => laterPhase got gid
          | none => (s.rdS t gid k.toNat).toNat / 65536
        let void := fun gid => g = 2 && (match s.curTeam with
          | some u => u.voids.contains (bar.id, token gid)
          | none => false)
        let open_ := (s.curGids.filter fun gid => !void gid && !bar.tokenDone (token gid)).map token
        if open_.isEmpty then (s.released g.toNat).barResults d.toNat fun gid =>
          if void gid then BitVec.ofNat 32 (token gid * 65536 + 2) else bar.result s.cur.team gid (token gid)
        else (s.emptyResults d.toNat).waitWith (.phases key open_ false) (s.members.map fun m => (m.1, m.2, token m.1)))

/-! ## Release and messages -/

/-- BARRIER_RELEASE: the oldest completed phase is released once every arrival's fence has completed; its waiters can go on,
and modules with an arrival at a pod barrier hosted here are told (R289, R413). -/
def execBarrierRelease (s : State) : Host.Outcome State Fault Refusal :=
  match s.arg with
  | [key] => match s.bar? key with
    | none => .next s
    | some b => match b.complete with
      | [] => .next s
      | r :: rest =>
        if s.now < r.due || r.fences.any (fun k => s.ops.any fun o => o.key == k) then .next s
        else
          let s := s.modBar key fun x => { x with
            complete := rest,
            results := (x.results.filter fun (y : Nat × Nat × Nat) => y.1 != r.phase) ++ [(r.phase, r.team, r.gid)] }
          match b.owner with
          | .pod home n => 
            let module := if r.team ≥ 2 ^ 64 then r.team - 2 ^ 64 else s.part.moduleNum
            if home = s.part.moduleNum then .next (s.emit (.podCompletion home n module)) else .next s
          | _ => .next s
  | _ => .next s

/-- POD_BARRIER_ARRIVAL: the home counts an arrival of another module, with its count if it came from an `ARRIVEX`, and the linear
index and group of its thread (R287, R290, R413). -/
def execPodBarrierArrival (s : State) : Host.Outcome State Fault Refusal :=
  match s.arg with
  | [ctx, id, module, count, team, gid] => match (s.ctx? ctx).bind fun c => c.podBar? id with
    | none => .next s
    | some (home, n) =>
      if home ≠ s.part.moduleNum then .next s
      else
        let (key, s) := s.withBar (.pod home n) 4 0
        let (k, s) := s.newKey
        .next (s.arrive key (remoteThread module team gid k) (if count = 0 then none else some count) []).1
  | _ => .next s

/-- POD_BARRIER_COMPLETION: the home's message completes the open phase here, and says whether the elected group is one of this
module's (R290, R413). -/
def execPodBarrierCompletion (s : State) : Host.Outcome State Fault Refusal :=
  match s.arg with
  | [ctx, id, elected] => match (s.ctx? ctx).bind fun c => c.podBar? id with
    | none => .next s
    | some (home, n) =>
      if home = s.part.moduleNum then .next s
      else
        let (key, s) := s.withBar (.pod home n) 4 0
        match s.bar? key with
        | some b => .next (if b.arrived.isEmpty then s else s.completePhase b (elected == 1))
        | none => .next s
  | _ => .next s

end Sys2Proof.Machine
end

