-- ==== Sys2Proof/Machine/Det.lean ====
section
/-! DEFINITION. The commit token of a team and the words of DET (R368, R369). -/

namespace Sys2Proof.Machine

/-- Does every live thread of a group wait at a barrier (R368)? An arrival that is counted in this cycle does not wait (R286). -/
def Team.groupAtBarrier (t : Team) (now : Nat) (g : Group) : Bool :=
  let waiting := (t.squads.filter fun q => match q.wait with
    | some w => match w.on with
      | .arrive _ => w.since < now
      | .phases _ _ _ => true
      | _ => false
    | none => false).flatMap fun q => q.members
  g.threads.all fun x => waiting.contains (g.gid, x.lane)

/-- May the token go to a group: it is live, has not executed `TKDONE`, and not all its threads wait at a barrier (R368)? -/
def Team.qualifies (t : Team) (now : Nat) (g : Group) : Bool := !g.threads.isEmpty && !g.tkdone && !t.groupAtBarrier now g

/-- Groups the token may go to, ascending. -/
def Team.qualified (t : Team) (now : Nat) : List Nat :=
  sortBy (fun (a b : Nat) => decide (a ≤ b)) ((t.groups.filter (t.qualifies now)).map fun g => g.gid)

/-- The token after a group's turn: the next qualifying group above it, else the lowest; none while none qualifies (R368). -/
def Team.nextToken (t : Team) (now g : Nat) : Team :=
  let q := (t.qualified now).filter fun x => x != g
  let next := match q.find? fun x => x > g with
    | some x => some x
    | none => match q.head? with
      | some x => some x
      | none => if (t.qualified now).contains g then some g else none
  { t with token := next, turnOver := false }

/-- Has every live thread of the group that holds a team's token arrived in the open phase of some barrier (R368)? -/
def State.holderArrived (s : State) (team : Nat) : Bool :=
  (s.team? team).any fun t => t.token.any fun g => s.bars.any fun b => t.groupIn b.arrived g

/-- The token moves when its holder's turn has ended, and to the first group that qualifies when it waits (R368). -/
def State.moveToken (s : State) (team : Nat) : State :=
  match s.team? team with
  | none => s
  | some t =>
    if !s.isDet t || t.groups.isEmpty then s
    else match t.token with
      | none => s.modTeam team fun t => { t with token := (t.qualified s.now).head? }
      | some gid => match t.group? gid with
        | none => s.modTeam team fun t => t.nextToken s.now gid
        | some g =>
          if g.threads.isEmpty || g.tkdone || t.turnOver then s.modTeam team fun t => t.nextToken s.now gid else s

/-- When every live group of a team is done, the team is DONE-ordering (R367, R369). -/
def State.orderDone (s : State) (team : Nat) : State :=
  match s.team? team with
  | none => s
  | some t =>
    if t.parent.isSome || (t.groups.any fun g => !g.threads.isEmpty && !g.tkdone) then s
    else
      let note := fun (l : Launch) => { l with ordered := if l.ordered.contains t.index then l.ordered else l.ordered ++ [t.index] }
      (s.modTeam team fun t => { t with doneOrdering := true }).modLaunch t.launch note

/-- Perform a DET word in each group when the group holds the token; the groups that do not wait (R368, R369). -/
def State.tokenWord (s : State) (pass : Bool) : Nat → List Nat → State
  | 0, _ => s
  | fuel + 1, left =>
    match left with
    | [] => s
    | _ => match s.curTeam with
      | none => s
      | some t => match t.token with
        | none => s.waitWith .token ((s.members.filter fun m => !left.contains m.1).map fun m => (m.1, m.2, 1))
        | some g =>
          if left.contains g then
            let s := if pass then s.modTeam t.key fun t => t.nextToken s.now g else s
            s.tokenWord pass fuel (left.filter fun x => x != g)
          else s.waitWith .token ((s.members.filter fun m => !left.contains m.1).map fun m => (m.1, m.2, 1))

/-- A `TKWAIT` or `TKPASS` word; without DET it completes at issue (R369). -/
def wordToken (pass : Bool) (s : State) : State :=
  match s.curTeam with
  | none => s
  | some t =>
    if !s.isDet t then s
    else
      let done := (s.passed.getD []).map fun r => r.1
      let left := s.curGids.filter fun g => !done.contains g
      s.tokenWord pass (left.length + 1) left

/-- TKWAIT (R369). -/
def execTkwait (s : State) : Host.Outcome State Fault Refusal := .next (wordToken false s)

/-- TKPASS (R222, R369). -/
def execTkpass (s : State) : Host.Outcome State Fault Refusal :=
  match s.curTeam with
  | none => .next s
  | some t => .next (if s.isDet t then s.irrevocable fun s => wordToken true s else s)

/-- TKDONE (R222, R369). -/
def execTkdone (s : State) : Host.Outcome State Fault Refusal :=
  match s.curTeam with
  | none => .next s
  | some t =>
    if !s.isDet t then .next s
    else .next (s.irrevocable fun s =>
      let s := s.curGids.foldl (fun s gid =>
        let mark : Group → Group := fun g => { g with tkdone := true }
        let s := s.modGroup t.key gid mark
        s.modTeam t.key fun u => if u.token == some gid then u.nextToken s.now gid else u) s
      s.orderDone t.key)

end Sys2Proof.Machine
end

