-- ==== Sys2Proof/Machine/Life.lean ====
section
/-! DEFINITION. The life of teams: threads that end (R156), teams that free their resources (R144), cores and what they hold
(R12 to R14, R459), and saving and restoring a team (R400 to R403). -/

namespace Sys2Proof.Machine

/-! ## Threads that end -/

/-- Bits of ended lanes leave every mask, in the cycle of the word, so in the values before a pending write as well (R156). The
spec does not say whether they leave a whole-mask write, too, that issued before the `EXIT` and lands after it: they do (DESIGN
CHOICE, log entry 84). -/
def Team.clearMasks (t : Team) (gid : Nat) (lanes : DWord) : Team :=
  let keep := fun (w : Window) => match w.reg with
    | .m g _ => if g == gid then { w with old := w.old &&& ~~~lanes } else w
    | _ => w
  let t := { t with windows := t.windows.map keep }
  t.modGroup gid fun g => { g with m := (g.m.map fun p => (p.1, p.2 &&& ~~~lanes)).filter fun p => p.2 != 0 }

/-- Is a window one of a thread's own registers? -/
def Window.ofThread (w : Window) (gid lane : Nat) : Bool := match w.reg with
  | .v g l _ => g == gid && l == lane
  | .p g l _ => g == gid && l == lane
  | .t g l _ => g == gid && l == lane
  | _ => false

/-- Threads end: they leave masks, squads, counts and queues; a group without threads is DRAINING (R143, R156, R252, R288). Where
the threads that are left of the group with the commit token have all arrived in a phase, its turn ends (R368). -/
def State.endThreads (s : State) (team : Nat) (ms : List (Nat × Nat)) : State :=
  let before := s.holderArrived team
  let s := (uniq (ms.map (·.1))).foldl (fun s g =>
    let lanes := (ms.filter fun m => m.1 == g).map (·.2)
    let cut : Group → Group := fun x =>
      let ths := x.threads.filter fun t => !lanes.contains t.lane
      Group.freeEntries { x with threads := ths, st := if ths.isEmpty then .draining else x.st }
    let gone := fun (w : Window) => lanes.any fun l => w.ofThread g l
    s.modTeam team fun t =>
      let t := (t.clearMasks g (laneMask lanes)).modGroup g cut
      { t.leaveSquads ms with windows := t.windows.filter fun w => !gone w }) s
  let s := if !before && s.holderArrived team then s.modTeam team fun t => { t with turnOver := true } else s
  let s := s.bars.foldl (fun s b => if b.arrived.isEmpty then s else s.checkBar b.key) s
  s.closeRounds team

/-! ## Cores (R12 to R14, R459) -/

/-- Resources a team takes on a core: threads, register bytes, slots, tiles, array bytes. -/
def State.needs (s : State) (t : Team) : List Nat := match s.imageOf t with
  | some i => [s.tpt t, s.tpt t * 4 * i.vregs, i.opslots, i.acc, i.scratch + i.rbjournal]
  | none => [s.tpt t, 0, 0, 0, 0]

/-- Teams resident on a core. -/
def State.resident (s : State) (core : Nat) : List Team :=
  s.teams.filter fun t => t.core == core && (t.st == .running || t.st == .stopping)

/-- Can a core hold these needs beside its resident teams (R362, R459)? -/
def State.coreFits (s : State) (core : Nat) (need : List Nat) : Bool :=
  let used := (s.resident core).foldl (fun acc t => (acc.zip (s.needs t)).map fun p => p.1 + p.2) [0, 0, 0, 0, 0]
  ((used.zip need).zip (coreHolds (kindOf core))).all fun p => p.1.1 + p.1.2 ≤ p.2

/-- Cores of a context of one kind: those of the enabled quads of its mask that no reclaim takes away (R388, R386). -/
def State.contextCores (s : State) (c : Context) (k : Kind) : List Nat :=
  (List.range 448).filter fun core => kindOf core == k && quadEnabled s.part.gradeA (quadOf core) && c.quads.testBit (quadOf core)
    && !(s.reclaims.any fun r => r.ctx == c.num && r.cores.contains core)

/-- Refusal codes 1 to 4 of R342 for a team on a kind of core. -/
def State.kindRefusal (s : State) (t : Team) (k : Kind) : Option Nat :=
  match s.imageOf t with
  | none => some 1
  | some i =>
    let hold := coreHolds k
    lowestCode [(s.gptOf t > coreGroups k || s.tpt t > hold.getD 0 0, 1), (s.tpt t * 4 * i.vregs > hold.getD 1 0, 2),
      (i.opslots > hold.getD 2 0 || i.acc > hold.getD 3 0, 3), (i.scratch + i.rbjournal > hold.getD 4 0, 4)]

/-- A free core of a kind for a team, its own die preferred (R343). Of several the spec does not say which is taken: the one with
the lowest number (DESIGN CHOICE, log entry 91). -/
def State.coreFor (s : State) (t : Team) (k : Kind) : Option Nat :=
  match s.ctxOf t with
  | none => none
  | some c =>
    let ok := (s.contextCores c k).filter fun core => s.coreFits core (s.needs t)
    match ok.find? fun core => dieOf core == dieOf t.core with
    | some x => some x
    | none => ok.head?

/-! ## Saving a team (R400, R401) -/

/-- Operations a save waits for: every outstanding word completes, but a delivery that waits is saved as it is (R53, R374, R401). -/
def Op.mustEnd (o : Op) : Bool := match o.what with
  | .klaunch _ _ _ _ => false
  | .engine _ _ _ _ fault => fault.isNone
  | _ => true

/-- Does a stopping team still finish words it has issued: those whose waits have ended (R143, R400)? -/
def State.finishes (s : State) (t : Team) : Bool :=
  t.st == .stopping && (match s.ctxOf t with
    | some c => c.st == .running || c.st == .preempting
    | none => false) && (match t.levels with
    | l :: _ => l.st == .running
    | [] => true)

/-- Is a COPY stalled on a fault, its own or one of a pod-window request (R245, R255)? -/
def State.copyStalled (s : State) (t : Team) (c : Copy) : Bool :=
  !c.faults.isEmpty || s.ops.any fun o => o.team == t.key && (match o.what with
    | .engine own _ _ _ fault => own == .copy c.h c.key && fault.isSome
    | _ => false)

/-- Do the conditions of R401 hold: every operation, COPY, matrix operation and commit of the team is complete, with its writes
at the device stage? -/
def State.saveReady (s : State) (t : Team) : Bool :=
  !(s.ops.any fun o => o.team == t.key && o.mustEnd) && (t.copies.all fun c => s.copyStalled t c) && t.mops.isEmpty
    && !(s.lams.any fun l => l.owner == .chunk && l.team == t.key && (!l.lines.isEmpty || l.squashable))
    && !(s.flights.any fun f => f.team == t.key) && !(s.held.any fun h => h.dirty && h.team == t.key)
    && !(s.finishes t && t.squads.any fun q => q.wait.isNone && q.resumes)
    && !(t.windows.any fun w => w.ready.isSome && w.pending s.now)

/-- Withdraw a team's arrivals from the open phases of its die's barriers: the tokens of those phases are void; waits there are
dropped, so that the words issue again (R291). -/
def State.leaveDie (s : State) (t : Team) : State :=
  let mine := fun (b : Bar) => b.owner == .die t.launch (dieOf t.core)
  let keys := (s.bars.filter mine).map fun b => b.key
  let cut := fun (b : Bar) => { b with
    coming := b.coming.filter (fun a => a.who.1 != t.key), arrived := b.arrived.filter fun (a : Nat × Nat × Nat) => a.1 != t.key }
  let gone := (s.bars.filter fun b => mine b && b.arrived.any fun a => a.1 == t.key).map fun b => (b.id, b.phase)
  let s := { s with bars := updIf mine cut s.bars }
  let unwait : Squad → Squad := fun q => match q.wait with
    | some w => match w.on with
      | .arrive k => if keys.contains k then { q with wait := none, pass := [], since := [] } else q
      | .phases k _ sync => if keys.contains k && sync then { q with wait := none, pass := [], since := [] } else q
      | _ => q
    | none => q
  s.modTeam t.key fun t => { t with squads := t.squads.map unwait, voids := uniq (t.voids ++ gone) }

/-- A save writes the private bytes that a core holds for a team back to memory, where the team's next core reads them (R179); inside
a block or a rival world they stay the layer's own, as they are saved with it (R318, R323). -/
def State.writePrivate (s : State) (t : Team) : State :=
  if t.parent.isSome || !t.levels.isEmpty || t.fork.isSome then s
  else
    let s : State := { s with mem := t.priv.foldl (fun m p => memPut (privPa p.1) p.2 m) s.mem }
    s.modTeam t.key fun u => { u with priv := [] }

/-- Save a team: squads that wait are saved as they are; the other squads end, chains stop at their entries, flags are idle and
registers full (R53, R143, R255, R400, R401). The cycles of open levels stop (R311, R318), and the team's reservation on its core
ends. -/
def State.saveTeam (s : State) (t : Team) : State :=
  let s := (s.leaveDie t).vacate t.key
  let kept := fun (q : Squad) => q.wait.isSome
  let stop : Chain → Chain := fun c => match c.st with
    | .stopping => { c with toks := [] }
    | _ => { c with st := .saved, toks := [] }
  let idle : Group → Group := fun g => { g with flags := [] }
  let hold : Level → Level := fun l => { l with start := s.now - l.start }
  let s := s.modTeam t.key fun u => { u with
    st := .saved, squads := u.squads.filter kept, trays := [], windows := u.windows.filter fun w => w.ready.isSome,
    chains := u.chains.map stop, groups := u.groups.map idle,
    levels := u.levels.map hold, migr := u.migr.map fun (m : Migr) => { m with since := s.now - m.since } }
  let mine := fun (l : Lam) => l.owner == LamOwner.chunk && l.team == t.key
  let stalled := fun (o : Op) => o.team == t.key && (match o.what with
    | .engine _ _ _ _ fault => fault.isSome
    | _ => false)
  let s := s.writePrivate t
  let s : State := { s with
    run := s.run.filter (fun r => r.1 != t.key), toks := s.toks.filter (fun (k : Tok) => k.team != t.key),
    ops := s.ops.filter (fun o => !stalled o), lams := s.lams.filter (fun l => !mine l) }
  s.bars.foldl (fun (s : State) (b : Bar) => if b.arrived.isEmpty then s else s.checkBar b.key) s

/-- The cycles since which squads wait, turned into the cycles they have waited, and back: while a rival waits for its turn its
watchdog times stand still (R294, R328). -/
def Team.holdWaits (t : Team) (now : Nat) : Team :=
  { t with squads := t.squads.map fun q =>
      { q with wait := q.wait.map (fun w => { w with since := now - w.since }), popWait := q.popWait.map (fun n => now - n),
               since := q.since.map fun x => (x.1, now - x.2) } }

/-- Threads of a team that are in no squad and may run. -/
def Team.loose (t : Team) : List (Nat × Nat) :=
  t.groups.flatMap fun g => (g.threads.filter fun x => x.park.isNone && x.trap.isNone
    && !(t.squads.any fun q => q.members.contains (g.gid, x.lane))).map fun x => (g.gid, x.lane)

/-- Restore a team on a core: its fetch state and non-G translations are dropped there, chains run on and a COPY that was stalled on
a fault runs again (R255), waiting squads wait on, every other thread is filed (R143, R403). Tokens of a die left behind, and of
arrivals that the save has withdrawn, are void, and a `WAITB` that waits for one goes on (R291). -/
def State.restoreTeam (s : State) (t : Team) (core : Nat) : State :=
  let moved := dieOf core != dieOf t.core
  let voids := (s.bars.filter fun b => b.owner == .die t.launch (dieOf t.core)).flatMap fun b =>
    (b.seen.filter fun x => x.1 == t.key).map fun x => (b.id, x.2)
  let lost := fun (q : Squad) => q.wait.bind fun w => match w.on with
    | .phases k tokens false => (s.bars.find? fun b => b.key == k && b.owner == .die t.launch (dieOf t.core)).map fun b =>
        (w, tokens.map fun x => (b.id, x))
    | _ => none
  let waited := (t.squads.filterMap lost).flatMap (·.2)
  let goOn : Squad → Squad := fun q => match lost q with
    | some (w, ts) => if moved || ts.any t.voids.contains then q.grant w.got else q
    | none => q
  let go : Chain → Chain := fun c => if c.st == .saved then { c with st := .running, due := s.now } else c
  let again : Copy → Copy := fun c => { c with faults := [], due := s.now, stage := 0, got := [] }
  let resume : Level → Level := fun l => { l with start := s.now - l.start }
  let s : State := { s with
    icache := s.icache.filter (fun f => !(f.core == core && f.ctx == t.ctx)),
    tlb := s.tlb.filter (fun x => !(x.unit == TlbUnit.core core && !(x.ctx == t.ctx && x.leaf.getLsbD 10))) }
  let s := s.modTeam t.key fun u => { u with
    st := .running, core := core, kind := kindOf core, placedAt := s.now, heat := none, chains := u.chains.map go,
    copies := u.copies.map again, levels := u.levels.map resume, migr := u.migr.map (fun (m : Migr) => { m with since := s.now - m.since }),
    squads := u.squads.map goOn, voids := if moved then uniq (u.voids ++ voids ++ waited) else u.voids }
  match s.team? t.key with
  | none => s
  | some u =>
    let s : State := { s with run := s.run ++ u.squads.map fun q => (u.key, q.key) }
    (s.occupy u.key false).refile u.key (sortBy threadLe u.loose)

/-! ## Freeing a team (R144) -/

/-- Drop a team with what belongs to it alone: its reservation, barrier instances, laminae, saved states, operations. -/
def State.dropTeam (s : State) (key : Nat) : State :=
  let s := s.vacate key
  let snapKeys := match s.team? key with
    | some t => t.levels.map (fun (l : Level) => l.snap) ++ (match t.fork with
      | some f => [f.snap]
      | none => [])
    | none => []
  { s with
    teams := s.teams.filter (fun t => t.key != key), bars := s.bars.filter (fun b => b.owner != .team key),
    snaps := s.snaps.filter (fun x => !snapKeys.contains x.key), run := s.run.filter (fun r => r.1 != key),
    ops := s.ops.filter (fun o => o.team != key), toks := s.toks.filter (fun k => k.team != key),
    lams := s.lams.filter (fun l => !(l.team == key && !(l.owner == .chunk && l.st == .requested))) }

/-- What stays of a team that has retired with memory effects, staged writes or launch packets still to come: it holds no core
and no register (R144, R367, R374). -/
def Team.shell (t : Team) : Team :=
  { t with st := .saved, groups := [], squads := [], trays := [], windows := [], scratch := [], priv := [], slots := [], accs := [],
           convs := [], levels := [], migr := none, fork := none, conv := none, token := none, doneOrdering := true }

/-- Has a team operations whose memory effects, or launch packets, are still to come, or the fence of an arrival that a barrier's
release waits for (R144, R289, R374)? -/
def State.delivering (s : State) (key : Nat) : Bool := s.ops.any fun o => o.team == key && (match o.what with
  | .fence _ _ _ _ _ => s.bars.any fun b => b.fences.contains o.key || b.complete.any fun r => r.fences.contains o.key
  | .klaunch _ _ _ _ => true
  | .store _ _ => true
  | .atomic _ _ _ _ _ => true
  | .icinv _ _ _ _ _ => true
  | .remote _ _ _ _ => true
  | .engine _ _ _ _ _ => true
  | _ => false)

/-- Count a team as retired in its launch, and as DONE-ordering (R357, R367). -/
def State.noteRetired (s : State) (t : Team) : State :=
  s.modLaunch t.launch fun (l : Launch) =>
    { l with retired := if l.retired.contains t.index then l.retired else l.retired ++ [t.index],
             ordered := if l.ordered.contains t.index then l.ordered else l.ordered ++ [t.index],
             gone := if l.gone.any (fun g => g.1 == t.key) then l.gone else l.gone ++ [(t.key, t.index)] }

/-- A team whose last group is RETIRED and whose chain handles are all FREE frees its resources: it counts as retired in its
launch, and is DONE-ordering (R144, R357, R367). -/
def State.reapTeam (s : State) (key : Nat) : State :=
  match s.team? key with
  | none => s
  | some t =>
    if !t.groups.isEmpty || !t.chains.isEmpty || !t.copies.isEmpty || !t.mops.isEmpty || t.parent.isSome then s
    else if t.staged.isEmpty && !s.delivering key then (s.noteRetired t).dropTeam key
    else
      let s := (s.noteRetired t).vacate key
      let s : State := { s with
        bars := s.bars.filter (fun (b : Bar) => b.owner != .team key), run := s.run.filter (fun r => r.1 != key),
        lams := s.lams.filter (fun l => !(l.team == key && !(l.owner == .chunk && l.st == .requested))) }
      s.modTeam key Team.shell

/-! ## Team collectives (R304, R323, R325) -/

/-- Have all live threads of a team, at least one, arrived at a latch? -/
def Team.latched (t : Team) (l : Latch) : Bool :=
  (t.groups.any fun g => !g.threads.isEmpty) && t.groups.all fun g => g.threads.all fun x => l.arrived.contains (g.gid, x.lane)

/-- A latch with the word at issue's threads arrived; the first arrival latches word, literal, value and destination. -/
def State.latchWith (s : State) (l : Option Latch) (val : Word) (d : Nat) : Latch :=
  let base := l.getD { word := s.cur.word, lit := s.cur.lit, val := val, d := d, arrived := [] }
  { base with arrived := uniq (base.arrived ++ s.members) }

/-- Does the word at issue differ from the latched one (R304)? The literal counts for `ENSURE` only. -/
def State.latchDiffers (s : State) (l : Option Latch) (lit : Bool) : Option Word :=
  match l with
  | some x => if x.word != s.cur.word || (lit && x.lit != s.cur.lit) then some x.word else none
  | none => none

end Sys2Proof.Machine
end

