-- ==== Sys2Proof/Machine/Rblock.lean ====
section
/-! DEFINITION. Recovery blocks and conversations: the words of RB, verdicts, commits, failures and restores of block levels,
and the outbox (R297 to R318). -/

namespace Sys2Proof.Machine

/-! ## Where a block's parts stand (R300, R301) -/

/-- The PC of a pair that the running encoding uses. -/
def pickPc (k : Kind) (p : DWord × DWord) : DWord := match k with
  | .dcore => p.1
  | .lcore => p.2

/-- The block entry of an `ENSURE`, named by its PC in either encoding (R300). -/
def Image.block? (i : Image) (pc : DWord) : Option Block := i.blocks.find? fun b => b.dpc == pc || b.lpc == pc

/-- The block entry of a level. -/
def State.blockOf (s : State) (t : Team) (l : Level) : Option Block := (s.imageOf t).bind fun i => i.block? l.ensure

/-- PC of the `ENSURE` of a level in the team's running encoding. -/
def State.ensurePc (s : State) (t : Team) (l : Level) : DWord := match s.blockOf t l with
  | some b => pickPc t.kind (b.dpc, b.lpc)
  | none => l.ensure

/-- PC of routine k's end word (R300). -/
def State.endPc (s : State) (t : Team) (l : Level) (k : Nat) : Option DWord :=
  ((s.blockOf t l).bind fun b => b.ends[k]?).map (pickPc t.kind)

/-- Routines of a level (R300). -/
def State.routines (s : State) (t : Team) (l : Level) : Nat := match s.blockOf t l with
  | some b => b.ends.length
  | none => 0

/-- A word of an image by its PC: the words of a section stand in order, four slots of a packet being its header word and
three words. -/
def Image.wordAt (i : Image) (k : Kind) (pc : DWord) : Word := match k with
  | .dcore => i.dwords.getD ((pc - i.dbase).toNat / 4) 0
  | .lcore => i.lwords.getD ((pc - i.lbase).toNat / 4) 0

/-- First word of a level's acceptance test: the `ENSURE`'s PC plus its literal, each in the running encoding (R303). -/
def State.testPc (s : State) (t : Team) (l : Level) : DWord :=
  let pc := s.ensurePc t l
  let lit := if pc = l.ensure then l.lit else match s.imageOf t with
    | some i => i.wordAt t.kind (nextSlot t.kind pc)
    | none => l.lit
  pc + lit.signExtend 64

/-- Start of routine k (R301). -/
def State.startPc (s : State) (t : Team) (l : Level) (k : Nat) : DWord :=
  match k with
  | 0 => nextSlot t.kind (nextSlot t.kind (s.ensurePc t l))
  | j + 1 => match s.endPc t l j with
    | none => s.ensurePc t l
    | some e => match t.kind with
      | .dcore => BitVec.ofNat 64 (e.toNat / 16 * 16 + 20)
      | .lcore => e + 4

/-! ## Putting a team back (R307, R310, R325) -/

/-- The logged registers of a thread as they were (R307). -/
def Thread.backTo (t o : Thread) : Thread :=
  { t with v := o.v, p := o.p, depth := o.depth, unsure := o.unsure, stack := o.stack, draw := o.draw, rsp := o.rsp, fpctl := o.fpctl,
           fpflags := o.fpflags, epcd := o.epcd, epcl := o.epcl, cause := o.cause, tinst := o.tinst, tval := o.tval,
           tframe := o.tframe }

/-- The registers, queues and read positions of a group as they were; lanes that have exited since stay out of its masks
(R156, R307, R310). -/
def Group.backTo (g o : Group) : Group :=
  let gone := laneMask ((o.threads.filter fun x => (g.thread? x.lane).isNone).map fun x => x.lane)
  { g with s := o.s, q := o.q, m := (o.m.map fun p => (p.1, p.2 &&& ~~~gone)).filter (fun p => p.2 != 0), tvec := o.tvec,
           queue := o.queue, pushed := o.pushed, popped := o.popped,
           threads := g.threads.map fun x => match o.thread? x.lane with
             | some y => x.backTo y
             | none => x }

/-- A convergence register as it was; a round that has opened since is discarded, one that has issued since stays issued
(R310). -/
def Conv.backTo (c o : Conv) : Conv :=
  let keep := match c.round, o.round with
    | some r, some r' => if r.key = r'.key then some { r' with toks := [] } else none
    | _, _ => none
  { c with mask := o.mask, round := keep }

/-- Registers, tags, queues, convergence masks of a team as they were; every register is full (R310, R325). -/
def Team.backTo (t o : Team) : Team :=
  { t with tags := o.tags, tagerr := o.tagerr, windows := [],
           groups := t.groups.map (fun g => match o.group? g.gid with
             | some x => g.backTo x
             | none => g),
           convs := t.convs.map (fun c => match o.conv? c.n with
             | some x => c.backTo x
             | none => c) }

/-- Outstanding words of a team end without a result: deliveries of launch packets stay (R310, R325). -/
def State.cancelTeam (s : State) (team : Nat) : State :=
  let keep := fun (o : Op) => o.team != team || (match o.what with
    | .klaunch _ _ _ _ => true
    | _ => false)
  { s with ops := s.ops.filter keep, toks := s.toks.filter (fun (k : Tok) => k.team != team) }

/-- A team's own barrier instances as they were (R310, R325). -/
def State.barsBack (s : State) (team : Nat) (bars : List Bar) : State :=
  { s with bars := s.bars.filter (fun (b : Bar) => b.owner != BarOwner.team team) ++ bars }

/-- The barrier instances of a team alone. -/
def State.teamBars (s : State) (team : Nat) : List Bar := s.bars.filter fun b => b.owner == BarOwner.team team

/-! ## The outbox (R315, R329) -/

/-- A pod-window request of a held-back operation; with every route DOWN it fails with REASON 3 (R412). -/
def State.podOut (s : State) (t : Team) (e : OutEntry) (va width : Nat) (act : RemoteAct) : State :=
  match s.ctxOf t with
  | none => s
  | some c =>
    if s.podDown c (bits va 41 34) then
      let r := s.teamRecord t cWindow e.gid (laneMask [e.lane]) e.word.toNat e.pcs (BitVec.ofNat 64 va)
      s.putRecords t.ctx [({ r with fatal := true, extra := extra458 3 0 0 0 3 0 }, none)]
    else
      let s := s.newOp t.key [] 0 (.remote [] va width act)
      s.sendPod c (s.keys - 1) va width act

/-- Perform one entry, as its issuing thread's operation (R315, R329). -/
def State.performOut (s : State) (t : Team) (e : OutEntry) : State :=
  let pc := match t.kind with
    | .dcore => e.pcs.1
    | .lcore => e.pcs.2
  let s : State := { s with cur := { Issue.none with team := t.key, members := [(e.gid, e.lane)], word := e.word, pc := pc, first := pc } }
  match e.op with
  | .klaunch q p => s.newOp t.key [] 0 (.klaunch q p none e.pcs)
  | .store va none n x => s.podOut t e va n (.store x)
  | .red va none op x => s.podOut t e va (atomicWidth op) (.atom op false false [(x, 0)])
  | .store va (some _) _ _ | .red va (some _) _ _ =>
    (e.op.bytes s.homeValue).foldl (fun s p => s.externalByte t.core p.1 p.2 (grainOf t.ctx va 32)) s

/-- Is the operation of the entry performed last still under way? -/
def State.sendingOn (s : State) (t : Team) : Bool := t.sending.any fun k => s.ops.any fun o => o.key == k

/-- Perform entries in their order, each once the operation of the one before has ended (R302, R315, R329, R367): the entries left. A
launch packet of an outbox is staged where its team's turn has not begun, as one of its `KLAUNCH` words is (R364). -/
def State.sendEntries (s : State) (team : Nat) (stages : Bool) : List OutEntry → List OutEntry × State
  | [] => ([], s)
  | e :: es => match s.team? team with
    | none => ([], s)
    | some t =>
      if s.sendingOn t then (e :: es, s)
      else
        let packet : Bool := match e.op with
          | .klaunch _ _ => true
          | _ => false
        if stages && packet && s.isDet t && !t.turn then
          (s.modTeam team fun t => { t with staged := t.staged ++ [{ e with chunk := none }] }).sendEntries team stages es
        else
          let k := s.keys
          let s := s.performOut t e
          (s.modTeam team fun t => { t with sending := (s.ops.find? fun o => o.key ≥ k).map fun o => o.key }).sendEntries team stages es

/-- Commits that a `FENCE.AR` of a team at `.dev` would wait for, made before a number was given out: those of its die, and those its
threads have observed (R208, R210, R309, R325). -/
def State.unsettled (s : State) (t : Team) (mark : Nat) : Bool :=
  s.flights.any fun f => f.key < mark && (f.team == t.key || f.die == dieOf t.core || t.seen.any fun x => x.2.2 == f.lam)

/-- The DS bytes of a lamina that goes into memory in a DET context are staged as writes of its team, while the team's turn has not
begun (R332, R367; log entry 78). -/
def State.stageView (s : State) (t : Team) (view : Nat) : State :=
  if !s.isDet t || t.turn || t.parent.isSome then s
  else match s.lam? view with
    | none => s
    | some l =>
      let ds := l.lines.filter fun x => x.ds
      let rest := l.lines.filter fun x => !x.ds
      let entries := ds.map fun x =>
        ({ gid := 0, lane := 0, op := .store (byteName x.grain x.pa % 2 ^ 64) (some x.pa) 1 x.byte.toNat, word := 0, pcs := (0, 0),
           chunk := none } : OutEntry)
      let covers := fun (g : Nat) => rest.any fun x => x.grain == g
      let s := s.modLam view fun x => { x with lines := rest, wsig := x.wsig.filter covers }
      s.modTeam t.key fun t => { t with staged := t.staged ++ entries }

/-! ## Verdicts (R305, R313, R317) -/

/-- Threads of a team in squads with a wait of some kind. -/
def Team.waiters (t : Team) (p : WaitOn → Bool) : List (Nat × Nat) :=
  (t.squads.filter fun q => match q.wait with
    | some w => p w.on
    | none => false).flatMap fun q => q.members

/-- Do all live threads of a team, at least one, wait so? -/
def Team.allWait (t : Team) (p : WaitOn → Bool) : Bool :=
  let ws := t.waiters p
  (t.groups.any fun g => !g.threads.isEmpty) && t.groups.all fun g => g.threads.all fun x => ws.contains (g.gid, x.lane)

/-- Squads that wait so go on. -/
def Team.release (t : Team) (p : WaitOn → Bool) : Team :=
  { t with squads := t.squads.map fun q => match q.wait with
      | some w => if p w.on then q.grant w.got else q
      | none => q }

/-- The verdict of the innermost level once every live thread has given one (R305). -/
def Team.verdict (t : Team) : Option Bool :=
  match t.levels with
  | [] => none
  | l :: _ =>
    if l.st == .running && t.allWait (fun (w : WaitOn) => w == WaitOn.verdict) then
      some (t.squads.all fun q => match q.wait with
        | some w => w.on != .verdict || bits w.iss.word.toNat 24 21 == 3
        | none => true)
    else none

/-- Does a level's signature meet a write applied at its die, or one outside chunks, since its attempt began, other than its
own team's and its conversation's (R313)? -/
def State.interferes (s : State) (sig : List Nat) (die since : Nat) (own : List Nat) : Bool :=
  (s.applied.any fun a => a.die == die && a.num ≥ since && !own.contains a.team && sigsMeet a.grains sig)
    || s.external.any fun e => e.2 ≥ since && sigHits sig e.1

/-- The interference test of a team's innermost level (R313). -/
def State.levelInterferes (s : State) (t : Team) (l : Level) (own : List Nat) : Bool :=
  match s.lam? l.lam with
  | some x => s.interferes (x.rsig ++ x.wsig) (dieOf t.core) l.seenFrom own
  | none => false

/-- The teams that share an outermost level with a team: the members of its conversation in an open block (R317). -/
def State.partners (s : State) (t : Team) : List Team :=
  match t.levels, t.conv with
  | [_], some c => s.teams.filter fun u => u.ctx == t.ctx && u.conv == some c && !u.levels.isEmpty
  | _, _ => [t]

/-- Has a member's outermost level reached its verdict, or failed (R317)? -/
def Team.decided (t : Team) : Bool := match t.levels with
  | [l] => l.st != .running || t.verdict.isSome
  | _ => t.levels.any fun l => l.depth == 1 && l.st == .restoring

/-- Have the chunks of a team all committed into its lamina? -/
def State.chunksIn (s : State) (team : Nat) : Bool :=
  !(s.lams.any fun l => l.owner == .chunk && l.team == team && (!l.lines.isEmpty || l.squashable))

/-- Have the words that a team's threads issued written their results and performed their stores and atomics, and have its chunks
committed? A level opens, and a passing verdict is judged, only then, so that what a restore puts back is the state at the `ENSURE`
and a full journal fails the routine that filled it (R304, R305, R308, R310; log entry 76). -/
def State.settledWords (s : State) (team : Nat) : Bool :=
  s.chunksIn team && !(s.ops.any fun o => o.team == team && (o.what.isResult || (match o.what with
    | .store _ _ | .atomic _ _ _ _ _ => true
    | _ => false)))

/-- Commit the chunks of a team that can be granted (R229). -/
def State.commitTeam (s : State) (team : Nat) : State :=
  let ends := fun (l : Lam) => l.owner == .chunk && l.team == team && l.st == .open
  let s : State := { s with lams := updIf ends (fun l => { l with st := .requested }) s.lams }
  let s := s.commitAll (fun l => l.team == team) s.lams.length
  let empty := fun (l : Lam) => l.owner == .chunk && l.team == team && l.lines.isEmpty && !l.squashable
  { s with lams := s.lams.filter fun l => !empty l }

/-- Is a lamina's commit held back: by a chunk with commit priority, or, where it takes a STRONG sequence number, until its die has
applied every STRONG commit before it (R227, R228)? -/
def State.commitBlocked (s : State) (die : Nat) (l : Lam) : Bool :=
  l.parent.isNone && (s.heldBack (some l.key) none l.wsig || (l.strong && !s.strongClear die))

/-- Is the commit of a level held back? It is tested for interference only once it can be granted (R227, R313). -/
def State.levelBlocked (s : State) (t : Team) (l : Level) : Bool := match s.lam? l.lam with
  | some x => s.commitBlocked (dieOf t.core) x
  | none => false

/-- Close the innermost level of a team after its commit: its logs and journal are dropped, those of an inner level that the
enclosing one does not hold yet pass to it; work it started now counts as the enclosing level's (R309). -/
def Team.closeLevel (t : Team) : Team :=
  match t.levels with
  | [] => t
  | l :: rest =>
    let outer := match rest with
      | [] => []
      | o :: r =>
        { o with
          logged := uniq (o.logged ++ l.logged),
          journal := o.journal ++ l.journal.filter (fun (j : Nat × Nat × List (Option Byte)) =>
            !(o.journal.any fun k => k.1 == j.1 && k.2.1 == j.2.1)),
          touched := uniq (o.touched ++ l.touched) } :: r
    let d := l.depth - 1
    let chain : Chain → Chain := fun c => { c with level := min c.level d }
    let mop : MatOp → MatOp := fun m => { m with level := min m.level d }
    { t with levels := outer, rbRoutine := l.routine, rbRetry := l.retries, chains := t.chains.map chain,
             mops := t.mops.map mop }.release fun (w : WaitOn) => w == WaitOn.verdict

/-- Move a level's or a world's lamina into its parent, both signatures included (R298, R309, R325). -/
def State.mergeLam (s : State) (key : Nat) : State :=
  match s.lam? key with
  | none => s
  | some l =>
    let s := s.grant l
    match l.parent with
    | some p => s.modLam p fun x => { x with rsig := l.rsig.foldl (fun r g => addGrain g r) x.rsig, strong := x.strong || l.strong }
    | none => s

/-- Commit the innermost level of a team: an inner level closes at once; the outermost one goes on its stages (R309). -/
def State.commitLevel (s : State) (team : Nat) : State :=
  match s.team? team with
  | none => s
  | some t => match t.levels with
    | [] => s
    | l :: rest =>
      if rest.isEmpty then s.modLevel team fun l => { l with st := .committing }
      else
        let s := (s.mergeLam l.lam).modTeam team Team.closeLevel
        { s with snaps := s.snaps.filter fun (x : Snap) => x.key != l.snap }

/-- A passing level meets interference: the same routine runs again twice, then it fails with code 8 (R313). -/
def State.retryLevel (s : State) (team : Nat) (l : Level) : State :=
  if l.retries < 2 then s.modLevel team fun l => { l with st := .restoring, nextRoutine := l.routine, mark := s.keys }
  else s.failRoutine team 8

/-- Judge the innermost level of a team when every verdict is given, and a conversation when every member is decided and none is
saved; interference of any member counts (R305, R313, R317, R318). -/
def State.judge (s : State) (team : Nat) : State :=
  match s.team? team with
  | none => s
  | some t => match t.levels, t.verdict with
    | l :: _, some pass =>
      let ms := s.partners t
      if ms.length = 1 then
        if !pass then s.failRoutine team 1
        else
          let s := s.commitTeam team
          if !s.settledWords team || s.levelBlocked t l then s
          else if s.levelInterferes t l [team] then s.retryLevel team l
          else s.commitLevel team
      else if ms.all (fun u => u.decided && (u.st == .running || u.st == .stopping)) then
        let s := ms.foldl (fun s (u : Team) => s.commitTeam u.key) s
        if !(ms.all fun u => s.settledWords u.key) || s.levelBlocked t l then s
        else
          let passes := fun (u : Team) => u.verdict == some true
          let own := ms.map fun u => u.key
          if ms.all passes && !(ms.any fun u => u.levels.any fun x => x.lam == l.lam && s.levelInterferes u x own) then
            let s := s.modLam l.lam fun x => { x with strong := true }
            ms.foldl (fun s (u : Team) => s.commitLevel u.key) s
          else ms.foldl (fun s (u : Team) =>
            if passes u then s.failLevel u.key 1 12
            else if u.verdict == some false then s.failLevel u.key 1 1 else s) s
      else s
    | _, _ => s

/-- The lamina of an outermost level that commits goes to memory, or to the world view, as one commit (R309, R318); the LOOSE
bytes that its core keeps go before it, as a `FENCE.AR` at `.dev` has them go (R208, R216). -/
def State.publishLevels (s : State) : State :=
  s.teams.foldl (fun s t => match t.levels with
    | [l] => if l.st == .committing then
        match s.lam? l.lam with
        | some x =>
          if s.commitBlocked (dieOf t.core) x then s
          else
            let s := ((s.stageView t l.lam).looseGoes t.core).mergeLam l.lam
            let mark : Level → Level := fun y => if y.lam == l.lam then { y with mark := s.keys } else y
            let all : Team → Team := fun u => { u with levels := u.levels.map mark }
            { s with teams := updIf (fun u => u.levels.any fun y => y.lam == l.lam) all s.teams }
        | none => s
      else s
    | _ => s) s

/-- Are the writes of a level that commits, and what a `FENCE.AR` of its team waits for, at the device stage, and is no entry of its
outbox under way (R309, R315)? -/
def State.levelOut (s : State) (t : Team) (l : Level) : Bool :=
  l.st == .committing && !(s.lam? l.lam).isSome && !s.unsettled t l.mark && !s.sendingOn t

/-- RB_COMMIT_COMPLETE: the writes of the outermost level are at the device stage: the outbox is performed in its order, or passes to
the world's, and once it has been performed the level is CLOSED; as with a `FENCE.AR`, the core drops its clean LOOSE copies (R208,
R302, R309, R315). -/
def execRbCommitComplete (s : State) : Host.Outcome State Fault Refusal :=
  match s.arg with
  | [team] => match s.team? team with
    | none => .next s
    | some t => match t.levels with
      | [l] =>
        if !s.levelOut t l then .next s
        else
          let (left, s) : Bool × State :=
            if t.parent.isSome then (false, if t.outbox.length > 256 then s.viewExhausted team else s)
            else
              let (es, s) := s.sendEntries team true t.outbox
              let s := s.modTeam team fun t => { t with outbox := es }
              (!es.isEmpty || (s.team? team).any s.sendingOn, s)
          if left then .next s else
          let s := s.modTeam team Team.closeLevel
          .next { s.looseFresh t.core with
            snaps := s.snaps.filter fun (x : Snap) => x.key != l.snap }
      | _ => .next s
  | _ => .next s

/-! ## Opening a level (R302, R304, R316) -/

/-- A new lamina of a level or a world (R297, R298). -/
def State.newLam (s : State) (t : Team) (owner : LamOwner) (parent : Option Nat) : Nat × State :=
  let (k, s) := s.newKey
  let l : Lam :=
    { key := k, owner := owner, st := .open, ctx := t.ctx, team := t.key, gid := 0, core := t.core, parent := parent,
      lines := [], rsig := [], wsig := [], strong := false, deps := [], checkpoint := none, stood := [], packets := 0, lastIssue := s.now,
      squashes := 0, fourth := none, fixed := false }
  (k, { s with lams := s.lams ++ [l] })

/-- Where the squads of a team wait at `ENSURE`: the word's PC. -/
def Team.ensureAt (t : Team) : DWord :=
  match (t.squads.find? fun q => match q.wait with
    | some w => w.on == .ensure
    | none => false).bind fun q => q.wait with
  | some w => w.iss.pc
  | none => 0

/-- Open a level of a team over a lamina: the team is saved, and its threads go on at the primary (R302, R304). With no
identifier free, the primary fails with code 7 (R299). A member of a conversation that is SAVED has run no cycle yet (R318). -/
def State.openLevel (s : State) (t : Team) (l : Latch) (lam : Nat) (full : Bool) : State :=
  let (k, s) := s.newKey
  let d := t.levels.length + 1
  let level : Level :=
    { depth := d, st := .running, ensure := t.ensureAt, lit := l.lit, routine := 0, retries := 0,
      limit := if l.val = 0 then 2 ^ 32 - 1 else l.val.toNat, start := if t.st == .saved then 0 else s.now, testing := [], snap := k, lam := lam,
      logged := [], journal := [], touched := [], outLen := t.outbox.length, seenFrom := s.keys, nextRoutine := 0, mark := 0 }
  let snap : Snap := { key := k, team := t, bars := s.teamBars t.key }
  let s : State := { s with snaps := s.snaps ++ [snap] }
  let s := s.modTeam t.key fun t =>
    { t with levels := level :: t.levels, ensureLatch := none, rbCause := if d = 1 then 0 else t.rbCause }.release
      fun (w : WaitOn) => w == WaitOn.ensure
  if full then s.failLevel t.key d 7 else s

/-- Do all live threads of a team wait at its latched `ENSURE`, its words performed and its chunks committed? -/
def State.ensured (s : State) (t : Team) : Bool :=
  t.ensureLatch.isSome && t.allWait (fun (w : WaitOn) => w == WaitOn.ensure) && s.settledWords t.key

/-- Open the level of a team whose threads have all arrived; at depth 0 the levels of a conversation open together and share
one lamina (R304, R316, R317). -/
def State.tryOpen (s : State) (team : Nat) : State :=
  match s.team? team with
  | none => s
  | some t => match t.ensureLatch with
    | none => s
    | some _ =>
      if !t.allWait (fun (w : WaitOn) => w == WaitOn.ensure) then s
      else
        let ms : List Team := match t.levels, t.conv with
          | [], some c => s.teams.filter fun u => u.ctx == t.ctx && u.conv == some c
          | _, _ => [t]
        let s := ms.foldl (fun s (u : Team) => if u.allWait (fun (w : WaitOn) => w == WaitOn.ensure) then s.commitTeam u.key else s) s
        if !(ms.all fun u => s.ensured u) then s
        else
          let full := !s.lamsFree (dieOf t.core) 1
          let (k, s) := s.newLam t .level t.base
          ms.foldl (fun s (u : Team) => match u.ensureLatch with
            | some l => s.openLevel u l k full
            | none => s) s

/-! ## Restore (R310, R314) -/

/-- A scratchpad word as the journal holds it. -/
def Bytes.wordBack (m : Bytes) (off : Nat) (prior : List (Option Byte)) : Bytes :=
  prior.zipIdx.foldl (fun m p => match p.1 with
    | some b => bput (4 * off + p.2) b m
    | none => m.filter fun x => x.1 != 4 * off + p.2) m

/-- Play journals backward (R308, R310). -/
def State.playBack (s : State) (js : List (Nat × Nat × List (Option Byte))) : State :=
  js.reverse.foldl (fun s j => s.modTeam j.1 fun u => { u with scratch := u.scratch.wordBack j.2.1 j.2.2 }) s

/-- Operand slots as claimed when a level opened: those written at it are undefined (R310). -/
def slotsBack (now old : List Slot) (touched : List Nat) (key : Nat) : List Slot :=
  old.map fun o =>
    if touched.contains o.name then { o with claim := key, bytes := [], clean := false, origin := key, fills := [] }
    else match now.find? fun x => x.name == o.name && x.claim == o.claim with
      | some x => { x with releasing := o.releasing }
      | none => o

/-- Accumulator tiles written at a level are undefined (R310; log entry 4). -/
def Team.accsLost (t : Team) (touched : List Nat) (fresh : Nat) : Team :=
  let ns := (t.accs.filter fun a => touched.contains (1000 + a.n)).map fun a => a.n
  ns.foldl (fun t n => t.setAccs [n] (t.accs.any fun a => a.n == n && a.int) fun n i => Config.freeWord fresh (n * 16384 + i)) t

/-- The parts of a group that only a restore puts back: latches, packet counts and last points (R111, R112, R310, R347). -/
def Group.latchesBack (g o : Group) : Group :=
  { g with tvecLatch := o.tvecLatch, clockLatch := o.clockLatch, tagsLatch := o.tagsLatch, tagerrLatch := o.tagerrLatch,
           threads := g.threads.map fun x => match o.thread? x.lane with
             | some y => { x with clock := y.clock, handler := y.handler, point := y.point, park := none, trap := none }
             | none => { x with park := none, trap := none } }

/-- Put a team back to the state a level saved, but for its PCs and its levels (R310 steps 1 to 3). -/
def State.undoLevel (s : State) (t : Team) (l : Level) (snap : Snap) : State :=
  let inner := t.levels.filter fun x => x.depth ≥ l.depth
  let lams := inner.map fun x => x.lam
  let gone := fun (x : Lam) => (x.owner == LamOwner.chunk && x.team == t.key && x.gid != engineGid) || lams.contains x.key
  let (k, s) := s.newKey
  let s : State := { s with lams := s.lams.filter (fun x => !gone x) }
  let s := (s.cancelTeam t.key).playBack ((inner.reverse.map fun x => x.journal).flatten)
  let touched := inner.flatMap fun x => x.touched
  let o := snap.team
  let latches : Group → Group := fun g => match o.group? g.gid with
    | some x => g.latchesBack x
    | none => g
  let idle : Group → Group := fun g => { g with flags := [] }
  let s := s.modTeam t.key fun u =>
    let u := (u.backTo o).accsLost touched s.fresh
    { u with groups := u.groups.map (fun g => idle (latches g)), priv := o.priv, slots := u.bound (slotsBack u.slots o.slots touched k),
             squads := [], trays := [], outbox := u.outbox.take l.outLen, ensureLatch := none, forkLatch := none,
             chooseLatch := none, chains := u.chains.filter fun c => c.level < l.depth }
  let s : State := { s with run := s.run.filter (fun r => r.1 != t.key) }
  s.barsBack t.key snap.bars

/-- Every live thread of a team goes to a PC and is filed (R158, R310). -/
def State.fileAll (s : State) (team : Nat) (pc : DWord) : State :=
  match s.team? team with
  | none => s
  | some t =>
    let ms := t.groups.flatMap fun g => g.threads.map fun x => (g.gid, x.lane)
    (s.setPcs team ms fun _ _ => pc).refile team (sortBy threadLe ms)

/-- `RBSTAT` (R306 Table 3). -/
def Team.rbStat (t : Team) : Word :=
  let r := match t.levels with
    | l :: _ => (l.routine, l.retries)
    | [] => (t.rbRoutine, t.rbRetry)
  BitVec.ofNat 32 (t.levels.length + 16 * (r.1 % 16) + 256 * (t.rbCause % 256) + 65536 * (r.2 % 4)
    + if t.conv.isSome then 2 ^ 18 else 0)

/-- The outermost level is EXHAUSTED: it is CLOSED with the threads at the `ENSURE`, and one fatal `RBEXHAUST` record names
the team (R314). -/
def State.exhaust (s : State) (team : Nat) (l : Level) (pc : DWord) : State :=
  let s := s.modTeam team fun t => { t with levels := [], rbRoutine := l.routine, rbRetry := l.retries }
  let s := s.fileAll team pc
  match s.team? team with
  | none => s
  | some t =>
    let point := ((t.groups.flatMap fun g => g.threads).head?).bind fun x => x.point
    let r := s.teamRecord t cRbexhaust 0xFF t.liveLanes 0 (s.bothPcs t point pc) 0
    s.putRecords t.ctx [({ r with fatal := true, extra := leBytes 4 t.rbStat.toNat }, none)]

/-- The next attempt at a level after its restore, over a lamina of its own (R302, R310, R313). -/
def State.nextAttempt (s : State) (team : Nat) (l : Level) (lam : Nat) : State :=
  match s.team? team with
  | none => s
  | some t =>
    let l' : Level :=
      { l with st := .running, routine := l.nextRoutine, retries := if l.nextRoutine = l.routine then l.retries + 1 else 0,
               start := s.now, testing := [], lam := lam, logged := [], journal := [], touched := [], seenFrom := s.keys }
    let pc := s.startPc t l' l'.routine
    (s.modTeam team fun t => { t with levels := l' :: t.levels.filter fun x => x.depth < l.depth }).fileAll team pc

/-- A return PC in the other encoding, by the return-site map (R338). -/
def Image.siteTo (i : Image) (target : Kind) (pc : DWord) : Option DWord :=
  match target with
  | .lcore => (i.sites.find? fun p => p.1 == pc).map (·.2)
  | .dcore => (i.sites.find? fun p => p.2 == pc).map (·.1)

/-- The spilled entries of a thread's return stack with the places of each, deepest first; `none` where one cannot be read
(R113). -/
def State.spilled (s : State) (t : Team) (gid : Nat) (x : Thread) : Option (List (List Spot × DWord)) :=
  (List.range (x.depth - 8)).mapM fun e => match s.privRange t x.tid .load (spillOff x e) 8 with
    | .ok sp => some (sp, BitVec.ofNat 64 (s.readSpots t { team := t.key, gid := gid, lane := x.lane } sp))
    | .error _ => none

/-- Rewrite the spilled return-stack entries of a team (R343). -/
def State.carrySpilled (s : State) (t : Team) (i : Image) (target : Kind) : State :=
  (t.groups.flatMap fun g => g.threads.map fun x => (g.gid, x)).foldl (fun s p =>
    ((s.spilled t p.1 p.2).getD []).foldl (fun s e =>
      s.putPriv t.key e.1 (leBytes 8 ((i.siteTo target e.2).getD e.2).toNat)) s) s

/-- Restore one team's level; the lamina is the one the next attempt writes. Where the team has migrated since the level opened, the
spilled return-stack entries that the restore has put back are translated again (R310, R343). -/
def State.restoreLevel (s : State) (t : Team) (l : Level) (lam : Nat) (exhausted : Bool) : State :=
  match s.snaps.find? fun x => x.key == l.snap with
  | none => s
  | some snap =>
    let pc := s.ensurePc t l
    let s := s.undoLevel t l snap
    if exhausted then (s.exhaust t.key l pc)
    else
      let s := s.nextAttempt t.key l lam
      if snap.team.kind == t.kind then s
      else match s.team? t.key, s.imageOf t with
        | some u, some i => s.carrySpilled u i t.kind
        | _, _ => s

/-- The outermost of the levels that restore. -/
def Team.restoring (t : Team) : Option Level := (t.levels.filter fun l => l.st == .restoring).getLast?

/-- Has the work that a restore waits for ended: every COPY that was in flight at the failure, or that a chain of the level has
started, and every matrix operation (R310)? -/
def Team.workEnded (t : Team) (l : Level) : Bool :=
  t.mops.isEmpty && t.copies.all fun c => c.key ≥ l.mark && (match t.chain? c.h with
    | some x => x.level < l.depth
    | none => true)

/-- Chains started at a level that restores stop as `TCANCEL` gives (R310). -/
def State.stopLevelChains (s : State) (team : Nat) : State :=
  match s.team? team with
  | none => s
  | some t => match t.restoring with
    | none => s
    | some l => (t.chains.filter fun c => c.level ≥ l.depth && c.st != .stopping).foldl (fun s c => s.haltChain team c.h) s

/-- Does a level have no further routine (R302)? -/
def State.noRoutine (s : State) (t : Team) (l : Level) : Bool := l.nextRoutine ≥ s.routines t l

/-- The teams whose levels restore together: at the outermost level the members of a conversation (R317). -/
def State.restoreSet (s : State) (t : Team) (l : Level) : List Team :=
  if l.depth = 1 then (match t.conv with
    | some c => s.teams.filter fun u => u.ctx == t.ctx && u.conv == some c && !u.levels.isEmpty
    | none => [t])
  else [t]

/-- Has the work that a restore waits for ended in all of them, and are all decided (R310, R317)? -/
def restoreReady (ms : List Team) (l : Level) : Bool :=
  ms.all fun u => match u.restoring with
    | some x => u.workEnded x && x.depth == l.depth
    | none => false

/-- RB_RESTORE: the outstanding work has ended; the level is put back and its next routine, or the same for a retry, starts;
an inner level without one fails the enclosing level, an outermost one is EXHAUSTED. The members of a conversation restore
together, once all are decided; with no identifier free the next routine fails at once (R299, R302, R310, R314, R317). -/
def execRbRestore (s : State) : Host.Outcome State Fault Refusal :=
  match s.arg with
  | [team] => match s.team? team with
    | none => .next s
    | some t => match t.restoring with
      | none => .next s
      | some l =>
        let ms := s.restoreSet t l
        if !restoreReady ms l then .next s
        else if l.depth > 1 && s.noRoutine t l then .next (s.failLevel team (l.depth - 1) 13)
        else
          let exhausted := ms.any fun u => match u.restoring with
            | some x => s.noRoutine u x
            | none => false
          let under := match t.levels.find? fun x => x.depth + 1 == l.depth with
            | some x => some x.lam
            | none => t.view
          let (k, s) := if exhausted then (0, s) else s.newLam t .level under
          let s := ms.foldl (fun s (u : Team) => match u.restoring with
            | some x => s.restoreLevel u x k exhausted
            | none => s) s
          .next (if exhausted || s.lamsFree (dieOf t.core) 0 then s
            else ms.foldl (fun s (u : Team) => s.failLevel u.key l.depth 7) s)
  | _ => .next s

/-! ## Limits (R311) -/

/-- Cycles of a core's own clock in a span of D-core cycles (R6, R304). -/
def ownElapsed (k : Kind) (n : Nat) : Nat := match k with
  | .dcore => n
  | .lcore => n * 26 / 18

/-- The outermost running level whose limit has expired: verdicts not all given, more own cycles than its limit (R311). -/
def State.expired (s : State) (t : Team) : Option Level :=
  if t.st != .running || t.verdict.isSome then none
  else (t.levels.filter fun l => l.st == .running && ownElapsed t.kind (s.now - l.start) > l.limit).getLast?

/-- RB_CYCLE_LIMIT (R311). -/
def execRbCycleLimit (s : State) : Host.Outcome State Fault Refusal :=
  match s.arg with
  | [team] => match s.team? team with
    | none => .next s
    | some t => match s.expired t with
      | some l => .next (s.failLevel team l.depth 2)
      | none => .next s
  | _ => .next s

/-! ## The words of RB (R303 to R306, R316) -/

/-- A word that needs a feature: without it, `ILLOP` (R355). -/
def State.needs? (s : State) (bit : Nat) (k : Team → State) : State :=
  match s.curTeam with
  | none => s
  | some t => if s.feature bit then k t else s.trapAll cIllop 0

/-- A scalar of a group as the words of a chain read it (R32). -/
def State.readScalar (s : State) (g k : Nat) : Word := match s.readTeam with
  | some t => s.rdS t g k
  | none => 0

/-- A scalar of the issuing sub-squad with the lowest group. -/
def State.firstScalar (s : State) (k : BitVec 6) : Word := match s.curGids.head? with
  | some g => s.readScalar g k.toNat
  | none => 0

/-- ENSURE: a team collective; at depth 8 it is a failure with code 11 (R304). -/
def execEnsure (k : BitVec 6) (s : State) : Host.Outcome State Fault Refusal :=
  .next (s.needs? 1 fun t =>
    if s.passed.isSome then s
    else if t.levels.length ≥ 8 then s.failRoutine t.key 11
    else match s.latchDiffers t.ensureLatch true with
      | some w => s.trapAll cIllop (w.setWidth 64)
      | none =>
        let limit := s.firstScalar k
        s.endingWord fun s =>
          let l := s.latchWith t.ensureLatch limit 0
          (s.modTeam t.key fun t => { t with ensureLatch := some l }).waitOn .ensure)

/-- A routine's end word: with no level open it is illegal, at another word than the routine's own the routine fails, else
the threads enter the test (R303, R305). -/
def State.endWord (s : State) (t : Team) : State :=
  match t.levels with
  | [] => s.trapAll cIllop 0
  | l :: _ =>
    if s.endPc t l l.routine != some s.cur.pc then s.failRoutine t.key 10
    else
      let target := s.testPc t l
      let ms := s.members
      let s := if targetOk t target then s.modLevel t.key fun l => { l with testing := uniq (l.testing ++ ms) } else s
      s.transfer (ms.map fun m => (m.1, m.2, target))

/-- ELSEBY (R305). -/
def execElseby (s : State) : Host.Outcome State Fault Refusal := .next (s.needs? 1 fun t => s.endWord t)

/-- ELSEERROR (R305). -/
def execElseerror (s : State) : Host.Outcome State Fault Refusal := .next (s.needs? 1 fun t => s.endWord t)

/-- `ACCEPT` and `REJECT`: threads outside a test raise `ILLOP`; the others wait for the verdict (R305). -/
def State.giveVerdict (s : State) (t : Team) : State :=
  if s.passed.isSome then s
  else
    let inTest := match t.levels with
      | l :: _ => l.testing
      | [] => []
    let s := s.takeTraps ((s.members.filter fun m => !inTest.contains m).map fun m => (m.1, m.2, cIllop, 0))
    if s.members.isEmpty then s else s.endingWord fun s => s.waitOn .verdict

/-- ACCEPT (R305). -/
def execAccept (s : State) : Host.Outcome State Fault Refusal := .next (s.needs? 1 fun t => s.giveVerdict t)

/-- REJECT (R305). -/
def execReject (s : State) : Host.Outcome State Fault Refusal := .next (s.needs? 1 fun t => s.giveVerdict t)

/-- What a word forbidden in blocks and in rivals meets: failure with code 11, or the rival's abort with cause 4 (R312, R331). In
an open block of a rival both rules apply and no rule orders them: the model takes the failure of the routine, the inner of the
two (DESIGN CHOICE, log entry 79). -/
def State.outsideOnly (s : State) (t : Team) (k : State) : State :=
  if !t.levels.isEmpty then s.failRoutine t.key 11
  else if t.parent.isSome then s.abortRival t.key 4
  else k

/-- CONVJOIN: once for each issuing sub-squad (R316). -/
def execConvjoin (k : BitVec 6) (s : State) : Host.Outcome State Fault Refusal :=
  .next (s.needs? 1 fun t => s.outsideOnly t (s.endingEffect fun s => s.curGids.foldl (fun s g =>
    let c := (s.readScalar g k.toNat).toNat
    let others := s.teams.filter fun u => u.ctx == t.ctx && u.conv == some c && u.key != t.key
    if c > 255 || others.length ≥ 64 then
      s.takeTraps ((s.lanesOf g).map fun l => (g, l, cIllop, BitVec.ofNat 64 c))
    else s.modTeam t.key fun t => { t with conv := some c }) s))

/-- CONVLEAVE (R316): in an open block a failure with code 11 (R312). -/
def execConvleave (s : State) : Host.Outcome State Fault Refusal :=
  .next (s.needs? 1 fun t =>
    if !t.levels.isEmpty then s.failRoutine t.key 11 else s.modTeam t.key fun t => { t with conv := none })

/-- RBSTAT (R306). -/
def execRbstat (d : BitVec 6) (s : State) : Host.Outcome State Fault Refusal :=
  .next (s.needs? 1 fun _ => groupProducer s.delay d.toNat (fun t _ _ => t.rbStat) s)

end Sys2Proof.Machine
end

