-- ==== Sys2Proof/Machine/World.lean ====
section
/-! DEFINITION. Worlds: rivals and their parent, the words of WORLD, and the events of their life (R319 to R332). -/

namespace Sys2Proof.Machine

/-! ## Rivals -/

/-- DEPTH of `sr.world` (R321). -/
def Team.worldDepth (t : Team) : Nat := bits t.world.toNat 2 0

/-- Change the record that a parent keeps of a rival (R321). -/
def State.modRival (s : State) (team : Nat) (f : Rival → Rival) : State :=
  match (s.team? team).bind fun t => t.parent with
  | none => s
  | some p =>
    let change := fun (x : ForkRes) => { x with rivals := updIf (fun (r : Rival) => r.team == team) f x.rivals }
    s.modTeam p fun u => { u with fork := u.fork.map change }

/-- The record that a parent keeps of a rival. -/
def State.rivalOf (s : State) (t : Team) : Option Rival :=
  ((t.parent.bind fun p => s.team? p).bind fun u => u.fork).bind fun f => f.rivals.find? fun r => r.team == t.key

/-- Discard the pending results of a team's `FORK`, with those of its rivals (R327). The fuel covers the depth of 4. -/
def State.discardRivals (s : State) (team : Nat) : Nat → State
  | 0 => s
  | fuel + 1 => match (s.team? team).bind fun t => t.fork with
    | none => s
    | some f =>
      let s := f.rivals.foldl (fun s (r : Rival) => (s.discardRivals r.team fuel).dropTeam r.team) s
      let s : State := { s with snaps := s.snaps.filter fun (x : Snap) => x.key != f.snap }
      s.modTeam team fun t => { t with fork := none }

/-- What is left of a team that runs no more: its scratchpad, private memory, view and outbox (R324). -/
def Team.ended (t : Team) : Team :=
  { t with st := .saved, groups := [], squads := [], trays := [], chains := [], copies := [], mops := [], windows := [],
           levels := [], ensureLatch := none, forkLatch := none, chooseLatch := none, fork := none, migr := none,
           outbox := match t.levels.getLast? with
             | some l => t.outbox.take l.outLen
             | none => t.outbox }

/-- A rival stops running: its words, barrier instances and saved states are gone, its core is free (R324). -/
def State.stopRival (s : State) (t : Team) (keepView : Bool) : State :=
  let s := s.discardRivals t.key 5
  let s := s.vacate t.key
  let snaps := t.levels.map fun l => l.snap
  let mine := fun (l : Lam) => l.team == t.key && !(keepView && some l.key == t.view)
  let s : State := { s with
    ops := s.ops.filter (fun o => o.team != t.key), toks := s.toks.filter (fun (k : Tok) => k.team != t.key),
    bars := s.bars.filter (fun (b : Bar) => b.owner != BarOwner.team t.key), lams := s.lams.filter (fun l => !mine l),
    snaps := s.snaps.filter (fun (x : Snap) => !snaps.contains x.key), run := s.run.filter (fun r => r.1 != t.key) }
  s.modTeam t.key Team.ended

/-- PC for a record of a rival: that of its word at issue, else of its first thread. -/
def State.rivalPc (s : State) (t : Team) : DWord :=
  if s.cur.team = t.key then s.cur.pc else match t.groups.flatMap fun g => g.threads with
    | x :: _ => x.pc
    | [] => 0

/-- A rival is ABORTED with a cause; cause 3 writes a `VIEWEXHAUST` record (R324, R330, R331). -/
def State.endRival (s : State) (team cause : Nat) : State :=
  match s.team? team with
  | none => s
  | some t =>
    if (s.rivalOf t).all fun r => r.st == .done || r.st == .aborted then s
    else
      let point := ((t.groups.flatMap fun g => g.threads).head?).bind fun x => x.point
      let r := s.teamRecord t cViewexhaust 0xFF t.liveLanes 0 (s.bothPcs t point (s.rivalPc t)) 0
      let s := if cause = 3 then s.putRecords t.ctx [({ r with extra := leBytes 4 t.world.toNat }, none)] else s
      (s.stopRival t false).modRival team fun r => { r with st := .aborted, cause := cause, score := 0 }

/-- Have the engines of a team come to rest: chains FREE, no COPY, matrix operation or store outstanding (R323, R324)? -/
def State.quiet (s : State) (t : Team) : Bool :=
  t.chains.isEmpty && t.copies.isEmpty && t.mops.isEmpty && !(s.ops.any fun o => o.team == t.key && (match o.what with
    | .klaunch _ _ _ _ => false
    | .qpop _ _ _ _ _ => false
    | _ => true))

/-- The score of a rival: of the lowest-numbered group, the value recorded with its lowest lane (R324). -/
def Team.score (t : Team) : Word :=
  match sortBy (fun (a b : Nat × Nat × Word) => threadLe (a.1, a.2.1) (b.1, b.2.1)) t.wdone with
  | x :: _ => x.2.2
  | [] => 0

/-- RIVAL_DONE: with a cause, the rival is ABORTED; without, no thread is left: it is ABORTED with cause 2 if none executed
`WDONE`, else DONE once its chunks have committed and its chains are FREE (R321, R324, R330, R331). -/
def execRivalDone (s : State) : Host.Outcome State Fault Refusal :=
  match s.arg with
  | [team, cause] => .next (s.endRival team cause)
  | [team] => match s.team? team with
    | none => .next s
    | some t =>
      if t.parent.isNone || t.st != .running || t.groups.any fun g => !g.threads.isEmpty then .next s
      else if t.wdone.isEmpty then .next (s.endRival team 2)
      else
        let s := s.commitTeam team
        if !s.chunksIn team || !s.quiet t then .next s
        else
          let score := t.score
          .next ((s.stopRival t true).modRival team fun r => { r with st := .done, cause := 0, score := score })
  | _ => .next s

/-! ## FORK (R323) -/

/-- FORK: a team collective; its field checks raise `ILLOP` (R322, R323). -/
def execFork (d k : BitVec 6) (s : State) : Host.Outcome State Fault Refusal :=
  .next (s.needs? 0 fun t =>
    if s.passed.isSome then s
    else if !t.levels.isEmpty then s.failRoutine t.key 11
    else match s.latchDiffers t.forkLatch false with
      | some w => s.trapAll cIllop (w.setWidth 64)
      | none =>
        let n := s.firstScalar k
        if t.forkLatch.isNone && (n.toNat < 2 || n.toNat > 8) then s.trapAll cIllop (n.setWidth 64)
        else if s.clusterSize t > 1 then s.trapAll cIllop (BitVec.ofNat 64 (s.clusterSize t))
        else s.endingWord fun s =>
          let l := s.latchWith t.forkLatch n d.toNat
          let gs := s.curGids
          let s := s.modTeam t.key fun t => gs.foldl (fun t g => t.markEmpty (.s g d.toNat)) { t with forkLatch := some l }
          s.waitOn .fork)

/-- Write a scalar in every group of a team; `s0` discards it (R322). -/
def Team.fillAll (t : Team) (d : Nat) (x : Word) : Team :=
  if d = 0 then t else t.groups.foldl (fun t g => t.fill (.s g.gid d, x.setWidth 64)) t

/-- Is every register of a team full, but for scalar `d`, and every flag idle, but for the counts of the waiting `FORK` words
themselves (R25, R323)? -/
def State.settledFork (s : State) (t : Team) (d : Nat) : Bool :=
  let held := t.squads.flatMap fun q => q.held.flatMap fun h => h.2.map fun k => k.2
  (s.toks.all fun k => k.team != t.key || held.contains k.key) && t.windows.all fun w => w.ready.isSome || (match w.reg with
    | .s _ n => n == d
    | _ => false)

/-- A copy of a team's own barrier instance for a rival (R323). -/
def Bar.copyFor (b : Bar) (key old new : Nat) : Bar :=
  let who := fun (k : Nat) => if k = old then new else k
  { b with key := key, owner := .team new, arrived := b.arrived.map (fun a => (who a.1, a.2)),
           complete := b.complete.map (fun (r : Release) => { r with team := who r.team, fences := [] }),
           coming := b.coming.map (fun a => { a with who := (who a.who.1, a.who.2) }),
           results := b.results.map (fun r => (r.1, who r.2.1, r.2.2)), seen := b.seen.map (fun x => (who x.1, x.2)) }

/-- Make rival `r` of a team: a copy with a view of its own, on a core that can hold it, or WAITING (R319, R321, R323,
R328). The parent is SUSPENDED already. -/
def State.makeRival (s : State) (t : Team) (d r : Nat) : State :=
  let (k, s) := s.newKey
  let (v, s) := s.newLam { t with key := k } .world t.view
  let depth := t.worldDepth + 1
  let renumber := t.squads.zipIdx.map fun p => { p.1 with key := s.keys + p.2, held := [] }
  let s : State := { s with keys := s.keys + t.squads.length }
  let u : Team :=
    { t with key := k, world := BitVec.ofNat 32 (t.world.toNat / 8 * 8 + depth + r * 2 ^ (3 * depth)), view := some v,
             parent := some t.key, place := none, squads := renumber, forkLatch := none, fork := none, wdone := [], outbox := [],
             sending := none, migr := none,
             conv := none, clusterOpen := false, st := .running, placedAt := s.now,
             groups := t.groups.map fun (g : Group) => { g with flags := [] } }
  let u := (u.release fun (w : WaitOn) => w == WaitOn.fork).fillAll d (BitVec.ofNat 32 r)
  let s := (s.teamBars t.key).foldl (fun (s : State) (b : Bar) =>
    let (q, s) := s.newKey
    { s with bars := s.bars ++ [b.copyFor q t.key k] }) s
  let core := if r = 0 then (if s.coreFits t.core (s.needs t) then some t.core else s.coreFor u u.kind) else s.coreFor u u.kind
  let rec_ : Rival :=
    { num := r, team := k, st := if core.isSome then .running else .waiting, cause := 0, score := 0 }
  let note := fun (f : ForkRes) => { f with rivals := f.rivals ++ [rec_] }
  let s := s.modTeam t.key fun p => { p with fork := p.fork.map note }
  match core with
  | some c => { s with teams := s.teams ++ [{ u with core := c }], run := s.run ++ u.squads.map fun q => (k, q.key) }
  | none => { s with teams := s.teams ++ [({ u with st := .saved }).holdWaits s.now] }

/-- FORK_COMPLETE: every live thread has arrived: without room the `FORK` yields `0xFFFF_FFFE`; else, once the team has come to
rest and its chunks have committed, the rivals are made and the parent is SUSPENDED and saved, so that what its core kept of its
writes leaves it (R204, R216, R323, R327, R328); the time of a pending migration request stands still meanwhile (R344). -/
def execForkComplete (s : State) : Host.Outcome State Fault Refusal :=
  match s.arg with
  | [team] => match s.team? team with
    | none => .next s
    | some t => match t.forkLatch with
      | none => .next s
      | some l =>
        if !t.allWait (fun (w : WaitOn) => w == WaitOn.fork) then .next s
        else if t.worldDepth ≥ 4 || !s.lamsFree (dieOf t.core) l.val.toNat then
          .next (s.modTeam team fun t => ({ t with forkLatch := none }.fillAll l.d 0xFFFFFFFE).release
            fun (w : WaitOn) => w == WaitOn.fork)
        else
          let s := s.commitTeam team
          if !s.chunksIn team || !s.quiet t || !s.settledFork t l.d then .next s
          else
            let s := ((s.discardRivals team 5).giveUp fun h => h.team == team).2
            let (k, s) := s.newKey
            let snap : Snap := { key := k, team := t, bars := s.teamBars team }
            let f : ForkRes :=
              { rivals := [], holding := false, snap := k, d := l.d, seenFrom := s.keys, chosen := none, mark := 0 }
            let s : State := { s with snaps := s.snaps ++ [snap], run := s.run.filter (fun r => r.1 != team) }
            let s := s.modRival team fun r => { r with st := .suspended }
            let hold := fun (m : Migr) => { m with since := s.now - m.since }
            let s := (s.modTeam team fun t =>
              { t with st := .suspended, forkLatch := none, fork := some f, migr := t.migr.map hold }).vacate team
            let s := match s.team? team with
              | some t => s.leaveDie t
              | none => s
            .next ((List.range l.val.toNat).foldl (fun s r => match s.team? team with
              | some t => s.makeRival t l.d r
              | none => s) s)
  | _ => .next s

/-! ## WDONE, WABORT, WSTAT (R324, R326) -/

/-- A rival's word; in a team that is none, `ILLOP` (R322). -/
def State.rivalWord (s : State) (k : Team → State) : State :=
  s.needs? 0 fun t => if t.worldDepth = 0 then s.trapAll cIllop 0 else k t

/-- The end of threads: the chunks of groups that no thread is left in end, once their stores are accepted (R221). No squash brings
an ended thread back: chunks that could still be squashed commit first (R222, R226; log entry 42). -/
def State.lastThreads (s : State) (k : State → State) : State :=
  let last := s.curGids.filter fun g => match s.curTeam.bind fun t => t.group? g with
    | some x => x.threads.all fun y => s.members.contains (g, y.lane)
    | none => false
  if !s.cur.cleared && last.any fun g => s.storesPending s.cur.team g then s.retryWord
  else s.irrevocable fun s => k (last.foldl (fun s g => s.endChunk s.cur.team g) s)

/-- WDONE: each group records sK with its lowest executing lane; the threads end, and their registers stay (R324). In an open
block the routine fails with code 11 (R322). -/
def execWdone (k : BitVec 6) (s : State) : Host.Outcome State Fault Refusal :=
  .next (s.rivalWord fun t =>
    if !t.levels.isEmpty then s.failRoutine t.key 11
    else s.lastThreads fun s =>
      let got := s.curGids.map fun g => (g, (sortBy (fun (a b : Nat) => decide (a ≤ b)) (s.lanesOf g)).headD 0, s.readScalar g k.toNat)
      let other := fun (x : Nat × Nat × Word) => !(got.any fun y => y.1 == x.1 && y.2.1 == x.2.1)
      let ms := s.members
      let stay := fun (g : Group) => { g with ended := g.ended ++ g.threads.filter fun x => ms.contains (g.gid, x.lane) }
      (s.modTeam t.key fun t => { t with wdone := t.wdone.filter other ++ got, groups := t.groups.map stay }).endThreads t.key ms)

/-- WABORT: the rival ends at once as ABORTED with cause 1 (R324). -/
def execWabort (s : State) : Host.Outcome State Fault Refusal := .next (s.rivalWord fun t => s.endRival t.key 1)

/-- STATE and the status word of a rival (R326 Table 3). -/
def State.wstatWord (s : State) (r : Rival) : Word :=
  let st := if r.st == .done then 2 else if r.st == .aborted then 3 else 0
  let n := match s.team? r.team with
    | some u => u.outbox.length
    | none => 0
  BitVec.ofNat 32 (st + 256 * r.cause + 65536 * n)

/-- WSTAT: score and status of a rival of the pending results, else 0 and 0 (R326). -/
def execWstat (d : BitVec 5) (k : BitVec 6) (s : State) : Host.Outcome State Fault Refusal :=
  .next (s.needs? 0 fun t =>
    let pair := fun (g : Nat) => match t.fork with
      | some f => if f.holding then (match f.rivals.find? fun (r : Rival) => r.num == (s.readScalar g k.toNat).toNat with
          | some r => (r.score, s.wstatWord r)
          | none => (0, 0)) else (0, 0)
      | none => (0, 0)
    if d = 0 then s
    else s.curGids.foldl (fun s g =>
      let n := 2 * d.toNat
      let s := s.modTeam t.key fun t => (t.markEmpty (.s g n)).markEmpty (.s g (n + 1))
      (s.groupOp g s.delay (.sres g n (pair g).1)).groupOp g s.delay (.sres g (n + 1) (pair g).2)) s)

/-! ## CHOOSE (R325) -/

/-- CHOOSE: a team collective of the HOLDING parent (R325). -/
def execChoose (d k : BitVec 6) (s : State) : Host.Outcome State Fault Refusal :=
  .next (s.needs? 0 fun t =>
    if s.passed.isSome then s
    else if !t.levels.isEmpty then s.failRoutine t.key 11
    else match s.latchDiffers t.chooseLatch false with
      | some w => s.trapAll cIllop (w.setWidth 64)
      | none =>
        let v := s.firstScalar k
        let known := match t.fork with
          | some f => f.holding && (t.chooseLatch.isSome || v = 0xFFFFFFFF || v.toNat < f.rivals.length)
          | none => false
        if !known then s.trapAll cIllop (v.setWidth 64)
        else s.endingWord fun s =>
          let l := s.latchWith t.chooseLatch v d.toNat
          let gs := s.curGids
          let s := s.modTeam t.key fun t => gs.foldl (fun t g => t.markEmpty (.s g d.toNat)) { t with chooseLatch := some l }
          s.waitOn .choose)

/-- The grains that writes made since a commit number have given to the views of a rival's ancestry (R325). -/
def State.ancestorHits (s : State) (sig : List Nat) (since : Nat) (view : Option Nat) : Bool :=
  let above := (s.lamChain s.lams.length view).filterMap fun k => k.bind fun k => s.lam? k
  above.any fun l => l.lines.any fun x => x.seq ≥ since && sigHits sig x.grain

/-- Does a commit by an agent outside the world since the `FORK` meet the rival's signatures (R325)? -/
def State.worldInterferes (s : State) (f : ForkRes) (u : Team) (parentView : Option Nat) : Bool :=
  match u.view.bind fun k => s.lam? k with
  | none => false
  | some v =>
    let sig := v.rsig ++ v.wsig
    (s.applied.any fun a => a.first && a.num ≥ f.seenFrom && sigsMeet a.grains sig)
      || (s.external.any fun e => e.2 ≥ f.seenFrom && sigHits sig e.1) || s.ancestorHits sig f.seenFrom parentView

/-- What an outstanding operation of a parent still does after `CHOOSE`: it writes no register (R325). -/
def Op.noResult (now : Nat) (x : Op) : Op := match x.what with
  | .vres _ _ | .sres _ _ _ | .tsr _ => { x with what := .flagOnly }
  | .qpop _ _ _ _ _ => { x with what := .flagOnly, due := now }
  | .atomic u op r _ ls => { x with what := .atomic u op r none ls }
  | .remote _ va n act => { x with what := .remote [] va n act }
  | _ => x

/-- The parent after `CHOOSE`: its registers, tags, slots, accumulators, queues and barrier phases are those of the `FORK`, but
for the destinations of `FORK` and `CHOOSE` (R325). -/
def State.chosenBack (s : State) (t : Team) (f : ForkRes) (l : Latch) (result : Word) : State :=
  match s.snaps.find? fun x => x.key == f.snap with
  | none => s
  | some snap =>
    let o := snap.team
    let s : State := { s with ops := updIf (fun (x : Op) => x.team == t.key) (Op.noResult s.now) s.ops }
    let latches : Group → Group := fun g => match o.group? g.gid with
      | some x => { g with tvecLatch := x.tvecLatch, clockLatch := x.clockLatch, tagsLatch := x.tagsLatch, tagerrLatch := x.tagerrLatch }
      | none => g
    let s := s.modTeam t.key fun u =>
      let held := u.groups.map fun g => (g.gid, sget f.d g.s)
      let b := u.backTo o
      let u := { b with slots := u.bound o.slots, accs := o.accs, chooseLatch := none, trayage := o.trayage, groups := b.groups.map latches }
      let u := held.foldl (fun u p => u.poke (.s p.1 f.d) (p.2.setWidth 64)) u
      (u.fillAll l.d result).release fun (w : WaitOn) => w == WaitOn.choose
    s.barsBack t.key snap.bars

/-- A `CHOOSE` has its result: the rivals are discarded, the parent is NORMAL (R325). -/
def State.endChoose (s : State) (team : Nat) (result : Word) : State :=
  match s.team? team with
  | none => s
  | some t => match t.fork, t.chooseLatch with
    | some f, some l => (s.chosenBack t f l result).discardRivals team 5
    | _, _ => s

/-- Publish a rival: its view goes into the parent lamina as one commit, with the private bytes that it wrote, and its scratchpad
becomes the parent's (R319, R325). -/
def State.publishRival (s : State) (t u : Team) (num : Nat) : State :=
  match u.view with
  | none => s
  | some v =>
    let s := ((s.stageView t v).looseGoes t.core).mergeLam v
    let mark := fun (f : ForkRes) => { f with chosen := some num, mark := s.keys }
    let before := match s.snaps.find? fun x => t.fork.any fun f => f.snap == x.key with
      | some x => x.team.priv
      | none => []
    let wrote := u.priv.filter fun p => bget p.1 before != some p.2
    s.modTeam t.key fun t =>
      { t with scratch := u.scratch, priv := wrote.foldl (fun m p => bput p.1 p.2 m) t.priv, fork := t.fork.map mark }

/-- Decide a `CHOOSE` whose live threads have all arrived, once the parent's own chunks have committed (R325). -/
def State.tryChoose (s : State) (team : Nat) : State :=
  match s.team? team with
  | none => s
  | some t => match t.fork, t.chooseLatch with
    | some f, some l =>
      if f.chosen.isSome || !t.allWait (fun (w : WaitOn) => w == WaitOn.choose) then s
      else
        let s := s.commitTeam team
        if !s.chunksIn team then s
        else if l.val = 0xFFFFFFFF then s.endChoose team 0
        else match f.rivals.find? fun r => r.num == l.val.toNat with
          | none => s
          | some r => match s.team? r.team with
            | none => s
            | some u =>
              if r.st == .aborted then s.endChoose team 2
              else if s.worldInterferes f u t.view
                  || (t.parent.isSome && t.outbox.length + u.outbox.length > 256) then s.endChoose team 1
              else
                let blocked := match u.view.bind fun k => s.lam? k with
                  | some v => s.commitBlocked (dieOf t.core) v
                  | none => false
                if blocked then s else s.publishRival t u r.num
    | _, _ => s

/-- A publication has reached the device stage, or the parent's view, with what a `FENCE.AR` of the parent at `.dev` waits for:
the rival's outbox is performed in its order, or appended to the parent's, and once it has been performed the `CHOOSE` completes
with 0 (R208, R325, R329). -/
def State.finishChoose (s : State) (team : Nat) : State :=
  match s.team? team with
  | none => s
  | some t => match t.fork with
    | none => s
    | some f => match f.chosen.bind fun n => f.rivals.find? fun r => r.num == n with
      | none => s
      | some r => match s.team? r.team with
        | none => s
        | some u =>
          if t.parent.isSome then
            ((s.modTeam team fun t => { t with outbox := t.outbox ++ u.outbox }).looseFresh t.core).endChoose team 0
          else if s.unsettled t f.mark || !s.settledWords team || s.sendingOn t then s
          else
            let (es, s) := s.sendEntries team true u.outbox
            let s := s.modTeam u.key fun u => { u with outbox := es }
            if !es.isEmpty || (s.team? team).any s.sendingOn then s else (s.looseFresh t.core).endChoose team 0

/-! ## Cores and time (R328) -/

/-- Has a rival's parent a rival WAITING with a lower number than every other? -/
def State.nextWaiting (s : State) (t : Team) : Option Rival :=
  ((t.parent.bind fun p => s.team? p).bind fun u => u.fork).bind fun f => f.rivals.find? fun r => r.st == .waiting

/-- Is a rival WAITING for a core (R321)? -/
def State.waitsTurn (s : State) (t : Team) : Bool := (s.rivalOf t).any fun r => r.st == .waiting

/-- Cycles a rival runs before it gives way (R328). -/
def rivalShare : Nat := 200 * Config.cyclesPerUs

/-- Has a rival run for 200 µs while another of its parent waits for a core (R328)? -/
def State.shareOver (s : State) (t : Team) : Bool :=
  t.st == .running && s.now ≥ t.placedAt + rivalShare && (match s.nextWaiting t with
    | some r => (match s.team? r.team with
      | some u => (s.coreFor u u.kind).isNone
      | none => false)
    | none => false)

/-- RIVAL_TIME_SHARE: a rival that has run for 200 µs while another of its parent waits for a core begins its save (R328). -/
def execRivalTimeShare (s : State) : Host.Outcome State Fault Refusal :=
  match s.arg with
  | [team] => match s.team? team with
    | none => .next s
    | some t =>
      if s.shareOver t then .next (s.modTeam team fun t => { t with st := .stopping }) else .next s
  | _ => .next s

/-- RIVAL_PLACE: the waiting rival with the lowest number goes onto a core that can hold it (R328). -/
def execRivalPlace (s : State) : Host.Outcome State Fault Refusal :=
  match s.arg with
  | [team, core] => match s.team? team with
    | none => .next s
    | some t =>
      let first := match s.nextWaiting t with
        | some r => r.team == team
        | none => false
      let ok := match s.ctxOf t with
        | some c => (s.contextCores c t.kind).contains core && s.coreFits core (s.needs t) && c.st == .running
        | none => false
      if first && ok && t.st == .saved then
        let s := s.modTeam team fun t => t.holdWaits s.now
        match s.team? team with
        | some t => .next ((s.restoreTeam t core).modRival team fun r => { r with st := .running })
        | none => .next s
      else .next s
  | _ => .next s

/-- PARENT_RESUME: when every rival has ended, the parent is restored onto a free core as HOLDING, with `0xFFFF_FFFF` in its
destination (R321, R323, R328). -/
def execParentResume (s : State) : Host.Outcome State Fault Refusal :=
  match s.arg with
  | [team] => match s.team? team with
    | none => .next s
    | some t => match t.fork with
      | none => .next s
      | some f =>
        let ended := f.rivals.all fun r => r.st == .done || r.st == .aborted
        if t.st != .suspended || f.holding || !ended then .next s
        else match s.coreFor t t.kind with
          | none => .next s
          | some core =>
            let s := s.modTeam team fun t => ({ t with fork := some { f with holding := true } }.fillAll f.d 0xFFFFFFFF).release
              fun (w : WaitOn) => w == WaitOn.fork
            match s.team? team with
            | none => .next s
            | some t => .next ((s.restoreTeam t core).modRival team fun r => { r with st := .running })
  | _ => .next s

end Sys2Proof.Machine
end

