-- ==== Sys2Proof/Machine/Fetch.lean ====
section
/-! DEFINITION. Fetching instruction words: what a fetch checks and returns (R21, R40, R183, R186, R399), the issue unit at a
PC (R31, R37, R38), and the places a thread may resume at (R36). -/

namespace Sys2Proof.Machine

/-- The instruction of a word, if it is one. -/
def instrOf (w : Word) : Option Instr := match decodeWord w with
  | .ok (_, i) => some i
  | .error _ => none

/-- Address of the fetch that brings the word at a PC: its 16-byte packet, or its 4-byte L-stream word (R21, R40). -/
def fetchVa (k : Kind) (pc : DWord) : Nat := match k with
  | .dcore => pc.toNat / 16 * 16
  | .lcore => pc.toNat

/-- Bytes of one fetch. -/
def fetchBytes (k : Kind) : Nat := match k with
  | .dcore => 16
  | .lcore => 4

/-- The page and physical address of a fetch, or its fault: a window holds no code (R174, R186). -/
def State.fetchAt (s : State) (t : Team) (pc : DWord) : Except AFault (Page × Nat) :=
  match s.ctxOf t with
  | none => .error (AFault.of cWindow)
  | some c => match windowOf (fetchVa t.kind pc) with
    | .global => s.checkPage t.core c .fetch (fetchVa t.kind pc) (fetchBytes t.kind)
    | _ => .error (AFault.of cWindow)

/-- The word a core still holds for an address. -/
def State.heldWord (s : State) (t : Team) (va : Nat) : Option Word :=
  (s.icache.find? fun f => f.core == t.core && f.ctx == t.ctx && f.va == va).map fun f => f.word

/-- The words a fetch returns: those performed in memory, or, where the core still holds others, a free choice of the two for
the whole packet (R399; log entry 4). -/
def State.fetched (s : State) (t : Team) (pc : DWord) (pa : Nat) : List Word :=
  let va := fetchVa t.kind pc
  let n := fetchBytes t.kind / 4
  let now := (List.range n).map fun i => BitVec.ofNat 32 (memNat (pa + 4 * i) 4 s.mem)
  let held := (List.range n).map fun i => s.heldWord t (va + 4 * i)
  if held.all fun h => h.isSome then
    let old := held.map fun h => h.getD 0
    if old = now || Config.freeBit s.fresh va then now else old
  else now

/-- The core holds the words it has fetched, and their translation (R183, R399). -/
def State.fillFetch (s : State) (t : Team) (pc : DWord) (p : Page) (ws : List Word) : State :=
  let va := fetchVa t.kind pc
  let mine := fun (f : Fetched) => f.core == t.core && f.ctx == t.ctx && va ≤ f.va && f.va < va + fetchBytes t.kind
  let new := ws.zipIdx.map fun w => ({ core := t.core, ctx := t.ctx, va := va + 4 * w.2, word := w.1 } : Fetched)
  let s : State := { s with icache := new ++ s.icache.filter fun f => !mine f }
  s.fillTlb t.core t.ctx va p

/-! ## Issue units (R23, R31, R38) -/

/-- Does a word carry a literal (R37)? -/
def isCarrier (w : Word) : Bool := match decodeWord w with
  | .ok (_, i) => i.carriesLiteral
  | .error _ => false

/-- Slots of a packet that hold literals (R38). -/
def literalSlots (line : List Word) : List Nat :=
  let w := fun (n : Nat) => line.getD (n + 1) 0
  let l1 := isCarrier (w 0)
  let l2 := !l1 && isCarrier (w 1)
  (if l1 then [1] else []) ++ if l2 then [2] else []

/-- Slot of a D-PC (R22). -/
def slotOf (pc : DWord) : Nat := pc.toNat % 16 / 4 - 1

/-- One word of an issue unit: its PC, the word, and its literal. -/
structure UnitWord where
  pc : DWord
  word : Word
  lit : Word
  deriving DecidableEq, Repr

/-- Words of the chain that starts at a slot, or goes on there (R31, R36). -/
def chainFrom (line : List Word) (base : DWord) (slot : Nat) : List UnitWord :=
  let at_ := fun (n : Nat) => ({ pc := base + BitVec.ofNat 64 (4 + 4 * n), word := line.getD (n + 1) 0,
                                 lit := line.getD (n + 2) 0 } : UnitWord)
  let more := fun (n : Nat) => n < 2 && (line.getD (n + 1) 0).getLsbD 31
  if !more slot then [at_ slot] else if !more (slot + 1) then [at_ slot, at_ (slot + 1)]
  else [at_ slot, at_ (slot + 1), at_ (slot + 2)]

/-- PC after a word: the next slot, past the word's literal (R22, R36, R38). -/
def pcAfter (k : Kind) (pc : DWord) (word : Word) : DWord :=
  if isCarrier word then nextSlot k (nextSlot k pc) else nextSlot k pc

/-- The issue unit at a PC, from the words fetched there: one word, or on a D-core a chain; an L-stream literal is fetched with
its carrier (R31, R38, R40). -/
def issueUnit (k : Kind) (pc : DWord) (line : List Word) : List UnitWord :=
  match k with
  | .dcore => chainFrom line (BitVec.ofNat 64 (fetchVa k pc)) (slotOf pc)
  | .lcore => [{ pc := pc, word := line.getD 0 0, lit := line.getD 1 0 }]

/-- The words at a PC with their page, or the fault of the fetch; an L-stream carrier brings its literal, whose own fetch may
fault. -/
def State.fetchLine (s : State) (t : Team) (pc : DWord) : Except AFault (Page × List Word) :=
  match s.fetchAt t pc with
  | .error e => .error e
  | .ok (p, pa) =>
    let ws := s.fetched t pc pa
    match t.kind with
    | .dcore => .ok (p, ws)
    | .lcore =>
      if isCarrier (ws.getD 0 0) then
        match s.fetchAt t (pc + 4) with
        | .error e => .error e
        | .ok (_, pa') => .ok (p, ws.take 1 ++ s.fetched t (pc + 4) pa')
      else .ok (p, ws)

/-! ## Resuming (R36) -/

/-- May a thread resume at a PC: in the D-packet encoding no schedule word and no literal slot (R36)? -/
def State.resumeOk (s : State) (t : Team) (pc : DWord) : Bool :=
  match t.kind with
  | .lcore => true
  | .dcore =>
    if pc.toNat % 4 ≠ 0 || pc.toNat % 16 = 0 then false
    else match s.fetchLine t pc with
      | .ok (_, line) => !(literalSlots line).contains (slotOf pc)
      | .error _ => true

end Sys2Proof.Machine
end

