-- ==== Sys2Proof/Machine/Exit.lean ====
section
/-! DEFINITION. EXIT (R156, R293, R312) and the retirement of groups (R143, R144). -/

namespace Sys2Proof.Machine

/-- Does the word at issue end the last live threads of its team? -/
def State.lastOfTeam (s : State) (t : Team) : Bool :=
  t.groups.all fun g => g.threads.all fun x => s.members.contains (g.gid, x.lane)

/-- The exit of a team's last threads: its conversation and its pending fork results go with it (R316, R327). -/
def State.endTeam (s : State) (team : Nat) : State :=
  (s.modTeam team fun t => { t with conv := none }).discardRivals team 5

/-- A fatal record of the word at issue about all its threads: of several groups, it names none and the lanes of all (R393). -/
def State.fatalThreads (s : State) (t : Team) (cause : Nat) : State :=
  let gs := s.curGids
  let first := s.members.head?.bind fun m => t.thread? m.1 m.2
  let pcs := s.bothPcs t (first.bind fun x => x.point) s.cur.pc
  let r := s.teamRecord t cause (if gs.length ≤ 1 then gs.headD 0 else 0xFF) (laneMask (s.members.map (·.2))) s.cur.word.toNat pcs 0
  s.putRecords t.ctx [({ r with fatal := true }, none)]

/-- EXIT: inside a block the routine fails with code 9; a cluster member whose window accesses no phase has covered is fatal;
else the threads end, a group's last one after its stores are accepted (R156, R221, R293, R312). -/
def execExit (s : State) : Host.Outcome State Fault Refusal :=
  match s.curTeam with
  | none => .next s
  | some t =>
    if !t.levels.isEmpty then .next (s.failRoutine t.key 9)
    else
      let last := s.lastOfTeam t
      if last && t.parent.isNone && t.clusterOpen && s.clusterSize t > 1 then
        .next (s.fatalThreads t cClusterexit)
      else .next (s.lastThreads fun s =>
        let s := s.endThreads t.key s.members
        if last then s.endTeam t.key else s.orderDone t.key)

/-- May a DRAINING group retire: its flags are idle and its stores accepted (R143)? -/
def State.canRetire (s : State) (t : Team) (g : Group) : Bool :=
  g.st == .draining && g.flagsIdle && !s.storesPending t.key g.gid

/-- GROUP_RETIRE: the group ceases to exist; its team frees its resources with its last group (R143, R144). -/
def execGroupRetire (s : State) : Host.Outcome State Fault Refusal :=
  match s.arg with
  | [team, gid] => match s.team? team with
    | none => .next s
    | some t => match t.group? gid with
      | none => .next s
      | some g =>
        if !s.canRetire t g then .next s
        else
          let s := s.modTeam team fun t => { t with groups := t.groups.filter fun x => x.gid != gid }
          .next (s.reapTeam team)
  | _ => .next s

end Sys2Proof.Machine
end

