-- ==== Sys2Proof/Machine/Place.lean ====
section
/-! DEFINITION. Placement: MIGRATE, EQPT and KLAUNCH (R339 to R341, R364), migration between the kinds of core (R342 to R345)
and thermal migration (R346). -/

namespace Sys2Proof.Machine

/-- The other kind of core. -/
def otherKind : Kind → Kind
  | .dcore => .lcore
  | .lcore => .dcore

/-- Code of a kind in a record (R345). -/
def kindCode : Kind → Nat
  | .lcore => 0
  | .dcore => 1

/-! ## MIGRATE and EQPT -/

/-- Refusal code of a request when it is made (R342 Table 3). -/
def State.requestRefusal (s : State) (t : Team) (target : Kind) : Option Nat :=
  match s.kindRefusal t target with
  | some c => some c
  | none => if s.clusterSize t > 1 then some 5 else if (s.coreFor t target).isNone then some 6 else none

/-- EXTRA of a `MIGFAIL` record of a team (R345). -/
def migfailExtra (code : Nat) (target : Kind) : List Byte :=
  leBytes 1 1 ++ leBytes 1 code ++ leBytes 1 (kindCode target) ++ leBytes 1 0

/-- Both PCs of the `MIGRATE` at issue in a group (R345). -/
def State.migratePcs (s : State) (t : Team) (gid : Nat) : DWord × DWord :=
  s.bothPcs t (((s.lanesOf gid).head?.bind fun l => t.thread? gid l).bind fun x => x.point) s.cur.pc

/-- `MIGRATE` of one sub-squad (R341). -/
def State.migrateGroup (s : State) (team gid k : Nat) : State :=
  match s.team? team with
  | none => s
  | some t =>
    let target := if k = 0 then Kind.lcore else if k = 1 then Kind.dcore else otherKind t.kind
    if target == t.kind || t.migr.isSome then s
    else match s.requestRefusal t target with
      | none =>
        s.modTeam team fun t => { t with migr := some { target := target, since := s.now, gid := gid, lanes := laneMask (s.lanesOf gid),
                                                        word := s.cur.word.toNat, pcs := s.migratePcs t gid } }
      | some c =>
        if k = 2 then s
        else
          let r := s.teamRecord t cMigfail gid (laneMask (s.lanesOf gid)) s.cur.word.toNat (s.migratePcs t gid) 0
          s.putRecords t.ctx [({ r with extra := migfailExtra c target }, none)]

/-- MIGRATE: completes at issue; without the feature, no effect (R312, R331, R341, R355). -/
def execMigrate (k : BitVec 2) (s : State) : Host.Outcome State Fault Refusal :=
  match s.curTeam with
  | none => .next s
  | some t =>
    if !s.feature 3 then .next s
    else .next (s.outsideOnly t (s.endingEffect fun s => s.curGids.foldl (fun s g => s.migrateGroup t.key g k.toNat) s))

/-- EQPT: illegal in a D-packet (R41); in the L-stream it marks that the thread has passed the point (R340, R347). -/
def execEqpt (i : BitVec 16) (s : State) : Host.Outcome State Fault Refusal :=
  match s.curTeam with
  | none => .next s
  | some t => match t.kind with
    | .dcore => .next (s.trapAll cIllop 0)
    | .lcore => .next (s.modTeam t.key fun u => u.modThreads s.members fun _ x => { x with point := some i.toNat })

/-! ## KLAUNCH (R364) -/

/-- Is a queue enabled for `KLAUNCH`: not DISABLED, with kernels as its producer (R364, R374)? -/
def Context.klaunchOk (c : Context) (q : Nat) : Bool :=
  c.queues.any fun x => x.num == q && x.st != .disabled && x.kernels

/-- Deliver, stage or hold back the packet of one group (R315, R329, R364, R367). -/
def State.sendPacket (s : State) (t : Team) (gid q : Nat) (p : List Byte) : State :=
  let e := s.heldEntry t gid ((s.lanesOf gid).headD 0) (.klaunch q p)
  if t.defers then s.toOutbox t.key e
  else if s.isDet t && !t.turn then s.modTeam t.key fun t => { t with staged := t.staged ++ [e] }
  else s.groupOp gid 0 (.klaunch q p none e.pcs)

/-- Has the word at issue packets on their way? -/
def State.sending (s : State) : Bool := s.ops.any fun o => (match o.what with
  | .klaunch _ _ _ _ => true
  | _ => false) && o.team == s.cur.team && o.iss.squad == s.cur.squad && o.iss.pc == s.cur.pc

/-- The packet's address and queue in one group (R364). -/
def State.klaunchArgs (s : State) (t : Team) (k : BitVec 5) (q : BitVec 6) (g : Nat) : Nat × Nat :=
  ((s.rdS2 t g k.toNat).toNat, (s.rdS t g q.toNat).toNat)

/-- KLAUNCH: `ILLOP` for a queue that is not enabled, `MISALIGN` for the address, faults as an `LD`; then a release at `.dev`
and the packet, for whose writing the squad waits (R364, R365, R374). -/
def execKlaunch (k : BitVec 5) (q : BitVec 6) (s : State) : Host.Outcome State Fault Refusal :=
  match s.readTeam with
  | none => .next s
  | some t => match s.ctxOf t with
    | none => .next s
    | some c =>
      let arg := s.klaunchArgs t k q
      if s.passed.isSome then .next s
      else if !s.cur.cleared && s.moveWaits t false (s.curGids.flatMap fun g =>
          s.placesOf t g ((s.lanesOf g).headD 0) (arg g).1 64) then .next s.retryWord
      else .next (s.endingEffect fun s =>
        let s := s.noteCluster t.key (s.curGids.map fun g => (arg g).1)
        let noQueue := s.curGids.filter fun g => !c.klaunchOk (arg g).2
        let skew := s.curGids.filter fun g => c.klaunchOk (arg g).2 && (arg g).1 % 64 ≠ 0
        let rest := s.curGids.filter fun g => c.klaunchOk (arg g).2 && (arg g).1 % 64 = 0
        let reachOf := fun (g : Nat) => s.reach t c (match t.thread? g ((s.lanesOf g).headD 0) with
          | some x => x.tid
          | none => 0) .load (arg g).1 64
        let faults := rest.flatMap fun g => match reachOf g with
          | .error e => (s.lanesOf g).map fun l => (g, l, (arg g).1, e)
          | .ok _ => []
        let packets := rest.filterMap fun g => match reachOf g with
          | .ok sp => some (g, sp.map fun p =>
              s.loadByte t { team := t.key, gid := g, lane := (s.lanesOf g).headD 0 } p)
          | .error _ => none
        let s := s.takeTraps (noQueue.flatMap fun g => (s.lanesOf g).map fun l => (g, l, cIllop, BitVec.ofNat 64 (arg g).2))
        let s := s.takeTraps (skew.flatMap fun g => (s.lanesOf g).map fun l => (g, l, cMisalign, BitVec.ofNat 64 (arg g).1))
        let s := s.accessFaults faults
        let s := s.fenceOps 1 3 false
        let s := packets.foldl (fun s p => s.sendPacket t p.1 (arg p.1).2 p.2) s
        if s.sending then s.waitOn (.delivery s.keys) else s)

/-! ## Migration (R342 to R345) -/

/-- The records of the points at which a team's live threads stand parked, if all of them do (R343). -/
def Team.allParked (t : Team) : Bool :=
  t.groups.all fun g => g.threads.all fun x => match x.park with
    | some (.point _) => true
    | _ => false

/-- The record of the point a thread is parked at. -/
def State.parkedAt (s : State) (t : Team) (x : Thread) : Option EqRec :=
  match x.park with
  | some (.point id) => (s.imageOf t).bind fun i => i.pointOf (some id)
  | _ => none

/-- Can a thread's return stack be carried over: its depth is its point's, every entry is in the map (R342 code 8)? -/
def State.stackFits (s : State) (t : Team) (target : Kind) (gid : Nat) (x : Thread) : Bool :=
  match s.parkedAt t x, s.imageOf t, s.spilled t gid x with
  | some e, some i, some sp =>
    e.depth == x.depth && x.stack.all (fun pc => (i.siteTo target pc).isSome) && sp.all fun p => (i.siteTo target p.2).isSome
  | _, _, _ => false

/-- Do the threads of each group stand at points with one scalar map (R342 code 8)? The spec does not say whether maps that list
the same pairs in another order differ: they do, and the request is refused (DESIGN CHOICE, log entry 90). -/
def State.scalarsAgree (s : State) (t : Team) : Bool :=
  t.groups.all fun g => (uniq (g.threads.map fun x => (s.parkedAt t x).map fun e => e.scal)).length ≤ 1

/-- Refusal code when all threads have parked (R342 codes 6 to 8). -/
def State.parkedRefusal (s : State) (t : Team) (target : Kind) : Option Nat :=
  if !t.chains.isEmpty || t.convs.any (fun c => match c.round with
      | some r => !r.signers.isEmpty
      | none => false) then some 7
  else if !((t.groups.all fun g => g.threads.all fun x => s.stackFits t target g.gid x) && s.scalarsAgree t) then some 8
  else if (s.coreFor t target).isNone then some 6
  else none

/-- The old and the new number of a map entry (D number, L number) on the way to a kind (R336, R343). -/
def mapPair (target : Kind) (p : Nat × Nat) : Nat × Nat := match target with
  | .lcore => p
  | .dcore => (p.2, p.1)

/-- Registers `lo` to `lo + n - 1` after a migration: mapped ones take the old values, every other one is free (R70, R343; log
entry 4). -/
def mapRegs {w : Nat} (target : Kind) (es : List (Nat × Nat)) (lo n : Nat) (old : Sparse w) (free : Nat → BitVec w) : Sparse w :=
  let base := (upFrom lo n).foldl (fun m r => sput r (free r) m) []
  (es.map (mapPair target)).foldl (fun m p => sput p.2 (sget p.1 old) m) base

/-- Predicates 1 to 7 of a thread after a migration (R343). -/
def mapPreds (target : Kind) (es : List (Nat × Nat)) (old : BitVec 8) (free : Nat → Bool) : BitVec 8 :=
  let base := (upFrom 1 7).foldl (fun p n => setPred p n (free n)) 1#8
  (es.map (mapPair target)).foldl (fun p e => setPred p e.2 (predBit old e.1)) base

/-- A thread carried over to the other encoding at its point (R343, R347). -/
def State.carryThread (s : State) (i : Image) (target : Kind) (gid : Nat) (e : EqRec) (x : Thread) : Thread :=
  let code := (gid * 64 + x.lane) * 256
  { x with
    v := mapRegs target e.vec 0 i.vregs x.v fun r => Config.freeWord s.fresh (code + r),
    p := mapPreds target e.pred x.p fun n => Config.freeBit s.fresh (code + 128 + n),
    stack := x.stack.map fun pc => (i.siteTo target pc).getD pc,
    pc := pickPc target (e.dpc, e.lpc), park := none, point := some e.id }

/-- A group of a state saved for an open level, carried over with the team: the registers that the restore would put back follow
the maps of the points at which the threads have parked, and the free values are those of the team's own registers (R310, R318,
R343). The spec says that open levels are carried and not how their logs are: that they follow the maps is the model's choice
(DESIGN CHOICE, log entry 96). -/
def State.carryLogged (s : State) (t : Team) (i : Image) (target : Kind) (o : Group) : Group :=
  match t.group? o.gid with
  | none => o
  | some g =>
    let scal := match (g.threads.head?).bind fun x => s.parkedAt t x with
      | some e => mapRegs target e.scal 1 62 o.s fun r => Config.freeWord s.fresh (2 ^ 24 + g.gid * 64 + r)
      | none => o.s
    { o with s := scal, threads := o.threads.map fun y => match (g.thread? y.lane).bind fun x => s.parkedAt t x with
        | some e => { s.carryThread i target g.gid e y with pc := y.pc, park := y.park, point := y.point }
        | none => y }

/-- The states saved for the open levels of a team, carried over with it (R343). -/
def State.carrySnaps (s : State) (t : Team) (i : Image) (target : Kind) : State :=
  let mine := t.levels.map fun l => l.snap
  let carry := fun (x : Snap) => { x with team := { x.team with groups := x.team.groups.map (s.carryLogged t i target) } }
  { s with snaps := updIf (fun x => mine.contains x.key) carry s.snaps }

/-- A group carried over (R343): scalars by the map of its threads' points. -/
def State.carryGroup (s : State) (t : Team) (i : Image) (target : Kind) (g : Group) : Group :=
  match (g.threads.head?).bind fun x => s.parkedAt t x with
  | none => g
  | some e =>
    let scal := mapRegs target e.scal 1 62 g.s fun r => Config.freeWord s.fresh (2 ^ 24 + g.gid * 64 + r)
    { g with s := scal, threads := g.threads.map fun x => match s.parkedAt t x with
        | some r => s.carryThread i target g.gid r x
        | none => x }

/-- A refusal after the request: one record that names the team, or with code 6 the sub-squad of the `MIGRATE`, and the parked
threads go on in trays (R343, R345). -/
def State.refuseMigration (s : State) (t : Team) (m : Migr) (code : Nat) : State :=
  let lowest := (sortBy (fun (a b : Group) => decide (a.gid ≤ b.gid)) (t.groups.filter fun g => !g.threads.isEmpty)).head?
  let first := lowest.bind fun g => (sortBy (fun (a b : Thread) => decide (a.lane ≤ b.lane)) g.threads).head?
  let pcs := match first with
    | some x => s.bothPcs t x.point x.pc
    | none => (0, 0)
  let r := if code ≤ 6 then s.teamRecord t cMigfail m.gid m.lanes m.word m.pcs 0 else s.teamRecord t cMigfail 0xFF t.liveLanes 0 pcs 0
  let s := s.putRecords t.ctx [({ r with extra := migfailExtra code m.target }, none)]
  let parked := t.groups.flatMap fun g => (g.threads.filter fun x => match x.park with
    | some (.point _) => true
    | _ => false).map fun x => (g.gid, x.lane)
  let s := s.modTeam t.key fun t =>
    { t with migr := none }.modThreads parked fun _ x => { x with park := none }
  s.refile t.key (sortBy threadLe parked)

/-- May a team go onto a core: one of its context's, of its kind, with room (R361, R403)? -/
def State.coreOk (s : State) (t : Team) (k : Kind) (core : Nat) : Bool :=
  match s.ctxOf t with
  | some c => (s.contextCores c k).contains core && s.coreFits core (s.needs t)
  | none => false

/-- MIGRATION_PERFORM: all live threads have parked: the request is refused, or the team is saved, carried over and restored on
the target core (R343). -/
def execMigrationPerform (s : State) : Host.Outcome State Fault Refusal :=
  match s.arg with
  | [team, core] => match s.team? team with
    | none => .next s
    | some t => match t.migr, s.imageOf t with
      | some m, some i =>
        if t.st != .running || !t.allParked || !t.mops.isEmpty then .next s
        else match s.parkedRefusal t m.target with
          | some c => .next (s.refuseMigration t m c)
          | none =>
            let s := s.commitTeam team
            if !s.saveReady t || !s.coreOk t m.target core then .next s
            else
              let s := ((s.carrySpilled t i m.target).saveTeam t).carrySnaps t i m.target
              let s := s.modTeam team fun u => { u with migr := none, groups := u.groups.map (s.carryGroup t i m.target) }
              match s.team? team with
              | none => .next s
              | some u => .next (s.restoreTeam u core)
      | _, _ => .next s
  | _ => .next s

/-- Cycles of 1 ms (R6, R344). -/
def migrationLimit : Nat := 1000 * Config.cyclesPerUs

/-- MIGRATION_TIMEOUT: the request has been pending for 1 ms: refused with code 9 (R344). -/
def execMigrationTimeout (s : State) : Host.Outcome State Fault Refusal :=
  match s.arg with
  | [team] => match s.team? team with
    | none => .next s
    | some t => match t.migr with
      | none => .next s
      | some m =>
        if t.st == .saved || t.st == .suspended || s.now < m.since + migrationLimit then .next s
        else .next (s.refuseMigration t m 9)
  | _ => .next s

/-! ## Thermal migration (R346) -/

/-- Cycles a team must stay on a core before it is moved thermally (R346). -/
def thermalStay : Nat := 2000 * Config.cyclesPerUs

/-- The junction temperature, in degrees Celsius, from which teams are moved off a D-core (R346). -/
def hotCore : Nat := 95

/-- The members of a team's cluster, itself included. -/
def State.clusterTeams (s : State) (t : Team) : List Team :=
  let c := s.clusterSize t
  if c ≤ 1 then [t] else s.teams.filter fun u => u.launch == t.launch && u.parent.isNone && u.index / c == t.index / c

/-- May a team that a thermal migration has stopped be restored on a core: the cooler one it was to go to, a cluster's quad, or,
where that is not free any more, any but the one it left (R346)? -/
def State.coolFor (s : State) (t : Team) (core : Nat) : Bool := match t.heat with
  | none => true
  | some k =>
    let same := fun (a b : Nat) => if s.clusterSize t ≤ 1 then a == b else quadOf a == quadOf b
    if s.coreOk t .dcore k then same core k else !same core t.core

/-- THERMAL_MIGRATION: a team that has stayed 2 ms on its D-core, whose temperature has reached 95 °C, and has no request pending
is saved and restored on another, cooler D-core, a cluster whole on that core's quad, which is another one; where the save cannot
be complete at once, the stop begins, and the team is restored there when it is saved (R346, R400). The input gives the two
temperatures. -/
def execThermalMigration (s : State) : Host.Outcome State Fault Refusal :=
  match s.arg with
  | [team, core, here, there] => match s.team? team with
    | none => .next s
    | some t =>
      let ms := s.clusterTeams t
      let away := if ms.length ≤ 1 then core != t.core else quadOf core != quadOf t.core
      let movable := fun (u : Team) =>
        u.st == .running && u.kind == .dcore && u.migr.isNone && s.now ≥ u.placedAt + thermalStay
      if !ms.all movable || !away || here < hotCore || there ≥ here || kindOf core != .dcore then .next s
      else
        let s := ms.foldl (fun s (u : Team) => s.commitTeam u.key) s
        if ms.all fun u => s.saveReady u then
          let saved := ms.foldl (fun s (u : Team) => s.saveTeam u) s
          let place := fun (acc : Option State) (u : Team) => match acc with
            | none => none
            | some s =>
              let cores := if ms.length ≤ 1 then [core] else upFrom (4 * quadOf core) 4
              match cores.find? fun x => s.coreOk u .dcore x with
              | some x => (s.team? u.key).map fun v => s.restoreTeam v x
              | none => none
          .next ((ms.foldl place (some saved)).getD s)
        else .next (ms.foldl (fun s (u : Team) => s.modTeam u.key fun u => { u with st := .stopping, heat := some core }) s)
  | _ => .next s

end Sys2Proof.Machine
end

