-- ==== Sys2Proof/Machine/Sys.lean ====
section
/-! DEFINITION. NOP (R33) and the words of SYS: TRAP, RTT, ICINV, BKPT (R399). -/

namespace Sys2Proof.Machine

/-- NOP: no effect but the flag counting of its slot (R33). -/
def execNop (s : State) : Host.Outcome State Fault Refusal := .next s

/-- TRAP: `SWTRAP` with tval = imm8 (R399). -/
def execTrap (i : BitVec 8) (s : State) : Host.Outcome State Fault Refusal := .next (s.trapAll cSwtrap (i.setWidth 64))

/-- BKPT (R399). -/
def execBkpt (s : State) : Host.Outcome State Fault Refusal := .next (s.trapAll cBkpt 0)

/-- What `RTT` does in one thread: it returns, traps, or its frame cannot be read (R399). -/
inductive Return where
  | back (th : Thread)
  | trap (cause : Nat) (tval : DWord)
  | fault (va : Nat) (f : AFault)

/-- `RTT` of one thread (R36, R399). -/
def State.returnOf (s : State) (t : Team) (gid : Nat) (th : Thread) : Return :=
  if !th.handler then .trap cIllop 0
  else match s.privRange t th.tid .load th.tframe.toNat 64 with
    | .error (f, va) => .fault va f
    | .ok sp =>
      let frame := sp.map fun p => s.readByte t { team := t.key, gid := gid, lane := th.lane } p
      let back := th.returnFrom frame (t.kind == .dcore)
      if s.resumeOk t back.pc then .back back else .trap cBadtarget back.pc

/-- RTT: v0 to v7 and p1 to p7 from the frame, the PC from the epc of the running encoding, the thread READY; outside a
handler `ILLOP`, a forbidden resume PC `BADTARGET` (R36, R399). A frame on a page under a move is waited for (R191). -/
def execRtt (s : State) : Host.Outcome State Fault Refusal :=
  match s.curTeam with
  | none => .next s
  | some t =>
    if !s.cur.cleared && s.members.any fun m => (t.thread? m.1 m.2).any fun th => th.handler && s.privMoves t th false th.tframe.toNat 64 then
      .next s.retryWord else
    let rs := s.members.filterMap fun m => (t.thread? m.1 m.2).map fun th => (m.1, m.2, s.returnOf t m.1 th)
    let s := rs.foldl (fun (s : State) r => match r.2.2 with
      | .back th => s.modThread t.key r.1 r.2.1 fun _ => th
      | _ => s) s
    let traps := rs.filterMap fun r => match r.2.2 with
      | .trap c v => some (r.1, r.2.1, c, v)
      | _ => none
    let faults := rs.filterMap fun r => match r.2.2 with
      | .fault va f => some (r.1, r.2.1, va, f)
      | _ => none
    .next ((s.takeTraps traps).accessFaults faults)

/-- ICINV: for each group a release at `.dev`, then the drop of the context's fetched words in range on every core; the squad
waits until that is complete (R399). -/
def execIcinv (k l : BitVec 5) (s : State) : Host.Outcome State Fault Refusal :=
  match s.readTeam with
  | none => .next s
  | some t =>
    if s.passed.isSome then .next s
    else .next (s.endingWord fun s =>
      let s := s.curGids.foldl (fun s g =>
        s.groupOp g 0 (.icinv (s.rdS2 t g k.toNat).toNat (s.rdS2 t g l.toNat).toNat g (s.lanesOf g)
          (s.fenceSets 1 s.cur.team g (s.lanesOf g)))) s
      s.waitOn (.fence s.keys))

end Sys2Proof.Machine
end

