-- ==== Sys2Proof/Machine/Order.lean ====
section
/-! DEFINITION. Events of results and of memory order: results written (R49, R107), stores accepted (R25), fences complete (R208),
atomic requests performed (R201), and the events of chunks and of their commits (R221, R224, R225, R226). -/

namespace Sys2Proof.Machine

/-! ## Results -/

/-- May an operation complete: its delay has passed? -/
def Op.due? (o : Op) (now : Nat) : Bool := o.due ≤ now

/-- An operation completes: its flag counts fall (R25). -/
def State.finishOp (s : State) (o : Op) : State := (s.dropOp o.key).toksDone o.toks

/-- RESULT_WRITEBACK (R25, R49, R107). -/
def execResultWriteback (s : State) : Host.Outcome State Fault Refusal :=
  match s.arg with
  | [key] => match s.op? key with
    | some o => if o.what.isResult && o.due? s.now then .next ((s.writeResult o).finishOp o) else .next s
    | none => .next s
  | _ => .next s

/-! ## Fences (R207 to R209) -/

/-- An operation seen as a fence: kind, scope, group, lanes and the laminae it waits for; `ICINV` is a release at `.dev`
(R399). -/
def Op.fence? (o : Op) : Option (Nat × Nat × Nat × List Nat × List Nat) := match o.what with
  | .fence k sc g ls lams => some (k, sc, g, ls, lams)
  | .icinv _ _ g ls lams => some (1, 3, g, ls, lams)
  | _ => none

/-- Does a fence in flight hold back later words of a thread on memory (R208)? -/
def State.fenced (s : State) (team gid lane : Nat) : Bool :=
  s.ops.any fun o => o.team == team && (match o.fence? with
    | some f => f.2.2.1 == gid && f.2.2.2.1.contains lane
    | none => false)

/-- Is an earlier release fence of a thread still in flight, before an operation (R208, R209)? -/
def State.releasing (s : State) (key team gid lane : Nat) : Bool :=
  s.ops.any fun o => o.key < key && o.team == team && (match o.fence? with
    | some f => (f.1 == 1 || f.1 == 2 || f.1 == 4) && f.2.2.1 == gid && f.2.2.2.1.contains lane
    | none => false)

/-- Is an operation a non-temporal store to a pod window, which only `DRAIN.NT` waits for (R218)? -/
def Op.ntPod (o : Op) : Bool := match o.what with
  | .remote _ _ _ (.store _) => (match instrOf o.iss.word with
    | some (.st _ _ _ _ h) => h == 2
    | _ => false)
  | _ => false

/-- Does an operation store to a place other than private memory, on which no fence acts (R217)? -/
def OpKind.shares (k : OpKind) : Bool := match k with
  | .store ws _ => ws.any fun w => match w.at_.loc with
    | .priv _ _ => false
    | _ => true
  | _ => false

/-- Stores of some threads before an operation that L1 has not accepted; non-temporal ones stand apart (R199, R208, R217). -/
def State.earlierStores (s : State) (o : Op) (gid : Nat) (lanes : List Nat) (nt : Bool) : Bool :=
  s.ops.any fun x => x.key < o.key && x.team == o.team && x.what.shares && (match x.what with
    | .store ws n => n == nt && ws.any fun w => w.who.gid == gid && lanes.contains w.who.lane
    | _ => false)

/-- Reads of some threads before an operation that have not returned: loads, atomics, and requests to a pod or the host; for a
`DRAIN.NT` their non-temporal stores to pod windows alone (R208, R218). -/
def State.earlierReads (s : State) (o : Op) (gid : Nat) (lanes : List Nat) (nt : Bool) : Bool :=
  let mine := fun (x : Op) => x.iss.members.any fun m => m.1 == gid && lanes.contains m.2
  s.ops.any fun x => x.key < o.key && x.team == o.team && mine x && x.ntPod == nt && (match x.what with
    | .vres _ _ => true
    | .atomic _ _ _ _ _ => true
    | .remote _ _ _ _ => true
    | _ => false)

/-- Has a committed write reached the stage of a scope for the agents of a die (R224 Table 3)? -/
def Flight.staged (f : Flight) (die scope : Nat) : Bool := scope < 2 || (scope = 2 && f.acks.contains die)

/-- Have the writes that a fence covers reached the stage of its scope: the write sets it names and, for a release, what its die
committed before it, so that writes ordered before those of its thread are covered too (R208, R210, R211, R224)? Between agents that
share no instance the spec leaves the order open (R204): which of the allowed orders occur is the model's choice (DESIGN CHOICE, log
entry 25). -/
def State.staged (s : State) (o : Op) (kind scope : Nat) (lams : List Nat) : Bool :=
  let die := match s.team? o.team with
    | some t => dieOf t.core
    | none => 0
  s.flights.all fun f => f.staged die scope
    || !(lams.contains f.lam || (kind != 0 && kind != 3 && f.die == die && f.key < o.key))

/-- What a fence makes its core give up before it completes: its LOOSE bytes for `FENCE.AR`, every dirty byte for `ALIASFENCE`, its
threads' non-temporal stores for `DRAIN.NT` at every scope, since later releases carry them, and, for a `FENCE.ACQ` beyond the quad,
the writes that its threads have read from what the core keeps (R208, R216, R218, R219). -/
def Op.yields (o : Op) (core : Nat) (h : Held) : Bool := h.dirty && (match o.what with
  | .fence k sc g ls lams =>
    if k = 4 then h.core == core
    else if k = 3 then h.team == o.team && h.line.nt.any fun m => m.1 == g && ls.contains m.2
    else if k = 2 then sc > 0 && h.core == core && h.line.ord == 2
    else k == 0 && sc > 1 && lams.contains h.line.seq
  | _ => false)

/-- Are the accesses before a fence performed as far as their core, and its write sets granted where its scope is wider; for an
`ALIASFENCE` at every scope (R208, R219, R224)? -/
def State.fenceLocal (s : State) (o : Op) : Bool :=
  match o.fence? with
  | none => false
  | some (k, sc, g, ls, lams) =>
    let granted := (sc = 0 && k ≠ 4) || (k = 0 && sc < 2) || !(s.lams.any fun l => lams.contains l.key)
    let stored := match k with
      | 0 => true
      | 3 => !s.earlierStores o g ls true
      | _ => !s.earlierStores o g ls false
    granted && stored && !s.earlierReads o g ls (k == 3)

/-- The core of an operation's team. -/
def State.opCore (s : State) (o : Op) : Nat := match s.team? o.team with
  | some t => t.core
  | none => 0

/-- Is a fence's condition met (R208 Table 2)? -/
def State.fenceMet (s : State) (o : Op) : Bool :=
  match o.fence? with
  | none => false
  | some (k, sc, _, _, lams) =>
    s.fenceLocal o && s.staged o k sc lams && !(s.held.any fun h => o.yields (s.opCore o) h)

/-- Fences whose own accesses are done make their cores give up what they hold back; they wait for that too (R208, R216, R218). -/
def State.fencesYield (s : State) : State :=
  if !(s.held.any fun h => h.dirty) then s
  else s.ops.foldl (fun s o =>
    let core := s.opCore o
    if s.fenceLocal o && s.held.any fun h => o.yields core h then
      let (ks, s) := s.giveUp fun h => o.yields core h
      s.modOp o.key fun o => match o.what with
        | .fence k sc g ls lams => { o with what := .fence k sc g ls (lams ++ ks) }
        | _ => o
    else s) s

/-- An `ALIASFENCE` completes on a core: values written back before are read afresh there, and what its quad has written is written
back; a `FENCE.AR` drops the core's clean LOOSE copies, and an `ALIASFENCE` all the clean copies it keeps; after a `DRAIN.NT` the
stores it drained are ordinary ones, those too that have not committed yet (R208, R216, R218, R219). -/
def State.fenceDrops (s : State) (o : Op) : State :=
  match o.what with
  | .fence k sc g ls _ =>
    let core := s.opCore o
    let s := if (k = 2 && sc > 0) || k = 4 then
        s.looseFresh core
      else s
    if k = 3 then
      let drained : Line → Line := fun x => if x.nt.any fun m => m.1 == g && ls.contains m.2 then { x with nt := none } else x
      { s with lams := updIf (fun l => l.owner == .chunk && l.team == o.team) (fun l => { l with lines := l.lines.map drained }) s.lams }
    else if k = 4 then
      let pass : Shadow → Shadow := fun h =>
        { h with cleared := if h.back then addGrain core h.cleared else h.cleared, back := h.back || quadOf h.core == quadOf core }
      { s with shadows := s.shadows.map pass, writes := s.writes.map pass }
    else s
  | _ => s

/-- Does an address lie in the range of an `ICINV` (R399)? -/
def inRange (a n va : Nat) : Bool := n ≥ 2 ^ 32 || (va + 2 ^ 64 - a) % 2 ^ 64 < n

/-- Fetched words of a context in a range are dropped on every core (R399). -/
def State.dropFetched (s : State) (ctx a n : Nat) : State :=
  { s with icache := s.icache.filter fun f => !(f.ctx == ctx && (inRange a n f.va || inRange a n (f.va + 3))) }

/-- FENCE_COMPLETE: the condition is met (R208); an `ICINV` drops what the context's cores hold (R399). -/
def execFenceComplete (s : State) : Host.Outcome State Fault Refusal :=
  match s.arg with
  | [key] => match s.op? key with
    | none => .next s
    | some o =>
      if !s.fenceMet o then .next s
      else
        let s := match o.what, s.team? o.team with
          | .icinv a n _ _ _, some t => s.dropFetched t.ctx a n
          | _, _ => s
        .next ((s.fenceDrops o).finishOp o)
  | _ => .next s

/-! ## Stores (R25, R199, R223) -/

/-- One byte of a store is performed, a provisional one into a chunk (R199, R223, R225): a place that a running chain also writes
is left undefined (R230). -/
def State.storeByte (s : State) (o : Op) (nt : Bool) (chunk : Option Nat) (w : StoreByte) : State :=
  let lay := match s.team? o.team with
    | some t => if w.direct then none else t.layer t.levels.length
    | none => none
  let loc := w.at_.loc
  let clash := s.chainHits lay loc
  let b := if clash then Config.freeByte s.fresh loc.code else w.byte
  let s := if clash then s.spoilCopies lay loc else s
  match loc with
  | .scratch k off => match s.team? o.team with
    | some t => s.putScratch o.team k t.levels.length off b
    | none => s
  | .priv k at_ => (s.modTeam k fun t => { t with priv := bput at_ b t.priv }).privNoted k [w.at_.grain]
  | .mem pa =>
    if w.direct then s.externalByte (s.opCore o) pa b w.at_.grain
    else match chunk with
      | some k => s.chunkWrite k w.at_ pa b (if nt then some (w.who.gid, w.who.lane) else none)
      | none => s
  | .pod _ _ => s

/-- Is an earlier store or atomic of a thread to the same byte outstanding (R199, R212, R217)? -/
def State.sameEarlier (s : State) (key : Nat) (a : Agent) (x : Spot) : Bool :=
  s.ops.any fun o => o.key < key && (match o.what with
    | .store ws _ => ws.any fun w => w.who == a && w.at_.same x
    | .atomic u _ _ _ ls => o.team == a.team && (ls.any fun l => l.gid == a.gid && l.lane == a.lane) && u.any fun y => y.same x
    | _ => false)

/-- Is an earlier external operation of a group outstanding (R189)? -/
def State.ioEarlier (s : State) (key team gid : Nat) : Bool :=
  s.ops.any fun o => o.key < key && o.team == team && (match o.what with
    | .store ws _ => ws.any fun w => w.at_.io && w.who.gid == gid
    | .atomic u _ _ _ ls => u.any (fun x => x.io) && ls.any fun l => l.gid == gid
    | _ => false)

/-- Have sub-squads still to issue the word of an operation: those of its squad that come after (R150)? -/
def State.roundOpen (s : State) (o : Op) : Bool := s.teams.any fun t => t.key == o.team && t.squads.any fun q =>
  q.unissued && q.join.any fun j => j.key == o.iss.round

/-- May L1 accept a store: its squad's sub-squads have all issued the word, the fences before it are complete, and what its
threads did earlier to its bytes, and their earlier external operations where it is one, are performed (R25, R150, R189, R199,
R208, R212)? -/
def State.storeReady (s : State) (o : Op) (ws : List StoreByte) : Bool :=
  o.due? s.now && !s.roundOpen o && ws.all fun w => !s.releasing o.key o.team w.who.gid w.who.lane && !s.sameEarlier o.key w.who w.at_
    && !(w.at_.io && s.ioEarlier o.key o.team w.who.gid)

/-- A store is performed: its bytes in the order of its lanes, the provisional ones into one chunk (R199, R205, R223). -/
def State.acceptStore (s : State) (o : Op) (ws : List StoreByte) (nt : Bool) : State :=
  let prov := ws.filter fun w => !w.direct && (match w.at_.loc with
    | .mem _ => true
    | _ => false)
  let (chunk, s) := match prov with
    | [] => (none, s)
    | w :: _ => s.storeTarget o.team w.who.gid o.key (uniq (prov.map fun x => x.at_.grain))
  ws.foldl (fun s w => s.storeByte o nt chunk w) s

/-- STORE_ACCEPT: L1 accepts the lanes of a store in ascending order, after the fences before it (R25, R199, R208). -/
def execStoreAccept (s : State) : Host.Outcome State Fault Refusal :=
  match s.arg with
  | [key] => match s.op? key with
    | none => .next s
    | some o => match o.what with
      | .store ws nt =>
        if s.storeReady o ws then .next ((s.acceptStore o ws nt).finishOp o) else .next s
      | _ => .next s
  | _ => .next s

/-! ## Atomics (R200, R201) -/

/-- The byte an atomic unit reads at a place: of the team's innermost layer, not of chunks; in memory the last write granted (R201,
R212, R298). -/
def State.homeByte (s : State) (t : Team) (x : Spot) : Byte :=
  match x.loc with
  | .mem pa =>
    let rec look : List (Option Nat) → Byte
      | [] => s.homeValue pa
      | none :: _ => s.homeValue pa
      | some k :: r => match latestLine ((s.lam? k).toList) x.grain pa with
        | some y => y.1.byte
        | none => look r
    look (s.lamChain s.lams.length t.base)
  | _ => s.locByte t x

/-- A sum in an order and grouping that the spec leaves open: two of the values left are added until one is left (R201; log
entry 4). -/
def freeSum (op fresh : Nat) : Nat → List Nat → Nat
  | 0, l => l.headD 0
  | fuel + 1, l =>
    if l.length ≤ 1 then l.headD 0
    else
      let i := (Config.freeWord fresh (2 * fuel)).toNat % l.length
      let x := l.getD i 0
      let r := l.eraseIdx i
      let j := (Config.freeWord fresh (2 * fuel + 1)).toNat % r.length
      freeSum op fresh fuel (r.eraseIdx j ++ [atomicNew op x (r.getD j 0) 0])

/-- The new value of a unit and each lane's return, from the old value (R201). -/
def atomicRun (op : Nat) (r : Bool) (fresh m : Nat) (lanes : List AtomLane) : Nat × List Nat :=
  if r then
    (freeSum op fresh lanes.length (m :: lanes.map fun l => l.x.toNat),
      lanes.zipIdx.map fun (p : AtomLane × Nat) => if p.2 = 0 then m else (Config.freeWord fresh (2 ^ 20 + p.2)).toNat)
  else lanes.foldl (fun acc l => (atomicNew op acc.1 l.x.toNat l.cmp.toNat, acc.2 ++ [acc.1])) (m, [])

/-- Perform an atomic request at its unit (R201); what the core keeps back of its bytes comes first (R212). -/
def State.performAtomic (s : State) (o : Op) (t : Team) (sp : List Spot) (op : Nat) (r : Bool)
    (dest : Option Nat) (lanes : List AtomLane) : State :=
  let level := t.levels.length
  let s := if s.held.isEmpty || t.base.isSome then s
    else (s.giveUp fun h => h.core == t.core && sp.any fun x => match x.loc with
      | .mem pa => h.line.holds x.grain pa
      | _ => false).2
  let m := leNat (sp.map fun p => if s.chainHits (t.layer level) p.loc then Config.freeByte s.fresh p.loc.code else s.homeByte t p)
  let (x, old) := atomicRun op r s.fresh m lanes
  let s := s.layerReads t level sp
  let s := (sp.zip (leBytes sp.length x)).foldl (fun s (p : Spot × Byte) =>
    let clash := s.chainHits (t.layer level) p.1.loc
    let b := if clash then Config.freeByte (s.fresh + 1) p.1.loc.code else p.2
    let s := if clash then s.spoilCopies (t.layer level) p.1.loc else s
    match p.1.loc with
    | .scratch k off => s.putScratch t.key k level off b
    | .mem pa => (s.dropCopies t.core p.1.grain pa).intoLayer t t.base pa b p.1
    | _ => s) s
  let s := match dest with
    | none => s
    | some d => s.modTeam t.key fun t => (lanes.zip old).foldl (fun (t : Team) (p : AtomLane × Nat) =>
        (((upFrom 0 (if op = 1 then 2 else 1)).filter fun i => !p.1.lost.contains (d + i)).foldl (fun (t : Team) i =>
          t.fill (.v p.1.gid p.1.lane (d + i), (BitVec.ofNat 32 (p.2 >>> (32 * i))).setWidth 64)) t)) t
  s.finishOp o

/-- Does an earlier request of the same word address the unit: the sub-squads' requests go in ascending order of their groups
(R201)? -/
def State.unitBefore (s : State) (o : Op) (sp : List Spot) : Bool :=
  s.ops.any fun x => x.key < o.key && x.team == o.team && x.iss.round == o.iss.round && x.iss.pc == o.iss.pc && (match x.what with
    | .atomic u _ _ _ _ => u.any sp.contains
    | _ => false)

/-- May an atomic request be performed: the group's earlier writes, and what the team's engines have written to the unit, have
committed, the fences before it are complete, its threads' earlier accesses of the unit and, on an IO page, their external
operations are performed, and no chunk with commit priority reads the unit (R189, R201, R212, R221, R225, R227)? -/
def State.atomicReady (s : State) (o : Op) (sp : List Spot) (lanes : List AtomLane) : Bool :=
  let glob := sp.any fun p => match p.loc with
    | .mem _ => true
    | _ => false
  let waits := glob && lanes.any fun l =>
    (s.groupChunks o.team l.gid).any fun c => c.st == .requested && c.key < o.key
  let held := glob && s.heldBack none none (uniq (sp.map fun x => x.grain))
  let engine := glob && s.lams.any fun c => c.gid == engineGid && c.team == o.team && sp.any fun x => match x.loc with
    | .mem pa => c.lines.any fun y => y.holds x.grain pa
    | _ => false
  o.due? s.now && !waits && !held && !engine && !s.unitBefore o sp
    && lanes.all fun l => !s.releasing o.key o.team l.gid l.lane
      && !(sp.any fun x => s.sameEarlier o.key { team := o.team, gid := l.gid, lane := l.lane } x || (x.io && s.ioEarlier o.key o.team l.gid))

/-- ATOMIC_REQUEST_PERFORM (R201). -/
def execAtomicRequestPerform (s : State) : Host.Outcome State Fault Refusal :=
  match s.arg with
  | [key] => match s.op? key with
    | none => .next s
    | some o => match o.what, s.team? o.team with
      | .atomic locs op r dest lanes, some t =>
        if s.atomicReady o locs lanes then .next (s.performAtomic o t locs op r dest lanes) else .next s
      | _, _ => .next s
  | _ => .next s

/-! ## Chunks (R221, R224, R226) -/

/-- Cycles without an issue after which a chunk ends (R221). -/
def chunkQuiet : Nat := 256

/-- Ends a chunk that an event names, once the group's earlier stores are accepted (R221). -/
def State.endNamed (s : State) (key : Nat) (ready : Lam → Bool) : State :=
  match s.lam? key with
  | some l =>
    if l.owner == .chunk && l.st == .open && ready l then s.turnChunk l.team l.gid else s
  | none => s

/-- Does a chunk end for its packets, or, once it holds something, for want of an identifier on its die (R221, R299)? -/
def State.chunkOver (s : State) (l : Lam) : Bool := l.full || (s.nameless l && !s.freshChunk l)

/-- Has a chunk's group been quiet (R221)? -/
def State.quietChunk (s : State) (l : Lam) : Bool := s.now ≥ l.lastIssue + chunkQuiet

/-- CHUNK_PACKET_LIMIT (R221, R299). -/
def execChunkPacketLimit (s : State) : Host.Outcome State Fault Refusal :=
  match s.arg with
  | [key] => .next (s.endNamed key s.chunkOver)
  | _ => .next s

/-- CHUNK_QUIET_PERIOD (R221). -/
def execChunkQuietPeriod (s : State) : Host.Outcome State Fault Refusal :=
  match s.arg with
  | [key] => .next (s.endNamed key s.quietChunk)
  | _ => .next s

/-- CHUNK_COMMIT_GRANT: the arbiter grants a requested chunk's commit (R223, R224, R227). -/
def execChunkCommitGrant (s : State) : Host.Outcome State Fault Refusal :=
  match s.arg with
  | [key] => match s.lam? key with
    | some l => if s.grantable l then .next (s.grant l) else .next s
    | none => .next s
  | _ => .next s

/-- Dies that have still to apply a committed write's signature (R224). -/
def Flight.left (f : Flight) : List Nat := allDies.filter fun d => !f.acks.contains d

/-- May a die apply a commit's signature now: it arrives after a free delay, a die's commits arrive in their order, and STRONG
commits are applied in the order of their numbers (R224, R228; log entry 5)? -/
def State.appliesNow (s : State) (f : Flight) (die : Nat) : Bool :=
  f.left.contains die && f.since + Config.freeDelay f.key die ≤ s.now
    && s.flights.all fun g => g.acks.contains die
      || !((g.die == f.die && g.key < f.key) || (match g.strong, f.strong with
        | some m, some n => m < n
        | _, _ => false))

/-- A committed write set that every die has applied is in memory: it is at the device stage, and writes to its bytes granted
before it are past (R212, R224). -/
def State.land (s : State) (f : Flight) : State :=
  let pas := f.lines.map fun x => x.pa
  let past : Flight → Flight := fun g => if g.key < f.key then { g with lines := g.lines.filter fun x => !pas.contains x.pa } else g
  let s : State := { s with mem := f.lines.foldl (fun m x => memPut x.pa x.byte m) s.mem,
                            flights := (s.flights.filter fun g => g.key != f.key).map past }
  s.healWritten pas

/-- A die applies a committed write's signature and acknowledges; after the last of them the write is at the device stage (R224,
R226). -/
def State.applyFlight (s : State) (f : Flight) (die : Nat) : State :=
  let (k, s) := s.newKey
  let a : Applied := { num := k, grains := f.grains, team := f.team, die := die, first := false }
  let f' : Flight := { f with acks := f.acks ++ [die] }
  let s : State := { s with
    applied := if die = f.die then s.applied else s.applied ++ [a],
    flights := updIf (fun g => g.key == f.key) (fun _ => f') s.flights }
  let s := if f'.left.isEmpty then s.land f' else s
  s.applySignature [die] f.grains (some f.lam) f.fourth

/-- SIGNATURE_BROADCAST_APPLY (R224, R226). -/
def execSignatureBroadcastApply (s : State) : Host.Outcome State Fault Refusal :=
  match s.arg with
  | [key, die] => match s.flights.find? fun f => f.key == key with
    | none => .next s
    | some f => .next (if s.appliesNow f die then s.applyFlight f die else s)
  | _ => .next s

/-- EXTERNAL_WRITE_SIGNATURE: a die's arbiter applies the signature it has gathered of the writes outside chunks (R225, R226). -/
def execExternalWriteSignature (s : State) : Host.Outcome State Fault Refusal :=
  match s.arg with
  | [die] =>
    let mine := (s.gathered.filter fun e => e.1 == die).flatMap fun e => e.2
    let s : State := { s with gathered := s.gathered.filter fun e => e.1 != die }
    .next (s.applySignature [die] mine none none)
  | _ => .next s

end Sys2Proof.Machine
end

