-- ==== Sys2Proof/Machine/Issue.lean ====
section
/-! DEFINITION. Issuing words: packets and their schedule words (R24 to R29, R34), what a word waits for (R25 to R27, R51, R107,
R108, R208), the choice of a squad (R147), what happens around a word's meaning, drawing from trays (R159, R160), handler
entries that were waiting, and replays (R188). -/

namespace Sys2Proof.Machine

/-! ## The schedule word (R24) -/

def swWait (w : Word) (f : Nat) : Bool := w.getLsbD f
def swSet (w : Word) (n : Nat) : Nat := bits w.toNat (4 * n + 15) (4 * n + 12)
def swStall (w : Word) : Nat := bits w.toNat 26 24
def swEtrap (w : Word) (n : Nat) : Bool := w.getLsbD (27 + n)
def swKind (w : Word) : Nat := bits w.toNat 31 30

/-- Pipe class of a word by its major opcode (R31, Table 9). -/
def classOf (w : Word) : Option Cls :=
  let op := bits w.toNat 30 25
  if w.toNat % 2 ^ 31 = 0 then none
  else if (1 ≤ op && op ≤ 6) || op = 0x0B || op = 0x0D then some .va
  else if op = 7 || op = 8 || op = 9 then some .vf
  else if op = 0x0A || op = 0x0C || op = 0x0E then some .xt
  else if (0x10 ≤ op && op ≤ 0x16) || op = 0x18 then some .sc
  else if (0x20 ≤ op && op ≤ 0x24) || (0x38 ≤ op && op ≤ 0x3C) || op = 0x3E then some .ct
  else if (0x28 ≤ op && op ≤ 0x2B) || op = 0x2E || op = 0x2F then some .me
  else if 0x30 ≤ op && op ≤ 0x33 then some .tl
  else none

/-- Is a word the second of its class in the chain it ends a prefix of (R31, R34)? -/
def clashes (before : List Word) (w : Word) : Bool := match classOf w with
  | some c => before.any fun x => classOf x == some c
  | none => false

/-- The words of the chain before a slot: the slots that reach it through C bits. -/
def chainBefore (line : List Word) (lits : List Nat) (n : Nat) : List Word :=
  let w := fun (i : Nat) => line.getD (i + 1) 0
  let c := fun (i : Nat) => (w i).getLsbD 31 && !lits.contains i
  if n = 1 then (if c 0 then [w 0] else [])
  else if n = 2 then (if c 1 then (if c 0 then [w 0, w 1] else [w 1]) else [])
  else []

/-- The word that an `ILLPK` reports, for a packet that breaks a rule of Table 6 (R34). -/
def packetError (line : List Word) : Option Word :=
  let sw := line.getD 0 0
  let lits := literalSlots line
  let w := fun (i : Nat) => line.getD (i + 1) 0
  if [0, 1, 2].any fun n => 12 ≤ swSet sw n && swSet sw n ≤ 14 then some sw
  else if swKind sw % 2 = 1 then some sw
  else if lits.any fun n => swSet sw n ≠ 15 then some sw
  else
    let bad := fun (n : Nat) => !lits.contains n && ((n = 2 && ((w n).getLsbD 31 || isCarrier (w n)))
      || (isCarrier (w n) && (w n).getLsbD 31) || clashes (chainBefore line lits n) (w n))
    ([0, 1, 2].find? bad).map w

/-! ## Squads and their places -/

/-- PC of a squad: that of its threads. -/
def Team.squadPc (t : Team) (q : Squad) : DWord :=
  match q.members.head? with
  | some m => match t.thread? m.1 m.2 with
    | some x => x.pc
    | none => 0
  | none => 0

/-- Packet of a PC; in the L-stream each word stands alone (R21, R40). -/
def packetOf (k : Kind) (pc : DWord) : DWord := BitVec.ofNat 64 (fetchVa k pc)

/-- Has the squad begun the packet it stands in: the schedule word applied, the words fetched? -/
def Team.begun (t : Team) (q : Squad) : Bool := q.packet == some (packetOf t.kind (t.squadPc q))

/-- Scheduler of a squad (R147); a sub-squad is served by that of its squad (R150). -/
def schedOf (k : Kind) (q : Squad) : Nat := match k, q.join with
  | .dcore, some j => j.sched
  | .dcore, none => (sortBy (fun (a b : Nat) => decide (a ≤ b)) (q.members.map (·.1))).headD 0 % 4
  | .lcore, _ => 0

/-- Does a team issue: on its core, its context running, or FAULTED only in this cycle, no block level under restore or commit
(R102, R310, R318, R392)? -/
def State.issues (s : State) (t : Team) : Bool :=
  t.st == .running && (match s.ctxOf t with
    | some c => c.st == .running || c.faultedNow
    | none => false) && (match t.levels with
    | l :: _ => l.st == .running
    | [] => true) && t.restoring.isNone

/-! ## What a word waits for -/

/-- The registers that relative access names in the members (R115): read and written. -/
def State.relRegs (s : State) (t : Team) (ms : List (Nat × Nat)) (i : Instr) : List RegId × List RegId :=
  let reg := fun (a b : BitVec 7) (m : Nat × Nat) => RegId.v m.1 m.2 ((s.rdV t m.1 m.2 b.toNat).toNat + a.toNat)
  match i with
  | .rread _ a b => (ms.map (reg a b), [])
  | .rwrite _ a b => ([], ms.map (reg a b))
  | _ => ([], [])

/-- Is a late write to a thread's fpctl or fpflags on its way (R48, R107)? -/
def State.lateTsr (s : State) (team : Nat) (r : RegId) : Bool := match r with
  | .t g l k => s.ops.any fun o => o.team == team && (match o.what with
    | .tsr ws => ws.any fun w => w.1 == g && w.2.1 == l && (w.2.2.1 == k || (k == 6 && w.2.2.1 == orFlagsIndex))
    | _ => false)
  | _ => false

/-- Is an `SSRW` of a special register still to land, for a team register one of any group (R107, R111)? -/
def State.lateSr (s : State) (t : Team) (r : RegId) : Bool := match r with
  | .sr g n => (s.srWindow t g n).isSome
  | _ => false

/-- The registers whose values a word takes in some threads: `RREAD` takes the one its index names, too (R115), and `RLANE` that of
the thread at the lane it names, whatever squad that thread is in, `RFAL` that of each group's lowest lane (R123). -/
def State.sources (s : State) (t : Team) (ms : List (Nat × Nat)) (i : Instr) : List RegId :=
  match i with
  | .rlane l a _ => ((uniq (ms.map (·.1))).filter fun g => (t.thread? g l.toNat).isSome).map fun g => .v g l.toNat a.toNat
  | .rfal a _ => (uniq (ms.map (·.1))).filterMap fun g =>
      ((sortBy threadLe ms).find? fun m => m.1 == g).map fun m => .v g m.2 a.toNat
  | _ => ((usesOf i).rd.flatMap fun r => r.expand ms) ++ (s.relRegs t ms i).1

/-- The registers a word writes in some threads, the one that the index of `RWRITE` names among them (R115). -/
def State.dests (s : State) (t : Team) (ms : List (Nat × Nat)) (i : Instr) : List RegId :=
  ((usesOf i).wr.flatMap fun r => r.expand ms) ++ (s.relRegs t ms i).2

/-- Is a source or destination of a word not ready: empty, or, where the core interlocks, still to be written (R42, R51, R107,
R108)? An ETRAP bit turns an empty source into a trap (R28). -/
def State.regBlocked (s : State) (t : Team) (ms : List (Nat × Nat)) (i : Instr) (etrap passed : Bool) : Bool :=
  let busy := fun (r : RegId) =>
    if s.interlocks t then t.isPending s.now r || s.lateTsr t.key r || s.lateSr t r else t.isEmpty r
  (!etrap && (s.sources t ms i).any busy) || (!passed && (s.dests t ms i).any busy)

/-- Does a word wait for the fences of its threads (R208)? -/
def afterFence (i : Instr) : Bool := match i with
  | .tchain _ _ | .mdrain _ _ | .mload _ _ | .klaunch _ _ | .arrive _ _ _ | .waitb _ _ _ _ | .sync _ _ _ | .arrivex _ _ _ _ => true
  | _ => (usesOf i).cls == .me

/-- Direct register numbers of a word that lie at or above the kernel's allocation (R39): the first of them. -/
def State.beyond (s : State) (t : Team) (i : Instr) : Option Nat :=
  let u := usesOf i
  let sregs := match s.imageOf t with
    | some x => x.sregs
    | none => 63
  (u.wr ++ u.rd ++ basesOf i).findSome? fun r => match r with
    | .v n => if n ≥ s.vregs t then some n else none
    | .s n => if n ≥ sregs then some n else none
    | _ => none

/-- One word of an issue unit as it will be performed, or why it cannot be (R35, R36). -/
inductive UnitItem where
  | run (u : UnitWord) (i : Instr)
  | bad (u : UnitWord) (cause : Nat) (tval : DWord)

/-- Is a word illegal in the running encoding: an `EQPT` in a D-packet (R41, R339)? -/
def illegalIn (k : Kind) : Instr → Bool
  | .eqpt _ => k == .dcore
  | _ => false

/-- The words of a unit, decoded and checked for `ILLOP` and `REGBOUND` (R36, R39, R46). -/
def State.unitItems (s : State) (t : Team) (us : List UnitWord) : List UnitItem :=
  us.map fun u => match decodeWord u.word with
    | .error _ => .bad u cIllop 0
    | .ok (_, i) => if illegalIn t.kind i then .bad u cIllop 0 else match s.beyond t i with
      | some n => .bad u cRegbound (BitVec.ofNat 64 n)
      | none => .run u i

/-- The offending word of a unit: the lowest slot's with `ILLOP`, else with `REGBOUND` (R35, R36). -/
def badItem (items : List UnitItem) : Option (UnitWord × Nat × DWord) :=
  let bads := items.filterMap fun x => match x with
    | .bad u c v => some (u, c, v)
    | .run _ _ => none
  match bads.find? fun b => b.2.1 == cIllop with
  | some b => some b
  | none => bads.head?

/-- SET of a word of a D-packet; 15 in the L-stream, where no word counts (R24, R40). -/
def setOf (k : Kind) (line : List Word) (pc : DWord) : Nat := match k with
  | .dcore => swSet (line.getD 0 0) (slotOf pc)
  | .lcore => 15

/-- ETRAP of a word: in native D-packet timing only (R28, R42, R51). -/
def State.etrapOf (s : State) (t : Team) (line : List Word) (pc : DWord) : Bool :=
  !s.interlocks t && swEtrap (line.getD 0 0) (slotOf pc)

/-- Groups of some threads, ascending. -/
def gidsOf (ms : List (Nat × Nat)) : List Nat := uniq (ms.map (·.1))

/-- Does a word name group state, so that a mixed squad issues it as sub-squads (R150)? A field that names `s0`, `p0`, `q0` or the
literal names no register. -/
def splits (i : Instr) : Bool :=
  let u := usesOf i
  u.cls == .sc || isCollective i || (u.rd ++ u.wr).any fun r => match r with
    | .s _ | .q _ | .m _ | .sr _ => true
    | _ => false

/-- The instructions of a unit. -/
def instrsOf (items : List UnitItem) : List Instr := items.filterMap fun x => match x with
  | .run _ i => some i
  | .bad _ _ _ => none

/-- Does the squad issue a unit as sub-squads, each in a cycle of its own (R150)? -/
def Squad.issuesApart (q : Squad) (is : List Instr) : Bool := (gidsOf q.members).length > 1 && is.any splits

/-- The threads that issue the unit now: the whole squad, or the sub-squad of its lowest group (R150). -/
def Squad.issuing (q : Squad) (is : List Instr) : List (Nat × Nat) :=
  if q.issuesApart is then q.members.filter fun m => m.1 == (gidsOf q.members).headD 0 else q.members

/-- Has a squad its turn to issue: it is no sub-squad, or one that has not performed the word, those of lower groups having issued it
(R150)? -/
def Team.inTurn (t : Team) (q : Squad) : Bool := match q.join with
  | none => true
  | some j => !j.done && (!q.unissued || t.squads.all fun x =>
      !(x.unissued && x.join.any fun i => i.key == j.key) || (gidsOf q.members).headD 0 ≤ (gidsOf x.members).headD 0)

/-- Has the squad come back from the wait of a word, for whose flag it holds counts (R25)? -/
def Squad.cameBack (q : Squad) (pc : DWord) : Bool := q.pass.any (fun p => p.1 == pc) && q.held.any fun h => h.1 == pc

/-- Do the flags of a unit's words stay within 15 in each group (R25)? A word that comes back from a wait holds its count. -/
def State.flagsFit (t : Team) (q : Squad) (ms : List (Nat × Nat)) (line : List Word) (us : List UnitWord) : Bool :=
  let fs := ((us.filter fun u => !q.cameBack u.pc).map fun u => setOf t.kind line u.pc).filter fun f => f ≠ 15
  (gidsOf ms).all fun g => match t.group? g with
    | some x => (uniq fs).all fun f => x.flagCount f + (fs.filter fun y => y == f).length ≤ 15
    | none => true

/-- May the unit at the squad's PC issue, as far as its words are concerned? The flag bound holds for the whole squad before its
first sub-squad issues (R150). -/
def State.unitReady (s : State) (t : Team) (q : Squad) (line : List Word) : Bool :=
  let us := issueUnit t.kind (t.squadPc q) line
  let items := s.unitItems t us
  let ms := q.issuing (instrsOf items)
  if (badItem items).isSome then true
  else State.flagsFit t q q.members line us && items.all fun x => match x with
    | .bad _ _ _ => true
    | .run u i =>
      let passed := q.pass.any fun p => p.1 == u.pc
      !s.regBlocked t ms i (s.etrapOf t line u.pc) passed
        && !(afterFence i && !passed && ms.any fun m => s.fenced t.key m.1 m.2)

/-- Flag counts of a group held by a chain that is stalled on a full queue of one of some groups (R51). -/
def Team.queueStalled (t : Team) (gs : List Nat) : List Nat :=
  (t.chains.filter fun c => c.st == .stalledQueue && gs.contains (scratchByte t (c.off + 2)).toNat).flatMap fun c => c.toks

/-- Does slot 0 still wait for flags: those WAIT names, or in interlocked mode all of them (R26, R51)? The L-stream names none. -/
def State.waitsFlags (s : State) (t : Team) (q : Squad) (line : List Word) : Bool :=
  match t.kind with
  | .lcore => false
  | .dcore =>
    let gs := gidsOf q.members
    let free := t.queueStalled gs
    gs.any fun g => match t.group? g with
      | none => false
      | some x =>
        if s.interlocks t then s.toks.any fun k => k.team == t.key && k.gid == g && !free.contains k.key
        else (List.range 12).any fun f => swWait (line.getD 0 0) f && x.flagCount f > 0

/-! ## Equivalence points (R29, R334, R343, R347) -/

/-- What stands for the id of a KIND `0b10` packet that the equivalence table does not name, which code written at run time may hold
(R29, R334). -/
def noPoint : Nat := 2 ^ 16

/-- The id of the equivalence point a unit begins, if it begins one: slot 0 of a KIND `0b10` packet, or an `EQPT` word. -/
def State.pointAt (s : State) (t : Team) (pc : DWord) (line : List Word) : Option Nat :=
  match s.imageOf t with
  | none => none
  | some i => match t.kind with
    | .dcore =>
      if swKind (line.getD 0 0) = 2 && slotOf pc = 0 then
        some (((i.equiv.find? fun e => e.dpc == pc).map fun e => e.id).getD noPoint)
      else none
    | .lcore => match decodeWord (line.getD 0 0) with
      | .ok (_, .eqpt n) => some n.toNat
      | _ => none

/-- Threads of a squad that park at a point: not those in a handler (R343). -/
def Team.parkers (t : Team) (q : Squad) : List (Nat × Nat) :=
  q.members.filter fun m => match t.thread? m.1 m.2 with
    | some x => !x.handler
    | none => false

/-- Do threads of the squad park here for a pending migration (R343)? Not those that have issued the word and come back from a
wait. -/
def State.parksHere (s : State) (t : Team) (q : Squad) (line : List Word) : Bool :=
  t.migr.isSome && q.pass.isEmpty && q.join.isNone && (s.pointAt t (t.squadPc q) line).isSome && !(t.parkers q).isEmpty

/-! ## Which squad issues (R27, R147) -/

/-- May a squad go on now: not waiting, its team issuing, the cycle after its last word, its scheduler free (R27, R147)? -/
def State.squadFree (s : State) (t : Team) (q : Squad) : Bool :=
  let sched := schedOf t.kind q
  q.wait.isNone && !q.members.isEmpty && t.inTurn q && (s.issues t || (q.resumes && s.finishes t))
    && (q.resumes || (s.issueTime t sched > q.tlast && s.schedFree t.core sched))

/-- Does a squad's fetch wait for the walk of a page under a move (R191)? -/
def State.fetchWaits (s : State) (t : Team) (pc : DWord) : Bool :=
  !s.moves.isEmpty && (s.moveWaits t false [fetchVa t.kind pc] || (t.kind == .lcore && (match s.fetchAt t pc with
    | .ok (_, pa) => isCarrier ((s.fetched t pc pa).getD 0 0) && s.moveWaits t false [(pc + 4).toNat]
    | .error _ => false)))

/-- Can the threads of a squad park for a migration: no register of theirs is empty, their groups' stores are accepted (R108, R221,
R343)? -/
def State.parkReady (s : State) (t : Team) (q : Squad) : Bool :=
  (t.parkers q).all fun m => !t.threadEmpty m.1 m.2 && !s.storesPending t.key m.1

/-- Can a squad issue in this cycle (R25 to R27)? A packet not begun yet is fetched; a fault of the fetch, a broken packet and
a park for migration are met at once, the park in a packet, too, whose slot 0 has still to issue (R343). -/
def State.canIssue (s : State) (t : Team) (q : Squad) : Bool :=
  s.squadFree t q && (if t.begun q then (if s.parksHere t q q.line then s.parkReady t q else s.unitReady t q q.line)
    else if s.fetchWaits t (t.squadPc q) then false
    else match s.fetchLine t (t.squadPc q) with
      | .error _ => true
      | .ok (_, line) =>
        if t.kind == .dcore && (packetError line).isSome then true
        else if s.parksHere t q line then s.parkReady t q
        else !s.waitsFlags t q line && (s.interlocks t || s.now ≥ q.t0 + swStall (line.getD 0 0)) && s.unitReady t q line)

/-- The squad that issues next: the first of the round robin that can (R147). -/
def State.nextIssue (s : State) : Option (Nat × Nat) :=
  s.run.find? fun r => match s.team? r.1 with
    | some t => match t.squad? r.2 with
      | some q => s.canIssue t q
      | none => false
    | none => false

/-! ## PACKET_ISSUE (R27, R34) -/

/-- The threads of a squad stand at its PC with no word yet: what a record names (R188, R393). -/
def State.atPc (s : State) (t : Team) (q : Squad) (word : Word) : State :=
  let pc := t.squadPc q
  { s with cur := { Issue.none with team := t.key, squad := q.key, members := q.members, pc := pc, next := pc, first := pc,
                                    word := word } }

/-- A fetch that faults: the threads park at the PC, or the fault is fatal, or fails the routine (R188, R311). -/
def State.fetchFault (s : State) (t : Team) (q : Squad) (e : AFault) : State :=
  let va := fetchVa t.kind (t.squadPc q)
  (s.atPc t q 0).accessFaults (q.members.map fun m => (m.1, m.2, va, e))

/-- An `ILLPK`: a fatal record with the squad's lanes and the packet's slot-0 address (R34). -/
def State.badPacket (s : State) (t : Team) (q : Squad) (w : Word) : State :=
  let gs := gidsOf q.members
  let pc := packetOf t.kind (t.squadPc q) + 4
  let point := ((q.members.head?).bind fun m => t.thread? m.1 m.2).bind fun x => x.point
  let r := s.teamRecord t cIllpk (if gs.length ≤ 1 then gs.headD 0 else 0xFF) (laneMask (q.members.map (·.2))) w.toNat
    (s.bothPcs t point pc) 0
  s.putRecords t.ctx [({ r with fatal := true }, none)]

/-- Threads park at an equivalence point; their groups' chunks end (R221, R343). -/
def State.parkAtPoint (s : State) (t : Team) (ms : List (Nat × Nat)) (id : Nat) : State :=
  let s := (gidsOf ms).foldl (fun s g => s.endChunk t.key g) s
  s.modTeam t.key fun t => (t.modThreads ms fun _ x => { x with park := some (.point id) }).leaveSquads ms

/-- Count a packet, or an L-stream word, in the open chunks of some groups (R221). -/
def State.countPacket (s : State) (team : Nat) (gs : List Nat) : State :=
  let mine := fun (l : Lam) => l.owner == .chunk && l.team == team && l.st == .open && gs.contains l.gid
  let count : Lam → Lam := fun l => { l with packets := l.packets + 1, lastIssue := s.now }
  { s with lams := updIf mine count s.lams }

/-- A squad begins a packet: its schedule word is applied and its words are held (R27). -/
def State.beginPacket (s : State) (t : Team) (q : Squad) (p : Page) (line : List Word) : State :=
  let pc := t.squadPc q
  let s := (s.fillFetch t pc p (line.take (fetchBytes t.kind / 4))).countPacket t.key (gidsOf q.members)
  let start : Squad → Squad := fun x => { x with packet := some (packetOf t.kind pc), line := line, t0 := s.now }
  s.modTeam t.key fun t => t.modSquad q.key start

/-- PACKET_ISSUE: a squad that can issue begins the packet at its PC: the fetch may fault, the packet may be broken, or threads
park for a migration; else the schedule word is applied (R27, R29, R34, R188). A packet already begun stays as it is. -/
def execPacketIssue (s : State) : Host.Outcome State Fault Refusal :=
  match s.arg with
  | [team, sq] => match s.team? team with
    | none => .next s
    | some t => match t.squad? sq with
      | none => .next s
      | some q =>
        if !s.canIssue t q then .next s
        else if t.begun q then
          if s.parksHere t q q.line then
            .next (s.parkAtPoint t (t.parkers q) ((s.pointAt t (t.squadPc q) q.line).getD 0))
          else .next s
        else match s.fetchLine t (t.squadPc q) with
          | .error e => .next (s.fetchFault t q e)
          | .ok (p, line) =>
            match (if t.kind == .dcore then packetError line else none) with
            | some w => .next (s.badPacket t q w)
            | none =>
              if s.parksHere t q line then
                .next (s.parkAtPoint t (t.parkers q) ((s.pointAt t (t.squadPc q) line).getD 0))
              else .next (s.beginPacket t q p line)
  | _ => .next s

/-! ## Around the words of a unit -/

/-- The first empty source of a word in a thread, as tval (R28, R36, R397 Table 6). Of the threads `ms` that execute an `RFAL` the
lowest lane reads: one that traps leaves the next to read, up to the first whose register is full (R123). -/
def State.emptySource (s : State) (t : Team) (i : Instr) (ms : List (Nat × Nat)) (m : Nat × Nat) : Option Nat :=
  match i with
  | .rfal a _ =>
    if (ms.filter fun x => x.1 == m.1 && x.2 ≤ m.2).all fun x => t.isEmpty (.v x.1 x.2 a.toNat) then some a.toNat else none
  | _ => (s.sources t [m] i).findSome? fun r =>
      if t.isEmpty r then (match r with
        | .v _ _ n => some n
        | .s _ n => some (128 + n)
        | _ => none)
      else none

/-- Take the traps of a unit before any of its words: an illegal word traps every thread, an empty source under ETRAP the
threads that read it (R28, R35, R36). -/
def State.unitTraps (s : State) (t : Team) (q : Squad) (items : List UnitItem) : State :=
  let all := q.issuing (instrsOf items)
  match badItem items with
  | some (u, cause, tval) => (s.atPc t q u.word).enterTraps (all.map fun m => (m.1, m.2, cause, tval))
  | none =>
    let hits := items.flatMap fun x => match x with
      | .bad _ _ _ => []
      | .run u i => if s.etrapOf t q.line u.pc then all.filterMap fun m =>
          (s.emptySource t i all m).map fun n => (u.word, m, n) else []
    let ms := uniq (hits.map fun h => h.2.1)
    (uniq (hits.map fun h => h.1)).foldl (fun s w =>
      let mine := ms.filterMap fun m => match hits.find? fun h => h.2.1 == m with
        | some h => if h.1 == w then some (m.1, m.2, cEmptyreg, BitVec.ofNat 64 h.2.2) else none
        | none => none
      if mine.isEmpty then s else (s.atPc t q w).enterTraps mine) s

/-- Count a word on its flag once in each group, and answer the counts (R25). -/
def State.countFlags (s : State) (team : Nat) (gs : List Nat) (f : Nat) : List (Nat × Nat) × State :=
  if f ≥ 12 then ([], s)
  else gs.foldl (fun (p : List (Nat × Nat) × State) g =>
    let (k, s) := p.2.newKey
    let s := s.modGroup team g (fun x => x.flagInc f)
    (p.1 ++ [(g, k)], { s with toks := s.toks ++ [{ key := k, team := team, gid := g, flag := f, left := 0 }] })) ([], s)

/-- Added cycles for the source registers of some threads' reads that fall in one bank: one for each beyond the first (R54). -/
def bankAdds (ns : List Nat) : Nat :=
  ([0, 1, 2, 3].map fun b => ((uniq ns).filter fun n => n % 4 = b).length - 1).sum

/-- Sources of a word that fall in one register bank with another cost a cycle each; where `RREAD`'s index gives the threads
different registers, the thread with the most counts (R54). -/
def State.bankCost (s : State) (t : Team) (ms : List (Nat × Nat)) (i : Instr) : Nat :=
  let direct := (usesOf i).rd.filterMap fun r => match r with
    | .v n => some n
    | _ => none
  let rel := (s.relRegs t ms i).1.filterMap fun r => match r with
    | .v _ _ n => some n
    | _ => none
  ((uniq rel).map fun n => bankAdds (n :: direct)).foldl max (bankAdds direct)

/-- Base pair, offset register and 4-byte words of a lane's access, for the words that access the scratchpad by lanes (R55). -/
def laneWords (i : Instr) : Option (BitVec 5 × BitVec 7 × Nat) := match i with
  | .ld _ k o w _ | .st _ k o w _ => some (k, o, if w = 3 then 2 else if w = 4 then 4 else 1)
  | .atom _ k o op _ | .red _ k o op _ => some (k, o, if op = 1 then 2 else 1)
  | _ => none

/-- The team whose scratchpad a lane of a memory word addresses, and the offset there: in the scratchpad window, or in the
cluster's (R55, R174, R198). -/
def State.laneScratch (s : State) (t : Team) (k : BitVec 5) (o : BitVec 7) (m : Nat × Nat) : Option (Nat × Nat) :=
  let off := if o = 127 then 0 else (s.rdV t m.1 m.2 o.toNat).signExtend 64
  match windowOf (s.rdS2 t m.1 k.toNat + off).toNat with
  | .scratch x => some (t.key, x)
  | .cluster rank x => (s.clusterMember t rank).map fun u => (u.key, x)
  | _ => none

/-- Cycles of a core's own that some D-core cycles fill (R6). -/
def coreCycles (k : Kind) (n : Nat) : Nat := match k with
  | .dcore => n
  | .lcore => (n * 26 + 17) / 18

/-- Added cycles of a scratchpad access: the largest number of distinct 4-byte words that the lanes address in one of the 64
banks of a scratchpad, less the one that the issue takes. While a COPY or a drain of the team is under way, its traffic, which shares
the banks at times that the spec does not give, may add to it (R55, R57; log entry 5). -/
def State.scratchCost (s : State) (t : Team) (ms : List (Nat × Nat)) (i : Instr) : Nat :=
  match laneWords i with
  | none => 0
  | some (k, o, n) =>
    let ws := uniq ((ms.filterMap (s.laneScratch t k o)).flatMap fun x => (upFrom (x.2 / 4) n).map fun w => (x.1, w))
    if ws.isEmpty then 0
    else
      let bank := fun (w : Nat × Nat) => (ws.filter fun x => x.1 = w.1 && x.2 % 64 = w.2 % 64).length
      let most := (ws.map bank).foldl max 1
      most - 1 + (if t.copies.isEmpty && t.mops.all fun m => m.op.isMma then 0 else Config.freeDelay s.fresh 55)

/-- One word about to be performed: what `Issue` says of it. -/
structure Performed where
  iss : Issue
  instr : Instr
  deriving DecidableEq, Repr

/-- The words of a unit with their flag counts (R25): a word that comes back from a wait keeps the counts it holds. -/
def State.unitWords (s : State) (t : Team) (q : Squad) (ms : List (Nat × Nat)) (items : List UnitItem) : List Performed × State :=
  let us := items.filterMap fun x => match x with
    | .run u i => some (u, i)
    | .bad _ _ _ => none
  let next := match us.getLast? with
    | some (u, _) => pcAfter t.kind u.pc u.word
    | none => 0
  let first := t.squadPc q
  let unit := s.keys
  us.foldl (fun (p : List Performed × State) (x : UnitWord × Instr) =>
    let held : Option (List (Nat × Nat)) := (q.held.find? fun (h : DWord × List (Nat × Nat)) => h.1 == x.1.pc).map fun h => h.2
    let (toks, s) : List (Nat × Nat) × State := match held with
      | some h => if q.pass.any (fun y => y.1 == x.1.pc) then (h, p.2)
          else ((p.2.toksDone (h.map (·.2))).countFlags t.key (gidsOf ms) (setOf t.kind q.line x.1.pc))
      | none => p.2.countFlags t.key (gidsOf ms) (setOf t.kind q.line x.1.pc)
    let iss : Issue :=
      { Issue.none with
        team := t.key, squad := q.key, members := ms, pc := x.1.pc, next := next, first := first, word := x.1.word,
        lit := x.1.lit, toks := toks, lat := (usesOf x.2).lat, unit := unit,
        round := (q.join.map fun j => j.key).getD unit }
    (p.1 ++ [({ iss := iss, instr := x.2 } : Performed)], s)) ([], s)

/-- A squad becomes the sub-squads, one for each of its groups, that issue its word one after another (R150). -/
def State.partSquad (s : State) (t : Team) (q : Squad) : State :=
  let (k, s) := s.newKey
  let part := fun (x : Squad) (g : Nat) =>
    { x with members := q.members.filter fun m => m.1 == g,
             join := some { key := k, sched := schedOf t.kind q, done := false, next := 0 } }
  match gidsOf q.members with
  | [] => s
  | g :: gs =>
    let s := s.modTeam t.key fun t => t.modSquad q.key fun x => part x g
    gs.foldl (fun s h =>
      let (n, s) := s.newKey
      { s.modTeam t.key fun t => { t with squads := t.squads ++ [{ part q h with key := n }] } with run := s.run ++ [(t.key, n)] }) s

/-- The threads that issue a unit pass the equivalence point whose slot 0 it holds; the points before are kept (R347). -/
def State.passPoint (s : State) (t : Team) (q : Squad) (ms : List (Nat × Nat)) : List (Nat × Nat × Option Nat) × State :=
  match t.kind, s.pointAt t (t.squadPc q) q.line with
  | .dcore, some id =>
    if id = noPoint then ([], s)
    else
      let was := ms.filterMap fun m => (t.thread? m.1 m.2).map fun x => (m.1, m.2, x.point)
      (was, s.modTeam t.key fun t => t.modThreads ms fun _ x => { x with point := some id })
  | _, _ => ([], s)

/-- The words of a unit as they begin, for the threads that issue it: their words count on their flags, chunks of words on memory
are open, a point is passed, and the threads move past the unit (R25, R32, R221, R347). -/
def State.openUnit (s : State) (t : Team) (q : Squad) (items : List UnitItem) : List Performed × State :=
  let ms := q.issuing (instrsOf items)
  let (was, s) := s.passPoint t q ms
  let (ws, s) := s.unitWords t q ms items
  let ws := ws.map fun w => { w with iss := { w.iss with was := was } }
  let onMemory := ws.any fun w => (usesOf w.instr).cls == .me
  let s := if onMemory then (gidsOf ms).foldl (fun s g => s.withChunk t.key g) s else s
  let next := match ws with
    | w :: _ => w.iss.next
    | [] => t.squadPc q
  (ws, s.setPcs t.key ms fun _ _ => next)

/-- The issue time of a unit: the cycle of slot 0, for the next packet's STALL, and that of its last cycle (R27, R54, R55). A unit
that goes on after a wait has issued before; a collective issues in the cycle in which it is performed (R167). Sub-squads that have
still to issue the word come later (R150). -/
def State.timeUnit (s : State) (t : Team) (q : Squad) (ws : List Performed) : State :=
  let sched := schedOf t.kind q
  let cost := (ws.map fun w =>
    s.bankCost t w.iss.members w.instr + coreCycles t.kind (s.scratchCost t w.iss.members w.instr)).sum
  let issued := q.resumes && !(ws.any fun w => isCollective w.instr && q.pass.any fun p => p.1 == w.iss.pc)
  let slot0 := !issued && ws.any fun w => t.kind == .dcore && slotOf w.iss.pc = 0
  let time := s.issueTime t sched
  let busy := if q.resumes then s.busy else s.busy ++ [(t.core, sched)]
  let note : Squad → Squad := fun x =>
    if x.key = q.key then { x with tlast := if issued then x.tlast else max x.tlast (time + cost), t0 := if slot0 then s.now else x.t0 }
    else if x.unissued && q.join.any (fun j => x.join.any fun i => i.key == j.key) then { x with tlast := max x.tlast (time + cost) }
    else x
  { s.modTeam t.key fun t => { t with squads := t.squads.map note } with
    busy := busy, run := (s.run.filter fun r => r != (t.key, q.key)) ++ [(t.key, q.key)] }

/-- A unit begins: its traps are taken, then the words of the threads that are left begin (R35, R36, R147). The words to perform,
and the state; the team as it stands is what the words of a chain read (R32). -/
def State.beginUnit (s : State) (team sq : Nat) : List Performed × State :=
  match s.team? team with
  | none => ([], s)
  | some t => match t.squad? sq with
    | none => ([], s)
    | some q =>
      if !t.begun q || s.parksHere t q q.line then ([], s)
      else
        let items := s.unitItems t (issueUnit t.kind (t.squadPc q) q.line)
        let used := (t.core, schedOf t.kind q)
        let ms := q.issuing (instrsOf items)
        let s := s.unitTraps t q items
        let s := match (s.team? team).bind fun t => t.squad? sq with
          | some q => if (badItem items).isNone && q.issuesApart (instrsOf items) && q.members.any ms.contains then s.partSquad t q else s
          | none => s
        match s.team? team with
        | none => ([], s)
        | some t => match t.squad? sq with
          | none => ([], { s with busy := s.busy ++ [used] })
          | some q =>
            if (q.members.filter ms.contains).isEmpty then
              ([], { s.modTeam team (fun t => t.modSquad sq fun x => { x with parted := true }) with busy := s.busy ++ [used] })
            else
            let (ws, s) := s.openUnit t q items
            let s := s.timeUnit t q ws
            (ws, { s with before := if ws.length > 1 then s.team? team else none, cur := { Issue.none with parted := s.cur.parted } })

/-- The state in which a word's meaning is taken. -/
def State.forWord (s : State) (iss : Issue) : State := { s with cur := iss }

/-- Registers a thread's word writes, as the register log names them: a call or return writes the depth and an entry, `RTT` what the
frame holds, and a draw the draw counter (R140, R307, R399). -/
def State.logged (s : State) (i : Instr) (m : Nat × Nat) : List RegId :=
  let depth := match (s.team? s.cur.team).bind fun t => t.thread? m.1 m.2 with
    | some x => x.depth
    | none => 0
  let stack := fun (n : Nat) => [RegId.t m.1 m.2 64, .t m.1 m.2 (65 + n % 8)]
  match i with
  | .call _ | .callr _ => stack (depth - 1)
  | .ret => stack depth
  | .rtt => (upFrom 0 8).map (RegId.v m.1 m.2) ++ (upFrom 1 7).map (RegId.p m.1 m.2)
  | _ =>
    let draws := match i with
      | .rand _ _ _ | .randf _ _ _ | .rand4 _ _ _ => [RegId.t m.1 m.2 2, .t m.1 m.2 3]
      | _ => []
    draws ++ match s.curTeam with
      | none => []
      | some t => (s.dests t [m] i).filter fun r => match r with
        | .v _ _ _ => true
        | .p _ _ n => n != 0
        | .t _ _ _ => true
        | _ => false

/-- After a word that has been performed: a fixed-latency result holds the word's flag counts until it lands, and an open block
level logs the registers written (R25, R307). -/
def State.afterWord (s : State) (i : Instr) : State :=
  let u := usesOf i
  let s := if u.lat > 0 && hasDest i then
      let ks := (s.cur.toks.filter fun k => s.curGids.contains k.1).map (·.2)
      if ks.isEmpty then s else s.newOp s.cur.team ks u.lat .flagOnly
    else s
  let inBlock := match s.curTeam with
    | some t => !t.levels.isEmpty
    | none => false
  if inBlock then
    s.logWrites s.cur.team (s.members.flatMap fun m => (s.logged i m).map fun r => (m.1, m.2, r))
  else s

/-! ## After a unit -/

/-- The packet a thread's place belongs to in DET counting: the D-packet, or on an L-core the one that the packet map pairs with
the place (R112). -/
def State.countedPacket (s : State) (t : Team) (pc : DWord) : Nat :=
  match t.kind with
  | .dcore => pc.toNat / 16
  | .lcore => match s.imageOf t with
    | none => 0
    | some i => match i.packetMap.find? fun p => p.2 == pc with
      | some p => p.1.toNat / 16
      | none => 0

/-- D-packets from number `a` to before number `b` that hold nothing but `NOP`s: they have no word of the L-stream (R112). -/
def Image.blanks (i : Image) (a b : Nat) : Nat :=
  let first := i.dbase.toNat / 16
  ((upFrom a (b - a)).filter fun n => n ≥ first && 4 * (n - first) + 3 < i.dwords.length
    && [1, 2, 3].all fun k => i.dwords.getD (4 * (n - first) + k) 0 = 0).length

/-- The D-PC of the place an L-stream word transfers a thread to: a direct target of the word it stands for, a place of the
return-site map; `none` for a target that is in a register (R112, R338; log entry 15). -/
def Image.targetD (i : Image) (l target : DWord) : Option DWord :=
  let word := ((i.packetMap.find? fun p => p.2 == l).map (·.1)).bind fun d =>
    (instrOf (i.dwords.getD ((d.toNat - i.dbase.toNat) / 4) 0)).map fun x => (d, x)
  match word with
  | some (d, .bra o) => some (d + 4 * o.signExtend 64)
  | some (d, .brp _ _ o) => some (d + 4 * o.signExtend 64)
  | some (d, .brq _ _ o) => some (d + 4 * o.signExtend 64)
  | some (d, .call o) => some (d + 4 * o.signExtend 64)
  | some (_, .ret) => (i.sites.find? fun p => p.2 == target).map (·.1)
  | _ => none

/-- Packets that a thread retires when it leaves a place for another: one, and on an L-core those of `NOP`s alone that the way between
the two holds in the D-packet section (R112; log entry 15). -/
def State.packetsLeft (s : State) (t : Team) (moved : Bool) (old new : DWord) : Nat :=
  match t.kind, s.imageOf t with
  | .lcore, some i =>
    let to_ := s.countedPacket t new
    let from_ := if moved then ((i.targetD old new).map fun d => d.toNat / 16).getD to_ else s.countedPacket t old + 1
    1 + i.blanks from_ to_
  | _, _ => 1

/-- Threads that performed the unit and have left its packet count it: those at another packet, those that a transfer took, and
those that have exited; not those that left into a handler, a park or a tray within the packet (R112). -/
def State.retirePackets (s : State) (last : Issue) (gone : List (Nat × Nat)) : State :=
  match s.team? last.team with
  | none => s
  | some t =>
    let inTray := t.trays.flatMap fun y => y.held.map fun h => (h.1, h.2.1)
    let inSquad := match t.squad? last.squad with
      | some q => q.members
      | none => []
    let stays := fun (g : Nat) (x : Thread) =>
      !gone.contains (g, x.lane) && s.countedPacket t x.pc == s.countedPacket t last.pc
    let count : Group → Thread → Thread := fun g x => if stays g.gid x then x
      else { x with clock := x.clock + s.packetsLeft t (gone.contains (g.gid, x.lane)) last.pc x.pc }
    let ms := last.members.filter fun m => inTray.contains m || inSquad.contains m
    s.modTeam last.team fun t => t.modThreads ms count

/-- Chunks opened within a unit take their checkpoint: before the unit where it has to be performed again after a squash, else
after it (R221, R226). -/
def State.checkpoints (s : State) (s0 : State) (team : Nat) (gs : List Nat) (retry : Bool) : State :=
  gs.foldl (fun s g => match s.openChunk? team g with
    | none => s
    | some l =>
      if l.key < s0.keys then s
      else
        let stores := s.ops.any fun o => o.key ≥ s0.keys && o.team == team && (match o.what with
          | .store ws _ => ws.any fun w => w.who.gid == g && !w.direct && (match w.at_.loc with
            | .mem _ => true
            | _ => false)
          | _ => false)
        let made := match (s.team? team).bind fun t => t.squad? s.cur.squad with
          | some q => q.wait.any fun w => w.on.made
          | none => false
        let again := (retry && !made) || stores || l.squashable
        let old := (s0.team? team).bind fun t => t.group? g
        let now := (s.team? team).bind fun t => t.group? g
        if again then s.modLam l.key fun l => { l with checkpoint := old, stood := s0.stoodIn team g }
        else
          let (k, s) := s.newKey
          s.modLam l.key fun l => { l with key := k, checkpoint := now, stood := s.stoodIn team g }) s

/-- What a retried unit leaves: a word of TL or CT that waits keeps its flag counts, the others' counts fall (R25, R146). -/
def State.holdToks (s : State) (iss : Issue) (i : Instr) : State :=
  let cls := (usesOf i).cls
  let waits := match (s.team? iss.team).bind fun t => t.squad? iss.squad with
    | some q => q.wait.isSome && (cls == Cls.tl || cls == Cls.ct)
    | none => false
  let note : Squad → Squad := fun q =>
    { q with held := (q.held.filter fun (h : DWord × List (Nat × Nat)) => h.1 != iss.pc) ++ [(iss.pc, iss.toks)] }
  if waits then s.modTeam iss.team fun t => t.modSquad iss.squad note
  else s.toksDone ((iss.toks.map (·.2)).filter fun k => s.toks.any fun t => t.key == k && t.left == 0)

/-- Two words of a chain that write one register leave the value of the higher slot: what an operation of a lower word would
write later to a register that a higher word of the chain writes is dropped (R32). -/
def OpKind.without (k : OpKind) (rs : List RegId) : OpKind := match k with
  | .vres ws fl => .vres (ws.filter fun w => !rs.contains (.v w.1 w.2.1 w.2.2.1)) fl
  | .remote ws va n act => .remote (ws.map fun w => if rs.contains (.v w.1 w.2.1 w.2.2) then (w.1, w.2.1, 128) else w) va n act
  | .sres g n x => if rs.contains (.s g n) then .flagOnly else .sres g n x
  | .atomic locs op r dest lanes =>
    let gone := fun (l : AtomLane) => rs.filterMap fun x => match x with
      | .v g i n => if g = l.gid && i = l.lane then some n else none
      | _ => none
    .atomic locs op r dest (lanes.map fun l => { l with lost := l.lost ++ gone l })
  | .qpop g l v q n => if rs.contains (.v g l v) then .qpop g l 128 q n else k
  | _ => k

/-- The same for a unit: each word against the higher ones; a register whose later write is dropped is full unless the higher
word empties it (R32). -/
def State.higherWins (s : State) (ws : List Performed) : State :=
  match ws.head?.bind fun w => s.team? w.iss.team with
  | none => s
  | some t =>
    let lost := ws.zipIdx.flatMap fun (w : Performed × Nat) =>
      let later := (ws.drop (w.2 + 1)).flatMap fun x => (s.dests t x.iss.members x.instr).map fun r => (r, fullEmpty x.instr)
      let both := later.filter fun r => (s.dests t w.1.iss.members w.1.instr).contains r.1
      if fullEmpty w.1.instr && !both.isEmpty then [(w.1.iss, both)] else []
    lost.foldl (fun s o =>
      let cut : Op → Op := fun x => if o.1.unit ≤ x.key && x.iss.pc == o.1.pc then { x with what := x.what.without (o.2.map (·.1)) } else x
      let s : State := { s with ops := s.ops.map cut }
      s.modTeam o.1.team fun t => (o.2.filter fun r => !r.2).foldl (fun t r => t.unmark r.1) t) s

/-- The packet a squad holds after a unit: it goes on in it, unless it has left it, or threads have trapped or parked, and then
WAIT and STALL apply afresh (R36, R149). -/
def Team.keepPacket (t : Team) (next : DWord) (parted : Bool) (q : Squad) : Squad :=
  if !parted && t.kind == .dcore && t.squadPc q == next && q.packet == some (packetOf t.kind next) then q
  else { q with packet := none, line := [] }

/-- Threads of a unit have trapped or parked: the squad, and the sub-squads that issue the word with it, note it (R36, R149, R150). -/
def State.notePart (s : State) (team sq : Nat) (join : Option Join) : State :=
  let with_ := fun (q : Squad) => q.key == sq || join.any fun j => q.join.any fun i => i.key == j.key
  if s.cur.parted then s.modTeam team fun t => { t with squads := updIf with_ (fun q => { q with parted := true }) t.squads } else s

/-- A unit that has been performed: the squad splits by PC and goes on; a sub-squad stands still until the others have performed the
word (R148, R150). -/
def State.closeUnit (s : State) (team sq : Nat) (last : Issue) : State :=
  let clear : Squad → Squad := fun q => { q with pass := [], held := [], since := [], holds := false }
  let s := s.modTeam team fun t => t.modSquad sq clear
  match (s.team? team).bind fun t => t.squad? sq with
  | none => s
  | some q => match q.join with
    | some j => s.modTeam team fun t => t.modSquad sq fun q => { q with join := some { j with done := true, next := last.next } }
    | none =>
      (s.splitSquad team sq last.next).modTeam team fun t => t.modSquad sq fun x =>
        { t.keepPacket last.next q.parted x with parted := false }

/-- Sub-squads that have all performed their squad's word are one squad again; where its threads stand at several PCs it splits by
them. Where threads of it have trapped or parked at the word, WAIT and STALL apply afresh (R36, R148 to R150). -/
def State.mergeSquads (s : State) (team key : Nat) : State :=
  match s.team? team with
  | none => s
  | some t =>
    let parts := t.squads.filter fun q => q.join.any fun j => j.key == key
    match parts, parts.all fun q => q.join.all fun j => j.done with
    | q :: rest, true =>
      let gone := rest.map fun x => x.key
      let same := rest.all fun x => x.packet == q.packet
      let whole : Squad → Squad := fun x =>
        { x with members := sortBy threadLe (parts.flatMap fun y => y.members), t0 := (parts.map fun y => y.t0).foldl min q.t0,
                 tlast := (parts.map fun y => y.tlast).foldl max 0, packet := if same then q.packet else none,
                 line := if same then q.line else [], join := none, parted := false }
      let next := (q.join.map fun j => j.next).getD 0
      let s := s.modTeam team fun t =>
        { t with squads := (updIf (fun (x : Squad) => x.key == q.key) whole t.squads).filter fun x => !gone.contains x.key }
      let parted := parts.any fun y => y.parted
      (s.splitSquad team q.key next).modTeam team fun t => t.modSquad q.key (t.keepPacket next parted)
    | _, _ => s

/-- Sub-squads become their squads again, where all of them have performed the word (R150). -/
def State.joinSquads (s : State) : State :=
  s.teams.foldl (fun s (t : Team) =>
    (uniq (t.squads.filterMap fun q => q.join.map fun j => j.key)).foldl (fun s k => s.mergeSquads t.key k) s) s

/-- A unit that has to issue again: its squad stands at its first word, a word of TL or CT that waits keeps its flag counts, and a
word that only could not issue has used no cycle of the scheduler and passed no point (R25, R146, R147, R347). -/
def State.reopenUnit (s : State) (team sq : Nat) (ws : List Performed) : State :=
  let idle := fun (s : State) (ks : List (Nat × Nat)) =>
    s.toksDone ((ks.map (·.2)).filter fun k => s.toks.any fun t => t.key == k && t.left == 0)
  let s := ws.foldl (fun s w => if w.iss.pc == s.cur.pc then s.holdToks w.iss w.instr else idle s w.iss.toks) s
  let t := s.team? team
  match t.bind fun t => t.squad? sq with
  | some q =>
    if q.wait.isSome || q.resumes then s
    else match t, ws.head? with
      | some t, some w =>
        let back := fun (x : Thread) (p : Option Nat) => if x.pc == w.iss.first then { x with point := p } else x
        let s := s.modTeam team fun t => w.iss.was.foldl (fun t p => t.modThread p.1 p.2.1 fun x => back x p.2.2) t
        { s with busy := s.busy.diff [(t.core, schedOf t.kind q)] }
      | _, _ => s
  | none => s

/-- A unit ends: threads count the packets they have left, chunks opened in it take their checkpoints, and flag counts that nothing
holds fall (R25, R112, R221). `s0` is the
state before the words, `ws` the words performed. -/
def State.endUnit (s s0 : State) (team sq : Nat) (ws : List Performed) : State :=
  match ws.getLast? with
  | none => { s with before := none, cur := Issue.none }
  | some last =>
    let retry := s.cur.retry
    let start := s0.setPcs team last.iss.members fun _ _ => last.iss.first
    let join := ((s0.team? team).bind fun t => t.squad? sq).bind fun q => q.join
    let s := s.notePart team sq join
    let s := if retry then s else s.retirePackets last.iss s.cur.gone
    let s := s.checkpoints start team (gidsOf last.iss.members) retry
    let s := if retry then s.reopenUnit team sq ws
      else
        let idle := fun (s : State) (w : Performed) =>
          s.toksDone ((w.iss.toks.map (·.2)).filter fun k => s.toks.any fun t => t.key == k && t.left == 0)
        let s := ws.foldl idle s
        (if ws.length > 1 then s.higherWins ws else s).closeUnit team sq last.iss
    { s with before := none, cur := Issue.none, fresh := s.fresh + 2 }

/-! ## Trays (R159, R160) -/

/-- The words of the packet a squad stands in, begun or not. -/
def State.nextLine (s : State) (t : Team) (q : Squad) : List Word :=
  if t.begun q then q.line else match s.fetchLine t (t.squadPc q) with
    | .ok (_, l) => l
    | .error _ => []

/-- Is a thread of a squad READY: not waiting, not in a handler, its next word not blocked by a register, in a packet begun or not
(R102)? -/
def State.readyOutside (s : State) (t : Team) (q : Squad) (m : Nat × Nat) : Bool :=
  let handler := match t.thread? m.1 m.2 with
    | some x => x.handler
    | none => true
  let line := s.nextLine t q
  let blocked := !line.isEmpty && (s.unitItems t (issueUnit t.kind (t.squadPc q) line)).any fun x => match x with
    | .run u i => s.regBlocked t q.members i (s.etrapOf t line u.pc) (q.pass.any fun p => p.1 == u.pc)
    | .bad _ _ _ => false
  q.wait.isNone && !handler && !blocked

/-- Is a tray full: at every lane position it holds a thread, or no thread of its scope there is READY outside trays (R159)? The
threads that `YIELD` has filed make no tray full (R161). -/
def State.trayFull (s : State) (t : Team) (y : Tray) : Bool :=
  let lanes := (y.held.filter fun h => !y.yielded.contains (h.1, h.2.1)).map fun h => h.2.1
  !lanes.isEmpty && t.squads.all fun q => q.members.all fun m =>
    lanes.contains m.2 || (match y.group with
      | some g => m.1 != g
      | none => false) || !s.readyOutside t q m

/-- Filing cycle of a tray's oldest thread. -/
def Tray.oldest (y : Tray) : Nat := (y.held.map fun h => h.2.2).foldl min (2 ^ 64)

/-- Age from which a tray of a team is aged: `sr.trayage` as it has landed, 0 being taken as 1 (R110, R111, R128, R159). -/
def State.ageLimit (s : State) (t : Team) : Nat :=
  let pending := t.windows.find? fun w => w.pending s.now && (match w.reg with
    | .sr _ k => k == 0x032
    | _ => false)
  let x := match pending with
    | some w => w.old.setWidth 32
    | none => t.trayage
  max 1 (x.toNat % 65536)

/-- Has a tray aged (R159)? -/
def State.trayOld (s : State) (t : Team) (y : Tray) : Bool := !y.held.isEmpty && s.now ≥ y.oldest + s.ageLimit t

/-- TRAY_AGED: the tray's oldest thread was filed `sr.trayage` cycles ago (R159). -/
def execTrayAged (s : State) : Host.Outcome State Fault Refusal :=
  match s.arg with
  | [team, n] => match s.team? team with
    | none => .next s
    | some t =>
      let mark : Tray → Tray := fun y => if s.trayOld t y then { y with aged := true } else y
      .next (s.modTeam team fun t => { t with trays := updIf (fun y => y.num == n) mark t.trays })
  | _ => .next s

/-- The trays of a core whose teams run, with their teams. -/
def State.coreTrays (s : State) (core : Nat) : List (Team × Tray) :=
  (s.teams.filter fun t => t.core == core && s.issues t).flatMap fun t => t.trays.map fun y => (t, y)

/-- The oldest of some trays; ties go to the lower number (R159). -/
def oldestTray (l : List (Team × Tray)) : Option (Team × Tray) :=
  l.foldl (fun b x => match b with
    | none => some x
    | some y => if x.2.oldest < y.2.oldest || (x.2.oldest == y.2.oldest && x.2.num < y.2.num) then some x else some y) none

/-- Can no squad of a scheduler issue in this cycle, and is it free (R159)? -/
def State.schedIdle (s : State) (core sched : Nat) : Bool :=
  s.schedFree core sched && !(s.run.any fun r => match s.team? r.1 with
    | some t => t.core == core && (match t.squad? r.2 with
      | some q => schedOf t.kind q == sched && s.canIssue t q
      | none => false)
    | none => false)

/-- Scheduler of a thread (R147). -/
def threadSched (k : Kind) (gid : Nat) : Nat := match k with
  | .dcore => gid % 4
  | .lcore => 0

/-- Have the others of its scheduler issued since `YIELD` filed a thread: every squad that can issue, and the threads that were in
trays before it (R161)? -/
def State.yieldOver (s : State) (core : Nat) (all : List (Team × Tray)) (k : Kind) (h : Nat × Nat × Nat) : Bool :=
  let sched := threadSched k h.1
  let squads := s.run.all fun r => match s.team? r.1 with
    | some t => t.core != core || (match t.squad? r.2 with
      | some q => schedOf t.kind q != sched || q.tlast > s.issueTime t sched - coreCycles t.kind (s.now - h.2.2) || !s.canIssue t q
      | none => true)
    | none => true
  let trays := all.all fun x => x.2.held.all fun y =>
    threadSched x.1.kind y.1 != sched || x.2.yielded.contains (y.1, y.2.1) || y.2.2 > h.2.2
  squads && trays

/-- Can a tray be drawn from under rule 3: it holds a thread that `YIELD` did not file, or one that has given way (R159, R161)? -/
def State.trayOpen (s : State) (core : Nat) (all : List (Team × Tray)) (x : Team × Tray) : Bool :=
  x.2.held.any fun h => !x.2.yielded.contains (h.1, h.2.1) || s.yieldOver core all x.1.kind h

/-- The tray that is drawn for a scheduler: a full one, an aged one, else, for an idle scheduler that has drawn none in this cycle,
the core's trays round robin in tray number (R159, R161). The flag tells a draw of the idle scheduler. -/
def State.trayChoice (s : State) (core sched : Nat) : Option ((Team × Tray) × Bool) :=
  let all := s.coreTrays core
  match oldestTray (all.filter fun x => s.trayFull x.1 x.2) with
  | some x => some (x, false)
  | none => match oldestTray (all.filter fun x => x.2.aged) with
    | some x => some (x, false)
    | none =>
      if !s.schedIdle core sched || s.drew.contains (core, sched) then none
      else
        let sorted := sortBy (fun (a b : Team × Tray) => decide (a.2.num ≤ b.2.num)) (all.filter (s.trayOpen core all))
        let last := (s.drawn.find? fun d => d.1 == core).map (·.2)
        ((sorted.find? fun x => match last with
            | some n => x.2.num > n
            | none => true).or sorted.head?).map fun x => (x, true)

/-- The threads a draw takes: at each lane position the oldest, ties to the lower group (R160). -/
def Tray.taken (y : Tray) : List (Nat × Nat) :=
  (uniq (y.held.map fun h => h.2.1)).filterMap fun l =>
    ((y.held.filter fun h => h.2.1 == l).foldl (fun (b : Option (Nat × Nat × Nat)) h => match b with
      | none => some h
      | some x => if h.2.2 < x.2.2 || (h.2.2 == x.2.2 && h.1 < x.1) then some h else some x) none).map fun h => (h.1, h.2.1)

/-- The threads of a tray that a draw may take: under rule 3 those that `YIELD` filed only once they have given way (R161). -/
def State.drawable (s : State) (core : Nat) (t : Team) (y : Tray) (idle : Bool) : Tray :=
  if !idle then y
  else { y with held := y.held.filter fun h =>
    !y.yielded.contains (h.1, h.2.1) || s.yieldOver core (s.coreTrays core) t.kind h }

/-- TRAY_DRAW: a squad is drawn from the chosen tray of a core (R159, R160). -/
def execTrayDraw (s : State) : Host.Outcome State Fault Refusal :=
  match s.arg with
  | [core, sched] => match s.trayChoice core sched with
    | none => .next s
    | some ((t, y), idle) =>
      let ms := (s.drawable core t y idle).taken
      let cut : Tray → Tray := fun z =>
        { z with held := z.held.filter (fun h => !ms.contains (h.1, h.2.1)),
                 yielded := z.yielded.filter (fun h => !ms.contains h), aged := false }
      let s := s.modTeam t.key fun t =>
        { t with trays := (updIf (fun z => z.num == y.num) cut t.trays).filter fun z => !z.held.isEmpty }
      let s : State := { s with
        drawn := (core, y.num) :: s.drawn.filter fun d => d.1 != core,
        drew := if idle then (core, sched) :: s.drew else s.drew }
      .next (s.addSquad t.key ms 0 0 none)
  | _ => .next s

/-! ## Handler entries and replays -/

/-- HANDLER_ENTRY: a trap that waited until none of the thread's registers is empty enters the handler, together with the other
threads that the same word of the same squad trapped (R108, R149, R188, R397). -/
def execHandlerEntry (s : State) : Host.Outcome State Fault Refusal :=
  match s.arg with
  | [team, gid, lane] =>
    match s.team? team, (s.team? team).bind fun t => t.thread? gid lane with
    | some t, some x =>
      let same := fun (y : Thread) => y.handler == x.handler && (y.trap.any fun b => x.trap.any fun a => a.event == b.event)
      .next (s.finishEntries team (t.groups.flatMap fun g => (g.threads.filter same).map fun y => (g.gid, y.lane)))
    | _, _ => .next s
  | _ => .next s

/-- Threads that a replayed record held back go on: a handler entry is finished, the others are filed at their PCs; those of a
saved team wait for its restore (R149, R188, R397, R403). -/
def State.unpark (s : State) (team gid key : Nat) (lanes : List Nat) : State :=
  match s.team? team with
  | none => s
  | some t =>
    let held := (lanes.filter fun l => match t.thread? gid l with
      | some x => x.park == some (.fault key)
      | none => false).map fun l => (gid, l)
    let s := s.modTeam team fun t => t.modThreads held fun _ x => { x with park := none }
    if t.st != .running && t.st != .stopping then s
    else
      let entry := held.filter fun m => match t.thread? m.1 m.2 with
        | some x => x.trap.isSome
        | none => false
      let rest := held.filter fun m => !entry.contains m
      (s.finishEntries team entry).refile team (sortBy threadLe rest)

/-- A chain that was stalled on a fault goes on once no COPY of it waits for a replay (R245). -/
def State.chainOn (s : State) (team h : Nat) : State :=
  let remote := s.ops.any fun o => o.team == team && (match o.what with
    | .engine (.copy k _) _ _ _ f => k == h && f.isSome
    | _ => false)
  let stalled := match s.team? team with
    | some t => remote || t.copies.any fun c => c.h == h && !c.faults.isEmpty
    | none => true
  if stalled then s
  else s.modChain team h fun c => if c.st == .stalledFault then { c with st := .running, due := s.now } else c

/-- What a replayable record held back goes on (R188, R245, R277, R374, R375). -/
def State.resumeBlocked (s : State) (ctx : Nat) (p : PendRec) : State :=
  match p.blocked with
  | .lanes team gid lanes => s.unpark team gid p.key lanes
  | .chain team h copy =>
    let clear : Copy → Copy := fun c =>
      let fs := c.faults.filter fun k => k != p.key
      { c with faults := fs, due := if fs.isEmpty then s.now else c.due }
    let s := s.modTeam team fun t => { t with copies := updIf (fun c => c.key == copy) clear t.copies }
    s.chainOn team h
  | .mop team key =>
    let clear : MatOp → MatOp := fun m =>
      let fs := m.faults.filter fun k => k != p.key
      { m with faults := fs, due := if fs.isEmpty then s.now else m.due }
    s.modTeam team fun t => { t with mops := updIf (fun m => m.key == key) clear t.mops }
  | .delivery op => s.modOp op fun o => match o.what with
    | .klaunch q b _ c => { o with what := .klaunch q b none c, due := s.now }
    | _ => o
  | .remote op => match s.op? op, s.ctx? ctx with
    | some o, some c => match o.what with
      | .remote _ va n act =>
        let s := o.iss.members.foldl (fun s m => s.unpark o.team m.1 p.key [m.2]) s
        s.sendPod c op va n act
      | .engine own _ _ _ _ =>
        let s := s.ops.foldl (fun s x => match x.what with
          | .engine w va n act f =>
            if w == own && f == some p.key then
              (s.modOp x.key fun x => { x with what := .engine w va n act none }).sendPod c x.key va n act
            else s
          | _ => s) s
        (match own with
          | .copy h _ => s.chainOn o.team h
          | .mop _ => s)
      | _ => s
    | _, _ => s
  | .packet q idx =>
    let clear : Packet → Packet := fun x => { x with fault := none }
    let fix : Queue → Queue := fun y => { y with packets := updIf (fun x => x.idx == idx) clear y.packets }
    s.modCtx ctx fun c => { c with queues := updIf (fun y => y.num == q) fix c.queues }

/-- REPLAY: a replayable record still pending is replayed; an index that names none is ignored (R188, R390). -/
def State.replayRecord (s : State) (ctx idx : Nat) : State :=
  match s.ctx? ctx with
  | none => s
  | some c =>
    if c.st == .faulted || c.st == .terminated || c.st == .free then s
    else match c.pending.find? fun p => p.idx == some idx with
      | none => s
      | some p =>
        let s := s.modCtx ctx fun c => { c with pending := c.pending.filter fun x => x.key != p.key }
        s.resumeBlocked ctx p

/-- REPLAY (R188). -/
def execReplay (s : State) : Host.Outcome State Fault Refusal :=
  match s.arg with
  | [ctx, idx] => .next (s.replayRecord ctx idx)
  | _ => .next s

end Sys2Proof.Machine
end

