-- ==== Sys2Proof/Machine/Pages.lean ====
section
/-! DEFINITION. Events of pages and of the host: page moves (R190, R191), uncorrectable errors (R190), shootdowns (R184), the
host's accesses to device memory (R192), error completions of CXL.cache (R406) and the messages of unified ranges (R193,
R194). -/

namespace Sys2Proof.Machine

/-! ## Leaf entries -/

/-- Where the leaf that translates an address stands: physical address of the entry, its level and the entry (R180, R181). -/
def State.leafFrom (s : State) (va table : Nat) : Nat → Nat → Option (Nat × Nat × Nat)
  | 0, _ => none
  | fuel + 1, level =>
    let at_ := table + 8 * vaIndex va level
    let e := memNat at_ 8 s.mem
    if !s.paValid at_ || !e.testBit 0 then none
    else if e.testBit 52 then some (at_, level, e)
    else s.leafFrom va (bits e 51 16 <<< 16) fuel (level + 1)

/-- The leaf of an address of a context. -/
def State.leafOf (s : State) (ctx va : Nat) : Option (Nat × Nat × Nat) :=
  (s.ctx? ctx).bind fun c => s.leafFrom va c.root 4 0

/-- First address of the page of an address, by its level. -/
def pageBase (va level : Nat) : Nat := (va >>> (52 - 12 * level)) <<< (52 - 12 * level)

/-- Bytes of a page of a level (R180). -/
def pageSize (level : Nat) : Nat := 2 ^ (52 - 12 * level)

/-- Physical base of a leaf. -/
def leafPa (e : Nat) : Nat := bits e 51 16 <<< 16

/-- The MP writes a leaf entry (R190, R191, R193). -/
def State.putLeaf (s : State) (at_ e : Nat) : State := { s with mem := memWrite at_ (leBytes 8 e) s.mem }

/-! ## Page moves (R190, R191, R194) -/

/-- Places that stores and atomics in flight have still to write. -/
def Op.targets (o : Op) : List Loc := match o.what with
  | .store ws _ => ws.map fun w => w.at_.loc
  | .atomic sp _ _ _ _ => sp.map fun p => p.loc
  | _ => []

/-- Are stores or atomics routed to a range of physical addresses still to be performed (R191 step 3)? -/
def State.routed (s : State) (pa n : Nat) : Bool :=
  s.ops.any fun o => o.targets.any fun l => match l with
    | .mem a => pa ≤ a && a < pa + n
    | .priv _ a => pa ≤ privPa a && privPa a < pa + n
    | _ => false

/-- A physical address after a page's move. -/
def movedPa (old new n a : Nat) : Nat := if old ≤ a && a < old + n then new + (a - old) else a

/-- Bytes by physical address after a page's move. -/
def movedBytes (f : Nat → Nat) (m : Bytes) : Bytes := m.foldl (fun r p => bput (f p.1) p.2 r) []

/-- A private byte's name after a page's move: its virtual address stays. -/
def movedPriv (f : Nat → Nat) (k : Nat) : Nat := privAt (k / 2 ^ 64) (f (privPa k))

/-- A held-back operation after a page's move. -/
def OutEntry.moved (f : Nat → Nat) (e : OutEntry) : OutEntry :=
  { e with op := match e.op with
      | .store va pa n v => .store va (pa.map f) n v
      | .red va pa op v => .red va (pa.map f) op v
      | o => o }

/-- A place after a page's move. -/
def Loc.moved (f : Nat → Nat) (l : Loc) : Loc := match l with
  | .mem a => .mem (f a)
  | .priv k a => .priv k (movedPriv f a)
  | x => x

/-- A team's private bytes, held-back operations and copies in flight after a page's move. -/
def Team.moved (f : Nat → Nat) (t : Team) : Team :=
  { t with priv := movedBytes (movedPriv f) t.priv, outbox := t.outbox.map (OutEntry.moved f), staged := t.staged.map (OutEntry.moved f),
           copies := t.copies.map (fun (c : Copy) => { c with spoil := c.spoil.map (Loc.moved f) }),
           chains := t.chains.map fun (c : Chain) => { c with wrote := c.wrote.map (Loc.moved f) } }

/-- A provisional line after a page's move: its place is another, its name is not (R191 step 5). -/
def Line.moved (f : Nat → Nat) (x : Line) : Line := { x with pa := f x.pa }

/-- Everything that names physical bytes of a page after its move (R191 step 5): signatures name virtual grains and stay. -/
def State.renamed (s : State) (f : Nat → Nat) : State :=
  { s with
    lams := s.lams.map (fun (l : Lam) => { l with lines := l.lines.map (Line.moved f) }),
    flights := s.flights.map (fun (x : Flight) => { x with lines := x.lines.map (Line.moved f) }),
    held := s.held.map (fun (h : Held) => { h with line := h.line.moved f }),
    shadows := s.shadows.map (fun (h : Shadow) => { h with pa := f h.pa }),
    writes := s.writes.map (fun (h : Shadow) => { h with pa := f h.pa }),
    names := s.names.map (fun e => (f (e.1 * 65536) / 65536, e.2)),
    waiting := s.waiting.map (fun w => (f w.1, w.2)),
    teams := s.teams.map (Team.moved f), snaps := s.snaps.map (fun (x : Snap) => { x with team := x.team.moved f }) }

/-- Step 4 to step 7 of a move: the page is copied, what names its old home names the new one, the leaf is written and the old
translation shot down (R191). -/
def State.moveHome (s : State) (m : Move) (dst at_ e : Nat) : State :=
  let old := leafPa e
  let n := pageSize m.level
  let f := movedPa old dst n
  let cells := s.mem.filter fun c => old ≤ c.1 && c.1 < old + n
  let target := s.mem.filter fun c => !(dst ≤ c.1 && c.1 < dst + n)
  let mem := cells.foldl (fun r c => memPut (f c.1) c.2 r) target
  let there := fun (x : Nat) => dst ≤ 32 * x && 32 * x < dst + n
  let carried := (s.checks.filter fun x => old ≤ 32 * x.1 && 32 * x.1 < old + n).map fun x => (f (32 * x.1) / 32, x.2)
  let s : State := { s with
    mem := mem, checks := s.checks.filter (fun x => !there x.1) ++ carried, badEcc := s.badEcc.filter (fun x => !there x),
    tlb := s.tlb.filter (fun t => t.leaf.toNat != e) }
  (s.renamed f).putLeaf at_ (e - old + dst)

/-- A `MIGFAIL` record of a page (R190, R345): EXTRA byte 0 is 0. -/
def State.pageFail (s : State) (ctx va : Nat) (fatal : Bool) : State :=
  let r := { plainRecord cMigfail with replayable := !fatal, fatal := fatal, addr := BitVec.ofNat 64 va, extra := leBytes 1 0 }
  s.putRecords ctx [(r, if fatal then none else some (.lanes 0 0 []))]

/-- A page is POISONED (R190): its leaf says so. -/
def State.poison (s : State) (at_ e : Nat) : State := s.putLeaf at_ (e ||| 2 ^ 59)

/-- Is there room at a destination: aligned, and memory at both ends? -/
def State.homeFits (s : State) (dst level : Nat) : Bool :=
  dst % pageSize level = 0 && s.paValid dst && s.paValid (dst + min (pageSize level) 65536 - 1)

/-- Has a page's data an uncorrectable error (R190)? -/
def State.pageBad (s : State) (pa n : Nat) : Bool :=
  (s.badEcc.any fun x => pa ≤ 32 * x && 32 * x < pa + n) || s.checks.any fun e => pa ≤ 32 * e.1 && 32 * e.1 < pa + n && s.checkBad e.1

/-- The end of an unmap: the leaf is cleared and its translation shot down (R190, R193). -/
def State.unmapPage (s : State) (at_ e : Nat) : State :=
  ({ s with tlb := s.tlb.filter (fun t => t.leaf.toNat != e) } : State).putLeaf at_ 0

/-- The end of a move or of an unmap (R190, R191, R193). -/
def State.endMove (s : State) (m : Move) : State :=
  let s : State := { s with moves := s.moves.filter fun x => !(x.ctx == m.ctx && x.va == m.va) }
  match s.leafOf m.ctx m.va with
  | none => s
  | some (at_, level, e) =>
    match m.dst with
    | none => if level ≠ m.level then s else s.unmapPage at_ e
    | some dst =>
      if level ≠ m.level then s
      else if !s.homeFits dst level then s.pageFail m.ctx m.va false
      else if s.pageBad (leafPa e) (pageSize level) then (s.poison at_ e).pageFail m.ctx m.va true
      else s.moveHome m dst at_ e

/-- May a move end: every host agent has answered, and what was routed to the old home is performed (R191, R194)? -/
def State.moveReady (s : State) (m : Move) : Bool :=
  m.revoking.isEmpty && (m.dst.isNone || (match s.leafOf m.ctx m.va with
    | some (_, level, e) => !s.routed (leafPa e) (pageSize level)
    | none => true))

/-- The MP begins the move or the unmap of a page, or, when it is ready, ends it (R191, R193, R194). -/
def State.movePage (s : State) (ctx va : Nat) (dst : Option Nat) : State :=
  match s.leafOf ctx va with
  | none => s
  | some (_, level, e) =>
    let base := pageBase va level
    match s.moves.find? fun m => m.ctx == ctx && m.va == base with
    | some m => if s.moveReady m then s.endMove m else s
    | none =>
      if dst.isSome && e.testBit 59 then s
      else
        let uni := e.testBit 11
        let m : Move := { ctx := ctx, va := base, level := level, dst := dst, revoking := if uni then s.part.env.agents else [] }
        let s : State := { s with moves := s.moves ++ [m] }
        if uni then s.emit (.revoke ctx base) else s

/-- A move under way meets a correctable failure: the page stays at its old home, with a replayable `MIGFAIL` record (R190). -/
def State.failMove (s : State) (ctx va : Nat) : State :=
  let mine := fun (m : Move) => m.ctx == ctx && m.dst.isSome && pageBase va m.level == m.va
  match s.moves.find? mine with
  | some m => ({ s with moves := s.moves.filter fun x => !mine x } : State).pageFail ctx m.va false
  | none => s

/-- PAGE_MOVE: the MP moves a page to a destination, or, with none, unmaps it; with a fourth argument the move under way has met a
correctable failure (R190, R191, R193, R194). -/
def execPageMove (s : State) : Host.Outcome State Fault Refusal :=
  match s.arg with
  | [ctx, va, dst] => .next (s.movePage ctx va (some dst))
  | [ctx, va] => .next (s.movePage ctx va none)
  | [ctx, va, _, _] => .next (s.failMove ctx va)
  | _ => .next s

/-- ECC_ERROR_REPORT: the MP sets POISON on the page; a page under move fails with a fatal record (R190). -/
def execEccErrorReport (s : State) : Host.Outcome State Fault Refusal :=
  match s.arg with
  | [ctx, va] => match s.leafOf ctx va with
    | none => .next s
    | some (at_, level, e) =>
      let base := pageBase va level
      let moving := s.moves.any fun m => m.ctx == ctx && m.va == base
      let s : State := { s with moves := s.moves.filter fun m => !(m.ctx == ctx && m.va == base) }
      let s := s.poison at_ e
      .next (if moving then s.pageFail ctx base true else s)
  | _ => .next s

/-! ## Shootdowns (R184, R390) -/

/-- A write to SDLEN: it starts a shootdown, or waits while one is under way (R390). -/
def State.shootdown (s : State) (ctx : Nat) (len : DWord) : State :=
  s.modCtx ctx fun c =>
    if c.sdbusy then { c with sdwait := c.sdwait ++ [len] }
    else { c with sdbusy := true, sdlen := len, sdfrom := c.sdaddr }

/-- SHOOTDOWN (R184, R390). -/
def execShootdown (s : State) : Host.Outcome State Fault Refusal :=
  match s.arg with
  | [ctx, len] => .next (s.shootdown ctx (BitVec.ofNat 64 len))
  | _ => .next s

/-- Does a cached translation lie in a range (R184)? -/
def Tlb.within (t : Tlb) (a n : Nat) : Bool :=
  n > 0 && ((t.page + 2 ^ 64 - a) % 2 ^ 64 < n || (a + 2 ^ 64 - t.page) % 2 ^ 64 < pageSize t.level)

/-- SHOOTDOWN_COMPLETE: no TLB holds a translation of the range any more; SDSTAT clears, and a write to SDLEN that waited is
taken (R184, R390). -/
def execShootdownComplete (s : State) : Host.Outcome State Fault Refusal :=
  match s.arg with
  | [ctx] => match s.ctx? ctx with
    | none => .next s
    | some c =>
      if !c.sdbusy then .next s
      else
        let s : State := { s with tlb := s.tlb.filter fun t => !(t.ctx == ctx && t.within c.sdfrom.toNat c.sdlen.toNat) }
        .next (s.modCtx ctx fun c => match c.sdwait with
          | [] => { c with sdbusy := false }
          | n :: rest => { c with sdlen := n, sdfrom := c.sdaddr, sdwait := rest })
  | _ => .next s

/-! ## The host (R192, R406) -/

/-- Does a range of physical addresses lie in device memory (R192)? -/
def State.deviceRange (s : State) (pa n : Nat) : Bool :=
  n > 0 && pa >>> 48 < 2 && s.paValid pa && s.paValid (pa + n - 1)

/-- HOST_MEM_READ: the bytes at the home, on STRONG pages as the last write granted left them (R215); those of a bad sector are
marked poisoned (R192). -/
def execHostMemRead (s : State) : Host.Outcome State Fault Refusal :=
  match s.arg with
  | [pa, n] =>
    if !s.deviceRange pa n then .next (s.emit (.hostError pa))
    else
      let bad := fun (a : Nat) => s.checkBad (a / 32) || s.badEcc.contains (a / 32)
      .next (s.emit (.hostData pa ((upFrom pa n).map fun a => if bad a then none else some (s.outerByte a))))
  | _ => .next s

/-- A byte that an agent outside the cores writes, and the state it is written in: a place that a copy in flight also uses is left
undefined (R225, R230). -/
def State.outsideByte (s : State) (pa : Nat) (b : Byte) : Byte × State :=
  if s.copyHits none (.mem pa) then (Config.freeByte s.fresh (Loc.code (.mem pa)), s.spoilCopies none (.mem pa)) else (b, s)

/-- Sectors that a range covers in part. -/
def partSectors (pa n : Nat) : List Nat :=
  (if pa % 32 ≠ 0 || n < 32 then [pa / 32] else []) ++ (if (pa + n) % 32 ≠ 0 then [(pa + n) / 32] else [])

/-- HOST_MEM_WRITE: performed at the home as an external write; one that merges into a bad sector is not performed and is
answered with an error completion (R192, R196, R225). -/
def execHostMemWrite (s : State) : Host.Outcome State Fault Refusal :=
  match s.arg with
  | [pa, n, val] =>
    if !s.deviceRange pa n || (partSectors pa n).any s.checkBad then .next (s.emit (.hostError pa))
    else
      let s := (leBytes n val).zipIdx.foldl (fun (s : State) (p : Byte × Nat) =>
        let (b, s) := s.outsideByte (pa + p.2) p.1
        s.physByte (pa + p.2) b) s
      .next ((s.healSectors pa n).emit (.hostDone pa))
  | _ => .next s

/-- The lanes of an operation whose addresses lie in host memory (R182, R406). -/
def State.hostLanes (s : State) (o : Op) : List (Nat × Nat × Nat) :=
  match s.team? o.team with
  | none => []
  | some t => match s.ctxOf t with
    | none => []
    | some c => o.iss.vas.filter fun v => windowOf v.2.2 == .global && (match s.walk c.root v.2.2 with
      | .ok p => (p.base + v.2.2 % 2 ^ p.bits) >>> 48 == 2
      | .error _ => false)

/-- The records of the lanes, by group, or the failure of the routine in an open block (R311, R406). -/
def State.hostFaults (s : State) (team : Nat) (lanes : List (Nat × Nat × Nat)) (f : AFault) : State :=
  match s.team? team with
  | none => s
  | some t =>
    if !t.levels.isEmpty && (failureCode f.cause).isSome then s.failRoutine team ((failureCode f.cause).getD 0)
    else
      let gs := uniq (lanes.map fun v => v.1)
      s.putRecords t.ctx (gs.map fun g =>
        let mine := lanes.filter fun v => v.1 == g
        let first := mine.headD (0, 0, 0)
        let pcs := s.bothPcs t ((t.thread? g first.2.1).bind fun x => x.point) s.cur.pc
        let r := s.teamRecord t f.cause g (laneMask (mine.map fun v => v.2.1)) s.cur.word.toNat pcs
          (BitVec.ofNat 64 first.2.2)
        ({ r with fatal := true, extra := f.extra }, none))

/-- HOST_ERROR_COMPLETION: the lanes of an access to host memory raise a fatal `PAGEATTR` with REASON 1, or `ECCUNC` where
the data came back poisoned; the access has no effect (R406). -/
def execHostErrorCompletion (s : State) : Host.Outcome State Fault Refusal :=
  match s.arg with
  | [key, poisoned] => match s.op? key with
    | none => .next s
    | some o =>
      match s.hostLanes o with
      | [] => .next s
      | v :: vs =>
        let f : AFault := if poisoned = 0 then { cause := cPageattr, reason := 1, level := 0 } else AFault.of cEccunc
        let s := s.finishOp o
        let lanes := v :: vs
        let word : Issue := o.iss
        .next ({ s with cur := word }.hostFaults o.team lanes f)
  | _ => .next s

/-! ## Unified ranges (R193, R194) -/

/-- The pages from an address to the end of a range: each with its physical address and rights, or a fault where the walk faults or
the page is not unified (R181, R193). A page under a move is answered with a fault: the agent asks again (R191; log entry 27). -/
def State.rangePages (s : State) (ctx stop : Nat) : Nat → Nat → List (Nat × Option (Nat × Nat))
  | 0, _ => []
  | fuel + 1, va =>
    if va ≥ stop then []
    else match (s.ctx? ctx).map fun c => s.walk c.root va with
      | some (.ok p) =>
        let base := pageBase va p.level
        let got := if p.uni && !s.moving ctx va then some (p.base, bits p.leaf 3 1) else none
        (base, got) :: s.rangePages ctx stop fuel (base + pageSize p.level)
      | _ => (pageBase va 3, none) :: s.rangePages ctx stop fuel (pageBase va 3 + 65536)

/-- TRANSLATE (R193). -/
def execTranslate (s : State) : Host.Outcome State Fault Refusal :=
  match s.arg with
  | [ctx, va, n] => .next (s.emit (.translations ctx (s.rangePages ctx (va + n) (n / 65536 + 2) va)))
  | _ => .next s

/-- PERMIT: the rights R, W, X of a unified page's leaf are changed after a shootdown, and the MP answers (R193). -/
def execPermit (s : State) : Host.Outcome State Fault Refusal :=
  match s.arg with
  | [ctx, va, rights] => match s.leafOf ctx va with
    | some (at_, _, e) =>
      if !e.testBit 11 then .next s
      else
        let s : State := { s with tlb := s.tlb.filter fun t => t.leaf.toNat != e }
        .next ((s.putLeaf at_ (e - bits e 3 1 * 2 + rights % 8 * 2)).emit (.permitDone ctx va))
    | none => .next s
  | _ => .next s

/-- REVOKE_ANSWER: a host agent has dropped its translation; after the answer of the last one the move or unmap of the page can end
(R193, R194). -/
def execRevokeAnswer (s : State) : Host.Outcome State Fault Refusal :=
  match s.arg with
  | [ctx, va, agent] =>
    let mine := fun (m : Move) => m.ctx == ctx && m.va == pageBase va m.level
    let done : Move → Move := fun m => { m with revoking := m.revoking.filter fun a => a != agent }
    .next { s with moves := updIf mine done s.moves }
  | _ => .next s

end Sys2Proof.Machine
end

