-- ==== Sys2Proof/Machine/Context.lean ====
section
/-! DEFINITION. Contexts: the feature vector (R355), the descriptor and the commands of the control page (R388, R390, R391), queue
descriptors (R371), the trap queue's read index (R395), and the freeing of a context's resources (R392). -/

namespace Sys2Proof.Machine

/-! ## Features (R355) -/

/-- Does the part take contexts: bring-up has offered the features, and no machine check requires a reset (R419, R425)? -/
def Part.up (p : Part) : Bool := (p.boot == .ready || p.boot == .step 7) && !p.needsReset

/-- FEATURE_ACCEPT: the part keeps the AND of the written and the offered vector, until the first context is enabled (R355,
R419 step 7). -/
def execFeatureAccept (s : State) : Host.Outcome State Fault Refusal :=
  match s.arg with
  | [v] =>
    if s.part.anyEnabled || !s.part.up then .next s
    else .next { s with part := { s.part with
      accepted := BitVec.ofNat 256 v &&& Config.offered, acceptedWritten := true, boot := .ready } }
  | _ => .next s

/-! ## CREATE (R388) -/

/-- Bytes of a context descriptor (R388). -/
def descSize : Nat := 128

/-- The descriptor of a context. -/
def State.ctxDesc (s : State) (c : Nat) : List Byte := memBytes (s.part.ctxTable + descSize * c) descSize s.mem

/-- Bytes `a` to `b` of a descriptor are zero. -/
def zeroBytes (d : List Byte) (a n : Nat) : Bool := fieldOf d a n == 0

/-- A vector of VECS: below NVEC, or 15 (R388). -/
def vectorOk (v nvec : Nat) : Bool := v < nvec || v == 15

/-- The least SAVESIZE for a quad mask: the image of one team on a D-core, or on an L-core (R402). -/
def leastSave (quads : Nat) : Nat :=
  if (List.range 112).any fun q => quads.testBit q && q % 14 < 12 then 2624 * 1024 else 832 * 1024

/-- The rules of R388 Table 1 that a descriptor breaks, by byte offset: the first of them. -/
def State.descError (s : State) (d : List Byte) : Option Nat :=
  let f := fun (a n : Nat) => fieldOf d a n
  let nvec := f 2 1
  let quads := f 80 16
  lowestCode [
    (f 0 1 ≥ 2 || (f 0 1 % 2 = 1 && !s.feature 2), 0), (f 1 1 > 15, 1), (nvec > 8, 2),
    (!vectorOk (f 3 1 % 16) nvec || !vectorOk (f 3 1 / 16) nvec, 3), (f 4 4 > 10000000, 4),
    (f 8 4 = 0 || f 8 4 > 1000000, 8), (f 12 4 < f 8 4, 12), (f 16 8 % 65536 ≠ 0, 16), (f 24 8 % 32 ≠ 0, 24),
    (f 32 8 % 64 ≠ 0, 32), ((1 ≤ f 40 1 && f 40 1 ≤ 5) || f 40 1 > 16, 40), (!zeroBytes d 41 7, 41),
    (f 48 8 % 65536 ≠ 0, 48), (f 56 8 < leastSave quads, 56), (f 64 8 % 65536 ≠ 0, 64), (f 72 8 % 65536 ≠ 0, 72),
    (quads = 0 || quads ≥ 2 ^ 112
      || (List.range 112).any fun q => quads.testBit q && !quadEnabled s.part.gradeA q, 80),
    (!zeroBytes d 96 32, 96)]

/-- The context that a descriptor defines, CREATED (R388, R391). -/
def contextOf (num : Nat) (d : List Byte) : Context :=
  let f := fun (a n : Nat) => fieldOf d a n
  { num := num, st := .created, det := f 0 1 % 2 == 1, tkey := f 1 1, nvec := f 2 1, tqvec := f 3 1 % 16, faultvec := f 3 1 / 16,
    watchdog := if f 4 4 = 0 then 10000 else f 4 4, drain := f 8 4, minslice := f 12 4, root := f 16 8, qtable := f 24 8,
    tqbase := f 32 8, tqlog2 := if f 40 1 = 0 then 12 else f 40 1, savebase := f 48 8, savesize := f 56 8, spillbase := f 64 8,
    spillsize := if f 72 8 = 0 then 2 ^ 30 else f 72 8, quads := f 80 16, tqread := 0, tqwrite := 0, dropped := 0,
    fatalsum := none, overrun := 0, charge := 0, sdaddr := 0, sdlen := 0, sdbusy := false, sdfrom := 0, sdwait := [],
    pending := [], raised := [], queues := [], podwin := [], podbar := [], vectors := [], cap := 0, resident := false, freed := false,
    granted := [], savedAt := 0 }

/-- The driver's codes for a refusal: of CREATE, of a queue descriptor, of an image (R348, R371, R388). -/
def refusedCreate : Nat := 1
def refusedQueue : Nat := 2
def refusedImage : Nat := 3

/-- A tenant is known from its first context (R389; log entry 2). -/
def State.withTenant (s : State) (k : Nat) : State :=
  if s.tenants.any fun t => t.key == k then s
  else { s with tenants := s.tenants ++ [{ key := k, weight := 1, vtime := 0, cursor := [] }] }

/-- CREATE: a FREE context whose descriptor breaks no rule becomes CREATED; else the reason goes to the driver (R388, R391). -/
def execCreate (s : State) : Host.Outcome State Fault Refusal :=
  match s.arg with
  | [c] =>
    if c ≥ 64 || (s.ctx? c).isSome || !s.part.up then .next s
    else
      let d := s.ctxDesc c
      match s.descError d with
      | some code => .next (s.emit (.driver c refusedCreate code))
      | none =>
        let x := contextOf c d
        .next ({ s with ctxs := s.ctxs ++ [x] }.withTenant x.tkey)
  | _ => .next s

/-! ## Queue descriptors (R371) -/

/-- The 32-byte descriptor of a queue. -/
def State.queueDesc (s : State) (c : Context) (q : Nat) : List Byte := memBytes (c.qtable + 32 * q) 32 s.mem

/-- Does a queue descriptor break a rule of R371 Table 1? -/
def queueBad (d : List Byte) : Bool :=
  let f := fun (a n : Nat) => fieldOf d a n
  f 0 8 % 64 ≠ 0 || f 8 1 < 4 || f 8 1 > 20 || f 9 1 > 7 || f 10 1 ≥ 4 || f 11 1 ≠ 0 || f 14 2 ≠ 0 || f 24 8 ≠ 0

/-- ENABLE of a descriptor. -/
def queueOn (d : List Byte) : Bool := fieldOf d 10 1 % 2 == 1

/-- QUANTUM of a descriptor; 0 means 64. -/
def queueQuantum (d : List Byte) : Nat := if fieldOf d 12 2 = 0 then 64 else fieldOf d 12 2

/-- A queue as its descriptor gives it, in a state. -/
def queueFrom (num : Nat) (d : List Byte) (st : QueueState) : Queue :=
  let f := fun (a n : Nat) => fieldOf d a n
  { num := num, st := st, base := f 0 8, log2 := f 8 1, prio := f 9 1, kernels := f 10 1 / 2 % 2 == 1, quantum := queueQuantum d,
    read := BitVec.ofNat 32 (f 16 4), write := BitVec.ofNat 32 (f 20 4), packets := [], deficit := 0, eff := f 9 1, waited := 0 }

/-- The part writes READ and WRITE of a queue's descriptor (R371). -/
def State.putIndices (s : State) (c : Context) (q : Queue) : State :=
  { s with mem := memWrite (c.qtable + 32 * q.num + 16) (leBytes 4 q.read.toNat ++ leBytes 4 q.write.toNat) s.mem }

def Context.queue? (c : Context) (q : Nat) : Option Queue := c.queues.find? fun x => x.num == q

def State.queue? (s : State) (c q : Nat) : Option Queue := (s.ctx? c).bind fun x => x.queue? q

def State.modQueue (s : State) (c q : Nat) (f : Queue → Queue) : State :=
  s.modCtx c fun x => { x with queues := updIf (fun y => y.num == q) f x.queues }

/-- A queue is read at the context's ENABLE: one that is valid and has ENABLE set is EMPTY; a refused one is reported (R371). -/
def State.firstQueue (s : State) (c : Context) (q : Nat) : State :=
  let d := s.queueDesc c q
  let on := queueOn d && !queueBad d
  let s := if queueOn d && queueBad d then s.emit (.driver c.num refusedQueue q) else s
  s.modCtx c.num fun x => { x with queues := x.queues ++ [queueFrom q d (if on then .empty else .disabled)] }

/-- ENABLE: a CREATED context becomes READY once the accepted vector is written; its 64 queue descriptors are read (R355, R371,
R391). -/
def execEnable (s : State) : Host.Outcome State Fault Refusal :=
  match s.arg with
  | [c] => match s.ctx? c with
    | none => .next s
    | some x =>
      if x.st != .created || !s.part.acceptedWritten || !s.part.up then .next s
      else
        let s := s.modCtx c fun y => { y with st := .ready, queues := [] }
        let s : State := { s with part := { s.part with anyEnabled := true } }
        .next ((List.range 64).foldl (fun s q => s.firstQueue x q) s)
  | _ => .next s

/-- Does a descriptor differ from a running queue in anything but PRIO, QUANTUM and ENABLE (R371)? -/
def Queue.differs (q : Queue) (d : List Byte) : Bool :=
  let new := queueFrom q.num d q.st
  new.base != q.base || new.log2 != q.log2 || new.kernels != q.kernels || new.read != q.read || new.write != q.write

/-- The effective priority of a queue: PRIO plus one for each full 1 ms that its oldest QUEUED launch has waited, up to 7 (R384). -/
def State.agedPrio (s : State) (c : Context) (q : Queue) : Nat :=
  match s.launches.find? fun l => l.ctx == c.num && l.queue == q.num && l.st == .queued with
  | some l => min 7 (q.prio + (s.now - l.since) / (1000 * Config.cyclesPerUs))
  | none => q.prio

/-- A descriptor is read again: a running queue takes PRIO and QUANTUM, and is disabled where ENABLE is 0 and it is EMPTY or
HALTED; any other change, a refused value among them, is reported (R371). -/
def State.rereadQueue (s : State) (c : Context) (q : Queue) : State :=
  let d := s.queueDesc c q.num
  let report := fun (s : State) => s.emit (.driver c.num refusedQueue q.num)
  if q.st == .disabled then
    if !queueOn d then s
    else if queueBad d then report s
    else s.modQueue c.num q.num fun _ => queueFrom q.num d .empty
  else
    let prio := if fieldOf d 9 1 > 7 then q.prio else fieldOf d 9 1
    let take : Queue → Queue := fun x => { x with prio := prio, quantum := queueQuantum d, eff := s.agedPrio c { x with prio := prio } }
    let off := !queueOn d && (q.st == .empty || q.st == .halted)
    let refused := queueBad d || q.differs d || (!queueOn d && !off)
    let s := s.modQueue c.num q.num fun x => if off then { take x with st := .disabled, packets := [] } else take x
    if refused then report s else s

/-- A write to QUPDATE: ignored unless bits 63:6 are 0 and the context is enabled (R371, R390). -/
def State.qupdate (s : State) (c : Nat) (v : DWord) : State :=
  match s.ctx? c with
  | none => s
  | some x =>
    if v.toNat ≥ 64 || x.st == .free || x.st == .created || x.st == .terminated then s
    else match x.queue? v.toNat with
      | some q => s.rereadQueue x q
      | none => s

/-- QUPDATE (R371, R390). -/
def execQupdate (s : State) : Host.Outcome State Fault Refusal :=
  match s.arg with
  | [c, v] => .next (s.qupdate c (BitVec.ofNat 64 v))
  | _ => .next s

/-! ## TQREAD (R395) -/

/-- A write of TQREAD frees records; held ones, which a FAULTED context still has, are written as room appears, the first into an
empty queue raises TQVEC (R395, R396). -/
def State.writeTqread (s : State) (c : Nat) (v : DWord) : State :=
  let s := s.modCtx c fun x => { x with tqread := v.setWidth 32 }
  match s.ctx? c with
  | none => s
  | some x =>
    if x.st == .terminated || x.heldCount = 0 || x.room ≤ 4 then s
    else
      let s := s.writeHeld c (x.heldCount + 1)
      if x.tqread == x.tqwrite then s.raise c x.tqvec else s

/-- TQREAD (R390, R395). -/
def execTqread (s : State) : Host.Outcome State Fault Refusal :=
  match s.arg with
  | [c, v] => .next (s.writeTqread c (BitVec.ofNat 64 v))
  | _ => .next s

/-! ## TERMINATE, RELEASE (R391, R392) -/

/-- May a context be terminated: CREATED to SAVED, or FAULTED (R391)? -/
def Context.terminable (c : Context) : Bool := c.st != .free && c.st != .terminated

/-- A context goes to TERMINATED; its resources are freed next (R391, R392). -/
def State.terminate (s : State) (c : Nat) : State :=
  match s.ctx? c with
  | none => s
  | some x =>
    if !x.terminable then s
    else
      let halt : Queue → Queue := fun q => if q.st == .disabled then q else { q with st := .halted }
      (s.modCtx c fun x => { x with st := .terminated, freed := false, queues := x.queues.map halt }).post
        .contextResourcesFreed [c]

/-- TERMINATE (R391). -/
def execTerminate (s : State) : Host.Outcome State Fault Refusal :=
  match s.arg with
  | [c] => .next (s.terminate c)
  | _ => .next s

/-- Free everything of a context: teams with all they hold, operations, laminae, barrier instances, saved states, images, queues
and held records; committed writes stay, launches end FAULTED, outboxes are never performed, and the phases of pod barriers, which are
other contexts' too, stay as they are (R296, R348, R363, R392). -/
def State.freeContext (s : State) (c : Nat) : State :=
  let teams := (s.teams.filter fun t => t.ctx == c).map fun t => t.key
  let launches := (s.launches.filter fun l => l.ctx == c).map fun l => l.key
  let snaps := (s.teams.filter fun t => t.ctx == c).flatMap fun t =>
    t.levels.map (fun l => l.snap) ++ (match t.fork with
      | some f => [f.snap]
      | none => [])
  let ours := fun (b : Bar) => match b.owner with
    | .team k => teams.contains k
    | .cluster l _ => launches.contains l
    | .die l _ => launches.contains l
    | .launch l => launches.contains l
    | .pod _ _ => false
  let fault : Launch → Launch := fun l => { l with st := if l.st == .done then .done else .faulted }
  let off : Queue → Queue := fun q => { q with st := .disabled, packets := [], deficit := 0 }
  let s : State := { s with
    teams := s.teams.filter (fun t => t.ctx != c), ops := s.ops.filter (fun o => !teams.contains o.team),
    toks := s.toks.filter (fun k => !teams.contains k.team), lams := s.lams.filter (fun l => l.ctx != c),
    bars := s.bars.filter fun b => !ours b, snaps := s.snaps.filter (fun x => !snaps.contains x.key),
    run := s.run.filter (fun r => !teams.contains r.1), images := s.images.filter (fun i => i.ctx != c),
    launches := updIf (fun l => l.ctx == c) fault s.launches, reclaims := s.reclaims.filter (fun r => r.ctx != c),
    moves := s.moves.filter (fun m => m.ctx != c), tlb := s.tlb.filter (fun t => t.ctx != c),
    icache := s.icache.filter (fun f => f.ctx != c) }
  s.modCtx c fun x =>
    { x with pending := [], queues := x.queues.map off, resident := false, freed := true, sdbusy := false, sdwait := [] }

/-- CONTEXT_RESOURCES_FREED: everything a TERMINATED context held is free; FAULTVEC is raised (R391, R392, R396). -/
def execContextResourcesFreed (s : State) : Host.Outcome State Fault Refusal :=
  match s.arg with
  | [c] => match s.ctx? c with
    | none => .next s
    | some x =>
      if x.st != .terminated || x.freed then .next s else .next ((s.freeContext c).raise c x.faultvec)
  | _ => .next s

/-- RELEASE: a TERMINATED context whose resources are freed is FREE (R391). -/
def State.releaseCtx (s : State) (c : Nat) : State :=
  match s.ctx? c with
  | none => s
  | some x =>
    if x.st != .terminated || !x.freed then s
    else { s with ctxs := s.ctxs.filter (fun y => y.num != c), launches := s.launches.filter fun l => l.ctx != c }

/-- RELEASE (R391). -/
def execRelease (s : State) : Host.Outcome State Fault Refusal :=
  match s.arg with
  | [c] => .next (s.releaseCtx c)
  | _ => .next s

end Sys2Proof.Machine
end

