-- ==== Sys2Proof/Machine/Watch.lean ====
section
/-! DEFINITION. The watchdog of a context: what each wait is reported as, the missing groups, and the records (R173, R254,
R294 to R296). -/

namespace Sys2Proof.Machine

/-- What a head record says of a wait (R295 Table 3), and the missing threads as (team index, group, lanes, team key); a team that
is not placed, or is gone, has no key. -/
structure WaitReport where
  kind : Nat
  scope : Nat
  id : Nat
  expected : Nat
  arrived : Nat
  phase : Nat
  counted : Bool
  missing : List (Nat × Nat × DWord × Option Nat × Nat)

/-- A report without counts. -/
def WaitReport.plain (kind id : Nat) : WaitReport :=
  { kind := kind, scope := 0, id := id, expected := 0, arrived := 0, phase := 0, counted := false, missing := [] }

/-- State codes of a group that has no live thread, and of one that is not placed (R295). -/
def codeExited : Nat := 4
def codeUnplaced : Nat := 5

/-- State code of a thread (R102, R295). -/
def State.threadCode (s : State) (t : Team) (gid lane : Nat) : Nat :=
  match t.thread? gid lane with
  | none => codeExited
  | some x =>
    if x.handler then 3
    else if x.park.isSome then 2
    else match t.squads.find? fun q => q.members.contains (gid, lane) with
      | some q => if s.readyOutside t q (gid, lane) then 0 else 1
      | none => 0

/-- Missing threads of a team by group (R295). -/
def State.missingOf (s : State) (t : Team) (ms : List (Nat × Nat)) : List (Nat × Nat × DWord × Option Nat × Nat) :=
  (gidsOf (sortBy threadLe ms)).map fun g =>
    let lanes := (ms.filter fun m => m.1 == g).map (·.2)
    let lowest := (sortBy (fun (a b : Nat) => decide (a ≤ b)) lanes).headD 0
    (t.index, g, laneMask lanes, some t.key, s.threadCode t g lowest)

/-- Threads of a team that wait so. -/
def Team.notWaiting (t : Team) (p : WaitOn → Bool) : List (Nat × Nat) :=
  let ws := t.waiters p
  t.groups.flatMap fun g => (g.threads.filter fun x => !ws.contains (g.gid, x.lane)).map fun x => (g.gid, x.lane)

/-- Is a team one of those whose threads count at a barrier (R283)? At a pod barrier a report names those of the context that waits
(log entry 81). -/
def State.counts (s : State) (ctx : Nat) (o : BarOwner) (t : Team) : Bool :=
  match o with
  | .team k => t.key == k
  | .cluster l n => t.launch == l && t.parent.isNone && t.index / s.clusterSize t == n
  | .die l d => t.launch == l && t.parent.isNone && t.st != .saved && dieOf t.core == d
  | .launch l => t.launch == l && t.parent.isNone
  | .pod h n => t.ctx == ctx && t.parent.isNone && (match s.ctxOf t with
    | some c => c.podbar.any fun p => p.2 == (h, n)
    | none => false)

/-- Lane positions of the groups of a launch: 64, or 32 in narrow-wave (R143, R172). -/
def State.laneCount (s : State) (l : Launch) : Nat := match s.image? l.image with
  | some i => if i.wide32 then 32 else 64
  | none => 64

/-- A group at a barrier with a count of `ARRIVEX`: its live threads that have not arrived, or, when none lives, its lanes
that never arrived (R295). -/
def State.countedMissing (s : State) (b : Bar) (t : Team) (g : Nat) : List (Nat × Nat × DWord × Option Nat × Nat) :=
  let away := fun (l : Nat) => !b.arrived.contains (t.key, g, l)
  let live := match t.group? g with
    | some x => x.threads.map fun (y : Thread) => y.lane
    | none => []
  if live.isEmpty then
    let lanes := (List.range (s.width t)).filter away
    if lanes.isEmpty then [] else [(t.index, g, laneMask lanes, none, codeExited)]
  else s.missingOf t ((live.filter away).map fun l => (g, l))

/-- Retired teams whose threads count at a barrier of a launch or a cluster: their groups have exited (R295). -/
def State.goneMissing (s : State) (b : Bar) : List (Nat × Nat × DWord × Option Nat × Nat) :=
  let of := fun (key : Nat) (mine : Nat → Bool) => match s.launch? key with
    | none => []
    | some l => (l.gone.filter fun g => mine g.2).flatMap fun g => (List.range l.gpt).filterMap fun gid =>
        let lanes := (List.range (s.laneCount l)).filter fun x => !b.arrived.contains (g.1, gid, x)
        if lanes.isEmpty then none else some (g.2, gid, laneMask lanes, none, codeExited)
  match b.owner with
  | .launch k => of k fun _ => true
  | .cluster k n => of k fun i => match s.launch? k with
      | some l => i / max 1 l.cluster == n
      | none => false
  | _ => []

/-- Groups of the teams of a launch that are not placed (R295): at most as many as a report can name. -/
def State.unplaced (s : State) (o : BarOwner) : List (Nat × Nat × DWord × Option Nat × Nat) :=
  match o with
  | .launch k => match s.launch? k with
    | some l => (upFrom l.started (min 64 (l.nteams - l.started))).flatMap fun i =>
        (List.range l.gpt).map fun g => (i, g, laneMask (List.range (s.laneCount l)), none, codeUnplaced)
    | none => []
  | _ => []

/-- The identifier that a BAR word names (R292). -/
def barName (w : Word) : Nat := match instrOf w with
  | some (.arrive _ b _) => b.toNat
  | some (.waitb _ b _ _) => b.toNat
  | some (.sync _ b _) => b.toNat
  | some (.arrivex _ b _ _) => b.toNat
  | _ => 0

/-- The report of a barrier wait; a pod barrier goes by the identifier that the waiting word names (R295). -/
def State.barReport (s : State) (t : Team) (w : Wait) (key : Nat) : Option WaitReport :=
  (s.bar? key).map fun b =>
    let teams := s.teams.filter fun u => s.counts t.ctx b.owner u
    let id := match b.owner with
      | .pod _ _ => barName w.iss.word
      | _ => b.id
    let live := teams.flatMap Team.liveThreads
    let more := match b.owner with
      | .launch k => match s.launch? k with
        | some l => (l.nteams - l.started) * l.gpt * s.laneCount l
        | none => 0
      | _ => 0
    let missing := match b.expected with
      | some _ => (teams.flatMap fun t => (List.range (s.gptOf t)).flatMap fun g => s.countedMissing b t g) ++ s.goneMissing b
      | none => teams.flatMap fun t => s.missingOf t
          ((t.liveThreads.filter fun x => !b.arrived.contains x).map fun x => x.2)
    { kind := 0, scope := b.scope, id := id, expected := b.expected.getD (live.length + more), arrived := b.arrived.length,
      phase := b.phase, counted := b.expected.isSome, missing := missing ++ s.unplaced b.owner }

/-- The report of a wait that all live threads of some teams must join (R304, R316, R323, R325). -/
def State.jointReport (s : State) (id : Nat) (teams : List Team) (p : WaitOn → Bool) : WaitReport :=
  { kind := 0, scope := 0, id := id, expected := (teams.flatMap Team.liveThreads).length,
    arrived := (teams.flatMap fun t => t.waiters p).length, phase := 0, counted := false,
    missing := teams.flatMap fun t => s.missingOf t (t.notWaiting p) }

/-- The report of a `WAITM` or a collective: the members of a mask of a group, of which those that wait at the same mask, or at the
same collective PC, have come (R166, R167, R173). -/
def State.maskReport (s : State) (t : Team) (kind id gid mask : Nat) (p : Wait → Bool) : WaitReport :=
  let m := s.rdM t gid mask
  let members := ((List.range 64).filter fun l => m.getLsbD l).map fun l => (gid, l)
  let ws := (t.squads.filter fun q => q.wait.any p).flatMap fun q => q.members
  { kind := kind, scope := 0, id := id, expected := members.length, arrived := (members.filter ws.contains).length, phase := 0,
    counted := false, missing := s.missingOf t (members.filter fun x => !ws.contains x) }

/-- The report of an `MWAIT`: the round that names the tile, if one is open (R266, R273). -/
def State.tileReport (s : State) (t : Team) (a : Nat) : WaitReport :=
  match t.convs.findSome? fun c => c.round.bind fun r => if (mmaOp r.word).tiles.contains a then some r else none with
  | some r =>
    let set := t.signingSet r.mask (s.gptOf t)
    { WaitReport.plain 5 a with expected := set.length, arrived := r.signers.length,
                                missing := s.missingOf t (set.filter fun m => !r.signers.contains m) }
  | none => WaitReport.plain 5 a

/-- What a wait is reported as; `none` for waits the watchdog does not cover (R294, R295). -/
def State.waitReport (s : State) (t : Team) (q : Squad) (w : Wait) : Option WaitReport :=
  let gid := ((q.members.find? fun m => !(w.got.any fun r => r.1 == m.1 && r.2.1 == m.2)).getD (0, 0)).1
  match w.on with
  | .mask m => some (s.maskReport t 1 m gid m fun (x : Wait) => x.on == WaitOn.mask m)
  | .collective => some (s.maskReport t 2 0 gid 0 fun (x : Wait) => x.on == WaitOn.collective && x.iss.pc == w.iss.pc)
  | .tagAll tags => some (WaitReport.plain 3 (lowestTag (tags &&& ~~~t.tags)).toNat)
  | .tagAny ms => some (WaitReport.plain 3 (lowestTag ((ms.foldl (fun a m => a ||| m) 0) &&& ~~~t.tags)).toNat)
  | .tile a _ => some (s.tileReport t a)
  | .slots claims => some (WaitReport.plain 6 (match t.slots.find? fun x => claims.contains x.claim with
      | some x => x.name
      | none => 0))
  | .arrive k => s.barReport t w k
  | .phases k _ _ => s.barReport t w k
  | .ensure =>
    let p := fun (x : WaitOn) => x == WaitOn.ensure
    some (match t.levels, t.conv with
      | [], some c => s.jointReport 17 (s.teams.filter fun u => u.ctx == t.ctx && u.conv == some c) p
      | _, _ => s.jointReport 16 [t] p)
  | .fork => some (s.jointReport 18 [t] fun (x : WaitOn) => x == WaitOn.fork)
  | .choose => some (s.jointReport 19 [t] fun (x : WaitOn) => x == WaitOn.choose)
  | .token => some (WaitReport.plain 0 20)
  | .delivery _ => some (WaitReport.plain 7 ((s.ops.findSome? fun o =>
      if o.team == t.key && o.iss.squad == q.key && o.iss.pc == w.iss.pc then (match o.what with
        | .klaunch n _ _ _ => some n
        | _ => none) else none).getD 0))
  | .sign => none
  | .verdict => none
  | .turn => none
  | .fence _ => none

/-- The queue of a pop on whose destination a squad's next word is blocked (R254), in a packet begun or not. -/
def State.popQueue (s : State) (t : Team) (q : Squad) : Option Nat :=
  if q.wait.isSome then none
  else
    let line := s.nextLine t q
    let regs := (s.unitItems t (issueUnit t.kind (t.squadPc q) line)).flatMap fun x => match x with
      | .run _ i =>
        let u := usesOf i
        ((u.rd ++ u.wr).flatMap fun r => r.expand q.members) ++ (s.relRegs t q.members i).1 ++ (s.relRegs t q.members i).2
      | .bad _ _ _ => []
    s.ops.findSome? fun o => if o.team != t.key then none else match o.what with
      | .qpop g l v n _ => if regs.contains (RegId.v g l v) && t.isEmpty (.v g l v) then some n else none
      | _ => none

/-- Squads note since when their word is blocked on a pop (R254). -/
def State.notePops (s : State) : State :=
  let pops := fun (t : Team) => s.ops.any fun o => o.team == t.key && (match o.what with
    | .qpop _ _ _ _ _ => true
    | _ => false)
  let note := fun (t : Team) (q : Squad) =>
    if (s.popQueue t q).isSome then { q with popWait := some (q.popWait.getD s.now) } else { q with popWait := none }
  let fix := fun (t : Team) =>
    if pops t then { t with squads := t.squads.map (note t) }
    else if t.squads.any fun q => q.popWait.isSome then
      { t with squads := t.squads.map fun (q : Squad) => { q with popWait := none } }
    else t
  { s with teams := s.teams.map fix }

/-- A covered wait of a squad: since when, the PC and word, and the report (R294); for a collective the PC is its own (R173). -/
def State.covered (s : State) (t : Team) (q : Squad) : Option (Nat × DWord × Word × WaitReport) :=
  match q.wait with
  | some w => (s.waitReport t q w).map fun r =>
      (w.since, if w.on == WaitOn.collective then w.iss.pc else w.iss.first, w.iss.word, r)
  | none => q.popWait.bind fun n => (s.popQueue t q).map fun k => (n, t.squadPc q, 0, WaitReport.plain 4 k)

/-- The covered waits of a context that have lasted longer than its watchdog time, those of a rival WAITING for a core apart (R294,
R328). -/
def State.timedOut (s : State) (c : Context) : List (Team × Squad × Nat × DWord × Word × WaitReport) :=
  if c.st != .running && c.st != .preempting then []
  else (s.teams.filter fun t => t.ctx == c.num && t.st != .suspended && !s.waitsTurn t).flatMap fun t => t.squads.filterMap fun q =>
    (s.covered t q).bind fun r =>
      if s.now > r.1 + c.watchdog * Config.cyclesPerUs then some (t, q, r.1, r.2.1, r.2.2.1, r.2.2.2) else none

/-- The one whose wait began first (R295). -/
def State.firstTimeout (s : State) (c : Context) : Option (Team × Squad × Nat × DWord × Word × WaitReport) :=
  (s.timedOut c).foldl (fun b x => match b with
    | none => some x
    | some y => if x.2.2.1 < y.2.2.1 then some x else some y) none

/-- Order of missing groups: ascending team index, then group (R295). -/
def missingLe (a b : Nat × Nat × DWord × Option Nat × Nat) : Bool := threadLe (a.1, a.2.1) (b.1, b.2.1)

/-- One continuation record (R295). -/
def State.continuation (s : State) (head : Record) (m : Nat × Nat × DWord × Option Nat × Nat) : Record :=
  let base := { plainRecord cBartimeout with
    queue := head.queue, launch := head.launch, group := m.2.1, team := m.1, lanes := m.2.2.1, enc := head.enc,
    extra := leBytes 1 m.2.2.2.2 }
  match m.2.2.2.1.bind fun k => s.team? k with
  | none => base
  | some t =>
    let lane := (List.range 64).find? fun l => m.2.2.1.getLsbD l
    match lane.bind fun l => t.thread? m.2.1 l with
    | none => base
    | some x =>
      let pcs := s.bothPcs t x.point x.pc
      { base with pcd := pcs.1, pcl := pcs.2, approx := true, enc := t.kind == .lcore }

/-- EXTRA of a head record; NCONT is filled in when its event is written (R295 Table 3). -/
def WaitReport.extra (r : WaitReport) : List Byte :=
  leBytes 1 r.kind ++ leBytes 1 r.scope ++ leBytes 2 r.id ++ leBytes 4 r.expected ++ leBytes 4 r.arrived ++ leBytes 2 r.phase
    ++ leBytes 1 0 ++ leBytes 1 (if r.counted then 1 else 0)

/-- WATCHDOG_TIMEOUT: the head record and its continuations are one event, placed among those of its cycle; the context goes to
FAULTED, and on to TERMINATED when they are written (R295, R296, R393, R396). -/
def execWatchdogTimeout (s : State) : Host.Outcome State Fault Refusal :=
  match s.arg with
  | [cn] => match s.ctx? cn with
    | none => .next s
    | some c => match s.firstTimeout c with
      | none => .next s
      | some (t, q, _, pc, word, r) =>
        let gs := gidsOf q.members
        let point := ((q.members.head?).bind fun m => t.thread? m.1 m.2).bind fun x => x.point
        let head := s.teamRecord t cBartimeout (if gs.length ≤ 1 then gs.headD 0 else 0xFF) (laneMask (q.members.map (·.2)))
          word.toNat (s.bothPcs t point pc) 0
        let missing := (sortBy missingLe r.missing).take 64
        let rs := missing.map fun m => (s.continuation head m, (none : Option Blocked))
        .next (s.putRecords cn (({ head with fatal := true, extra := r.extra }, none) :: rs))
  | _ => .next s

end Sys2Proof.Machine
end

