-- ==== Sys2Proof/Machine/Load.lean ====
section
/-! DEFINITION. Loading and unloading a kernel image (R34, R39, R71, R300, R334 to R338, R348 to R356). The image holds what the
driver submits: the resources and tables of the container, and the words of the pair that R351 chooses. -/

namespace Sys2Proof.Machine

/-! ## The words of the two sections -/

/-- The packets of a D-packet section (R21). -/
def packetsOf : List Word → List (List Word)
  | a :: b :: c :: d :: r => [a, b, c, d] :: packetsOf r
  | _ => []

/-- The words of a D-packet section that are executed, with their PCs: schedule words and literals are left out (R22, R38). -/
def Image.dCode (i : Image) : List (DWord × Word) :=
  (packetsOf i.dwords).zipIdx.flatMap fun p =>
    let lits := literalSlots p.1
    ([0, 1, 2].filter fun n => !lits.contains n).map fun n =>
      (i.dbase + BitVec.ofNat 64 (16 * p.2 + 4 + 4 * n), p.1.getD (n + 1) 0)

/-- The words of an L-stream section from a PC, without literals (R40). -/
def lCodeFrom (pc : DWord) : List Word → List (DWord × Word)
  | [] => []
  | [w] => [(pc, w)]
  | w :: l :: r => if isCarrier w then (pc, w) :: lCodeFrom (pc + 8) r else (pc, w) :: lCodeFrom (pc + 4) (l :: r)

/-- The words of the L-stream section that are executed, with their PCs. -/
def Image.lCode (i : Image) : List (DWord × Word) := lCodeFrom i.lbase i.lwords

/-- The word at a PC among the executed words of a section. -/
def codeAt (code : List (DWord × Word)) (pc : DWord) : Option Instr :=
  (code.find? fun p => p.1 == pc).bind fun p => instrOf p.2

/-! ## The checks (R353) -/

/-- Does a packet break a rule of Table 6 (R34)? -/
def Image.packetsBad (i : Image) : Bool :=
  i.dwords.length % 4 ≠ 0 || (packetsOf i.dwords).any fun p => (packetError p).isSome

/-- Does a word name a register at or above the declared allocation (R39)? -/
def Image.regsBad (i : Image) : Bool :=
  (i.dCode ++ i.lCode).any fun p => match instrOf p.2 with
    | none => false
    | some x =>
      let u := usesOf x
      (u.wr ++ u.rd ++ basesOf x).any fun r => match r with
        | .v n => n ≥ i.vregs
        | .s n => n ≥ i.sregs
        | _ => false

/-- Is a declared value outside its range (R71)? -/
def Image.rangesBad (i : Image) : Bool :=
  i.vregs < 8 || i.vregs > 128 || i.vregs % 8 ≠ 0 || i.sregs < 2 || i.sregs > 63
    || i.team < 64 || i.team > 1024 || i.team % 64 ≠ 0 || i.cluster < 1 || i.cluster > 4
    || i.scratch > 448 * 1024 || i.scratch % 16384 ≠ 0 || i.opslots > 32 || i.acc > 8 || i.tags > 64
    || i.rbjournal > 65536 || i.rbjournal % 256 ≠ 0
    || i.params.any fun p => p.1 ≥ i.sregs || p.2.2 > 4092 || (p.2.1 && (p.1 % 2 ≠ 0 || p.1 + 1 ≥ i.sregs || p.2.2 % 8 ≠ 0))

/-- Are two entries of a list of numbers equal? -/
def repeated (l : List Nat) : Bool := (uniq l).length ≠ l.length

/-- The records of an EQUIV section's bytes, for two section bases, or none where they are not laid out as R336 says: a record
that runs beyond the section, bytes of its padding that are not zero, or an offset that is no packet's or no word's. -/
def parseEquiv (d l : DWord) : Nat → List Byte → Option (List EqRec)
  | _, [] => some []
  | 0, _ => none
  | fuel + 1, bs =>
    let f := fieldOf bs
    let (nv, np, ns) := (f 12 1, f 13 1, f 14 1)
    let used := 16 + 2 * (nv + np + ns)
    let len := (used + 3) / 4 * 4
    if bs.length < len || f used (len - used) ≠ 0 || f 4 4 % 16 ≠ 0 || f 8 4 % 4 ≠ 0 then none
    else
      let entries := fun (a n : Nat) => (upFrom a n).map fun k => (f (16 + 2 * k) 1, f (17 + 2 * k) 1)
      let r : EqRec :=
        { id := f 0 2, depth := f 2 2, dpc := d + BitVec.ofNat 64 (f 4 4 + 4), lpc := l + BitVec.ofNat 64 (f 8 4),
          vec := entries 0 nv, pred := entries nv np, scal := entries (nv + np) ns, rsv := f 15 1 }
      (parseEquiv d l fuel (bs.drop len)).map fun rs => r :: rs

/-- Does an equivalence record break Table 2, or name no marked place in each section (R334, R336, R337)? -/
def Image.recordBad (i : Image) (e : EqRec) : Bool :=
  let pts := fun (l : List (Nat × Nat)) (lo hi : Nat) =>
    l.any (fun p => p.1 < lo || p.1 ≥ hi || p.2 < lo || p.2 ≥ hi) || repeated (l.map (·.2))
  let packet := (e.dpc - i.dbase).toNat / 16
  let line := (packetsOf i.dwords).getD packet []
  e.rsv ≠ 0 || e.vec.length > 128 || e.pred.length > 7 || e.scal.length > 62
    || pts e.vec 0 i.vregs || pts e.pred 1 8 || pts e.scal 1 (min 63 i.sregs)
    || (e.dpc - i.dbase).toNat % 16 ≠ 4 || line.isEmpty || swKind (line.getD 0 0) ≠ 2
    || codeAt i.lCode e.lpc != some (.eqpt (BitVec.ofNat 16 e.id))

/-- Does the equivalence table not match the two sections (R334, R336)? -/
def Image.tableBad (i : Image) : Bool :=
  let marked := ((packetsOf i.dwords).zipIdx.filter fun p => swKind (p.1.getD 0 0) = 2).map fun p =>
    i.dbase + BitVec.ofNat 64 (16 * p.2 + 4)
  let points := i.lCode.filter fun p => match instrOf p.2 with
    | some (.eqpt _) => true
    | _ => false
  let ids := i.equiv.map fun e => e.id
  marked.any (fun pc => !(i.equiv.any fun e => e.dpc == pc)) || points.any (fun p => !(i.equiv.any fun e => e.lpc == p.1))
    || i.equiv.any i.recordBad || repeated ids || ids != sortBy (fun (a b : Nat) => decide (a ≤ b)) ids

/-- The blocks of a section as R300 pairs them lexically, inner ones first: each `ENSURE` with the end words that follow it up to its
`ELSEERROR`; none where an end word has no `ENSURE`, or an `ENSURE` no `ELSEERROR`. The list holds the blocks still open, innermost
first. -/
def pairBlocks : List (DWord × Word) → List (DWord × List DWord) → Option (List (DWord × List DWord))
  | [], [] => some []
  | [], _ => none
  | (pc, w) :: r, open_ => match instrOf w, open_ with
    | some (.ensure _), _ => pairBlocks r ((pc, []) :: open_)
    | some .elseby, (e, ends) :: o => pairBlocks r ((e, ends ++ [pc]) :: o)
    | some .elseby, [] => none
    | some .elseerror, (e, ends) :: o => (pairBlocks r o).map fun bs => (e, ends ++ [pc]) :: bs
    | some .elseerror, [] => none
    | _, _ => pairBlocks r open_

/-- Do the block entries of a section differ from its lexical pairing (R300)? -/
def pairingBad (code : List (DWord × Word)) (bs : List (DWord × List DWord)) : Bool :=
  match pairBlocks code [] with
  | none => true
  | some ps => ps.length != bs.length || bs.any fun b => !ps.contains b

/-- Does the acceptance test of an `ENSURE` lie outside its section (R300, R303)? Where a unit ends inside a section is in no table
whose layout the spec gives (log entry 95). -/
def Image.testOut (i : Image) (k : Kind) (pc : DWord) : Bool :=
  let (base, n) := match k with
    | .dcore => (i.dbase, i.dwords.length)
    | .lcore => (i.lbase, i.lwords.length)
  (pc + (i.wordAt k (nextSlot k pc)).signExtend 64 - base).toNat ≥ 4 * n

/-- Is a block entry broken: the places of the `ENSURE`, of the end words and of the acceptance test (R300)? -/
def Image.blockBad (i : Image) (b : Block) : Bool :=
  let d := i.dCode
  let l := i.lCode
  let ensure := fun (x : Option Instr) => match x with
    | some (.ensure _) => true
    | _ => false
  let ends := fun (last : Bool) (x : Option Instr) => match x with
    | some .elseerror => last
    | some .elseby => !last
    | _ => false
  !ensure (codeAt d b.dpc) || !ensure (codeAt l b.lpc) || i.testOut .dcore b.dpc || i.testOut .lcore b.lpc || b.ends.isEmpty || b.ends.length > 16
    || b.ends.zipIdx.any fun e =>
        let last := e.2 + 1 == b.ends.length
        !ends last (codeAt d e.1.1) || !ends last (codeAt l e.1.2)

/-- Is an `ENSURE` without its block entry, an entry broken, or a section not paired as the entries say (R300)? -/
def Image.blocksBad (i : Image) : Bool :=
  i.blocks.any i.blockBad || pairingBad i.dCode (i.blocks.map fun b => (b.dpc, b.ends.map (·.1)))
    || pairingBad i.lCode (i.blocks.map fun b => (b.lpc, b.ends.map (·.2))) || (i.dCode ++ i.lCode).any fun p => match instrOf p.2 with
    | some (.ensure _) => !(i.blocks.any fun b => b.dpc == p.1 || b.lpc == p.1)
    | _ => false

/-- PCs to which the calls of a section return, in order (R152, R338). -/
def returnsOf (d : Bool) (code : List (DWord × Word)) : List DWord :=
  code.filterMap fun p => match instrOf p.2 with
    | some (.call _) => some (if d then BitVec.ofNat 64 (p.1.toNat / 16 * 16 + 20) else p.1 + 4)
    | some (.callr _) => some (if d then BitVec.ofNat 64 (p.1.toNat / 16 * 16 + 20) else p.1 + 4)
    | _ => none

/-- The return-site map that the translator builds (R338): the calls of the two sections stand in the same order (R350). -/
def Image.siteMap (i : Image) : List (DWord × DWord) := (returnsOf true i.dCode).zip (returnsOf false i.lCode)

/-- The packet map that the translator builds (R112): for each L-stream word the PC of the D-packet word it stands for. The two
sections hold the same words in the same order (R350) but for `NOP`s, which fill packets, and for `EQPT`, for which the D-packet has
its KIND (R41): such a word counts with the next one (log entry 15). -/
def Image.packetsByWord (i : Image) : List (DWord × DWord) :=
  let d := i.dCode.filter fun p => p.2 ≠ 0
  let fills := fun (w : Word) => w = 0 || (match instrOf w with
    | some (.eqpt _) => true
    | _ => false)
  (i.lCode.foldl (fun (a : Nat × List (DWord × DWord)) p =>
    let at_ := ((d.drop a.1).head?.or d.getLast?).map fun x => x.1
    (if fills p.2 then a.1 else a.1 + 1, a.2 ++ (at_.toList.map fun x => (x, p.1)))) (0, [])).2

/-! ## Errata (R427) -/

/-- The translator's part for errata of the stepping with FIX = 1: an image that holds an encoding one selects, or for one tied to
none every image, is run in interlocked mode (R50, R427; of the two ways the rule names the model takes this one, log entry 16). -/
def Image.avoiding (i : Image) (es : List Erratum) (step : Nat) : Image :=
  let hit := es.any fun e => e.affects step && e.fix == 1
    && ((e.mask == 0 && e.val == 0) || (i.dCode ++ i.lCode).any fun p => e.selects p.2)
  if hit then { i with forced := true } else i

/-- Feature bits an image requires (R356). -/
def Image.required (i : Image) : Nat := i.features ||| (if i.det then 4 else 0) ||| (if i.wide32 then 64 else 0)

/-- Do the resources exceed a D-core (R13, R14, R459)? -/
def Image.tooBig (i : Image) : Bool :=
  let hold := coreHolds .dcore
  i.team > 64 * coreGroups .dcore || i.team > hold.getD 0 0 || i.team * 4 * i.vregs > hold.getD 1 0
    || i.opslots > hold.getD 2 0 || i.acc > hold.getD 3 0 || i.scratch + i.rbjournal > hold.getD 4 0

/-- Where a section's words go: the physical address of each, or `none` where a page is not mapped. -/
def State.sectionPas (s : State) (c : Context) (base : DWord) (n : Nat) : Option (List Nat) :=
  (List.range n).mapM fun k => match s.walk c.root (base.toNat + 4 * k) with
    | .ok p => some (p.base + (base.toNat + 4 * k) % 2 ^ p.bits)
    | .error _ => none

/-- The rule for which the translator refuses an image, by number (R353, R356). -/
def State.refusal (s : State) (c : Context) (i : Image) : Option Nat :=
  lowestCode [
    (i.rangesBad, 71), (i.packetsBad, 34), (i.regsBad, 39), (i.tableBad, 334), (i.blocksBad, 300),
    ((returnsOf true i.dCode).length ≠ (returnsOf false i.lCode).length, 350),
    (i.required &&& s.part.accepted.toNat != i.required, 356), (i.tooBig, 13), (i.det && !c.det, 353),
    (i.dbase.toNat % 16 ≠ 0 || i.lbase.toNat % 4 ≠ 0, 21),
    ((s.sectionPas c i.dbase i.dwords.length).isNone || (s.sectionPas c i.lbase i.lwords.length).isNone, 348)]

/-! ## The load -/

/-- The pair that an image's own fields hold. -/
def Image.own (i : Image) : NativePair :=
  { stepping := i.stepping, interlocked := i.interlocked, dwords := i.dwords, lwords := i.lwords, equivRaw := i.equivRaw,
    blocks := i.blocks, lineMap := i.lineMap, fixups := i.fixups, relocs := i.relocs }

/-- An image that runs a pair. -/
def Image.withPair (i : Image) (p : NativePair) : Image :=
  { i with stepping := p.stepping, interlocked := p.interlocked, dwords := p.dwords, lwords := p.lwords, equivRaw := p.equivRaw,
           blocks := p.blocks, lineMap := p.lineMap, fixups := p.fixups, relocs := p.relocs }

/-- The native pairs of a container: none, one, or more (R349). -/
def Image.natives (i : Image) : List NativePair := (if i.dwords.isEmpty then [] else [i.own]) ++ i.others

/-- The highest of TILE, LOOP and SCALAR that is present and whose version the translator understands, SCALAR always being understood
(R351). What the lowering of a level is the spec leaves to the translator: it comes with the image (log entry 95). -/
def Image.lowered (i : Image) : Option Lowering :=
  (i.lowerings.filter fun l => l.level = 0 || Config.understands l.level l.version).foldl (fun b l => match b with
    | some x => if l.level > x.level then some l else some x
    | none => some l) none

/-- The native pair with the highest stepping. -/
def highestPair (ps : List NativePair) : Option NativePair :=
  ps.foldl (fun b p => match b with
    | some x => if p.stepping > x.stepping then some p else some x
    | none => some p) none

/-- The choice of R351: the native pair for this stepping; where the driver prefers it and there is one, the pair of another stepping
with the highest one, interlocked; else the pair that the translator has lowered for this stepping; none where there is no SCALAR. -/
def Image.chosen (i : Image) (step : Nat) : Option Image :=
  match i.natives.find? fun p => p.stepping == step with
  | some p => some (i.withPair p)
  | none => match (if i.preferOther then highestPair i.natives else none) with
    | some p => some { i.withPair p with interlocked := true }
    | none => i.lowered.map fun l => { i.withPair l.pair with stepping := step }

/-- Replace a word of a section. -/
def setWord (ws : List Word) (n : Nat) (w : Word) : List Word := ws.zipIdx.map fun p => if p.2 = n then w else p.1

/-- The `.ncores` fix-ups: number of a literal in the D section and in the L section, D-cores or L-cores (R63, R354). -/
def Image.fixed (i : Image) (gradeA : Bool) : Image :=
  i.fixups.foldl (fun i f =>
    let v := BitVec.ofNat 32 (if f.2.2 then Config.ncoresd gradeA else Config.ncoresl)
    { i with dwords := setWord i.dwords f.1 v, lwords := setWord i.lwords f.2.1 v }) i

/-- Write the words of a section where its context's tables place them. -/
def State.putSection (s : State) (c : Context) (base : DWord) (ws : List Word) : State :=
  (ws.zip ((s.sectionPas c base ws.length).getD [])).foldl (fun s p => s.physBytes p.2 (leBytes 4 p.1.toNat)) s

/-- Write a value at a virtual address of a context, where it is mapped. -/
def State.putVa (s : State) (c : Context) (va : Nat) (bs : List Byte) : State :=
  match s.walk c.root va with
  | .ok p => s.physBytes (p.base + va % 2 ^ p.bits) bs
  | .error _ => s

/-- Write an accepted image: both sections, the data words that hold code addresses, and the kernel descriptor, whose layout
is the driver's (R348, R352, R354; log entry 3). -/
def State.putImage (s : State) (c : Context) (i : Image) : State :=
  let s := (s.putSection c i.dbase i.dwords).putSection c i.lbase i.lwords
  let s := i.relocs.foldl (fun s r => s.putVa c r.1 (leBytes 8 r.2.toNat)) s
  s.putVa c i.kaddr ((List.range 256).map fun n => Config.freeByte s.fresh n)

/-- Refuse an image: the driver receives the reason (R348). -/
def State.refuseImage (s : State) (i : Image) (code : Nat) : State :=
  (s.modImage i.key fun x => { x with st := .refused, reason := code }).emit (.driver i.ctx refusedImage code)

/-- KERNEL_LOAD: an image that the driver has submitted is LOADING; it is then checked, resolved and written, or refused with a reason
(R348 to R356). -/
def execKernelLoad (s : State) : Host.Outcome State Fault Refusal :=
  match s.arg with
  | [k] => match s.image? k with
    | none => .next s
    | some i => match s.ctx? i.ctx with
      | none => .next s
      | some c =>
        if !c.terminable || c.st == .faulted then .next s
        else if i.st == .submitted then .next ((s.modImage k fun x => { x with st := .loading }).post .kernelLoad [k])
        else if i.st != .loading then .next s
        else match i.chosen s.part.stepping.toNat with
        | none => .next (s.refuseImage i 349)
        | some j => match parseEquiv j.dbase j.lbase j.equivRaw.length j.equivRaw with
        | none => .next (s.refuseImage i 336)
        | some table =>
          let i := ({ j with equiv := table } : Image).avoiding s.part.errata s.part.stepping.toNat
          match s.refusal c i with
          | some code => .next (s.refuseImage i code)
          | none =>
            let i := { i.fixed s.part.gradeA with st := .loaded, sites := i.siteMap, packetMap := i.packetsByWord }
            .next ((s.modImage k fun _ => i).putImage c i)
  | _ => .next s

/-! ## Unloading -/

/-- Can an image be launched (R348)? -/
def Image.launchable (i : Image) : Bool := i.st == .loaded || i.st == .unloading

/-- Is a taken packet a LAUNCH of an image, not started yet? -/
def Packet.names (p : Packet) (kaddr : Nat) : Bool := fieldOf p.bytes 0 1 == 1 && p.launch.isNone && fieldOf p.bytes 8 8 == kaddr

/-- Does an image have launches that are not DONE or FAULTED (R348)? -/
def State.imageBusy (s : State) (k : Nat) : Bool :=
  (s.launches.any fun l => l.image == k && l.st != .done && l.st != .faulted)
    || (match s.image? k with
      | some i => s.ctxs.any fun c => c.num == i.ctx && c.queues.any fun q => q.packets.any fun p => p.names i.kaddr
      | none => false)

/-- Images whose unload waited for their last launch are FREE when it has ended (R348). -/
def State.dropUnloading (s : State) : State :=
  { s with images := s.images.filter fun i => !(i.st == .unloading && !s.imageBusy i.key) }

/-- KERNEL_UNLOAD (R348). -/
def execKernelUnload (s : State) : Host.Outcome State Fault Refusal :=
  match s.arg with
  | [k] =>
    let go : Image → Image := fun i => if i.st == .loaded then { i with st := .unloading } else i
    .next (s.modImage k go).dropUnloading
  | _ => .next s

end Sys2Proof.Machine
end

