-- ==== Sys2Proof/Machine/Queue.lean ====
section
/-! DEFINITION. Queues: doorbells (R373), the delivery of launch packets by `KLAUNCH` (R364, R374), taking packets (R375, R376), and
what each kind of packet does (R377 to R381). -/

namespace Sys2Proof.Machine

/-! ## Queues and their states (R372) -/

/-- Packets in a ring (R371). -/
def Queue.holds (q : Queue) : Nat := (q.write - q.read).toNat

/-- Free slots of a ring (R371). -/
def Queue.free (q : Queue) : Nat := 2 ^ q.log2 - q.holds

/-- KIND of a packet (R375). -/
def Packet.kind (p : Packet) : Nat := fieldOf p.bytes 0 1

/-- A field of a packet. -/
def Packet.field (p : Packet) (at_ n : Nat) : Nat := fieldOf p.bytes at_ n

/-- Does a packet hold back later ones: a WAITSIG or a FENCE (R377)? -/
def Packet.holding (p : Packet) : Bool := p.kind == 2 || p.kind == 6

/-- Has a packet been read? One whose read has faulted stands in the list without bytes. -/
def Packet.wasRead (p : Packet) : Bool := !p.bytes.isEmpty

/-- EMPTY, ACTIVE or BLOCKED, by the ring and the oldest incomplete packet (R372, R377). -/
def Queue.settle (q : Queue) : Queue :=
  match q.st with
  | .disabled => q
  | .halted => q
  | _ =>
    let st : QueueState := match q.packets with
      | p :: _ => if p.wasRead && p.holding then .blocked else .active
      | [] => if q.holds = 0 then .empty else .active
    { q with st := st }

/-- The CP's time of day: the seconds and nanoseconds since it was last set, at 1.8 cycles a nanosecond (R6, R422). -/
def State.timeOfDay (s : State) : Nat × Nat :=
  let ns := s.part.timeNs + (s.now - s.part.timeAt) * 5 / 9
  (s.part.timeSec + ns / 10 ^ 9, ns % 10 ^ 9)

/-- A TIMESTAMP that no earlier packet precedes any more takes the time and the lock of now (R381). -/
def State.stampHead (s : State) (q : Queue) : Queue := match q.packets with
  | p :: r =>
    if p.wasRead && p.kind = 5 && p.stamp.isNone then
      { q with packets := { p with stamp := some (s.timeOfDay.1, s.timeOfDay.2, s.part.locked) } :: r }
    else q
  | [] => q

/-- Change a queue, settle its state and write its indices to its descriptor (R371, R372); the packet that is then the oldest
takes its time stamp (R381). -/
def State.putQueue (s : State) (c q : Nat) (f : Queue → Queue) : State :=
  let s := s.modQueue c q fun x => s.stampHead (f x).settle
  match s.ctx? c with
  | some x => match x.queue? q with
    | some y => s.putIndices x y
    | none => s
  | none => s

/-! ## Doorbells (R373) -/

/-- A host write to a doorbell: WRITE moves, or the write is ignored with a record (R373). The spec does not say what a write to
the doorbell of a DISABLED queue does, whose indices have not been taken from its descriptor: it is ignored without a record
(DESIGN CHOICE, log entry 92). -/
def State.doorbell (s : State) (c n : Nat) (v : DWord) : State :=
  match s.queue? c n with
  | none => s
  | some q =>
    let w : Word := v.setWidth 32
    if q.st == .disabled then s
    else if (w - q.read).toNat > 2 ^ q.log2 || (w - q.write).toNat > q.free || q.kernels then
      s.putRecords c [({ plainRecord cIllop with extra := leBytes 1 1 ++ leBytes 1 n }, none)]
    else s.putQueue c n fun x => { x with write := w }

/-- DOORBELL (R373). -/
def execDoorbell (s : State) : Host.Outcome State Fault Refusal :=
  match s.arg with
  | [c, q, v] => .next (s.doorbell c q (BitVec.ofNat 64 v))
  | _ => .next s

/-! ## Accesses of the CP (R375) -/

/-- The core number that stands for the CP in translations: it is above every core's. -/
def cpCore : Nat := 448

/-- Sector pieces of a range (R205). -/
def sectorPieces (va n : Nat) : List (Nat × Nat) :=
  (List.range (n / 32 + 2)).filterMap fun i =>
    let lo := max va ((va / 32 + i) * 32)
    let hi := min (va + n) ((va / 32 + i + 1) * 32)
    if lo < hi then some (lo, hi - lo) else none

/-- The physical bytes of a range of virtual addresses, or the first fault with its address; a window holds no packet, signal
or ring (R174, R375). DESIGN CHOICE 93: a pod window of the CP raises `WINDOW` also where its entry is set; the spec names no pod
request of the CP. -/
def State.cpReach (s : State) (c : Context) (acc : Access) (va n : Nat) : Except (AFault × Nat) (List (Nat × Nat)) :=
  (sectorPieces va n).foldlM (fun l (p : Nat × Nat) =>
    match windowOf p.1 with
    | .global => match s.checkPage cpCore c acc p.1 p.2 with
      | .error e => .error (e, p.1)
      | .ok (g, pa) => .ok (l ++ (upFrom 0 p.2).map fun i => (pa + i, g.grainName c.num (p.1 + i)))
    | _ => .error (AFault.of cWindow, p.1)) []

/-- A value the CP, or a remote module, reads (R215). -/
def State.cpBytes (s : State) (pas : List (Nat × Nat)) : List Byte := pas.map fun a => s.outerByte a.1

/-- The bytes that an atomic finds at their homes, writes on their way included (R201, R224). -/
def State.cpHome (s : State) (pas : List (Nat × Nat)) : List Byte := pas.map fun a => s.homeValue a.1

/-- Bytes that the CP writes (R225). -/
def State.cpWrite (s : State) (pas : List (Nat × Nat)) (bs : List Byte) : State :=
  ((pas.zip bs).foldl (fun (s : State) p =>
    let (b, s) := s.outsideByte p.1.1 p.2
    s.externalByte cpCore p.1.1 b p.1.2) s).healWritten (pas.map (·.1))

/-- Would a write of the CP to some bytes wait for a chunk with commit priority (R225, R227)? It is then made, with what completes by
it, when that chunk has committed. -/
def State.cpHolds (s : State) (c : Context) (acc : Access) (va n : Nat) : Bool :=
  (!s.waiting.isEmpty || s.lams.any fun l => l.squashes ≥ 4) && (match s.cpReach c acc va n with
    | .ok pas => pas.any fun a => s.heldBack none none [a.2] || s.waiting.any fun w => w.1 == a.1
    | .error _ => false)

/-- Does a packet's write wait so (R377, R379, R381)? -/
def State.packetHolds (s : State) (c : Context) (p : Packet) : Bool := match p.kind with
  | 3 => s.cpHolds c .atomic (p.field 8 8) 8
  | 4 => s.cpHolds c .store (p.field 16 8) (p.field 24 8)
  | 5 => s.cpHolds c .store (p.field 8 8) 16
  | _ => false

/-- Change a taken packet. -/
def State.modPacket (s : State) (c q idx : Nat) (f : Packet → Packet) : State :=
  s.modQueue c q fun x => { x with packets := updIf (fun p => p.idx == idx) f x.packets }

def State.packet? (s : State) (c q idx : Nat) : Option Packet :=
  (s.queue? c q).bind fun x => x.packets.find? fun p => p.idx == idx

/-- A record about a packet: the queue, for a LAUNCH its index, bytes 3:0 as the word (R375, R393). -/
def packetRecord (q : Nat) (p : Packet) (cause addr : Nat) : Record :=
  { plainRecord cause with
    queue := q, launch := if p.kind = 1 && p.wasRead then p.idx % 65536 else 0xFFFF, word := p.field 0 4,
    addr := BitVec.ofNat 64 addr }

/-- A fault of the CP's access for a packet: `PAGEFAULT` and `PROT` stall the packet, others are fatal (R375). -/
def State.packetFault (s : State) (c q : Nat) (p : Packet) (e : AFault × Nat) : State :=
  let r := { packetRecord q p e.1.cause e.2 with
    extra := extra458 6 0 0 0 (if e.1.cause = cPageattr then e.1.reason else 0)
      (if e.1.cause = cPageattr && e.1.reason = 0 then e.1.level else 0) }
  let s := s.reportEcc c [(e.2, e.1)]
  if e.1.cause = cPagefault || e.1.cause = cProt then
    let key := s.keys
    (s.modPacket c q p.idx fun x => { x with fault := some key }).putRecords c
      [({ r with replayable := true }, some (.packet q p.idx))]
  else s.putRecords c [({ r with fatal := true }, none)]

/-- A packet is complete: it leaves its queue (R377). -/
def State.endPacket (s : State) (c q idx : Nat) : State :=
  s.putQueue c q fun x => { x with packets := x.packets.filter fun p => p.idx != idx }

/-! ## Taking packets (R375, R376) -/

/-- May the CP take and run packets of a context: it is READY or RUNNING, or not yet SAVED (R372, R378, R392)? -/
def Context.takes (c : Context) : Bool := c.st == .ready || c.st == .running || c.st == .preempting

/-- Can the CP take the next packet of a queue now (R376)? -/
def Queue.canTake (q : Queue) : Bool :=
  q.st == .active && q.holds > 0 && (q.packets.filter Packet.wasRead).length < 16
    && q.packets.all fun p => p.wasRead || p.fault.isNone

/-- CLUSTER of a LAUNCH packet for an image: 0 means `.cluster` (R358). -/
def launchCluster (p : Packet) (i : Image) : Nat := if p.field 2 1 = 0 then i.cluster else p.field 2 1

/-- GPT of a LAUNCH packet for an image: 0 means `.team` / 64 (R358). -/
def launchGpt (p : Packet) (i : Image) : Nat := if p.field 3 1 = 0 then i.team / 64 else p.field 3 1

/-- NTEAMS: 0 means 2^32 (R358). -/
def launchTeams (p : Packet) : Nat := if p.field 4 4 = 0 then 2 ^ 32 else p.field 4 4

/-- The image a LAUNCH packet names (R358). -/
def State.launchImage (s : State) (c : Nat) (p : Packet) : Option Image :=
  s.images.find? fun i => i.ctx == c && i.launchable && i.kaddr == p.field 8 8

/-- Offset of the first invalid field of a LAUNCH packet (R358, R359). -/
def State.launchBad (s : State) (c : Context) (p : Packet) : Option Nat :=
  let f := p.field
  let image := s.launchImage c.num p
  let cl := match image with
    | some i => i.cluster ≠ 1 && f 2 1 ≠ 0 && f 2 1 ≠ i.cluster
    | none => false
  let gpt := match image with
    | some i => f 3 1 > i.team / 64
    | none => f 3 1 > 16
  let teams := match image with
    | some i => launchTeams p % max 1 (launchCluster p i) ≠ 0
    | none => launchTeams p % max 1 (f 2 1) ≠ 0
  lowestCode [
    (f 1 1 ≥ 8 || f 1 1 / 2 % 4 = 3 || (f 1 1 % 2 = 1 && !c.det), 1), (f 2 1 > 4 || cl, 2), (gpt, 3), (teams, 4),
    (image.isNone, 8), (f 16 8 % 8 ≠ 0, 16), (f 24 8 % 65536 ≠ 0, 24), (f 32 4 % 16 ≠ 0, 32), (f 36 4 = 0, 36),
    (c.det && f 40 4 = 0, 40), (f 44 4 ≠ 0, 44), (f 48 8 % 8 ≠ 0, 48)]

/-- Offset of the first invalid field of a packet (R375). -/
def State.packetBad (s : State) (c : Context) (p : Packet) : Option Nat :=
  let f := p.field
  match p.kind with
  | 0 => none
  | 1 => s.launchBad c p
  | 2 => lowestCode [(f 1 3 ≠ 0, 1), (f 8 8 % 8 ≠ 0, 8), (f 24 40 ≠ 0, 24)]
  | 3 => lowestCode [(f 1 1 > 1, 1), (f 2 1 ≥ 2, 2), (f 3 1 > 7 || (f 2 1 = 1 && f 3 1 ≥ c.nvec), 3), (f 4 4 ≠ 0, 4),
      (f 8 8 % 8 ≠ 0, 8), (f 24 40 ≠ 0, 24)]
  | 4 => lowestCode [(f 1 7 ≠ 0, 1), (f 24 8 = 0, 24), (f 32 32 ≠ 0, 32)]
  | 5 => lowestCode [(f 1 7 ≠ 0, 1), (f 8 8 % 16 ≠ 0, 8), (f 16 48 ≠ 0, 16)]
  | 6 => lowestCode [(f 1 1 > 1, 1), (f 2 62 ≠ 0, 2)]
  | _ => some 0

/-- An invalid packet: a fatal `ILLOP` record with the offset of its first invalid field; its queue and the others are HALTED
(R359, R375). -/
def State.badPacketRecord (s : State) (c q : Nat) (p : Packet) (offset : Nat) : State :=
  s.putRecords c [({ packetRecord q p cIllop 0 with fatal := true, extra := leBytes 1 offset }, none)]

/-- QUEUE_PACKET_TAKE: the next packet is read and checked; READ advances and its slot is free (R375, R376). -/
def execQueuePacketTake (s : State) : Host.Outcome State Fault Refusal :=
  match s.arg with
  | [c, n] => match s.ctx? c with
    | none => .next s
    | some x => match x.queue? n with
      | none => .next s
      | some q =>
        if !x.takes || !q.canTake then .next s
        else
          let idx := q.read.toNat
          let va := q.base + 64 * (idx % 2 ^ q.log2)
          let empty : Packet := { idx := idx, bytes := [], st := .taken, launch := none, since := 0, fault := none, stamp := none }
          let s := s.modQueue c n fun y => { y with packets := y.packets.filter Packet.wasRead }
          match s.cpReach x .load va 64 with
          | .error e =>
            let s := s.modQueue c n fun y => { y with packets := y.packets ++ [empty] }
            .next (s.packetFault c n empty e)
          | .ok pas =>
            let p : Packet := { empty with bytes := s.cpBytes pas }
            let s := s.putQueue c n fun y => { y with read := y.read + 1, packets := y.packets ++ [p] }
            match s.packetBad x p with
            | some off => .next (s.badPacketRecord c n p off)
            | none => .next s
  | _ => .next s

/-! ## Order within a queue (R377) -/

/-- Packets of a queue before one. -/
def Queue.before (q : Queue) (idx : Nat) : List Packet := q.packets.takeWhile fun p => p.idx != idx

/-- Is the launch of a packet RUNNING or later (R357, R377)? -/
def State.launchBegun (s : State) (p : Packet) : Bool := match p.launch.bind fun k => s.launch? k with
  | some l => l.st != .queued
  | none => false

/-- May a packet start (R377 Table 4)? -/
def State.mayStart (s : State) (q : Queue) (p : Packet) : Bool :=
  let earlier := q.before p.idx
  p.wasRead && p.st == .taken && p.fault.isNone && (match p.kind with
    | 0 => true
    | 1 => !(earlier.any Packet.holding) && (earlier.filter fun x => x.kind == 1).all s.launchBegun
    | 2 => !(earlier.any Packet.holding)
    | 4 => !(earlier.any Packet.holding)
    | _ => earlier.isEmpty)

/-- The context, queue and packet that an event names, when the context's packets run and the packet is of a kind. -/
def State.packetOf (s : State) (kind : Nat) : Option (Context × Queue × Packet) :=
  match s.arg with
  | [c, n, idx] => (s.ctx? c).bind fun x => (x.queue? n).bind fun q =>
      (q.packets.find? fun p => p.idx == idx).bind fun p =>
        if x.takes && q.st != .halted && q.st != .disabled && p.kind == kind && p.wasRead then some (x, q, p) else none
  | _ => none

/-- The same for a packet that may start. -/
def State.starting (s : State) (kind : Nat) : Option (Context × Queue × Packet) :=
  (s.packetOf kind).bind fun r => if s.mayStart r.2.1 r.2.2 then some r else none

/-- The same for a packet that has started and waits for no replay. -/
def State.startedPacket (s : State) (kind : Nat) : Option (Context × Queue × Packet) :=
  (s.packetOf kind).bind fun r => if r.2.2.st == .started && r.2.2.fault.isNone then some r else none

/-! ## NOP, LAUNCH -/

/-- NOP_PACKET: completes at once (R377). -/
def execNopPacket (s : State) : Host.Outcome State Fault Refusal :=
  match s.starting 0 with
  | some (c, q, p) => .next (s.endPacket c.num q.num p.idx)
  | none => .next s

/-- PREF of a packet as it is taken: D-cores where the team does not fit an L-core, or L-cores are not a feature (R359). -/
def State.launchPref (s : State) (p : Packet) (i : Image) : Nat :=
  let pref := p.field 1 1 / 2 % 4
  let tpt := launchGpt p i * 64
  let hold := coreHolds .lcore
  let fits := launchGpt p i ≤ coreGroups .lcore && tpt ≤ hold.getD 0 0 && tpt * 4 * i.vregs ≤ hold.getD 1 0
    && i.opslots ≤ hold.getD 2 0 && i.acc ≤ hold.getD 3 0 && i.scratch + i.rbjournal ≤ hold.getD 4 0
  if !s.feature 3 || !fits then 0 else pref

/-- Has a tenant a launch that waits for cores (R383)? -/
def State.tenantWaits (s : State) (k : Nat) : Bool :=
  s.launches.any fun l => l.st == .queued && (match s.ctx? l.ctx with
    | some c => c.tkey == k
    | none => false)

/-- Tenants that hold cores: those with resident teams (R383). -/
def State.holders (s : State) : List Nat :=
  uniq (((s.teams.filter fun t => t.st == .running || t.st == .stopping).filterMap fun t => s.ctxOf t).map fun c => c.tkey)

/-- A tenant whose first launch becomes QUEUED takes V no lower than the lowest of those that hold cores (R383). -/
def State.joinTenant (s : State) (k : Nat) : State :=
  if s.tenantWaits k then s
  else
    let vs := (s.tenants.filter fun t => s.holders.contains t.key).map fun t => t.vtime
    match vs with
    | [] => s
    | v :: r =>
      let low := r.foldl (fun a b => if b < a then b else a) v
      { s with tenants := updIf (fun t => t.key == k) (fun t => { t with vtime := if t.vtime < low then low else t.vtime }) s.tenants }

/-- LAUNCH: the packet's grid is QUEUED for cores (R357, R359, R377). -/
def execLaunch (s : State) : Host.Outcome State Fault Refusal :=
  match s.starting 1 with
  | none => .next s
  | some (c, q, p) => match s.launchImage c.num p with
    | none => .next s
    | some i =>
      let s := s.joinTenant c.tkey
      let (k, s) := s.newKey
      let f := p.field
      let l : Launch :=
        { key := k, ctx := c.num, queue := q.num, ring := p.idx, image := i.key, st := .queued, pref := s.launchPref p i,
          cluster := launchCluster p i, gpt := launchGpt p i, nteams := launchTeams p, param := f 16 8, privBase := f 24 8,
          privSize := f 32 4, privSlots := f 36 4, planCores := if c.det then f 40 4 else 0, signal := f 48 8,
          sigval := BitVec.ofNat 64 (f 56 8), started := 0, retired := [], ordered := [], gone := [], since := s.now }
      let s : State := { s with launches := s.launches ++ [l] }
      .next (s.modPacket c.num q.num p.idx fun x => { x with st := .started, launch := some k })

/-! ## WAITSIG (R378) -/

/-- The signal a WAITSIG waits for: its value, or a fault. -/
def State.signalAt (s : State) (c : Context) (p : Packet) : Except (AFault × Nat) Nat :=
  match s.cpReach c .load (p.field 8 8) 8 with
  | .error e => .error e
  | .ok pas => .ok (leNat (s.cpBytes pas))

/-- A WAITSIG reads its signal: it completes when the value has been reached (R378). -/
def State.readSignal (s : State) (c : Context) (q : Queue) (p : Packet) : State :=
  match s.signalAt c p with
  | .error e => s.packetFault c.num q.num p e
  | .ok v => if v ≥ p.field 16 8 then s.endPacket c.num q.num p.idx else s

/-- WAITSIG: the packet starts and reads its signal (R377, R378). -/
def execWaitsig (s : State) : Host.Outcome State Fault Refusal :=
  match s.starting 2 with
  | none => .next s
  | some (c, q, p) =>
    let s := s.modPacket c.num q.num p.idx fun x => { x with st := .started, since := s.now }
    .next (s.readSignal c q p)

/-- WAITSIG_REREAD (R378). -/
def execWaitsigReread (s : State) : Host.Outcome State Fault Refusal :=
  match s.startedPacket 2 with
  | none => .next s
  | some (c, q, p) => .next (s.readSignal c q p)

/-- Has a WAITSIG's TIMEOUT passed (R378)? -/
def State.sigExpired (s : State) (p : Packet) : Bool :=
  p.field 4 4 ≠ 0 && s.now ≥ p.since + p.field 4 4 * Config.cyclesPerUs

/-- WAITSIG_TIMEOUT: a read that finds the condition false after TIMEOUT writes a fatal head record of KIND 8 (R295, R378). -/
def execWaitsigTimeout (s : State) : Host.Outcome State Fault Refusal :=
  match s.startedPacket 2 with
  | none => .next s
  | some (c, q, p) =>
    if !s.sigExpired p then .next s
    else match s.signalAt c p with
      | .error e => .next (s.packetFault c.num q.num p e)
      | .ok v =>
        if v ≥ p.field 16 8 then .next (s.endPacket c.num q.num p.idx)
        else
          let r := { packetRecord q.num p cBartimeout 0 with fatal := true, extra := (WaitReport.plain 8 q.num).extra }
          .next (s.putRecords c.num [(r, none)])

/-! ## SIGNAL, COPY, TIMESTAMP, FENCE -/

/-- SIGNAL: an atomic add or exchange of 8 bytes, then the vector it names (R379). -/
def execSignal (s : State) : Host.Outcome State Fault Refusal :=
  match s.starting 3 with
  | none => .next s
  | some (c, q, p) => if s.packetHolds c p then .next s else match s.cpReach c .atomic (p.field 8 8) 8 with
    | .error e => .next (s.packetFault c.num q.num p e)
    | .ok pas =>
      let old := leNat (s.cpHome pas)
      let new := if p.field 1 1 = 0 then atomicNew 1 old (p.field 16 8) 0 else p.field 16 8
      let s := (s.cpWrite pas (leBytes 8 new)).endPacket c.num q.num p.idx
      .next (if p.field 2 1 = 1 then s.raise c.num (p.field 3 1) else s)

/-- COPY_PACKET: the copy starts (R377, R380). -/
def execCopyPacket (s : State) : Host.Outcome State Fault Refusal :=
  match s.starting 4 with
  | none => .next s
  | some (c, q, p) => .next (s.modPacket c.num q.num p.idx fun x => { x with st := .started, since := s.now })

/-- COPY_PACKET_COMPLETE: every byte is written; bytes where the two ranges overlap are left undefined (R380; log entry 3). -/
def execCopyPacketComplete (s : State) : Host.Outcome State Fault Refusal :=
  match s.startedPacket 4 with
  | none => .next s
  | some (c, q, p) =>
    let src := p.field 8 8
    let dst := p.field 16 8
    let n := p.field 24 8
    if s.packetHolds c p then .next s
    else match s.cpReach c .load src n, s.cpReach c .store dst n with
    | .error e, _ => .next (s.packetFault c.num q.num p e)
    | _, .error e => .next (s.packetFault c.num q.num p e)
    | .ok a, .ok b =>
      let from_ := a.map (·.1)
      let bytes := (s.cpBytes a).zip b |>.map fun x => if from_.contains x.2.1 then Config.freeByte s.fresh x.2.1 else x.1
      .next ((s.cpWrite b bytes).endPacket c.num q.num p.idx)

/-- TIMESTAMP: 16 bytes with the time of day at which every earlier packet had completed, and the lock (R381). -/
def execTimestamp (s : State) : Host.Outcome State Fault Refusal :=
  match s.starting 5 with
  | none => .next s
  | some (c, q, p) => if s.packetHolds c p then .next s else match s.cpReach c .store (p.field 8 8) 16 with
    | .error e => .next (s.packetFault c.num q.num p e)
    | .ok pas =>
      let (sec, ns, locked) := p.stamp.getD (s.timeOfDay.1, s.timeOfDay.2, s.part.locked)
      let bs := leBytes 8 (sec % 2 ^ 48) ++ leBytes 4 ns ++ leBytes 4 (if locked then 1 else 0)
      .next ((s.cpWrite pas bs).endPacket c.num q.num p.idx)

/-- FENCE_PACKET: the fence starts; it waits for the commits under way now (R377). -/
def execFencePacket (s : State) : Host.Outcome State Fault Refusal :=
  match s.starting 6 with
  | none => .next s
  | some (c, q, p) => .next (s.modPacket c.num q.num p.idx fun x => { x with st := .started, since := s.keys })

/-- Are the writes before a fence performed at its scope: commits of its context at the device stage, and, at `.pod`, its
pod-window writes answered (R224, R377)? -/
def State.fencePassed (s : State) (c : Context) (p : Packet) : Bool :=
  !(s.flights.any fun f => f.ctx == c.num && f.key < p.since) && s.waiting.isEmpty
    && (p.field 1 1 = 0 || !(s.ops.any fun o => o.key < p.since && (match o.what with
      | .remote _ _ _ act => act != .load && (match s.team? o.team with
        | some t => t.ctx == c.num
        | none => false)
      | _ => false)))

/-- FENCE_PACKET_COMPLETE (R377). -/
def execFencePacketComplete (s : State) : Host.Outcome State Fault Refusal :=
  match s.startedPacket 6 with
  | none => .next s
  | some (c, q, p) => .next (if s.fencePassed c p then s.endPacket c.num q.num p.idx else s)

/-! ## Deliveries (R364, R365, R374) -/

/-- The groups and lanes that a delivery stands for. -/
def Op.gid (o : Op) : Nat := match o.iss.members with
  | m :: _ => m.1
  | [] => 0

/-- Does a delivery come after another one of the same group (R365, R374)? -/
def Op.follows (o x : Op) : Bool :=
  x.team == o.team && x.key < o.key && x.gid == o.gid && (match x.what with
    | .klaunch _ _ _ _ => true
    | _ => false)

/-- May a delivery be made: its release is performed, those before it are made, its queue has a free slot (R364, R374)? -/
def State.deliverable (s : State) (o : Op) : Bool :=
  match o.what, (s.team? o.team).bind fun t => s.ctxOf t with
  | .klaunch n _ fault _, some c =>
    fault.isNone && !s.cpWaits c.num && !(s.ops.any o.follows) && !(o.iss.members.any fun m => s.releasing o.key o.team m.1 m.2)
      && (c.takes || c.st == .saved) && (match c.queue? n with
        | some q => q.st != .disabled && q.st != .halted && q.free > 0
        | none => false)
  | _, _ => false

/-- A fault of the CP's write of a delivered packet: the delivery stalls, or the fault is fatal (R374). -/
def State.deliveryFault (s : State) (t : Team) (o : Op) (e : AFault × Nat) : State :=
  let pcs := match o.what with
    | .klaunch _ _ _ pcs => pcs
    | _ => (0, 0)
  let r := { s.teamRecord t e.1.cause o.gid 0 o.iss.word.toNat pcs (BitVec.ofNat 64 e.2) with
    extra := extra458 6 0 0 0 (if e.1.cause = cPageattr then e.1.reason else 0)
      (if e.1.cause = cPageattr && e.1.reason = 0 then e.1.level else 0) }
  let s := s.reportEcc t.ctx [(e.2, e.1)]
  if e.1.cause = cPagefault || e.1.cause = cProt then
    let key := s.keys
    let mark : Op → Op := fun x => match x.what with
      | .klaunch q p _ pcs => { x with what := .klaunch q p (some key) pcs }
      | _ => x
    (s.modOp o.key mark).putRecords t.ctx [({ r with replayable := true }, some (.delivery o.key))]
  else s.putRecords t.ctx [({ r with fatal := true }, none)]

/-- KLAUNCH_DELIVERY: the CP writes the packet at WRITE and advances WRITE; the `KLAUNCH` is complete (R364, R374). -/
def execKlaunchDelivery (s : State) : Host.Outcome State Fault Refusal :=
  match s.arg with
  | [key] => match s.op? key with
    | none => .next s
    | some o => match o.what, s.team? o.team with
      | .klaunch n bytes _ _, some t =>
        if !s.deliverable o then .next s
        else match s.ctxOf t, s.queue? t.ctx n with
          | some c, some q => match s.cpReach c .store (q.base + 64 * (q.write.toNat % 2 ^ q.log2)) 64 with
            | .error e => .next (s.deliveryFault t o e)
            | .ok pas =>
              .next (((s.cpWrite pas bytes).putQueue t.ctx n fun x => { x with write := x.write + 1 }).finishOp o)
          | _, _ => .next s
      | _, _ => .next s
  | _ => .next s

end Sys2Proof.Machine
end

