-- ==== Sys2Proof/Machine/Sched.lean ====
section
/-! DEFINITION. The scheduler: which launch or saved team receives a core (R361, R382 to R385), how a team starts (R103, R360), how
cores are reclaimed and teams saved and restored (R386, R391, R400 to R403), the bakery turn (R367), and the end of a launch (R363). -/

namespace Sys2Proof.Machine

/-! ## What a core can take (R13, R361, R402, R459) -/

/-- Resources a team of a launch takes on a core, in the order of `coreHolds`. -/
def launchNeeds (l : Launch) (i : Image) : List Nat :=
  [l.gpt * 64, l.gpt * 64 * 4 * i.vregs, i.opslots, i.acc, i.scratch + i.rbjournal]

/-- Cores for `n` teams of some needs, the first grant being a core: that core, or, for a cluster, cores of its quad (R361). -/
def State.coresFor (s : State) (c : Context) (core : Nat) (need : List Nat) (n : Nat) : Option (List Nat) :=
  if !(s.contextCores c (kindOf core)).contains core || !s.coreFits core need then none
  else
    let quad := core :: (upFrom (4 * quadOf core) 4).filter fun x => x != core && (s.contextCores c (kindOf core)).contains x
    (List.range (max 1 n)).foldlM (fun (got : List Nat) _ =>
      (quad.find? fun x => s.coreFits x (need.map fun v => v + v * (got.filter fun y => y == x).length)).map fun x => got ++ [x]) []

/-- Bytes of a team's image in the save area, by kind of core (R402). -/
def imageBytes (k : Kind) : Nat := match k with
  | .dcore => 2624 * 1024
  | .lcore => 832 * 1024

/-- Is a team on a core? -/
def Team.onCore (t : Team) : Bool := t.st == .running || t.st == .stopping

/-- Bytes of the save area that the images of a context's teams take (R402). -/
def State.imagesHeld (s : State) (c : Context) : Nat :=
  (s.teams.filter fun t => t.ctx == c.num && (t.onCore || !t.groups.isEmpty)).foldl (fun a t => a + imageBytes t.kind) 0

/-- Does the save area hold the images of a context's teams, and of `n` more of a kind (R402)? -/
def State.imagesFit (s : State) (c : Context) (k : Kind) (n : Nat) : Bool := s.imagesHeld c + n * imageBytes k ≤ c.savesize

/-- The lowest free private slots of a launch (R360). -/
def State.freeSlots (s : State) (l : Launch) (n : Nat) : List Nat :=
  let used := (s.teams.filter fun t => t.launch == l.key && t.parent.isNone && !l.retired.contains t.index).map fun t => t.privSlot
  ((List.range (min l.privSlots (used.length + n))).filter fun k => !used.contains k).take n

/-- Does a launch's PREF admit a kind of core (R358)? -/
def Launch.admits (l : Launch) (k : Kind) : Bool := match k with
  | .dcore => l.pref ≠ 1
  | .lcore => l.pref ≠ 0

/-- Is a team saved and to be restored: not the rest of a retired one, not a rival that waits for its turn (R328, R361)? -/
def State.toRestore (s : State) (t : Team) : Bool :=
  t.st == .saved && !t.groups.isEmpty && (t.parent.isNone || (match s.rivalOf t with
    | some r => r.st == .running
    | none => false))

/-- The saved team of a launch that is restored next: the lowest index (R361). -/
def State.savedTeam (s : State) (l : Launch) : Option Team :=
  (s.teams.filter fun t => t.launch == l.key && s.toRestore t).foldl (fun b t => match b with
    | none => some t
    | some u => if t.index < u.index then some t else some u) none

/-- Has a launch teams that have not started? -/
def Launch.unstarted (l : Launch) : Bool := (l.st == .queued || l.st == .running) && l.started < l.nteams

/-- Have earlier launches of the queue all started all their teams (R377)? -/
def State.earlierStarted (s : State) (l : Launch) : Bool :=
  s.launches.all fun x => !(x.ctx == l.ctx && x.queue == l.queue && x.key < l.key && x.unstarted)

/-- Is a launch's packet stalled by a fault (R375)? -/
def State.launchStalled (s : State) (l : Launch) : Bool := match s.packet? l.ctx l.queue l.ring with
  | some p => p.fault.isSome
  | none => false

/-- Can a context's launches receive a core: it is READY, RUNNING or SAVED, with a hardware slot (R388, R391)? -/
def State.slotFor (s : State) (c : Context) : Bool :=
  (c.st == .running || c.st == .ready || c.st == .saved)
    && (c.resident || (s.ctxs.filter fun x => x.resident).length < 16)

/-- What a launch would place on a core of a kind, if such a core is free: the saved team to restore or its next team, what each
of the teams needs, and how many there are, a whole cluster at once (R361, R403). -/
def State.placesOn (s : State) (k : Kind) (l : Launch) : Option (Option Nat × List Nat × Nat) :=
  match s.ctx? l.ctx, s.image? l.image with
  | some c, some i =>
    if s.cpWaits c.num || !c.recording then none
    else match s.savedTeam l with
      | some t =>
        let ms := s.clusterTeams t
        if t.kind != k || !(ms.all fun u => u.st == .saved) then none else some (some t.key, s.needs t, ms.length)
      | none =>
        let n := max 1 l.cluster
        if !l.unstarted || !s.earlierStarted l || s.launchStalled l || !l.admits k || l.gpt > coreGroups k
            || (s.freeSlots l n).length < n || !s.imagesFit c k n then none
        else some (none, launchNeeds l i, n)
  | _, _ => none

/-- How a launch can use a core: the saved team to restore, if there is one, and the cores of the team or of its whole cluster
(R361, R403). -/
def State.useOf (s : State) (core : Nat) (l : Launch) : Option (Option Nat × List Nat) :=
  match s.ctx? l.ctx, s.placesOn (kindOf core) l with
  | some c, some (team, need, n) =>
    let cool := match team.bind fun k => s.team? k with
      | some t => s.coolFor t core
      | none => true
    if !s.slotFor c || !cool then none else (s.coresFor c core need n).map fun cs => (team, cs)
  | _, _ => none

/-! ## Tenant, priority, queue (R382 to R385) -/

/-- The queue of a launch. -/
def State.queueOf (s : State) (l : Launch) : Option Queue := s.queue? l.ctx l.queue

/-- The tenant of a launch. -/
def State.tenantOf (s : State) (l : Launch) : Option Tenant :=
  (s.ctx? l.ctx).bind fun c => s.tenants.find? fun t => t.key == c.tkey

/-- The tenant of lowest virtual time among some, ties to the lower number (R383). -/
def lowestTenant (ts : List Tenant) : Option Tenant :=
  ts.foldl (fun b t => match b with
    | none => some t
    | some u => if t.vtime < u.vtime || (t.vtime == u.vtime && t.key < u.key) then some t else some u) none

/-- The deficit of a queue (R385). -/
def State.deficitOf (s : State) (q : Nat × Nat) : Int := match s.queue? q.1 q.2 with
  | some x => x.deficit
  | none => 0

/-- What a queue's deficit grows by when the round reaches it (R385). -/
def State.quantumOf (s : State) (q : Nat × Nat) : Int := match s.queue? q.1 q.2 with
  | some x => x.quantum
  | none => 0

/-- The round goes from queue to queue, each reached queue's deficit growing by its QUANTUM, until one has a deficit of at least
1: that one, and the queues reached on the way with it (R385). A cluster of four leaves a deficit of -3 at the least, so four
rounds are enough. -/
def State.roundOn (s : State) : List (Nat × Nat) → List (Nat × Nat) → Option ((Nat × Nat) × List (Nat × Nat))
  | _, [] => none
  | reached, q :: rest =>
    let reached := reached ++ [q]
    if s.deficitOf q + (reached.countP (fun x => x == q) : Nat) * s.quantumOf q ≥ 1 then some (q, reached) else s.roundOn reached rest

/-- Where the round robin of a tenant goes at a priority: the queue of its last grant while that keeps its deficit, else on from it in
ascending (context, queue), wrapping; and the queues that the round newly reaches (R385). -/
def State.nextQueue (s : State) (t : Tenant) (prio : Nat) (qs : List (Nat × Nat)) : Option ((Nat × Nat) × List (Nat × Nat)) :=
  let qs := sortBy threadLe qs
  let turn := fun (a b : List (Nat × Nat)) => let r := a ++ b; s.roundOn [] (r ++ r ++ r ++ r)
  match (t.cursor.find? fun c => c.1 == prio).map fun c => c.2 with
  | none => turn qs []
  | some last =>
    if qs.contains last && s.deficitOf last ≥ 1 then some (last, [])
    else
      let later := fun (q : Nat × Nat) => threadLe last q && q != last
      turn (qs.filter later) (qs.filter fun q => !later q)

/-- The decision for a free core: the launch, what it does with the core, and the queues that the round newly reaches (R382). -/
def State.coreChoice (s : State) (core : Nat) : Option (Launch × (Option Nat × List Nat) × List (Nat × Nat)) :=
  if !quadEnabled s.part.gradeA (quadOf core) || core ≥ 448 then none
  else
    let able := s.launches.filterMap fun l => (s.useOf core l).map fun u => (l, u)
    (lowestTenant (able.filterMap fun a => s.tenantOf a.1)).bind fun t =>
      let mine := able.filter fun a => (s.tenantOf a.1).any fun u => u.key == t.key
      let prioOf := fun (a : Launch × Option Nat × List Nat) => match s.queueOf a.1 with
        | some q => q.eff
        | none => 0
      let top := (mine.map prioOf).foldl max 0
      let level := mine.filter fun a => prioOf a == top
      (s.nextQueue t top (uniq (level.map fun a => (a.1.ctx, a.1.queue)))).bind fun q =>
        (level.filter fun a => (a.1.ctx, a.1.queue) == q.1).head?.map fun a => (a.1, a.2, q.2)

/-- The scheduler's books after a grant: the deficits of the queues the round reached, the cost of the teams started, and the cursor
(R385). -/
def State.chargeGrant (s : State) (l : Launch) (reached : List (Nat × Nat)) (cost : Nat) : State :=
  match s.tenantOf l, s.queueOf l with
  | some t, some q =>
    let s := reached.foldl (fun (s : State) r => s.modQueue r.1 r.2 fun x => { x with deficit := x.deficit + (x.quantum : Int) }) s
    let s := s.modQueue l.ctx l.queue fun x =>
      { x with deficit := x.deficit - cost, eff := if l.st == .queued then x.prio else x.eff }
    let note : Tenant → Tenant := fun x =>
      { x with cursor := (q.eff, l.ctx, l.queue) :: x.cursor.filter fun c => c.1 != q.eff }
    { s with tenants := updIf (fun x => x.key == t.key) note s.tenants }
  | _, _ => s

/-- A queue with no QUEUED launch has its deficit set to 0 (R385). -/
def State.clearDeficits (s : State) : State :=
  let wants := fun (c : Context) (q : Queue) => s.launches.any fun l => l.ctx == c.num && l.queue == q.num && l.unstarted
  let fix := fun (c : Context) =>
    if c.queues.any fun q => q.deficit ≠ 0 && !wants c q then
      { c with queues := c.queues.map fun q => if wants c q then q else { q with deficit := 0 } }
    else c
  { s with ctxs := s.ctxs.map fix }

/-- A context that receives cores is RUNNING and resident; a SAVED one does not count the time it was SAVED (R391, R403). -/
def State.wakeContext (s : State) (cn : Nat) (cores : List Nat) : State :=
  match s.ctx? cn with
  | none => s
  | some c =>
    let away := if c.st == .saved then s.now - c.savedAt else 0
    let later : Squad → Squad := fun q =>
      { q with wait := q.wait.map (fun w => { w with since := w.since + away }), popWait := q.popWait.map (fun n => n + away),
               since := q.since.map fun x => (x.1, x.2 + away) }
    let s := if away = 0 then s
      else { s with teams := updIf (fun t => t.ctx == cn && !s.waitsTurn t) (fun (t : Team) => { t with squads := t.squads.map later }) s.teams }
    let late : Packet → Packet := fun p => if p.kind == 2 && p.st == .started then { p with since := p.since + away } else p
    s.modCtx cn fun x =>
      let new := (uniq cores).filter fun k => !(x.granted.any fun g => g.1 == k)
      { x with st := .running, resident := true, granted := x.granted ++ new.map fun k => (k, s.now),
               queues := x.queues.map fun q => { q with packets := q.packets.map late } }

/-! ## The start of a team (R103, R109, R110, R143, R163, R264, R265, R360) -/

/-- A thread at its start. -/
def newThread (gid lane : Nat) (pc : DWord) : Thread :=
  { lane := lane, tid := 64 * gid + lane, handler := false, park := none, trap := none, pc := pc, v := [], p := 1#8, depth := 0, unsure := 0,
    stack := [], draw := 0, rsp := 64, fpctl := 0, fpflags := 0, epcd := 0, epcl := 0, cause := 0, tinst := 0, tval := 0,
    tframe := 0, clock := 0, point := none }

/-- A group at its start, its scalars preloaded. -/
def newGroup (gid width : Nat) (scalars : Sparse 32) (handler pc : DWord) : Group :=
  { gid := gid, st := .active, s := scalars, q := 1#8, m := [(0, laneMask (List.range width))], flags := [], tvec := handler,
    tvecLatch := handler.setWidth 32, clockLatch := 0, tagsLatch := 0, tagerrLatch := 0, queue := [], pushed := [0, 0, 0, 0],
    popped := [], tkdone := false, ended := [], threads := (List.range width).map fun lane => newThread gid lane pc }

/-- Entry PC of a kernel on a kind of core: slot 0 of its first packet, or its first word. -/
def Image.entry (i : Image) (k : Kind) : DWord := match k with
  | .dcore => i.dbase + 4
  | .lcore => i.lbase

/-- A team at its start, without squads. -/
def newTeam (key : Nat) (l : Launch) (i : Image) (index core slot now : Nat) (det : Bool) (scalars : Sparse 32) : Team :=
  let kind := kindOf core
  { key := key, ctx := l.ctx, launch := l.key, index := index, st := .running, core := core, kind := kind, placedAt := now,
    privSlot := slot, place := none, scratch := [], priv := [], tags := 0, tagerr := 0, tagsSet := (0, 0), trayage := 32, world := 0, chains := [],
    copies := [], slots := [], maskLog := [], accs := (List.range i.acc).map (fun n => { n := n, elems := [], int := false, last := none, joined := [] }),
    convs := (List.range 8).map (fun n => { n := n, mask := 2 ^ l.gpt - 1, round := none }), mops := [], windows := [], trays := [],
    squads := [], levels := [], outbox := [], sending := none, ensureLatch := none, rbRoutine := 0, rbRetry := 0, rbCause := 0, conv := none,
    forkLatch := none, chooseLatch := none, fork := none, parent := none, view := none, wdone := [], migr := none, heat := none,
    token := if det then some 0 else none, turnOver := false, doneOrdering := false, staged := [], turn := det && index == 0, clusterOpen := false,
    voids := [], seen := [], groups := (List.range l.gpt).map fun g => newGroup g (if i.wide32 then 32 else 64) scalars i.handler (i.entry kind) }

/-- Place a new team, each group as one squad that holds every thread (R143). -/
def State.startTeam (s : State) (l : Launch) (i : Image) (index core slot : Nat) (scalars : Sparse 32) : State :=
  let det := match s.ctx? l.ctx with
    | some c => c.det
    | none => false
  let (k, s) := s.newKey
  let t := newTeam k l i index core slot s.now det scalars
  let s : State := { s with
    teams := s.teams ++ [t],
    icache := s.icache.filter (fun f => !(f.core == core && f.ctx == l.ctx)) }
  let s := s.occupy k true
  t.groups.foldl (fun s g => s.addSquad k (g.threads.map fun x => (g.gid, x.lane)) 0 0 none) s

/-- The `.param` preloads of a launch, as plain loads through a core; `s0` and the pair `s0:s1` discard theirs (R105, R360). The spec
asks alignment of pairs only (R71 Table 3), and R187's `MISALIGN` speaks of lanes: a scalar preload whose address is not a multiple
of 4 reads its four bytes unaligned (DESIGN CHOICE, log entry 29). -/
def State.preload (s : State) (c : Context) (core : Nat) (l : Launch) (i : Image) : Except (AFault × Nat) (Sparse 32) :=
  i.params.foldlM (fun (m : Sparse 32) (p : Nat × Bool × Nat) =>
    let va := l.param + p.2.2
    let n := if p.2.1 then 8 else 4
    match windowOf va with
    | .global => match s.checkPage core c .load va n with
      | .error e => .error (e, va)
      | .ok (g, pa) =>
        let x := leNat ((List.range n).map fun j => (s.coreByte core (g.grainName c.num (va + j)) (pa + j)).1)
        if p.1 = 0 then .ok m
        else
          let m := sput p.1 (BitVec.ofNat 32 x) m
          .ok (if p.2.1 then sput (p.1 + 1) (BitVec.ofNat 32 (x / 2 ^ 32)) m else m)
    | _ => .error (AFault.of cWindow, va)) []

/-- A fault of the preload: as one of the CP's accesses for the LAUNCH packet (R375). -/
def State.preloadFault (s : State) (l : Launch) (e : AFault × Nat) : State :=
  match s.packet? l.ctx l.queue l.ring with
  | some p => s.packetFault l.ctx l.queue p e
  | none => s

/-- Start the next team of a launch, or its next cluster, on some cores (R360, R361). -/
def State.startNext (s : State) (l : Launch) (i : Image) (cores : List Nat) (reached : List (Nat × Nat)) : State :=
  match s.ctx? l.ctx with
  | none => s
  | some c => match s.preload c (cores.headD 0) l i with
    | .error e => s.preloadFault l e
    | .ok scalars =>
      let n := cores.length
      let slots := s.freeSlots l n
      let s := (s.chargeGrant l reached n).wakeContext l.ctx cores
      let s := ((upFrom l.started n).zip (cores.zip slots)).foldl (fun (s : State) (p : Nat × Nat × Nat) =>
        s.startTeam l i p.1 p.2.1 p.2.2 scalars) s
      (s.modLaunch l.key fun x => { x with st := .running, started := x.started + n }).clearDeficits

/-- CORE_GRANT: the launch that the scheduler chooses for a free core starts its next team, or cluster, there (R361, R382). -/
def execCoreGrant (s : State) : Host.Outcome State Fault Refusal :=
  match s.arg with
  | [core] => match s.coreChoice core with
    | some (l, (none, cores), reached) => match s.image? l.image with
      | some i => .next (s.startNext l i cores reached)
      | none => .next s
    | _ => .next s
  | _ => .next s

/-! ## Saves and restores (R361, R400 to R403) -/

/-- TEAM_RESTORE: the saved team that the scheduler chooses for a core is restored there, a cluster whole on one quad (R361,
R403). -/
def execTeamRestore (s : State) : Host.Outcome State Fault Refusal :=
  match s.arg with
  | [team, core] => match s.coreChoice core, s.team? team with
    | some (l, (some key, cores), reached), some t =>
      if key != team then .next s
      else
        let ms := sortBy (fun (a b : Team) => decide (a.index ≤ b.index)) (s.clusterTeams t)
        let s := (s.chargeGrant l reached 0).wakeContext l.ctx cores
        .next ((ms.zip cores).foldl (fun (s : State) (p : Team × Nat) => match s.team? p.1.key with
          | some u => s.restoreTeam u p.2
          | none => s) s).clearDeficits
    | _, _ => .next s
  | _ => .next s

/-- Cores on which a context has teams. -/
def State.coresHeld (s : State) (c : Nat) : List Nat :=
  uniq ((s.teams.filter fun t => t.ctx == c && t.onCore).map fun t => t.core)

/-- Does a launch wait for want of a free core, or of a hardware slot, alone (R386, R391)? -/
def State.wantsCore (s : State) (l : Launch) : Bool :=
  l.unstarted && ([Kind.dcore, Kind.lcore].any fun k => (s.placesOn k l).isSome)
    && !((List.range 448).any fun core => (s.useOf core l).isSome)

/-- The context whose cores a reclaim takes, and the tenant that waits (R386): the waiting tenant has a launch that no core can
take now, and a lower virtual time than the tenant of the context, the highest among those that hold cores it could use. -/
def State.victims (s : State) : Option (Launch × Tenant × List (Context × List Nat)) :=
  let waiting := s.launches.filter s.wantsCore
  (lowestTenant (waiting.filterMap s.tenantOf)).bind fun t =>
    (waiting.find? fun l => (s.tenantOf l).any fun u => u.key == t.key).bind fun l =>
      (s.ctx? l.ctx).bind fun c =>
        let usable := fun (k : Nat) => l.admits (kindOf k) && (s.contextCores c (kindOf k)).contains k
        let holders := s.tenants.filter fun u => t.vtime < u.vtime && s.ctxs.any fun x =>
          x.tkey == u.key && x.st == .running && (s.coresHeld x.num).any usable
        (holders.foldl (fun (b : Option Tenant) u => match b with
          | none => some u
          | some v => if u.vtime > v.vtime then some u else some v) none).map fun high =>
            (l, t, (s.ctxs.filter fun x => x.tkey == high.key && x.st == .running).filterMap fun x =>
              let cores := (sortBy (fun (a b : Nat) => decide (a ≤ b)) (s.coresHeld x.num)).filter fun k =>
                usable k && !(s.reclaims.any fun r => r.ctx == x.num && r.cores.contains k)
              if cores.isEmpty then none else some (x, cores))

/-- Teams of some needs that one core of a kind holds. -/
def teamsPerCore (k : Kind) (need : List Nat) : Nat :=
  max 1 ((((coreHolds k).zip need).filter fun p => p.2 ≠ 0).foldl (fun m p => min m (p.1 / p.2)) 64)

/-- Cores of a kind that a launch can use: enough for the teams that it has not started and for which it has private slots and room in
the save area (R360, R386, R402). -/
def State.coresUsable (s : State) (l : Launch) (k : Kind) : Nat :=
  match s.placesOn k l, s.ctx? l.ctx with
  | some (_, need, _), some c =>
    let per := teamsPerCore k need
    let left := min (l.nteams - l.started) (448 * per)
    let slots := (s.freeSlots l left).length
    let room := (c.savesize - s.imagesHeld c) / imageBytes k
    (min slots room + per - 1) / per
  | _, _ => 0

/-- Cores that the waiting launch can still use beyond those being reclaimed (R386). -/
def State.wanted (s : State) (l : Launch) : Nat :=
  max (s.coresUsable l .dcore) (s.coresUsable l .lcore) - (s.reclaims.map fun r => r.cores.length).foldl (fun a b => a + b) 0

/-- The cores of the clusters that have a member on some cores (R400). -/
def State.withClusters (s : State) (c : Nat) (cores : List Nat) : List Nat :=
  let ts := s.teams.filter fun t => t.ctx == c && t.onCore && cores.contains t.core
  uniq (cores ++ (ts.flatMap s.clusterTeams).map fun t => t.core)

/-- Cores to reclaim from a context: of its candidates in ascending order those that stay within a number, the cores of their
clusters' other members counted (R386, R400). -/
def State.reclaimSet (s : State) (c n : Nat) (cores : List Nat) : List Nat :=
  cores.foldl (fun got k =>
    let more := uniq (got ++ s.withClusters c [k])
    if more.length ≤ n then more else got) []

/-- CORE_RECLAIM: the CP plans to take cores from a context of the tenant with the highest virtual time, at least MINSLICE after
it granted them, less the charge (R386, R400, R402). -/
def execCoreReclaim (s : State) : Host.Outcome State Fault Refusal :=
  match s.arg with
  | [cn, count] => match s.victims with
    | some (l, _, cs) => match cs.find? fun x => x.1.num == cn with
      | some (c, cores) =>
        let n := min count (s.wanted l)
        let mine := s.reclaimSet cn n cores
        if mine.isEmpty then .next s
        else
          let slice := (c.minslice - min c.charge c.minslice) * Config.cyclesPerUs
          let since := ((c.granted.filter fun g => mine.contains g.1).map fun g => g.2).foldl max 0
          let tend := max (s.now + c.drain * Config.cyclesPerUs) (since + slice)
          let r : Reclaim := { ctx := cn, cores := mine, tend := tend, sent := false }
          let s : State := { s with reclaims := s.reclaims ++ [r] }
          .next (s.modCtx cn fun x => { x with charge := x.charge - min x.charge x.minslice })
      | none => .next s
    | none => .next s
  | _ => .next s

/-- Is a reclaim's time for stop requests come (R400)? -/
def State.stopDue (s : State) (r : Reclaim) : Bool := !r.sent && (match s.ctx? r.ctx with
  | some c => s.now + c.drain * Config.cyclesPerUs ≥ r.tend
  | none => false)

/-- Teams of a context that stop on the cores of a reclaim, whole clusters with them (R400). -/
def State.stopTeams (s : State) (r : Reclaim) : State :=
  let ts := s.teams.filter fun t => t.ctx == r.ctx && t.onCore && r.cores.contains t.core
  let keys := uniq ((ts.flatMap s.clusterTeams ++ ts).map fun t => t.key)
  let stop := fun (t : Team) => if t.st == .running then { t with st := .stopping } else t
  { s with teams := updIf (fun t => keys.contains t.key) stop s.teams }

/-- A context all of whose teams on cores are stopping for reclaims is PREEMPTING (R391). -/
def State.preempt (s : State) (cn : Nat) : State :=
  let ours := s.teams.filter fun t => t.ctx == cn && t.onCore
  let taken := fun (t : Team) => t.st == .stopping && s.reclaims.any fun r => r.ctx == cn && r.sent && r.cores.contains t.core
  if !ours.isEmpty && ours.all taken then s.modCtx cn fun c => if c.st == .running then { c with st := .preempting } else c else s

/-- PREEMPT_STOP_REQUEST: at t_end − DRAIN, the stop requests of a reclaim reach its cores (R400). -/
def execPreemptStopRequest (s : State) : Host.Outcome State Fault Refusal :=
  match s.arg with
  | [core] => match s.reclaims.find? fun r => r.cores.contains core && s.stopDue r with
    | some r =>
      let mark : Reclaim → Reclaim := fun x => if x == r then { x with sent := true } else x
      .next (({ s with reclaims := s.reclaims.map mark }.stopTeams r).preempt r.ctx)
    | none => .next s
  | _ => .next s

/-- A reclaim whose last team is saved, or gone, is complete: a positive overrun is reported and charged (R402). -/
def State.endReclaim (s : State) (r : Reclaim) : State :=
  let s : State := { s with reclaims := s.reclaims.filter fun x => x != r }
  let late := s.now - r.tend
  let us := (late + Config.cyclesPerUs - 1) / Config.cyclesPerUs
  if us = 0 then s
  else
    let s := s.putRecords r.ctx [({ plainRecord cDrainover with extra := leBytes 8 us }, none)]
    s.modCtx r.ctx fun c => { c with overrun := c.overrun + BitVec.ofNat 64 us, charge := c.charge + us }

/-- Has a reclaim no team left on its cores? -/
def State.reclaimed (s : State) (r : Reclaim) : Bool :=
  !(s.teams.any fun t => t.ctx == r.ctx && t.onCore && r.cores.contains t.core)

/-- What follows for contexts when teams have left cores: completed reclaims, cores no longer held, PREEMPTING contexts whose
last team is saved, and RUNNING contexts without cores or launches (R391, R402). -/
def State.settleContexts (s : State) : State :=
  let s := (s.reclaims.filter s.reclaimed).foldl State.endReclaim s
  let idle := fun (c : Context) => (s.coresHeld c.num).isEmpty
  let busy := fun (c : Context) => s.launches.any fun l => l.ctx == c.num && (l.st == .running || l.st == .ending)
  let step := fun (c : Context) =>
    let c := if c.granted.all fun g => (s.coresHeld c.num).contains g.1 then c
      else { c with granted := c.granted.filter fun g => (s.coresHeld c.num).contains g.1 }
    match c.st with
    | .preempting => if idle c then { c with st := .saved, resident := false, savedAt := s.now } else c
    | .running => if idle c && !busy c then { c with st := .ready, resident := false } else c
    | _ => c
  { s with ctxs := s.ctxs.map step }

/-- Is a team's save ready: it is stopping, and the conditions of R401 hold? -/
def State.canSave (s : State) (t : Team) : Bool :=
  t.st == .stopping && s.saveReady t && (match s.ctxOf t with
    | some c => c.st == .running || c.st == .preempting
    | none => false)

/-- TEAM_SAVE_COMPLETE: the team's image is written and it is SAVED; a rival that gives way waits for its turn (R328, R400 to
R402). -/
def execTeamSaveComplete (s : State) : Host.Outcome State Fault Refusal :=
  match s.arg with
  | [team] => match s.team? team with
    | none => .next s
    | some t =>
      if !s.canSave t then .next s
      else
        let taken := s.reclaims.any fun r => r.ctx == t.ctx && r.sent && r.cores.contains t.core
        let s := s.saveTeam t
        let s := if t.parent.isSome && !taken then
            (s.modRival team fun r => { r with st := .waiting }).modTeam team fun t => t.holdWaits s.now
          else s
        .next s.settleContexts
  | _ => .next s

/-! ## Aging (R384) -/

/-- PRIORITY_AGING (R384). -/
def execPriorityAging (s : State) : Host.Outcome State Fault Refusal :=
  match s.arg with
  | [cn, n] => match s.ctx? cn with
    | none => .next s
    | some c => match c.queue? n with
      | none => .next s
      | some q => .next (s.modQueue cn n fun x => { x with eff := s.agedPrio c q })
  | _ => .next s

/-! ## The bakery (R367) -/

/-- Is an operation one of deterministic order: a DS store or atomic, or a launch packet? -/
def Op.ordered (o : Op) : Bool := match o.what with
  | .klaunch _ _ _ _ => true
  | .store ws _ => ws.any fun w => w.at_.ds
  | .atomic sp _ _ _ _ => sp.any fun x => x.ds
  | _ => false

/-- Has a team's turn come: every lower team of the launch is DONE-ordering, and all it ordered is performed (R367)? -/
def State.turnComes (s : State) (t : Team) : Bool :=
  s.isDet t && !t.turn && t.parent.isNone && (match s.launchOf t with
    | some l => (l.ordered.filter fun i => i < t.index).length == t.index
    | none => false)
    && s.teams.all fun u => !(u.launch == t.launch && u.index < t.index && (!u.staged.isEmpty || s.ops.any fun o =>
      o.team == u.key && o.ordered))

/-- Is an access that a team would stage still in a chunk (R367)? -/
def State.stagesYet (s : State) (t : Team) : Bool := t.staged.any fun e => e.chunk.any fun k => (s.lam? k).isSome

/-- May a team's staged accesses be performed: its turn has come, their chunks have committed, and the one before is performed
(R367)? -/
def State.turnReady (s : State) (t : Team) : Bool := s.turnComes t && !s.stagesYet t && !s.sendingOn t

/-- BAKERY_TURN_BEGIN: the staged accesses and launch packets are performed in the order they were staged, and then the team's turn
has begun (R367). -/
def execBakeryTurnBegin (s : State) : Host.Outcome State Fault Refusal :=
  match s.arg with
  | [team] => match s.team? team with
    | none => .next s
    | some t =>
      if !s.turnReady t then .next s
      else
        let (es, s) := s.sendEntries team false t.staged
        .next ((s.modTeam team fun t => { t with staged := es, turn := es.isEmpty }).reapTeam team)
  | _ => .next s

/-! ## The end of a launch (R357, R363) -/

/-- A launch whose teams have all retired is ENDING (R357). -/
def State.endLaunches (s : State) : State :=
  let ended := fun (l : Launch) => l.st == .running && l.retired.length == l.nteams
  if s.launches.any ended then { s with launches := updIf ended (fun l => { l with st := .ending }) s.launches } else s

/-- Is every write of an ENDING launch performed at `.dev`, its staging empty, its launch packets delivered (R357, R363)? -/
def State.launchOver (s : State) (l : Launch) : Bool :=
  l.st == .ending && !s.launchStalled l && !(s.teams.any fun t => t.launch == l.key)
    && !(s.flights.any fun f => l.gone.any fun g => g.1 == f.team) && s.waiting.isEmpty
    && !(s.held.any fun h => h.dirty && l.gone.any fun g => g.1 == h.team)
    && !(s.lams.any fun x => x.owner == .chunk && l.gone.any fun g => g.1 == x.team)

/-- LAUNCH_COMPLETE: SIGVAL is added to the signal with release semantics, and the launch is DONE (R363, R377). -/
def execLaunchComplete (s : State) : Host.Outcome State Fault Refusal :=
  match s.arg with
  | [key] => match s.launch? key with
    | none => .next s
    | some l => match s.ctx? l.ctx with
      | none => .next s
      | some c =>
        if !s.launchOver l || !c.recording then .next s
        else
          let finish := fun (s : State) =>
            ((s.modLaunch key fun x => { x with st := .done }).endPacket l.ctx l.queue l.ring).dropUnloading.settleContexts
          if l.signal = 0 then .next (finish s)
          else match s.cpReach c .atomic l.signal 8 with
            | .error e => .next (s.preloadFault l e)
            | .ok pas =>
              let new := atomicNew 1 (leNat (s.cpHome pas)) l.sigval.toNat 0
              .next (finish (s.cpWrite pas (leBytes 8 new)))
  | _ => .next s

end Sys2Proof.Machine
end

