-- ==== Sys2Proof/Machine/Link.lean ====
section
/-! DEFINITION. Links: their states (R404), flits of the pod links (R408, R409), accesses of remote modules (R411), the proofer
(R414 to R417), and the machine check (R425). -/

namespace Sys2Proof.Machine

/-! ## Machine checks (R425) -/

/-- Codes of the event log: which machine check, or a lost permit (R417, R425). -/
def logBoundaryDown : Nat := 1
def logChannel : Nat := 2
def logTemperature : Nat := 3
def logHeartbeat : Nat := 4
def logLostPermit : Nat := 5

/-- A machine check: every resident context goes to TERMINATED, without records; the event log is written and the management
interrupt raised. All but a takeover by a standby require a reset (R425). -/
def State.machineCheck (s : State) (code info : Nat) (reset : Bool) : State :=
  let s := ((s.ctxs.filter fun c => c.resident).map fun c => c.num).foldl State.terminate s
  let s : State := { s with part := { s.part with needsReset := s.part.needsReset || reset } }
  (s.emit (.eventLog code info)).emit .managementInterrupt

/-! ## Link states (R404) -/

/-- Is a link a die-to-die boundary? -/
def isBoundary (link : Nat) : Bool := 17 ≤ link && link < 27

def State.link? (s : State) (n : Nat) : Option Link := s.part.links.find? fun l => l.num == n

def State.modLink (s : State) (n : Nat) (f : Link → Link) : State :=
  { s with part := { s.part with links := updIf (fun l => l.num == n) f s.part.links } }

/-- A link goes DOWN; a die-to-die boundary's is a machine check (R404, R425). -/
def State.linkDown (s : State) (n : Nat) : State :=
  match s.link? n with
  | none => s
  | some _ =>
    let s := s.modLink n fun l => { l with st := .down }
    if isBoundary n then s.machineCheck logBoundaryDown (n - 17) true else s

/-- LINK_ENABLE: DOWN to TRAINING (R404). -/
def execLinkEnable (s : State) : Host.Outcome State Fault Refusal :=
  match s.arg with
  | [n] => .next (s.modLink n fun l => if l.st == .down then { l with st := .training, attempts := 0, enabled := true } else l)
  | _ => .next s

/-- LINK_TRAINED: UP (2), DEGRADED (1), or a failed attempt (0), the third of which leaves the link DOWN (R404). -/
def execLinkTrained (s : State) : Host.Outcome State Fault Refusal :=
  match s.arg with
  | [n, result] => match s.link? n with
    | none => .next s
    | some l =>
      if l.st != .training then .next s
      else if result = 2 then .next (s.modLink n fun l => { l with st := .up, attempts := 0 })
      else if result = 1 then .next (s.modLink n fun l => { l with st := .degraded, attempts := 0 })
      else if l.attempts + 1 ≥ 3 then .next ((s.modLink n fun l => { l with attempts := 0 }).linkDown n)
      else .next (s.modLink n fun l => { l with attempts := l.attempts + 1 })
  | _ => .next s

/-- Flit retries in one second from which a link is retrained (R404). -/
def retryLimit : Nat := 1000

/-- LINK_RETRY_RATE: more than 1,000 flit retries in 1 s (R404). -/
def execLinkRetryRate (s : State) : Host.Outcome State Fault Refusal :=
  match s.arg with
  | [n, retries] =>
    .next (if retries > retryLimit then
      s.modLink n fun l => if l.st == .up then { l with st := .degraded, rate := l.rate + 1 } else l else s)
  | _ => .next s

/-- LINK_DISABLE (R404). -/
def execLinkDisable (s : State) : Host.Outcome State Fault Refusal :=
  match s.arg with
  | [n] => .next ((s.modLink n fun l => { l with enabled := false }).linkDown n)
  | _ => .next s

/-! ## Pod-window responses (R411) -/

/-- The lanes of a pod-window atomic, as `atomicRun` takes them. -/
def podLanes (ls : List (Nat × Nat)) : List AtomLane :=
  ls.map fun l => { gid := 0, lane := 0, x := BitVec.ofNat 64 l.1, cmp := BitVec.ofNat 32 l.2, lost := [] }

/-- The values of a response's destination registers: of a load by its word, of an atomic what each lane of the unit finds, the
response bringing the unit's old value (R198, R200, R201). -/
def podRegs (word : Word) (act : RemoteAct) (fresh val : Nat) : List Word :=
  match act with
  | .atom op _ r lanes => (atomicRun op r fresh val (podLanes lanes)).2.flatMap fun x =>
      if op = 1 then [BitVec.ofNat 32 x, BitVec.ofNat 32 (x / 2 ^ 32)] else [BitVec.ofNat 32 x]
  | _ => match instrOf word with
    | some (.ld _ _ _ w _) => loadRegs w.toNat val
    | _ => [BitVec.ofNat 32 val, BitVec.ofNat 32 (val / 2 ^ 32)]

/-- A response: the destinations are written, the access is complete (R107, R411, R412). -/
def State.podResponse (s : State) (key val : Nat) : State :=
  match s.op? key with
  | none => s
  | some o => match o.what with
    | .remote regs _ _ act =>
      let s := s.modTeam o.team fun t => (regs.zip (podRegs o.iss.word act s.fresh val)).foldl (fun t p =>
        if p.1.2.2 ≥ 128 then t else t.fill (.v p.1.1 p.1.2.1 p.1.2.2, p.2.setWidth 64)) t
      s.finishOp o
    | .engine own va n .load _ =>
      let new := (upFrom va n).zip (leBytes n val)
      let s := match own with
        | .copy _ k => s.modCopy o.team k fun (x : Copy) => { x with got := x.got ++ new }
        | .mop k => s.modMop o.team k fun (x : MatOp) => { x with got := x.got ++ new }
      s.finishOp o
    | .engine _ _ _ _ _ => s.finishOp o
    | _ => s

/-- A record of a remote fault of an engine's access: bytes 11:9 name the pod-window entry (R458). -/
def Record.viaPod (r : Record) (entry module rctx : Nat) : Record :=
  { r with extra := r.extra.take 9 ++ leBytes 1 entry ++ leBytes 1 module ++ leBytes 1 rctx ++ r.extra.drop 12 }

/-- The pending record that already stands for a replayable fault of an engine's work in a 64 KiB region: its key (R245, R277). -/
def State.regionRecord (s : State) (ctx : Nat) (own : EngineRef) (va cause : Nat) : Option Nat :=
  s.ops.findSome? fun o => match o.what with
    | .engine w a _ _ (some k) =>
      if w == own && a / 65536 == va / 65536 && ((s.ctx? ctx).any fun c => c.pending.any fun p => p.key == k && p.record.cause == cause)
      then some k else none
    | _ => none

/-- A remote fault of an engine's pod-window access: a replayable one stalls the COPY or the operation until the access is made again
by the replay, with one record for each 64 KiB region; another one ends it (R245, R277, R411). -/
def State.engineFault (s : State) (t : Team) (o : Op) (own : EngineRef) (va entry module rctx : Nat) (f : AFault) : State :=
  let cause := f.cause
  let again := cause = cPagefault || cause = cProt
  let wait := fun (s : State) (r : Record) =>
    let known := s.regionRecord t.ctx own va cause
    let mark := known.getD s.keys
    let note : Op → Op := fun o => match o.what with
      | .engine w a n act _ => { o with what := .engine w a n act (some mark) }
      | _ => o
    let s' := s.modOp o.key note
    if known.isSome then s' else s'.putRecords t.ctx [({ r with replayable := true }, some (.remote o.key))]
  match own with
  | .copy h k => (match t.chain? h, t.copy? k with
    | some c, some cp =>
      let r := (s.chainRecord t c cause 0 cp.off va f).viaPod entry module rctx
      if again then (wait s r).stallChain t.key h else (s.finishOp o).copyFails t cp cause r
    | _, _ => s.finishOp o)
  | .mop k => (match t.mops.find? fun m => m.key == k with
    | some m =>
      let r := (s.drainRecord t m (m.op.tiles.headD 0) cause va f).viaPod entry module rctx
      if again then wait s r else (s.finishOp o).drainFails t m cause r
    | none => s.finishOp o)

/-- The pod-window entry of an address: its number, module and remote context (R410). -/
def Context.podTarget (c : Context) (va : Nat) : Nat × Nat × Nat := match c.podEntry? (bits va 41 34) with
  | some e => (bits va 41 34, e.module, e.rctx)
  | none => (bits va 41 34, 0, 0)

/-- A fault of the remote access: it is written with the remote cause and that cause's delivery (R411); a replayable one parks
the lanes, and the access is made again by the replay. -/
def State.podFault (s : State) (key : Nat) (f : AFault) : State :=
  let cause := f.cause
  match s.op? key with
  | none => s
  | some o => match o.what, s.team? o.team with
    | .engine own va _ _ _, some t => match s.ctxOf t with
      | none => s
      | some c =>
        let (entry, module, rctx) := c.podTarget va
        s.engineFault t o own va entry module rctx f
    | .remote _ va _ _, some t => match s.ctxOf t with
      | none => s
      | some c =>
        let (entry, module, rctx) := c.podTarget va
        let gid := o.gid
        let lanes := o.iss.members.map fun m => m.2
        let point := (o.iss.members.head?.bind fun m => t.thread? m.1 m.2).bind fun x => x.point
        let r := { s.teamRecord t cause gid (laneMask lanes) o.iss.word.toNat (s.bothPcs t point o.iss.first) (BitVec.ofNat 64 va) with
          extra := extra458 2 entry (module % 256 + 256 * (rctx % 256)) 0 f.reason f.level }
        if !t.levels.isEmpty && (failureCode cause).isSome then (s.finishOp o).failRoutine t.key ((failureCode cause).getD 0)
        else if cause = cPagefault || cause = cProt then
          let mark := s.keys
          let ms := o.iss.members.filter fun m => match t.thread? m.1 m.2 with
            | some x => x.park.isNone
            | none => false
          let s := s.modTeam t.key fun t =>
            (t.modThreads ms fun _ x => { x with park := some (.fault mark) }).leaveSquads ms
          s.putRecords t.ctx [({ r with replayable := true }, some (.remote key))]
        else (s.finishOp o).putRecords t.ctx [({ r with fatal := true }, none)]
    | _, _ => s

/-! ## Flits (R408, R409) -/

/-- Apply the permits a flit returns to the channels of its port, by class (R408, R414). -/
def State.returnPermits (s : State) (port : Nat) (ret : List Nat) : State :=
  let back : Channel → Channel := fun c =>
    let n := ret.getD c.cls 0
    { c with held := c.held + n, occupied := c.occupied - n }
  { s with part := { s.part with channels := updIf (fun c => c.kind == 1 && c.num == port) back s.part.channels } }

/-- What an accepted message brings (R408, R411, R413). -/
def State.podMessage (s : State) (m : PodMsg) : State :=
  match m with
  | .response op val => s.podResponse op val
  | .fault op cause reason level => s.podFault op { cause := cause, reason := reason, level := level }
  | .arrival ctx id module count team gid => s.post .podBarrierArrival [ctx, id, module, count, team, gid]
  | .completion ctx id elected => s.post .podBarrierCompletion [ctx, id, if elected then 1 else 0]
  | .request r => { s with part := { s.part with remote := s.part.remote ++ [r] } }

/-- Does an acknowledgement cover a sequence number (R409)? -/
def covered (ack seq : Word) : Bool := decide ((ack - seq).toNat < 2 ^ 31)

/-- FLIT_RECEIVE: a flit with a bad check or an unknown kind counts as a retry and is discarded; one with another SEQ than the
next is discarded; else it is accepted with its acknowledgements, permit returns and message (R408, R409). -/
def execFlitReceive (s : State) : Host.Outcome State Fault Refusal :=
  match s.arg with
  | [port] => match s.part.rx.find? fun f => f.port == port, s.part.ports.find? fun p => p.num == port with
    | some f, some p =>
      let s : State := { s with part := { s.part with rx := s.part.rx.erase f } }
      let modPort := fun (s : State) (g : Port → Port) =>
        ({ s with part := { s.part with ports := updIf (fun x => x.num == port) g s.part.ports } } : State)
      if !f.checks || f.kind ≥ 4 then .next (modPort s fun x => { x with retries := x.retries + 1 })
      else if f.seq != p.expect then .next s
      else
        let s := modPort s fun x => { x with expect := x.expect + 1, unacked := x.unacked.filter fun n => !covered f.ack n }
        let s := s.returnPermits port f.ret
        match f.msg with
        | some m => .next (if f.kind = 1 then s.podMessage m else s)
        | none => .next s
    | _, _ => .next s
  | _ => .next s

/-! ## Accesses of remote modules (R411, R418) -/

/-- Bytes a remote request reads or writes. -/
def RemoteReq.acc (r : RemoteReq) : Access := match r.act with
  | .load => .load
  | .store _ => .store
  | .atom _ ret _ _ => if ret then .atomic else .red

/-- Perform a granted request in its context; a refusal or a fault goes back to the source, with REASON and level of a `PAGEATTR`
(R411, R458); an uncorrectable ECC error poisons the page (R197). -/
def State.remoteAccess (s : State) (r : RemoteReq) : State :=
  let fault := fun (s : State) (f : AFault) => (s.emit (.podReplyFault r.module r.tag f.cause f.reason f.level)).sendFlit r.module 1
  let reply := fun (s : State) (val : Nat) => (s.emit (.podReply r.module r.tag val)).sendFlit r.module 1
  if !s.part.grants.contains (r.module, r.sctx, r.rctx) then fault s (AFault.of cProt)
  else match s.ctx? r.rctx with
    | none => fault s (AFault.of cProt)
    | some c => match s.cpReach c r.acc r.va r.width with
      | .error e => fault (s.reportEcc c.num [(e.2, e.1)]) e.1
      | .ok pas =>
        match r.act with
        | .load => reply s (leNat (s.cpBytes pas))
        | .store v => reply (s.cpWrite pas (leBytes r.width v)) 0
        | .atom op _ free lanes =>
          let old := leNat (s.cpHome pas)
          reply (s.cpWrite pas (leBytes r.width (atomicRun op free s.fresh old (podLanes lanes)).1)) old

/-- REMOTE_POD_ACCESS (R411). -/
def execRemotePodAccess (s : State) : Host.Outcome State Fault Refusal :=
  match s.arg with
  | [n] => match s.part.remote[n]? with
    | none => .next s
    | some r => .next (({ s with part := { s.part with remote := s.part.remote.eraseIdx n } } : State).remoteAccess r)
  | _ => .next s

/-! ## The proofer (R415 to R417) -/

/-- The link a channel belongs to, if it is one of the first three kinds (R404 Table 1). A number of the second half of its
range stands for the incoming direction. -/
def Channel.link (c : Channel) : Option Nat := match c.kind with
  | 0 => some 0
  | 1 => some (c.num % 16 + 1)
  | 2 => some (c.num % 10 + 17)
  | _ => none

/-- The two dies of a boundary (R11). The spec lists the ten boundaries and numbers none of them: that they are numbered in the order
of the list is the model's choice (DESIGN CHOICE, log entry 26). -/
def boundaryDies (b : Nat) : Nat × Nat :=
  [(0, 1), (1, 2), (2, 3), (4, 5), (5, 6), (6, 7), (0, 4), (1, 5), (2, 6), (3, 7)].getD b (0, 0)

/-- Does the route between two dies cross a boundary: first along the row, then across (R11)? -/
def routeCrosses (a b bound : Nat) : Bool :=
  let d := boundaryDies bound
  let row := a / 4
  let inRow := d.1 / 4 == row && d.2 / 4 == row && min (a % 4) (b % 4) ≤ d.1 % 4 && d.2 % 4 ≤ max (a % 4) (b % 4)
  let across := d.2 == d.1 + 4 && d.1 % 4 == b % 4 && a / 4 ≠ b / 4
  inRow || across

/-- Addresses that the COPYs and matrix operations of a team read or write. -/
def Team.engineVas (t : Team) : List Nat :=
  t.copies.flatMap (fun c => c.srcVas ++ c.dstVas) ++ t.mops.flatMap fun m => match m.op with
    | .mdrain _ d => d.vas ++ d.scaleVas
    | .mload _ d => d.vas
    | _ => []

/-- The global addresses that the loads in flight of a word read. -/
def State.loadPlaces (s : State) (t : Team) (o : Op) : List Nat := match o.what with
  | .vres _ _ => o.iss.vas.flatMap fun v => s.placesOf t v.1 v.2.1 v.2.2 4
  | _ => []

/-- Does an access of a team, a load among them, of its engines or of its committed writes cross a boundary on the way to its home
(R11, R15)? -/
def State.crosses (s : State) (t : Team) (bound : Nat) : Bool :=
  let die := dieOf t.core
  let far := fun (pa : Nat) => routeCrosses die (homeDie pa) bound
  let farLoc := fun (l : Loc) => match l with
    | .mem pa => far pa
    | .priv _ a => far (privPa a)
    | _ => false
  let farVa := fun (us : List TlbUnit) (va : Nat) => windowOf va == .global && (match s.ctxOf t with
    | some c => (match s.lookupBy us c va with
      | .ok p => far (p.base + va % 2 ^ p.bits)
      | .error _ => false)
    | none => false)
  (s.ops.any fun o => o.team == t.key && (o.targets.any farLoc || (s.loadPlaces t o).any (farVa (laneTlbs t.core))))
    || t.engineVas.any (farVa [.ahead t.core])
    || s.flights.any fun f => f.team == t.key && f.lines.any fun x => routeCrosses f.die (homeDie x.pa) bound

/-- Has a context a request outstanding on a channel (R417)? -/
def State.usesChannel (s : State) (c : Context) (ch : Channel) : Bool :=
  let ops := s.ops.filter fun o => match s.team? o.team with
    | some t => t.ctx == c.num
    | none => false
  match ch.kind with
  | 0 => ops.any fun o => !(s.hostLanes o).isEmpty
  | 1 => ops.any fun o => match o.what with
    | .remote _ va _ _ | .engine _ va _ _ _ =>
      (s.part.routes.find? fun r => r.1 == c.podModule (bits va 41 34)).any fun r => r.2.contains (ch.num % 16)
    | _ => false
  | 2 => s.teams.any fun t => t.ctx == c.num && s.crosses t (ch.num % 10)
  | 3 => s.teams.any fun t => t.ctx == c.num && t.core == ch.num && !t.mops.isEmpty
  | 5 => s.flights.any fun f => f.ctx == c.num && f.die == ch.num / 8 && f.left.contains (ch.num % 8)
  | _ => false

/-- Cycles of one second (R6). -/
def oneSecond : Nat := 1000000 * Config.cyclesPerUs

/-- A channel's permits are set to its total less the occupied slots, with no unit in flight (R417). -/
def Channel.repair (c : Channel) (now : Nat) : Channel :=
  { c with held := c.total - c.occupied, returning := 0, mismatch := some now }

/-- The `LOSTPERMIT` record of a channel (R417). -/
def lostPermit (c : Channel) : Record :=
  let sum := c.held + c.occupied + c.returning
  { plainRecord cLostpermit with extra := leBytes 1 c.kind ++ leBytes 3 c.num ++ leBytes 4 c.total ++ leBytes 4 sum }

/-- A link whose channel mismatched is quarantined and retrained; the third quarantine within 1 s leaves it DOWN (R404, R417). -/
def State.quarantine (s : State) (n : Nat) : State :=
  match s.link? n with
  | none => s
  | some l =>
    let recent := (l.quarantines.filter fun q => s.now < q + oneSecond) ++ [s.now]
    let s := s.modLink n fun l => { l with st := .quarantined, quarantines := recent }
    if recent.length ≥ 3 then s.linkDown n else s.modLink n fun l => { l with st := .training, attempts := 0 }

/-- Is a channel audited now: its link is UP or DEGRADED (R415)? -/
def State.audited (s : State) (c : Channel) : Bool := match c.link with
  | none => true
  | some n => match s.link? n with
    | some l => l.st == .up || l.st == .degraded
    | none => false

/-- PROOFER_AUDIT: S + O + T is checked against the channel's total; a mismatch is repaired, reported and logged (R415, R417). -/
def execProoferAudit (s : State) : Host.Outcome State Fault Refusal :=
  match s.arg with
  | [n] => match s.part.channels[n]? with
    | none => .next s
    | some c =>
      if !s.audited c || c.held + c.occupied + c.returning = c.total then .next s
      else
        let users := (s.ctxs.filter fun x => x.resident && s.usesChannel x c).map fun x => x.num
        let s := users.foldl (fun s x => s.putRecords x [(lostPermit c, none)]) s
        let s := s.emit (.eventLog logLostPermit n)
        let fixed := s.part.channels.set n (c.repair s.now)
        let s : State := { s with part := { s.part with channels := fixed } }
        match c.link with
        | some l => .next (s.quarantine l)
        | none => .next (if c.mismatch.any fun m => s.now < m + oneSecond then s.machineCheck logChannel n true else s)
  | _ => .next s

end Sys2Proof.Machine
end

