-- ==== Sys2Proof/Machine/Manage.lean ====
section
/-! DEFINITION. Bring-up and reset (R419, R420), attestation (R421), time (R422), power and temperature (R423, R424), missed
heartbeats (R425), and writes to the part's registers (R390, R407, R410, R411, R413, R415). -/

namespace Sys2Proof.Machine

/-! ## Bring-up (R419, R420) -/

/-- The permit channels of the part (R404 Table 1), every permit at its sender: the CXL port by protocol, the pod ports and the
boundaries by direction and class, one issue queue per core, one launch channel per quad, one broadcast per pair of dies. -/
def freshChannels : List Channel :=
  let mk := fun (kind num cls : Nat) =>
    let n := Config.channelTotal kind num cls
    ({ kind := kind, num := num, cls := cls, total := n, held := n, occupied := 0, returning := 0, mismatch := none } : Channel)
  let classes := fun (kind n : Nat) => (List.range n).flatMap fun i => (List.range 3).map fun c => mk kind i c
  classes 0 1 ++ classes 1 32 ++ classes 2 20 ++ (List.range 448).map (fun i => mk 3 i 0) ++ (List.range 112).map (fun i => mk 4 i 0)
    ++ ((List.range 64).filter fun i => i / 8 ≠ i % 8).map fun i => mk 5 i 0

/-- The image the ROM accepts for a processor: slot 0, else slot 1, whose signature verifies and whose version is at least the
fused minimum (R420). -/
def Part.accept (p : Part) (proc : Nat) : Option Firmware :=
  let good := fun (slot : Nat) => p.env.firmware.find? fun f =>
    f.proc == proc && f.slot == slot && f.verifies && f.version ≥ p.minVersion
  match good 0 with
  | some f => some f
  | none => good 1

/-- How a link's training ends: 2 UP, 1 DEGRADED, 0 DOWN. -/
def BootEnv.trained (e : BootEnv) (n : Nat) : LinkState := match e.trains.getD n 0 with
  | 2 => .up
  | 1 => .degraded
  | _ => .down

/-- The links after bring-up: boundaries and the CXL port trained, pod ports where they are listed as enabled (R419 steps 4 to
6). -/
def Part.trainLinks (p : Part) : List Link :=
  p.links.map fun l =>
    let on := l.num = 0 || isBoundary l.num || l.enabled
    { l with st := if on then p.env.trained l.num else .down, attempts := 0, quarantines := [], rate := 0 }

/-- The part as a reset leaves it: what is fused, populated, measured outside or listed stays (R419; log entry 2). -/
def Part.cleared (p : Part) : Part :=
  { Part.reset with
    gradeA := p.gradeA, stepping := p.stepping, env := p.env, minVersion := p.minVersion,
    links := Link.allDown.map fun l => { l with enabled := p.links.any fun x => x.num == l.num && x.enabled } }

/-- Steps 2 to 7 of bring-up: a failure in steps 2 to 5 leaves the part in BOOTFAIL; step 7 waits for the accepted vector
(R419). -/
def Part.boots (p : Part) : Part :=
  let p := p.cleared
  if !p.env.rom then { p with boot := .fail }
  else match p.accept 0, p.accept 1 with
    | some cp, some mp =>
      let p := { p with measured := [(cp.digest, cp.version), (mp.digest, mp.version)] }
      let boundaries := (List.range 10).all fun b => p.env.trained (17 + b) == .up
      if !p.env.procs then { p with boot := .fail }
      else if !boundaries || !p.env.hbm then { p with boot := .fail }
      else if p.env.trained 0 == .down then { p with boot := .fail }
      else { p with ddr := p.env.ddr, links := p.trainLinks, channels := freshChannels, boot := .step 7 }
    | _, _ => { p with boot := .fail }

/-- The machine after a reset of the part: every context and all that belongs to contexts is lost (R419). -/
def State.restarted (s : State) (mem : List Host.Cell) (p : Part) : State :=
  { State.reset with part := p, mem := mem, checks := s.checks, badEcc := s.badEcc, now := s.now, out := s.out,
                     agenda := s.agenda, arg := s.arg, fresh := s.fresh, keys := s.keys }

/-- POWER_ON: step 1 waits for the rails, then bring-up runs; memory is as after power-on (R419; log entry 1). -/
def execPowerOn (s : State) : Host.Outcome State Fault Refusal :=
  let p := if s.part.env.rails then s.part.boots else { s.part.cleared with boot := .step 1 }
  .next { s.restarted [] p with checks := [], badEcc := [] }

/-- WARM_RESET: bring-up starts again at step 2, and every context is lost (R419). With the core supply removed, or the rails not
up, nothing starts. -/
def execWarmReset (s : State) : Host.Outcome State Fault Refusal :=
  if !s.part.supply || s.part.boot == .step 1 then .next s else .next (s.restarted s.mem s.part.boots)

/-! ## Attestation (R421) -/

/-- ATTESTATION_REQUEST: the report with the caller's nonce; the signature's bits are free (R421; log entry 30). -/
def execAttestationRequest (s : State) : Host.Outcome State Fault Refusal :=
  match s.arg with
  | [nonce] => .next (s.emit (.report nonce s.part.gradeA s.part.stepping.toNat s.part.measured s.part.accepted.toNat
      s.part.minVersion (Config.freeDigest s.fresh nonce).toNat))
  | _ => .next s

/-! ## Time (R422) -/

/-- Nanoseconds of a time. -/
def nanoseconds (t : Nat × Nat) : Nat := t.1 * 10 ^ 9 + t.2

/-- Does an edge agree with the time of day to within 100 ns? -/
def agrees (a b : Nat) : Bool := a ≤ b + 100 && b ≤ a + 100

/-- PPS_EDGE: an edge at a time of the reference; four consecutive ones that agree lock the CP's time (R422). -/
def execPpsEdge (s : State) : Host.Outcome State Fault Refusal :=
  match s.arg with
  | [sec, ns] =>
    let late := s.now ≥ s.part.lastPps + 2 * oneSecond
    let before := if late then 0 else s.part.agree
    let agree := if agrees (nanoseconds s.timeOfDay) (nanoseconds (sec, ns)) then before + 1 else 0
    .next { s with part := { s.part with
      agree := agree, lastPps := s.now, locked := (s.part.locked && !late) || agree ≥ 4 } }
  | _ => .next s

/-- Has the CP's time been without a PPS edge for 2 s (R422)? -/
def State.ppsLate (s : State) : Bool := s.now ≥ s.part.lastPps + 2 * oneSecond

/-- PPS_LOSS: after 2 s without an edge the lock is lost (R422). -/
def execPpsLoss (s : State) : Host.Outcome State Fault Refusal :=
  .next (if s.ppsLate then { s with part := { s.part with locked := false, agree := 0 } } else s)

/-- IEEE1588_TIME_OF_DAY: the management port sets the time of day (R422). -/
def execIeee1588TimeOfDay (s : State) : Host.Outcome State Fault Refusal :=
  match s.arg with
  | [sec, ns] => .next { s with part := { s.part with timeSec := sec, timeNs := ns, timeAt := s.now } }
  | _ => .next s

/-! ## Power and temperature (R423, R424) -/

/-- POWER_LIMIT_SET: 1,000 W to 3,600 W (R423). -/
def execPowerLimitSet (s : State) : Host.Outcome State Fault Refusal :=
  match s.arg with
  | [watts] =>
    .next (if 1000 ≤ watts && watts ≤ 3600 then { s with part := { s.part with powerLimit := watts } } else s)
  | _ => .next s

/-- CONTEXT_POWER_CAP_SET: in watts, 0 meaning none (R423). -/
def execContextPowerCapSet (s : State) : Host.Outcome State Fault Refusal :=
  match s.arg with
  | [c, watts] => .next (s.modCtx c fun x => { x with cap := watts })
  | _ => .next s

/-- Set a core's clock; one at full rate is not listed. -/
def State.setClock (s : State) (core pct : Nat) : State :=
  let rest := s.part.clocks.filter fun c => c.1 != core
  { s with part := { s.part with clocks := if pct = 100 then rest else rest ++ [(core, pct)] } }

/-- Has a core a team that may be moved (R346)? -/
def State.movableTeam (s : State) (core : Nat) : Bool :=
  s.teams.any fun t => t.core == core && t.st == .running && t.kind == .dcore && t.migr.isNone && s.now ≥ t.placedAt + thermalStay

/-- L_CORE_THERMAL_THROTTLE: at 95 °C, and, once throttled, until it reads below 92 °C, the clock of an L-core, or of a D-core with
nothing to move, falls by 10 % (R424). -/
def execLCoreThermalThrottle (s : State) : Host.Outcome State Fault Refusal :=
  match s.arg with
  | [core, temp] =>
    let pct := s.clockOf core
    let hot := temp ≥ 95 || (pct < 100 && temp ≥ 92)
    let fits := kindOf core == .lcore || !s.movableTeam core
    .next (if hot && fits && pct > 10 then s.setClock core (pct - 10) else s)
  | _ => .next s

/-- THROTTLE_CLOCK_RISE: below 90 °C the clock of a throttled core rises by 10 % (R424). -/
def execThrottleClockRise (s : State) : Host.Outcome State Fault Refusal :=
  match s.arg with
  | [core, temp] => .next (if temp < 90 then s.setClock core (min 100 (s.clockOf core + 10)) else s)
  | _ => .next s

/-- HBM_THERMAL_THROTTLE: from 95 °C a stack's refresh and bandwidth are halved (R424). -/
def execHbmThermalThrottle (s : State) : Host.Outcome State Fault Refusal :=
  match s.arg with
  | [stack, temp] =>
    let rest := s.part.hotStacks.filter fun x => x != stack
    .next (if temp ≥ 95 then { s with part := { s.part with hotStacks := rest ++ [stack] } } else s)
  | _ => .next s

/-- HBM_STACK_BELOW_90C: the stack runs at full bandwidth again (R424). -/
def execHbmStackBelow90C (s : State) : Host.Outcome State Fault Refusal :=
  match s.arg with
  | [stack, temp] =>
    .next (if temp < 90 then { s with part := { s.part with hotStacks := s.part.hotStacks.filter fun x => x != stack } } else s)
  | _ => .next s

/-- TEMP_CRITICAL: at 105 °C a machine check, and core supply is removed (R424, R425). -/
def execTempCritical (s : State) : Host.Outcome State Fault Refusal :=
  match s.arg with
  | [temp] =>
    if temp < 105 then .next s
    else
      let s := s.machineCheck logTemperature temp true
      .next { s with part := { s.part with supply := false } }
  | _ => .next s

/-- HEARTBEAT_MISS: the CP (0) or MP (1) on die 0 has missed its heartbeat for 10 ms: a machine check, and its standby on die 7
takes over (R425). -/
def execHeartbeatMiss (s : State) : Host.Outcome State Fault Refusal :=
  match s.arg with
  | [proc, ms] =>
    let away := if proc = 0 then s.part.cpStandby else s.part.mpStandby
    if ms < 10 || proc > 1 || away then .next s
    else
      let s := s.machineCheck logHeartbeat proc false
      .next { s with part := if proc = 0 then { s.part with cpStandby := true } else { s.part with mpStandby := true } }
  | _ => .next s

/-! ## Register writes (R390 and the management registers) -/

/-- A command of the control page: 1 CREATE, 2 ENABLE, 3 TERMINATE, 4 RELEASE; others are ignored (R390, R391). -/
def State.command (s : State) (c v : Nat) : Host.Outcome State Fault Refusal :=
  let s : State := { s with arg := [c] }
  match v with
  | 1 => execCreate s
  | 2 => execEnable s
  | 3 => execTerminate s
  | 4 => execRelease s
  | _ => .next s

/-- A write to a context's control page (R390 Table 2). -/
def State.controlWrite (s : State) (c off : Nat) (v : DWord) : Host.Outcome State Fault Refusal :=
  match off with
  | 0x000 => .next (s.writeTqread c v)
  | 0x030 => .next (s.replayRecord c v.toNat)
  | 0x040 => .next (s.modCtx c fun x => { x with sdaddr := v })
  | 0x048 => .next (s.shootdown c v)
  | 0x058 => s.command c v.toNat
  | 0x060 => .next (s.qupdate c v)
  | _ => .next s

/-- The state codes of R391 Table 3. -/
def CtxState.code : CtxState → Nat
  | .free => 0
  | .created => 1
  | .ready => 2
  | .running => 3
  | .preempting => 4
  | .saved => 5
  | .faulted => 6
  | .terminated => 7

/-- What a read of a context's control page gives (R390 Table 2). The spec gives no value for a read of a write-only register, of an
offset that is none, or of FATALSUM while it is not valid: 0 (DESIGN CHOICE, log entry 94). -/
def Context.controlRead (c : Context) (off : Nat) : Nat := match off with
  | 0x000 => c.tqread.toNat
  | 0x008 => c.tqwrite.toNat
  | 0x010 => c.st.code + if c.fatalsum.isSome then 16 else 0
  | 0x018 => c.dropped.toNat
  | 0x020 => leNat ((c.fatalsum.getD []).take 8)
  | 0x028 => leNat ((c.fatalsum.getD []).drop 8)
  | 0x038 => c.overrun.toNat
  | 0x040 => c.sdaddr.toNat
  | 0x050 => if c.sdbusy then 1 else 0
  | _ => 0

/-- What a read of a register page gives: the user page reads as 0, doorbells too, and a context that is FREE has STATUS 0 (R390). -/
def State.registerRead (s : State) (page c off : Nat) : Nat :=
  if page = 1 then match s.ctx? c with
    | some x => x.controlRead off
    | none => 0
  else 0

/-- A pod-window entry of 16 bytes: VALID set and no reserved bit, or no window (R410). -/
def podEntryOf (e v : Nat) : Option PodEntry :=
  if bits v 80 80 = 1 && bits v 127 81 = 0 then
    some { entry := e, rbase := v % 2 ^ 64, module := bits v 71 64, rctx := bits v 79 72 }
  else none

/-- A mapping of a pod identifier configures the barrier, which then starts at phase 0, unless another context is mapped to it
already (R283, R413). -/
def State.startPodBar (s : State) (c off v : Nat) : State :=
  let home := (v - 1) % 256
  let num := (v - 1) / 256
  let mapped := s.ctxs.any fun x => x.podbar.any fun e => e.2 == (home, num) && !(x.num == c && e.1 == off)
  if off < 16 && v > 0 && !mapped then { s with bars := s.bars.filter fun b => b.owner != BarOwner.pod home num } else s

/-- Writes of system software to management registers, whose layout the spec leaves out; the number of the register file is the
model's: 2 pod-window entries, 3 pod barriers, 4 routes, 5 module number, 6 grants, 7 tenant weights, 8 audit period, 9 context
table, 10 enabled links (R388, R389, R407, R410, R411, R413, R415, R419; log entry 32). -/
def State.managementWrite (s : State) (page c off v : Nat) : State :=
  match page with
  | 2 => s.modCtx c fun x =>
      { x with podwin := x.podwin.filter (fun e => e.entry != off) ++ (if off < 256 then (podEntryOf off v).toList else []) }
  | 3 => (s.startPodBar c off v).modCtx c fun x =>
      { x with podbar := x.podbar.filter (fun e => e.1 != off)
          ++ (if off < 16 && v > 0 then [(off, (v - 1) % 256, (v - 1) / 256)] else []) }
  | 4 =>
    let ports := ((List.range (min 16 (v % 256))).map fun i => bits v (8 * i + 15) (8 * i + 8)).filter fun p => p < 16
    { s with part := { s.part with routes := (off % 256, ports) :: s.part.routes.filter fun r => r.1 != off % 256 } }
  | 5 => { s with part := { s.part with moduleNum := v % 256 } }
  | 6 =>
    let g := (v % 256, bits v 15 8, c)
    let rest := s.part.grants.filter fun x => x != g
    { s with part := { s.part with grants := if bits v 16 16 = 1 then rest ++ [g] else rest } }
  | 7 =>
    if 1 ≤ v && v ≤ 255 && off < 16 then
      let s := s.withTenant off
      { s with tenants := updIf (fun t => t.key == off) (fun t => { t with weight := v }) s.tenants }
    else s
  | 8 => if 100 ≤ v && v ≤ 100000 then { s with part := { s.part with audit := v } } else s
  | 9 => { s with part := { s.part with ctxTable := v } }
  | 10 => s.modLink off fun l => { l with enabled := v % 2 == 1 }
  | 11 => match Erratum.ofBytes (leBytes 64 v) with
    | some e => { s with part := { s.part with errata := s.part.errata.filter (fun x => x.id != e.id) ++ [e] } }
    | none => s
  | _ => s

/-- REGISTER_WRITE: page 0 is the user page with its doorbells, page 1 the control page, the others management registers; a write
that no rule gives an effect is ignored; an input without a value is a read, which the part answers (R373, R390). -/
def execRegisterWrite (s : State) : Host.Outcome State Fault Refusal :=
  match s.arg with
  | [page, c, off, v] => match page with
    | 0 => .next (if off % 8 = 0 && off ≤ 0x1F8 then s.doorbell c (off / 8) (BitVec.ofNat 64 v) else s)
    | 1 => s.controlWrite c off (BitVec.ofNat 64 v)
    | _ => .next (s.managementWrite page c off v)
  | [page, c, off] => .next (s.emit (.registerData page c off (s.registerRead page c off)))
  | _ => .next s

end Sys2Proof.Machine
end

