-- ==== Sys2Proof/Machine/Settle.lean ====
section
/-! DEFINITION. What follows from the state by itself: waits that end (R166, R251, R261, R266, R273, R286, R292, R368, R399), the
collectives of a team (R167, R305, R317, R325), what is no longer needed; which engine step is due next; and the passing of a
cycle. -/

namespace Sys2Proof.Machine

/-! ## Waits that end -/

/-- Threads of a group that wait at a `WAITM` of a mask and have not been released (R166). -/
def Team.maskWaiters (t : Team) (gid n : Nat) : List Nat :=
  t.squads.flatMap fun q => match q.wait with
    | some w =>
      if w.on == WaitOn.mask n then
        (q.members.filter fun m => m.1 == gid && !(w.got.any fun r => r.1 == m.1 && r.2.1 == m.2)).map fun m => m.2
      else []
    | none => []

/-- Is a thread waiting at a `WAITM` released: its bit is clear, or every member of the mask waits there (R166)? -/
def Team.maskReleases (t : Team) (now n : Nat) (m : Nat × Nat) : Bool :=
  let mask := t.landed now (.m m.1 n)
  !mask.getLsbD m.2 || (let ws := t.maskWaiters m.1 n
    (List.range 64).all fun l => !mask.getLsbD l || ws.contains l)

/-- The `WAITM` waits of a team: a squad goes on when all its threads are released (R149, R166). -/
def Team.maskWaits (t : Team) (now : Nat) : Team :=
  let give : Squad → Squad := fun q => match q.wait with
    | some w => match w.on with
      | .mask n =>
        let left := q.members.filter fun m => !(w.got.any fun r => r.1 == m.1 && r.2.1 == m.2)
        let got := w.got ++ (left.filter (t.maskReleases now n)).map fun m => (m.1, m.2, 0)
        let q' : Squad := { q with wait := some { w with got := got } }
        if q.members.all fun m => got.any fun r => r.1 == m.1 && r.2.1 == m.2 then q'.grant got else q'
      | _ => q
    | none => q
  { t with squads := t.squads.map give }

/-- Members of a squad that its wait does not yet hold a result for. -/
def Squad.left (q : Squad) (w : Wait) : List (Nat × Nat) :=
  q.members.filter fun m => !(w.got.any fun r => r.1 == m.1 && r.2.1 == m.2)

/-- Can one of the threads that wait to sign go on: the array's queue has room, and no open round still holds its signature
(R266, R271)? -/
def State.signOpen (s : State) (t : Team) (q : Squad) (w : Wait) : Bool :=
  s.arrayRoom t.core && (q.left w).any fun m => match (t.conv? (bits w.iss.word.toNat 6 4)).bind fun c => c.round with
    | some r => !r.signers.contains m
    | none => true

/-- Is a squad's wait over? `WAITM`, collectives and team collectives end elsewhere. -/
def State.waitOver (s : State) (t : Team) (q : Squad) (w : Wait) : Bool :=
  match w.on with
  | .mask _ => false
  | .collective => false
  | .tagAll tags => t.tags &&& tags == tags
  | .tagAny ms => anyTags t.tags ms
  | .tile _ ops => !ops.any t.tileOpen
  | .slots claims => !(t.slots.any fun x => claims.contains x.claim)
  | .sign => s.signOpen t q w
  | .arrive k => (s.bar? k).isNone || (q.left w).isEmpty
  | .phases k tokens _ => match s.bar? k with
    | some b => tokens.all b.tokenDone
    | none => true
  | .ensure => false
  | .verdict => false
  | .fork => false
  | .choose => false
  | .token => match t.token with
    | some g => (q.left w).any fun m => m.1 == g
    | none => false
  | .delivery _ => !(s.ops.any fun o => o.team == t.key && o.iss.squad == w.iss.squad && o.iss.pc == w.iss.pc && (match o.what with
    | .klaunch _ _ _ _ => true
    | _ => false))
  | .turn => t.turn
  | .fence _ => !(s.ops.any fun o => o.team == t.key && o.iss.squad == w.iss.squad && o.iss.pc == w.iss.pc && (match o.what with
    | .icinv _ _ _ _ _ => true
    | _ => false))

/-- The waits of a team that are over end (R146). -/
def State.endWaits (s : State) (team : Nat) : State :=
  match s.team? team with
  | none => s
  | some t =>
    let give : Squad → Squad := fun q => match q.wait with
      | some w => if s.waitOver t q w then q.grant w.got else q
      | none => q
    if t.squads.any fun q => q.wait.isSome then
      s.modTeam team fun t => ({ t with squads := t.squads.map give } : Team).maskWaits s.now
    else s

/-- The collectives of the groups of a team in which threads wait at one (R167). -/
def State.teamCollectives (s : State) (team : Nat) : State :=
  match s.team? team with
  | none => s
  | some t =>
    if t.squads.any fun q => q.wait.any fun w => w.on == WaitOn.collective then
      t.groups.foldl (fun s g => s.collectives team g.gid) s
    else s

/-! ## Team by team -/

/-- Chunks of a team commit where a save, a fork, a rival's end or a migration needs them committed (R229, R323, R324, R343,
R401). -/
def Team.committing (t : Team) : Bool :=
  t.st == .stopping || (t.st == .running && ((t.parent.isSome && t.groups.all fun g => g.threads.isEmpty)
    || (t.migr.isSome && t.allParked) || (t.forkLatch.isSome && t.allWait (fun (w : WaitOn) => w == WaitOn.fork))))

/-- A latch at which no thread waits any more is void (R304, R323, R325). -/
def Team.dropLatches (t : Team) : Team :=
  let some_ := fun (w : WaitOn) => t.squads.any fun q => q.wait.any fun x => x.on == w
  if t.ensureLatch.isNone && t.forkLatch.isNone && t.chooseLatch.isNone then t
  else { t with
    ensureLatch := if some_ .ensure then t.ensureLatch else none,
    forkLatch := if some_ .fork then t.forkLatch else none,
    chooseLatch := if some_ .choose then t.chooseLatch else none }

/-- Latency windows that have passed are dropped (R48). -/
def Team.dropWindows (t : Team) (now : Nat) : Team :=
  if t.windows.any fun w => !w.pending now then { t with windows := t.windows.filter fun w => w.pending now } else t

/-- What follows for one team. -/
def State.settleTeam (s : State) (team : Nat) : State :=
  match s.team? team with
  | none => s
  | some t =>
    let s := if t.place.isNone && t.onCore then s.occupy team false else s
    let s := (s.modTeam team fun t => (t.dropWindows s.now).dropLatches).finishReleases team
    let s := if t.committing || (s.stagesYet t && s.turnComes t) then s.commitTeam team else s
    let s := if t.convs.any fun c => c.round.isSome then s.closeRounds team else s
    let s := s.stopLevelChains team
    let s := s.moveToken team
    let s := s.teamCollectives team
    let s := if t.onCore then (((s.tryOpen team).judge team).tryChoose team).finishChoose team else s
    let s := s.endWaits team
    s.reapTeam team

/-! ## The machine -/

/-- Moves of pages whose leaf is gone, or has another size, are void (R190). -/
def State.dropMoves (s : State) : State :=
  if s.moves.isEmpty then s
  else { s with moves := s.moves.filter fun m => match s.leafOf m.ctx m.va with
      | some (_, level, _) => level == m.level
      | none => false }

/-- The records of commits and of writes outside chunks are kept while a team has an open level or pending rivals (R313, R325). -/
def State.dropApplied (s : State) : State :=
  if (s.applied.isEmpty && s.external.isEmpty) || s.teams.any fun t => !t.levels.isEmpty || t.fork.isSome || t.parent.isSome then s
  else { s with applied := [], external := [] }

/-- The round robin names the squads that exist (R147). -/
def State.dropRun (s : State) : State :=
  { s with run := s.run.filter fun r => match s.team? r.1 with
      | some t => (t.squad? r.2).isSome
      | none => false }

/-- Translations of a context that has left a core, but for those with G, are dropped from the core's TLB (R184). -/
def State.dropLeft (s : State) : State :=
  let stays := fun (e : Tlb) => match e.unit with
    | .core k => e.leaf.getLsbD 10 || s.teams.any fun t => t.onCore && t.ctx == e.ctx && t.core == k
    | _ => true
  if s.tlb.all stays then s else { s with tlb := s.tlb.filter stays }

/-- Does a context's spill area no longer take what its levels and worlds hold beyond what the dies keep of it in L2? How much that is
depends on replacement, which the spec does not give (R297, R299; log entry 23). -/
def State.spillFull (s : State) (l : Lam) : Bool :=
  let held := (s.lams.filter fun x => x.ctx == l.ctx && x.owner != .chunk).foldl (fun n x => n + x.lines.length) 0
  match s.ctx? l.ctx with
  | some c => held > c.spillsize + Config.lineRoom (dieOf l.core)
  | none => false

/-- A lamina whose newest line finds the spill area full is exhausted: its level's routine fails with code 7, or its rival is ABORTED
with cause 3 (R299, R311, R330). -/
def State.exhausted (s : State) : State :=
  let newest := fun (l : Lam) => l.lines.foldl (fun n x => max n x.seq) 0
  let ls := s.lams.filter fun l => l.owner != .chunk && !l.lines.isEmpty && s.spillFull l
    && s.lams.all fun x => x.ctx != l.ctx || x.owner == .chunk || newest x ≤ newest l
  ls.foldl (fun s l => s.teams.foldl (fun s (t : Team) =>
    if l.owner == .world then (if t.view == some l.key && t.parent.isSome then s.endRival t.key 3 else s)
    else if t.levels.any fun x => x.lam == l.key then s.failRoutine t.key 7 else s) s) s

/-- Everything that follows from the state by itself after a step. -/
def State.settle (s : State) : State :=
  let s := s.releaseWaiting.giveUpDue.fencesYield
  let s := if s.teams.any fun t => t.squads.any fun q => q.join.isSome then s.joinSquads else s
  let s := s.teams.foldl (fun s (t : Team) => s.settleTeam t.key) s
  let s := s.exhausted.publishLevels
  let s := (s.bars.filter fun b => !b.arrived.isEmpty).foldl (fun s (b : Bar) => s.checkBar b.key) s
  let s := s.endLaunches
  let s := if s.images.any fun i => i.st == .unloading then s.dropUnloading else s
  let s := if s.ctxs.any fun c => c.st == .running || c.st == .preempting then s.settleContexts else s
  ((s.dropMoves.dropApplied).dropRun).dropLeft.notePops

/-! ## Engine steps that are due -/

/-- An engine step with its arguments. -/
def ev (i : Instr) (arg : List Nat) : Event := { step := i, arg := arg }

/-- Does an operation replace special registers, fpflags among them (R130)? -/
def OpKind.replaces (k : OpKind) : Bool := match k with
  | .tsr ws => ws.any fun w => w.2.2.1 != orFlagsIndex
  | _ => false

/-- Operations in flight (R25, R49, R107, R199, R201, R208, R374). A write of fpflags lands before the flags that words raise in the
same cycle (R130). -/
def State.dueOp (s : State) : Option Event :=
  ((s.ops.find? fun o => o.what.replaces && o.due? s.now).map fun o => ev .resultWriteback [o.key]).or <| s.ops.findSome? fun o =>
    if o.what.isResult then (if o.due? s.now then some (ev .resultWriteback [o.key]) else none)
    else match o.what with
      | .store ws _ => if s.storeReady o ws then some (ev .storeAccept [o.key]) else none
      | .atomic locs _ _ _ lanes =>
        if (s.team? o.team).isSome && s.atomicReady o locs lanes then some (ev .atomicRequestPerform [o.key]) else none
      | .fence _ _ _ _ _ => if s.fenceMet o then some (ev .fenceComplete [o.key]) else none
      | .icinv _ _ _ _ _ => if s.fenceMet o then some (ev .fenceComplete [o.key]) else none
      | .klaunch _ _ _ _ => if s.deliverable o then some (ev .klaunchDelivery [o.key]) else none
      | _ => none

/-- Is a team's context RUNNING, so that its chains are served (R255, R392)? -/
def State.served (s : State) (t : Team) : Bool := match s.ctxOf t with
  | some c => c.st == .running
  | none => false

/-- Does a stopping team still wait for queue entries, so that its chains go on to a later entry boundary: its pops complete before
its save does (R53, R252, R255; log entry 18)? -/
def State.popsLeft (s : State) (t : Team) : Bool :=
  t.st == .stopping && ((s.ctxOf t).any Context.recording) && s.ops.any fun o => o.team == t.key && (match o.what with
    | .qpop _ _ _ _ _ => true
    | _ => false)

/-- The step of a chain that is due (R234, R240). -/
def State.chainStep (s : State) (t : Team) (c : Chain) : Option Event :=
  let a := [t.key, c.h]
  let e := t.scratchBytes c.off 32
  let kind := fieldOf e 0 1
  let alone := (t.chainCopies c.h).isEmpty
  match c.st with
  | .running =>
    if c.due > s.now then none
    else if c.off + 32 > s.scratchSize t || kind > 5 then some (ev .copyEntry a)
    else if kind = 1 then (if (t.chainCopies c.h).length < 4 then some (ev .copyEntry a) else none)
    else if kind = 2 then some (ev .loopEntry a)
    else if !alone && !s.takenEarly t e then none
    else if kind = 0 then some (ev .endEntry a)
    else if kind = 3 then some (ev .iftagEntry a)
    else if kind = 4 then some (ev .qfeedEntry a)
    else some (ev .settagEntry a)
  | .stalledQueue =>
    let room : Bool := match t.group? (fieldOf e 2 1) with
      | some g => (g.entries (fieldOf e 1 1)).length < 8
      | none => true
    if room then some (ev .qfeedResume a) else none
  | _ => none

/-- Can a COPY go on: no fault stalls it, its time has come, and neither a pod's answer nor a page's move holds it up (R191, R241,
R245)? -/
def State.copyReady (s : State) (t : Team) (c : Copy) : Bool :=
  c.faults.isEmpty && c.due ≤ s.now && !s.podPending t.key (.copy c.h c.key)
    && !(!s.moves.isEmpty && c.stage < 2 && s.moveHolds t c.srcVas c.dstVas)

/-- Can a drain or an `MLOAD` go on in the same sense (R191, R277)? -/
def State.matReady (s : State) (t : Team) (m : MatOp) : Bool :=
  m.due ≤ s.now && m.faults.isEmpty && !s.podPending t.key (.mop m.key)
    && !(!s.moves.isEmpty && m.stage < 2 && (match m.op with
      | .mdrain _ d => s.moveHolds t (d.vas ++ d.scaleVas) d.vas
      | .mload _ d => s.moveHolds t d.vas []
      | _ => false))

/-- Chains and COPYs (R233, R241). -/
def State.dueChain (s : State) : Option Event :=
  s.teams.findSome? fun t =>
    if (t.st == .running && s.served t) || s.popsLeft t then
      match t.chains.findSome? (s.chainStep t) with
      | some e => some e
      | none => (t.copies.find? (s.copyReady t)).map fun c => ev .copyComplete [t.key, c.key]
    else if t.onCore then (t.copies.find? (s.copyReady t)).map fun c => ev .copyComplete [t.key, c.key]
    else none

/-- Matrix operations, drains and loads (R271, R274, R276, R278). -/
def State.dueMat (s : State) : Option Event :=
  s.teams.findSome? fun t => t.mops.findSome? fun m =>
    if m.op.isMma && m.start.isNone then
      (if m.due ≤ s.now && !s.arrayBusy t.core && t.st != .saved then some (ev .matrixOpStart [t.core]) else none)
    else if !s.matReady t m then none
    else match m.op with
      | .mma _ _ _ _ _ => if t.matBefore m then none else some (ev .matrixOpComplete [m.key])
      | .mzero _ => some (ev .mzeroComplete [m.key])
      | .mdrain _ _ => some (ev .drainComplete [m.key])
      | .mload _ _ => some (ev .mloadComplete [m.key])

/-- Barriers (R289). -/
def State.dueBar (s : State) : Option Event :=
  (s.bars.find? fun b => match b.complete with
    | r :: _ => s.now ≥ r.due && !(r.fences.any fun k => s.ops.any fun o => o.key == k)
    | [] => false).map fun b => ev .barrierRelease [b.key]

/-- Chunks and commits (R221, R224). -/
def State.dueChunk (s : State) : Option Event :=
  match s.lams.find? s.grantable with
  | some l => some (ev .chunkCommitGrant [l.key])
  | none =>
    let ends := fun (l : Lam) => l.owner == .chunk && l.st == .open && (s.chunkOver l || s.quietChunk l)
    match s.lams.find? ends with
    | some l => some (ev (if s.chunkOver l then .chunkPacketLimit else .chunkQuietPeriod) [l.key])
    | none => s.flights.findSome? fun f =>
        (f.left.find? fun d => s.appliesNow f d).map fun d => ev .signatureBroadcastApply [f.key, d]

/-- May a handler entry that was waiting be finished now: no register of the threads that its word trapped is empty, and no frame
of theirs moves (R108, R149, R191, R397)? -/
def State.entryReady (s : State) (t : Team) (x : Thread) : Bool :=
  x.trap.isSome && x.park.isNone && (t.groups.all fun g => g.threads.all fun y =>
      !((y.trap.any fun b => x.trap.any fun a => a.event == b.event) && y.park.isNone && s.entryWaits t g.gid y.lane)) && (!x.handler || (match s.ctxOf t with
    | some c => c.recording && !s.recordsFull c.num
    | none => false))

/-- Groups and handler entries of a team. -/
def State.dueGroup (s : State) (t : Team) : Option Event :=
  t.groups.findSome? fun g =>
    if s.canRetire t g then some (ev .groupRetire [t.key, g.gid])
    else (g.threads.find? fun x => s.entryReady t x).map fun x => ev .handlerEntry [t.key, g.gid, x.lane]

/-- Recovery blocks of a team (R309 to R311). -/
def State.dueLevel (s : State) (t : Team) : Option Event :=
  match t.levels with
  | [] => none
  | l :: rest => match t.restoring with
    | some x => if restoreReady (s.restoreSet t x) x && (s.restoreSet t x).all Team.onCore then some (ev .rbRestore [t.key]) else none
    | none =>
      if rest.isEmpty && s.levelOut t l then
        some (ev .rbCommitComplete [t.key])
      else if (s.expired t).isSome then some (ev .rbCycleLimit [t.key])
      else none

/-- Is a rival's end to be noted (R324)? -/
def State.rivalEnded (s : State) (t : Team) : Bool :=
  t.parent.isSome && t.st == .running && (t.groups.all fun g => g.threads.isEmpty)
    && (t.wdone.isEmpty || (s.chunksIn t.key && s.quiet t))

/-- Worlds of a team (R323, R324, R328). -/
def State.dueWorld (s : State) (t : Team) : Option Event :=
  let forks := match t.forkLatch with
    | some l => t.allWait (fun (w : WaitOn) => w == WaitOn.fork)
        && (t.worldDepth ≥ 4 || !s.lamsFree (dieOf t.core) l.val.toNat
          || (s.chunksIn t.key && s.quiet t && s.settledFork t l.d))
    | none => false
  if forks then some (ev .forkComplete [t.key])
  else if s.rivalEnded t then some (ev .rivalDone [t.key])
  else if t.parent.isSome && s.shareOver t then some (ev .rivalTimeShare [t.key])
  else
    let next := t.parent.isSome && t.st == .saved && s.served t && (match s.nextWaiting t with
      | some r => r.team == t.key
      | none => false)
    let resumes := t.st == .suspended && (match t.fork with
      | some f => !f.holding && f.rivals.all fun r => r.st == .done || r.st == .aborted
      | none => false)
    if next then (s.coreFor t t.kind).map fun c => ev .rivalPlace [t.key, c]
    else if resumes then (s.coreFor t t.kind).map fun _ => ev .parentResume [t.key]
    else none

/-- Migration of a team (R343, R344). -/
def State.dueMigration (s : State) (t : Team) : Option Event :=
  match t.migr, s.imageOf t with
  | some m, some _ =>
    let ready := t.st == .running && t.allParked && t.mops.isEmpty
    let at_ := if !ready then none
      else if (s.parkedRefusal t m.target).isSome then some t.core
      else if s.saveReady t then s.coreFor t m.target else none
    match at_ with
    | some core => some (ev .migrationPerform [t.key, core])
    | none => if t.onCore && s.now ≥ m.since + migrationLimit then some (ev .migrationTimeout [t.key]) else none
  | _, _ => none

/-- Trays of a team that have aged (R159). -/
def State.dueTray (s : State) (t : Team) : Option Event :=
  (t.trays.find? fun y => !y.aged && s.trayOld t y).map fun y => ev .trayAged [t.key, y.num]

/-- Steps of one team. -/
def State.dueTeam (s : State) (t : Team) : Option Event :=
  if s.canSave t then some (ev .teamSaveComplete [t.key])
  else if s.turnReady t then some (ev .bakeryTurnBegin [t.key])
  else if !t.onCore then s.dueWorld t
  else (s.dueGroup t).or ((s.dueLevel t).or ((s.dueWorld t).or ((s.dueMigration t).or (s.dueTray t))))

/-- A draw from the trays of a core (R159). -/
def State.dueDraw (s : State) : Option Event :=
  let cores := uniq ((s.teams.filter fun t => !t.trays.isEmpty && s.issues t).map fun t => t.core)
  cores.findSome? fun core => (List.range (if kindOf core == .dcore then 4 else 1)).findSome? fun sched =>
    (s.trayChoice core sched).map fun _ => ev .trayDraw [core, sched]

/-- The step of a packet that is due (R377 to R381). -/
def State.packetStep (s : State) (c : Context) (q : Queue) (p : Packet) : Option Event :=
  let a := [c.num, q.num, p.idx]
  if s.packetHolds c p && (p.kind ≠ 4 || p.st == .started) then none
  else if s.mayStart q p then match p.kind with
    | 0 => some (ev .nopPacket a)
    | 1 => if (s.launchImage c.num p).isSome then some (ev .launch a) else none
    | 2 => some (ev .waitsig a)
    | 3 => some (ev .signal a)
    | 4 => some (ev .copyPacket a)
    | 5 => some (ev .timestamp a)
    | 6 => some (ev .fencePacket a)
    | _ => none
  else if p.st != .started || p.fault.isSome || !p.wasRead then none
  else match p.kind with
    | 2 =>
      let reached : Bool := match s.signalAt c p with
        | .ok v => v ≥ p.field 16 8
        | .error _ => true
      if reached then some (ev .waitsigReread a) else if s.sigExpired p then some (ev .waitsigTimeout a) else none
    | 4 => some (ev .copyPacketComplete a)
    | 6 => if s.fencePassed c p then some (ev .fencePacketComplete a) else none
    | _ => none

/-- The queues of a context (R376, R384). -/
def State.dueQueue (s : State) (c : Context) : Option Event :=
  c.queues.findSome? fun q =>
    if !c.recording || q.st == .halted || q.st == .disabled then none
    else
      let steps := if !c.takes || s.cpWaits c.num then none
        else (q.packets.findSome? (s.packetStep c q)).or
          (if q.canTake then some (ev .queuePacketTake [c.num, q.num]) else none)
      steps.or (if q.eff ≠ s.agedPrio c q then some (ev .priorityAging [c.num, q.num]) else none)

/-- Contexts: shootdowns, queues, the watchdog (R184, R294, R376). -/
def State.dueContext (s : State) (c : Context) : Option Event :=
  if c.sdbusy then some (ev .shootdownComplete [c.num])
  else match s.dueQueue c with
    | some e => some e
    | none => if (s.firstTimeout c).isSome then some (ev .watchdogTimeout [c.num]) else none

/-- Page moves that can end (R191). -/
def State.dueMove (s : State) : Option Event :=
  (s.moves.find? fun m => s.moveReady m && (match s.leafOf m.ctx m.va with
    | some (_, level, _) => level == m.level
    | none => false)).map fun m => ev .pageMove (m.ctx :: m.va :: m.dst.toList)

/-- A grant of a core, or a restore on one (R361, R382). -/
def State.dueGrant (s : State) : Option Event :=
  if s.launches.any fun l => l.unstarted || (s.savedTeam l).isSome then
    (List.range 448).findSome? fun core => match s.coreChoice core with
      | some (_, (none, _), _) => some (ev .coreGrant [core])
      | some (_, (some key, _), _) => some (ev .teamRestore [key, core])
      | none => none
  else none

/-- Reclaims and stop requests (R386, R400). -/
def State.dueReclaim (s : State) : Option Event :=
  match s.reclaims.find? s.stopDue with
  | some r => r.cores.head?.map fun core => ev .preemptStopRequest [core]
  | none =>
    if s.launches.any Launch.unstarted then match s.victims with
      | some (l, _, cs) => (cs.find? fun x => !(s.reclaimSet x.1.num (s.wanted l) x.2).isEmpty).map fun x =>
          ev .coreReclaim [x.1.num, s.wanted l]
      | _ => none
    else none

/-- Launches that are over (R363). -/
def State.dueLaunch (s : State) : Option Event :=
  (s.launches.find? fun l => s.launchOver l && (match s.ctx? l.ctx with
    | some c => c.recording && !s.cpWaits c.num
    | none => false)).map fun l => ev .launchComplete [l.key]

/-- Bring-up, the pod and time (R411, R419, R422). -/
def State.duePart (s : State) : Option Event :=
  if s.part.boot == .step 2 then some (ev .warmReset [])
  else if !s.part.remote.isEmpty then some (ev .remotePodAccess [0])
  else if s.part.locked && s.ppsLate then some (ev .ppsLoss [])
  else none

/-- The engine step that is due next. -/
def State.due (s : State) : Option Event :=
  s.duePart.or (s.dueOp.or (s.dueMove.or (s.dueChain.or (s.dueMat.or (s.dueBar.or (s.dueChunk.or
    ((s.teams.findSome? s.dueTeam).or (s.dueDraw.or ((s.ctxs.findSome? s.dueContext).or
      (s.dueLaunch.or (s.dueReclaim.or s.dueGrant)))))))))))

/-- The step that comes before any word issues: a signature gathered from writes outside chunks is applied (R225), an input or
a posted step is taken in order, an engine step is due. With the core supply removed only inputs are left (R425). -/
def State.nextEvent (s : State) : Option (Event × List Event) :=
  if !s.part.supply then (match s.agenda with
    | e :: r => some (e, r)
    | [] => none)
  else match s.gathered with
    | g :: _ => some (ev .externalWriteSignature [g.1], s.agenda)
    | [] => match s.agenda with
      | e :: r => some (e, r)
      | [] => s.due.map fun e => (e, [])

/-! ## The passing of a cycle -/

/-- Cycles a tenant's virtual time has gained on a core in one cycle: its share of the core's threads (R383). -/
def State.coreShare (s : State) (tenant core : Nat) : Rat :=
  let here := s.resident core
  let all : Nat := (here.map s.tpt).foldl (fun a b => a + b) 0
  let mine : Nat := ((here.filter fun t => (s.ctxOf t).any fun c => c.tkey == tenant).map s.tpt).foldl (fun a b => a + b) 0
  if all = 0 then 0 else (mine : Rat) / (all : Rat)

/-- The virtual times after one more cycle (R383). -/
def State.chargeTenants (s : State) : State :=
  let cores := uniq ((s.teams.filter Team.onCore).map fun t => t.core)
  if cores.isEmpty then s
  else
    let add : Tenant → Tenant := fun t =>
      { t with vtime := t.vtime + (cores.map fun c => s.coreShare t.key c).foldl (fun (a b : Rat) => a + b) 0
          / ((t.weight * Config.cyclesPerUs : Nat) : Rat) }
    { s with tenants := s.tenants.map add }

/-- Has the watchdog of a context fired in this cycle (R295, R296)? A head record of KIND 8 is a `WAITSIG`'s (R378). -/
def Context.watchdogFired (c : Context) : Bool := c.raised.any fun e => match e with
  | (h, _) :: _ => h.cause == cBartimeout && h.extra.headD 0 != 8
  | [] => false

/-- One D-core cycle passes: the arrivals of the cycle are counted (R286), the records of its events are written (R393), a context
whose watchdog has fired ends (R296), and the schedulers are free again, but for the cycles that split units still hold them (R6,
R147, R150). -/
def State.tick (s : State) : State :=
  let s := s.countArrivals
  let s := s.ctxs.foldl (fun s (c : Context) => if c.raised.isEmpty then s
    else if c.watchdogFired then (s.writeRaised c.num).terminate c.num else s.writeRaised c.num) s
  { s.chargeTenants with now := s.now + 1, busy := s.carryBusy, drew := [], part := { s.part with lag := s.loseCycles } }

end Sys2Proof.Machine
end

