-- ==== Sys2Proof/Machine/Dispatch.lean ====
section
/-! DEFINITION. One arm for each constructor of `Instr`: a direct call of its meaning. -/

namespace Sys2Proof.Machine

/-- The effect of one step of the part: an instruction word at issue (`State.cur`), or a step of an engine, a processor, a link
or an input (`State.arg`). -/
def exec (i : Instr) (s : State) : Host.Outcome State Fault Refusal :=
  match i with
  | .nop => Sys2Proof.Machine.execNop s
  | .iadd d a b => Sys2Proof.Machine.execIadd d a b s
  | .isub d a b => Sys2Proof.Machine.execIsub d a b s
  | .imul d a b => Sys2Proof.Machine.execImul d a b s
  | .imulhI32 d a b => Sys2Proof.Machine.execImulhI32 d a b s
  | .imulhN32 d a b => Sys2Proof.Machine.execImulhN32 d a b s
  | .and d a b => Sys2Proof.Machine.execAnd d a b s
  | .or d a b => Sys2Proof.Machine.execOr d a b s
  | .xor d a b => Sys2Proof.Machine.execXor d a b s
  | .shl d a b => Sys2Proof.Machine.execShl d a b s
  | .shr d a b => Sys2Proof.Machine.execShr d a b s
  | .sar d a b => Sys2Proof.Machine.execSar d a b s
  | .iminI32 d a b => Sys2Proof.Machine.execIminI32 d a b s
  | .imaxI32 d a b => Sys2Proof.Machine.execImaxI32 d a b s
  | .iminN32 d a b => Sys2Proof.Machine.execIminN32 d a b s
  | .imaxN32 d a b => Sys2Proof.Machine.execImaxN32 d a b s
  | .iaddsI32 d a b => Sys2Proof.Machine.execIaddsI32 d a b s
  | .iaddVs d a k => Sys2Proof.Machine.execIaddVs d a k s
  | .isubVs d a k => Sys2Proof.Machine.execIsubVs d a k s
  | .imulVs d a k => Sys2Proof.Machine.execImulVs d a k s
  | .imulhI32Vs d a k => Sys2Proof.Machine.execImulhI32Vs d a k s
  | .imulhN32Vs d a k => Sys2Proof.Machine.execImulhN32Vs d a k s
  | .andVs d a k => Sys2Proof.Machine.execAndVs d a k s
  | .orVs d a k => Sys2Proof.Machine.execOrVs d a k s
  | .xorVs d a k => Sys2Proof.Machine.execXorVs d a k s
  | .shlVs d a k => Sys2Proof.Machine.execShlVs d a k s
  | .shrVs d a k => Sys2Proof.Machine.execShrVs d a k s
  | .sarVs d a k => Sys2Proof.Machine.execSarVs d a k s
  | .iminI32Vs d a k => Sys2Proof.Machine.execIminI32Vs d a k s
  | .imaxI32Vs d a k => Sys2Proof.Machine.execImaxI32Vs d a k s
  | .iminN32Vs d a k => Sys2Proof.Machine.execIminN32Vs d a k s
  | .imaxN32Vs d a k => Sys2Proof.Machine.execImaxN32Vs d a k s
  | .iaddsI32Vs d a k => Sys2Proof.Machine.execIaddsI32Vs d a k s
  | .movs d k => Sys2Proof.Machine.execMovs d k s
  | .imacs d a k => Sys2Proof.Machine.execImacs d a k s
  | .iaddi d a i1 => Sys2Proof.Machine.execIaddi d a i1 s
  | .andi d a i1 => Sys2Proof.Machine.execAndi d a i1 s
  | .ori d a i1 => Sys2Proof.Machine.execOri d a i1 s
  | .xori d a i1 => Sys2Proof.Machine.execXori d a i1 s
  | .shli d a i1 => Sys2Proof.Machine.execShli d a i1 s
  | .shri d a i1 => Sys2Proof.Machine.execShri d a i1 s
  | .sari d a i1 => Sys2Proof.Machine.execSari d a i1 s
  | .movi d i1 => Sys2Proof.Machine.execMovi d i1 s
  | .setp p ty a b k => Sys2Proof.Machine.execSetp p ty a b k s
  | .pand d a b x y => Sys2Proof.Machine.execPand d a b x y s
  | .por d a b x y => Sys2Proof.Machine.execPor d a b x y s
  | .pxor d a b x y => Sys2Proof.Machine.execPxor d a b x y s
  | .pmov d a x => Sys2Proof.Machine.execPmov d a x s
  | .pfromm d m => Sys2Proof.Machine.execPfromm d m s
  | .sel d a b n p => Sys2Proof.Machine.execSel d a b n p s
  | .fadd d a b => Sys2Proof.Machine.execFadd d a b s
  | .fsub d a b => Sys2Proof.Machine.execFsub d a b s
  | .fmul d a b => Sys2Proof.Machine.execFmul d a b s
  | .fmin d a b => Sys2Proof.Machine.execFmin d a b s
  | .fmax d a b => Sys2Proof.Machine.execFmax d a b s
  | .ffma d a b => Sys2Proof.Machine.execFfma d a b s
  | .hadd2 d a b => Sys2Proof.Machine.execHadd2 d a b s
  | .hmul2 d a b => Sys2Proof.Machine.execHmul2 d a b s
  | .hfma2 d a b => Sys2Proof.Machine.execHfma2 d a b s
  | .badd2 d a b => Sys2Proof.Machine.execBadd2 d a b s
  | .bmul2 d a b => Sys2Proof.Machine.execBmul2 d a b s
  | .bfma2 d a b => Sys2Proof.Machine.execBfma2 d a b s
  | .hmin2 d a b => Sys2Proof.Machine.execHmin2 d a b s
  | .hmax2 d a b => Sys2Proof.Machine.execHmax2 d a b s
  | .fadds d a k => Sys2Proof.Machine.execFadds d a k s
  | .fsubs d a k => Sys2Proof.Machine.execFsubs d a k s
  | .fmuls d a k => Sys2Proof.Machine.execFmuls d a k s
  | .ffmas d a k => Sys2Proof.Machine.execFfmas d a k s
  | .fmins d a k => Sys2Proof.Machine.execFmins d a k s
  | .fmaxs d a k => Sys2Proof.Machine.execFmaxs d a k s
  | .hfma2s d a k => Sys2Proof.Machine.execHfma2s d a k s
  | .bfma2s d a k => Sys2Proof.Machine.execBfma2s d a k s
  | .cvtF32I32 d a r => Sys2Proof.Machine.execCvtF32I32 d a r s
  | .cvtF32N32 d a r => Sys2Proof.Machine.execCvtF32N32 d a r s
  | .cvtI32F32 d a r sat => Sys2Proof.Machine.execCvtI32F32 d a r sat s
  | .cvtN32F32 d a r sat => Sys2Proof.Machine.execCvtN32F32 d a r sat s
  | .cvtF16F32 d a r sat => Sys2Proof.Machine.execCvtF16F32 d a r sat s
  | .cvtF32F16 d a => Sys2Proof.Machine.execCvtF32F16 d a s
  | .cvtBf16F32 d a r sat => Sys2Proof.Machine.execCvtBf16F32 d a r sat s
  | .cvtF32Bf16 d a => Sys2Proof.Machine.execCvtF32Bf16 d a s
  | .cvtDm8F32 d a sat => Sys2Proof.Machine.execCvtDm8F32 d a sat s
  | .cvtF32Dm8 d a r => Sys2Proof.Machine.execCvtF32Dm8 d a r s
  | .cvtE4m3F32 d a r sat => Sys2Proof.Machine.execCvtE4m3F32 d a r sat s
  | .cvtF32E4m3 d a => Sys2Proof.Machine.execCvtF32E4m3 d a s
  | .cvtE5m2F32 d a r sat => Sys2Proof.Machine.execCvtE5m2F32 d a r sat s
  | .cvtF32E5m2 d a => Sys2Proof.Machine.execCvtF32E5m2 d a s
  | .fabs d a => Sys2Proof.Machine.execFabs d a s
  | .fneg d a => Sys2Proof.Machine.execFneg d a s
  | .popc d a => Sys2Proof.Machine.execPopc d a s
  | .clz d a => Sys2Proof.Machine.execClz d a s
  | .brev d a => Sys2Proof.Machine.execBrev d a s
  | .sx8 d a => Sys2Proof.Machine.execSx8 d a s
  | .sx16 d a => Sys2Proof.Machine.execSx16 d a s
  | .zx8 d a => Sys2Proof.Machine.execZx8 d a s
  | .zx16 d a => Sys2Proof.Machine.execZx16 d a s
  | .rcp d a => Sys2Proof.Machine.execRcp d a s
  | .rsq d a => Sys2Proof.Machine.execRsq d a s
  | .sqrt d a => Sys2Proof.Machine.execSqrt d a s
  | .exp2 d a => Sys2Proof.Machine.execExp2 d a s
  | .log2 d a => Sys2Proof.Machine.execLog2 d a s
  | .sinrv d a => Sys2Proof.Machine.execSinrv d a s
  | .cosrv d a => Sys2Proof.Machine.execCosrv d a s
  | .tanh d a => Sys2Proof.Machine.execTanh d a s
  | .mov d a => Sys2Proof.Machine.execMov d a s
  | .rfal a k => Sys2Proof.Machine.execRfal a k s
  | .rlane l a k => Sys2Proof.Machine.execRlane l a k s
  | .laneid d => Sys2Proof.Machine.execLaneid d s
  | .tid d => Sys2Proof.Machine.execTid d s
  | .rdtsr d k => Sys2Proof.Machine.execRdtsr d k s
  | .wrtsr a k => Sys2Proof.Machine.execWrtsr a k s
  | .shfl d a b => Sys2Proof.Machine.execShfl d a b s
  | .shflup d a b => Sys2Proof.Machine.execShflup d a b s
  | .shfldn d a b => Sys2Proof.Machine.execShfldn d a b s
  | .shflx d a b => Sys2Proof.Machine.execShflx d a b s
  | .vany d a => Sys2Proof.Machine.execVany d a s
  | .vall d a => Sys2Proof.Machine.execVall d a s
  | .ballot d a => Sys2Proof.Machine.execBallot d a s
  | .redaddI32 d a => Sys2Proof.Machine.execRedaddI32 d a s
  | .redaddF32 d a => Sys2Proof.Machine.execRedaddF32 d a s
  | .redmaxF32 d a => Sys2Proof.Machine.execRedmaxF32 d a s
  | .redminF32 d a => Sys2Proof.Machine.execRedminF32 d a s
  | .scanaddI32 d a => Sys2Proof.Machine.execScanaddI32 d a s
  | .scanaddF32 d a => Sys2Proof.Machine.execScanaddF32 d a s
  | .rread d a b => Sys2Proof.Machine.execRread d a b s
  | .rwrite d a b => Sys2Proof.Machine.execRwrite d a b s
  | .rand d a k => Sys2Proof.Machine.execRand d a k s
  | .randf d a k => Sys2Proof.Machine.execRandf d a k s
  | .rand4 d a k => Sys2Proof.Machine.execRand4 d a k s
  | .sadd d a b => Sys2Proof.Machine.execSadd d a b s
  | .ssub d a b => Sys2Proof.Machine.execSsub d a b s
  | .smul d a b => Sys2Proof.Machine.execSmul d a b s
  | .smulhI32 d a b => Sys2Proof.Machine.execSmulhI32 d a b s
  | .smulhN32 d a b => Sys2Proof.Machine.execSmulhN32 d a b s
  | .sand d a b => Sys2Proof.Machine.execSand d a b s
  | .sor d a b => Sys2Proof.Machine.execSor d a b s
  | .sxor d a b => Sys2Proof.Machine.execSxor d a b s
  | .sshl d a b => Sys2Proof.Machine.execSshl d a b s
  | .sshr d a b => Sys2Proof.Machine.execSshr d a b s
  | .ssar d a b => Sys2Proof.Machine.execSsar d a b s
  | .sminI32 d a b => Sys2Proof.Machine.execSminI32 d a b s
  | .smaxI32 d a b => Sys2Proof.Machine.execSmaxI32 d a b s
  | .sminN32 d a b => Sys2Proof.Machine.execSminN32 d a b s
  | .smaxN32 d a b => Sys2Proof.Machine.execSmaxN32 d a b s
  | .smov d a => Sys2Proof.Machine.execSmov d a s
  | .sadd64 d a b => Sys2Proof.Machine.execSadd64 d a b s
  | .ssub64 d a b => Sys2Proof.Machine.execSsub64 d a b s
  | .sshl64 d a b => Sys2Proof.Machine.execSshl64 d a b s
  | .sshr64 d a b => Sys2Proof.Machine.execSshr64 d a b s
  | .smulw d a b => Sys2Proof.Machine.execSmulw d a b s
  | .saddi d a i1 => Sys2Proof.Machine.execSaddi d a i1 s
  | .slui d i1 => Sys2Proof.Machine.execSlui d i1 s
  | .saddi64 d a i1 => Sys2Proof.Machine.execSaddi64 d a i1 s
  | .scmp q ty a b k => Sys2Proof.Machine.execScmp q ty a b k s
  | .qand d a b x y => Sys2Proof.Machine.execQand d a b x y s
  | .qor d a b x y => Sys2Proof.Machine.execQor d a b x y s
  | .qxor d a b x y => Sys2Proof.Machine.execQxor d a b x y s
  | .qmov d a x => Sys2Proof.Machine.execQmov d a x s
  | .ssrr k r => Sys2Proof.Machine.execSsrr k r s
  | .ssrw k r => Sys2Proof.Machine.execSsrw k r s
  | .join m => Sys2Proof.Machine.execJoin m s
  | .leave m => Sys2Proof.Machine.execLeave m s
  | .waitm m => Sys2Proof.Machine.execWaitm m s
  | .mset m k => Sys2Proof.Machine.execMset m k s
  | .mget m k => Sys2Proof.Machine.execMget m k s
  | .mand m n => Sys2Proof.Machine.execMand m n s
  | .mor m n => Sys2Proof.Machine.execMor m n s
  | .mandn m n => Sys2Proof.Machine.execMandn m n s
  | .mpopc m k => Sys2Proof.Machine.execMpopc m k s
  | .mself k => Sys2Proof.Machine.execMself k s
  | .bra o => Sys2Proof.Machine.execBra o s
  | .brp n p o => Sys2Proof.Machine.execBrp n p o s
  | .brq n q o => Sys2Proof.Machine.execBrq n q o s
  | .call o => Sys2Proof.Machine.execCall o s
  | .callr a => Sys2Proof.Machine.execCallr a s
  | .jmpr a => Sys2Proof.Machine.execJmpr a s
  | .ret => Sys2Proof.Machine.execRet s
  | .exit => Sys2Proof.Machine.execExit s
  | .reformG => Sys2Proof.Machine.execReformG s
  | .reformT => Sys2Proof.Machine.execReformT s
  | .yield => Sys2Proof.Machine.execYield s
  | .ld v k i1 w h => Sys2Proof.Machine.execLd v k i1 w h s
  | .st v k i1 w h => Sys2Proof.Machine.execSt v k i1 w h s
  | .atom d k i1 o r => Sys2Proof.Machine.execAtom d k i1 o r s
  | .red d k i1 o r => Sys2Proof.Machine.execRed d k i1 o r s
  | .fenceAcq g => Sys2Proof.Machine.execFenceAcq g s
  | .fenceRel g => Sys2Proof.Machine.execFenceRel g s
  | .fenceAr g => Sys2Proof.Machine.execFenceAr g s
  | .drainNt g => Sys2Proof.Machine.execDrainNt g s
  | .aliasfence g => Sys2Proof.Machine.execAliasfence g s
  | .prefetch k i1 => Sys2Proof.Machine.execPrefetch k i1 s
  | .wbl k i1 => Sys2Proof.Machine.execWbl k i1 s
  | .invl k i1 => Sys2Proof.Machine.execInvl k i1 s
  | .tchain d k => Sys2Proof.Machine.execTchain d k s
  | .tagwaitAll k => Sys2Proof.Machine.execTagwaitAll k s
  | .tagwaitAny k => Sys2Proof.Machine.execTagwaitAny k s
  | .tagfirst d k => Sys2Proof.Machine.execTagfirst d k s
  | .tagclr k => Sys2Proof.Machine.execTagclr k s
  | .qpop v q => Sys2Proof.Machine.execQpop v q s
  | .tcancel k => Sys2Proof.Machine.execTcancel k s
  | .oclaim d => Sys2Proof.Machine.execOclaim d s
  | .orelease k => Sys2Proof.Machine.execOrelease k s
  | .ofence => Sys2Proof.Machine.execOfence s
  | .mma h a x y v z => Sys2Proof.Machine.execMma h a x y v z s
  | .mwait a => Sys2Proof.Machine.execMwait a s
  | .mdrain a k => Sys2Proof.Machine.execMdrain a k s
  | .mzero a => Sys2Proof.Machine.execMzero a s
  | .mload a k => Sys2Proof.Machine.execMload a k s
  | .cvset v k => Sys2Proof.Machine.execCvset v k s
  | .arrive g b d => Sys2Proof.Machine.execArrive g b d s
  | .waitb g b k d => Sys2Proof.Machine.execWaitb g b k d s
  | .sync g b d => Sys2Proof.Machine.execSync g b d s
  | .arrivex g b k d => Sys2Proof.Machine.execArrivex g b k d s
  | .tkwait => Sys2Proof.Machine.execTkwait s
  | .tkpass => Sys2Proof.Machine.execTkpass s
  | .tkdone => Sys2Proof.Machine.execTkdone s
  | .ensure k => Sys2Proof.Machine.execEnsure k s
  | .elseby => Sys2Proof.Machine.execElseby s
  | .elseerror => Sys2Proof.Machine.execElseerror s
  | .accept => Sys2Proof.Machine.execAccept s
  | .reject => Sys2Proof.Machine.execReject s
  | .convjoin k => Sys2Proof.Machine.execConvjoin k s
  | .convleave => Sys2Proof.Machine.execConvleave s
  | .rbstat d => Sys2Proof.Machine.execRbstat d s
  | .fork d k => Sys2Proof.Machine.execFork d k s
  | .wdone k => Sys2Proof.Machine.execWdone k s
  | .choose d k => Sys2Proof.Machine.execChoose d k s
  | .wabort => Sys2Proof.Machine.execWabort s
  | .wstat d k => Sys2Proof.Machine.execWstat d k s
  | .migrate k => Sys2Proof.Machine.execMigrate k s
  | .eqpt i1 => Sys2Proof.Machine.execEqpt i1 s
  | .klaunch k q => Sys2Proof.Machine.execKlaunch k q s
  | .trap i1 => Sys2Proof.Machine.execTrap i1 s
  | .rtt => Sys2Proof.Machine.execRtt s
  | .icinv k l => Sys2Proof.Machine.execIcinv k l s
  | .bkpt => Sys2Proof.Machine.execBkpt s
  | .packetIssue => Sys2Proof.Machine.execPacketIssue s
  | .resultWriteback => Sys2Proof.Machine.execResultWriteback s
  | .storeAccept => Sys2Proof.Machine.execStoreAccept s
  | .fenceComplete => Sys2Proof.Machine.execFenceComplete s
  | .handlerEntry => Sys2Proof.Machine.execHandlerEntry s
  | .trayAged => Sys2Proof.Machine.execTrayAged s
  | .trayDraw => Sys2Proof.Machine.execTrayDraw s
  | .replay => Sys2Proof.Machine.execReplay s
  | .chunkPacketLimit => Sys2Proof.Machine.execChunkPacketLimit s
  | .chunkQuietPeriod => Sys2Proof.Machine.execChunkQuietPeriod s
  | .chunkCommitGrant => Sys2Proof.Machine.execChunkCommitGrant s
  | .signatureBroadcastApply => Sys2Proof.Machine.execSignatureBroadcastApply s
  | .externalWriteSignature => Sys2Proof.Machine.execExternalWriteSignature s
  | .atomicRequestPerform => Sys2Proof.Machine.execAtomicRequestPerform s
  | .pageMove => Sys2Proof.Machine.execPageMove s
  | .eccErrorReport => Sys2Proof.Machine.execEccErrorReport s
  | .shootdown => Sys2Proof.Machine.execShootdown s
  | .shootdownComplete => Sys2Proof.Machine.execShootdownComplete s
  | .hostMemRead => Sys2Proof.Machine.execHostMemRead s
  | .hostMemWrite => Sys2Proof.Machine.execHostMemWrite s
  | .hostErrorCompletion => Sys2Proof.Machine.execHostErrorCompletion s
  | .translate => Sys2Proof.Machine.execTranslate s
  | .permit => Sys2Proof.Machine.execPermit s
  | .revokeAnswer => Sys2Proof.Machine.execRevokeAnswer s
  | .copyEntry => Sys2Proof.Machine.execCopyEntry s
  | .copyComplete => Sys2Proof.Machine.execCopyComplete s
  | .loopEntry => Sys2Proof.Machine.execLoopEntry s
  | .iftagEntry => Sys2Proof.Machine.execIftagEntry s
  | .settagEntry => Sys2Proof.Machine.execSettagEntry s
  | .qfeedEntry => Sys2Proof.Machine.execQfeedEntry s
  | .qfeedResume => Sys2Proof.Machine.execQfeedResume s
  | .endEntry => Sys2Proof.Machine.execEndEntry s
  | .matrixOpStart => Sys2Proof.Machine.execMatrixOpStart s
  | .matrixOpComplete => Sys2Proof.Machine.execMatrixOpComplete s
  | .mzeroComplete => Sys2Proof.Machine.execMzeroComplete s
  | .drainComplete => Sys2Proof.Machine.execDrainComplete s
  | .mloadComplete => Sys2Proof.Machine.execMloadComplete s
  | .barrierRelease => Sys2Proof.Machine.execBarrierRelease s
  | .podBarrierArrival => Sys2Proof.Machine.execPodBarrierArrival s
  | .podBarrierCompletion => Sys2Proof.Machine.execPodBarrierCompletion s
  | .watchdogTimeout => Sys2Proof.Machine.execWatchdogTimeout s
  | .rbCycleLimit => Sys2Proof.Machine.execRbCycleLimit s
  | .rbRestore => Sys2Proof.Machine.execRbRestore s
  | .rbCommitComplete => Sys2Proof.Machine.execRbCommitComplete s
  | .forkComplete => Sys2Proof.Machine.execForkComplete s
  | .rivalDone => Sys2Proof.Machine.execRivalDone s
  | .rivalTimeShare => Sys2Proof.Machine.execRivalTimeShare s
  | .rivalPlace => Sys2Proof.Machine.execRivalPlace s
  | .parentResume => Sys2Proof.Machine.execParentResume s
  | .migrationPerform => Sys2Proof.Machine.execMigrationPerform s
  | .migrationTimeout => Sys2Proof.Machine.execMigrationTimeout s
  | .thermalMigration => Sys2Proof.Machine.execThermalMigration s
  | .kernelLoad => Sys2Proof.Machine.execKernelLoad s
  | .kernelUnload => Sys2Proof.Machine.execKernelUnload s
  | .featureAccept => Sys2Proof.Machine.execFeatureAccept s
  | .coreGrant => Sys2Proof.Machine.execCoreGrant s
  | .groupRetire => Sys2Proof.Machine.execGroupRetire s
  | .launchComplete => Sys2Proof.Machine.execLaunchComplete s
  | .bakeryTurnBegin => Sys2Proof.Machine.execBakeryTurnBegin s
  | .doorbell => Sys2Proof.Machine.execDoorbell s
  | .qupdate => Sys2Proof.Machine.execQupdate s
  | .queuePacketTake => Sys2Proof.Machine.execQueuePacketTake s
  | .nopPacket => Sys2Proof.Machine.execNopPacket s
  | .launch => Sys2Proof.Machine.execLaunch s
  | .waitsig => Sys2Proof.Machine.execWaitsig s
  | .waitsigReread => Sys2Proof.Machine.execWaitsigReread s
  | .waitsigTimeout => Sys2Proof.Machine.execWaitsigTimeout s
  | .signal => Sys2Proof.Machine.execSignal s
  | .copyPacket => Sys2Proof.Machine.execCopyPacket s
  | .copyPacketComplete => Sys2Proof.Machine.execCopyPacketComplete s
  | .timestamp => Sys2Proof.Machine.execTimestamp s
  | .fencePacket => Sys2Proof.Machine.execFencePacket s
  | .fencePacketComplete => Sys2Proof.Machine.execFencePacketComplete s
  | .klaunchDelivery => Sys2Proof.Machine.execKlaunchDelivery s
  | .priorityAging => Sys2Proof.Machine.execPriorityAging s
  | .coreReclaim => Sys2Proof.Machine.execCoreReclaim s
  | .preemptStopRequest => Sys2Proof.Machine.execPreemptStopRequest s
  | .teamSaveComplete => Sys2Proof.Machine.execTeamSaveComplete s
  | .teamRestore => Sys2Proof.Machine.execTeamRestore s
  | .create => Sys2Proof.Machine.execCreate s
  | .enable => Sys2Proof.Machine.execEnable s
  | .terminate => Sys2Proof.Machine.execTerminate s
  | .release => Sys2Proof.Machine.execRelease s
  | .contextResourcesFreed => Sys2Proof.Machine.execContextResourcesFreed s
  | .tqread => Sys2Proof.Machine.execTqread s
  | .registerWrite => Sys2Proof.Machine.execRegisterWrite s
  | .linkEnable => Sys2Proof.Machine.execLinkEnable s
  | .linkTrained => Sys2Proof.Machine.execLinkTrained s
  | .linkRetryRate => Sys2Proof.Machine.execLinkRetryRate s
  | .linkDisable => Sys2Proof.Machine.execLinkDisable s
  | .flitReceive => Sys2Proof.Machine.execFlitReceive s
  | .prooferAudit => Sys2Proof.Machine.execProoferAudit s
  | .remotePodAccess => Sys2Proof.Machine.execRemotePodAccess s
  | .powerOn => Sys2Proof.Machine.execPowerOn s
  | .warmReset => Sys2Proof.Machine.execWarmReset s
  | .attestationRequest => Sys2Proof.Machine.execAttestationRequest s
  | .ppsEdge => Sys2Proof.Machine.execPpsEdge s
  | .ppsLoss => Sys2Proof.Machine.execPpsLoss s
  | .powerLimitSet => Sys2Proof.Machine.execPowerLimitSet s
  | .contextPowerCapSet => Sys2Proof.Machine.execContextPowerCapSet s
  | .lCoreThermalThrottle => Sys2Proof.Machine.execLCoreThermalThrottle s
  | .throttleClockRise => Sys2Proof.Machine.execThrottleClockRise s
  | .hbmThermalThrottle => Sys2Proof.Machine.execHbmThermalThrottle s
  | .tempCritical => Sys2Proof.Machine.execTempCritical s
  | .heartbeatMiss => Sys2Proof.Machine.execHeartbeatMiss s
  | .hbmStackBelow90C => Sys2Proof.Machine.execHbmStackBelow90C s
  | .ieee1588TimeOfDay => Sys2Proof.Machine.execIeee1588TimeOfDay s

end Sys2Proof.Machine
end

