-- ==== Sys2Proof/Machine/Run.lean ====
section
/-! DEFINITION. One step of the machine, put together: the words of an issue unit in order (R23, R32, R147), an engine step or an
input, a cycle that passes; and a word placed where the machine fetches next. -/

namespace Sys2Proof.Machine

/-- How the words of an issue unit end: performed or waiting, or undone by traps for which no word of the chain takes effect in the
trapping threads (R35, R131), or not at all. -/
inductive UnitEnd where
  | ended (s : State)
  | undone (iss : Issue) (traps : List (Nat × Nat × Nat × DWord))
  | fault (f : Fault)
  | refused (r : Refusal)

/-- The unit waits: all its threads stand at its first word again. -/
def State.heldAt (s : State) (iss : Issue) (ms : List (Nat × Nat)) : State := s.setPcs iss.team ms fun _ _ => iss.first

/-- What the words of a unit have left behind: the threads that take no further part in it, since a transfer has taken them or
they stand at a place of their own, parked or trapped (R23, R149), those of them that a transfer took, and whether any trapped or
parked. -/
structure Leaving where
  out : List (Nat × Nat)
  moved : List (Nat × Nat)
  parted : Bool

/-- The same after one more word. -/
def Leaving.after (l : Leaving) (s : State) (iss : Issue) : Leaving :=
  let elsewhere := match s.team? iss.team with
    | none => []
    | some t => iss.members.filter fun m => ((t.thread? m.1 m.2).map fun x => x.pc) != some iss.next
  { out := l.out ++ s.cur.gone ++ elsewhere, moved := l.moved ++ s.cur.gone, parted := l.parted || s.cur.parted }

/-- The words of an issue unit after `s`, in slot order (R32): `s0` is the state in which the unit began, `ms` its threads. A word
that cannot be performed in the unit's first state undoes the words before it, and the whole unit issues again; where only what
those words have done holds it back, it is performed all the same, since a chain issues in one cycle (R31; log entry 40). -/
def runWords (s0 : State) (ms : List (Nat × Nat)) : List Performed → Leaving → State → UnitEnd
  | [], l, s => .ended { s with cur := { s.cur with gone := l.moved, parted := l.parted } }
  | w :: ws, l, s =>
    let iss := { w.iss with members := w.iss.members.filter fun m => !l.out.contains m }
    let go := fun (s1 : State) => runWords s0 ms ws (l.after s1 iss) (s1.afterWord w.instr)
    match exec w.instr (s.forWord iss) with
    | .fault f => .fault f
    | .refused r => .refused r
    | .next s1 =>
      if !s1.cur.whole.isEmpty then .undone iss s1.cur.whole
      else if !s1.cur.retry then go s1
      else if w.iss.pc == w.iss.first then .ended (s1.heldAt iss ms)
      else match exec w.instr (s0.forWord iss) with
        | .fault f => .fault f
        | .refused r => .refused r
        | .next s2 =>
          if s2.cur.retry then .ended (s2.heldAt iss ms)
          else match exec w.instr (s.forWord { iss with cleared := true }) with
            | .fault f => .fault f
            | .refused r => .refused r
            | .next s3 => if s3.cur.retry then .ended (s3.setPcs iss.team iss.members fun _ _ => iss.pc) else go s3

/-- Traps that undo the chain are taken in the unit's first state, with the chain's first word as the PC; `FPX` raises the flags
it reports (R35, R131). -/
def State.takeWhole (s : State) (iss : Issue) (traps : List (Nat × Nat × Nat × DWord)) : State :=
  let fl := traps.filterMap fun x => if x.2.2.1 == cFpx then some (x.1, x.2.1, x.2.2.2.setWidth 32) else none
  let s := s.modTeam iss.team fun t => t.orFlags fl
  let s := ({ s with before := none } : State).forWord { iss with pc := iss.first }
  let s := s.enterTraps traps
  { s with before := s.team? iss.team }

/-- The words of a unit, without the threads whose traps undo it; each round leaves at least one thread out. -/
def performUnit : Nat → State → List Performed → Host.Outcome State Fault Refusal
  | fuel, s0, ws =>
    let ms := (ws.map fun w => w.iss.members).headD []
    match runWords s0 ms ws { out := [], moved := [], parted := s0.cur.parted } s0, fuel with
    | .ended s, _ => .next s
    | .fault f, _ => .fault f
    | .refused r, _ => .refused r
    | .undone _ _, 0 => .next s0
    | .undone iss traps, n + 1 =>
      let out := traps.map fun x => (x.1, x.2.1)
      performUnit n (s0.takeWhole iss traps)
        (ws.map fun w => { w with iss := { w.iss with members := w.iss.members.filter fun m => !out.contains m } })

/-- One issue unit of a squad (R23): its words, and what follows. -/
def State.issueWords (s : State) (team sq : Nat) : Host.Outcome State Fault Refusal :=
  let (ws, s0) := s.beginUnit team sq
  match performUnit 64 s0 ws with
  | .fault f => .fault f
  | .refused r => .refused r
  | .next s1 => .next (s1.endUnit s0 team sq ws).settle

/-- Can a squad issue words of the packet it has begun? -/
def State.wordsReady (s : State) (team sq : Nat) : Bool := match s.team? team with
  | some t => match t.squad? sq with
    | some q => t.begun q && s.canIssue t q && !s.parksHere t q q.line
    | none => false
  | none => false

/-- A squad whose packet could not begin issues nothing more in this cycle (R147). -/
def State.passedOver (s : State) (team sq : Nat) : State :=
  s.modTeam team fun t => t.modSquad sq fun q =>
    { q with tlast := s.ownNow t }

/-- A squad issues: its packet begins, if it has not, and the next unit of the packet is performed (R27, R34). -/
def State.issue (s : State) (team sq : Nat) : Host.Outcome State Fault Refusal :=
  if s.wordsReady team sq then s.issueWords team sq
  else match exec .packetIssue { s with cur := Issue.none, arg := [team, sq] } with
    | .fault f => .fault f
    | .refused r => .refused r
    | .next s1 =>
      let s1 : State := { s1 with arg := [], cur := Issue.none, fresh := s1.fresh + 2 }
      if s1.wordsReady team sq then s1.issueWords team sq else .next (s1.passedOver team sq).settle

/-- An engine step or an input (R44): what it acts on stands in `arg`. -/
def State.perform (s : State) (e : Event) (rest : List Event) : Host.Outcome State Fault Refusal :=
  match exec e.step { s with cur := Issue.none, arg := e.arg, agenda := rest } with
  | .fault f => .fault f
  | .refused r => .refused r
  | .next s1 =>
    let s2 : State := { s1 with arg := [], cur := Issue.none, fresh := s1.fresh + 2 }
    .next s2.settle

/-! ## A word placed where the machine fetches next -/

/-- A squad fetches its packet anew, with a word at its PC and nothing after it in the packet; what its core held of it is gone. -/
def State.patchWord (s : State) (t : Team) (q : Squad) (w : Word) : State :=
  let pc := t.squadPc q
  match s.fetchAt t pc with
  | .error _ => s
  | .ok (_, pa) =>
    let off := pc.toNat - fetchVa t.kind pc
    let bytes := wordBytes w ++ List.replicate (fetchBytes t.kind - off - 4) 0
    let fresh : Squad → Squad := fun q => { q with packet := none, line := [] }
    let mine := fun (f : Fetched) => f.ctx == t.ctx && f.va / 16 == fetchVa t.kind pc / 16
    let s : State := { s with
      mem := memWrite (pa + off) bytes s.mem, icache := s.icache.filter fun f => !mine f }
    s.modTeam t.key fun t => t.modSquad q.key fresh

/-- The tables of the one page of a loaded program: virtual address 0, readable, writable and executable, at physical address
0x50000; the tables stand at 0x10000 to 0x40000 (R180, R181). -/
def programTables (m : List Host.Cell) : List Host.Cell :=
  let put := fun (m : List Host.Cell) (a x : Nat) => memWrite a (leBytes 8 x) m
  put (put (put (put m 0x10000 0x20001) 0x20000 0x30001) 0x30000 0x40001) 0x40000 (2 ^ 52 + 0x50000 + 15)

/-- The context of a loaded program: RUNNING, with a trap queue. -/
def programContext : Context :=
  { num := 0, st := .running, det := false, tkey := 0, nvec := 0, tqvec := 15, faultvec := 15, watchdog := 1000, drain := 100,
    minslice := 1000, root := 0x10000, qtable := 0, tqbase := 0x60000, tqlog2 := 6, savebase := 0, savesize := 0, spillbase := 0,
    spillsize := 0, quads := 2 ^ 112 - 1, tqread := 0, tqwrite := 0, dropped := 0, fatalsum := none, overrun := 0, charge := 0,
    sdaddr := 0, sdlen := 0, sdbusy := false, sdfrom := 0, sdwait := [], pending := [], raised := [], queues := [], podwin := [], podbar := [],
    vectors := [], cap := 0, resident := true, freed := false, granted := [], savedAt := 0 }

/-- The image of a loaded program. -/
def programImage (k : Nat) : Image :=
  { key := k, ctx := 0, st := .loaded, kaddr := 0, vregs := 128, sregs := 63, team := 64, cluster := 1, scratch := 65536,
    opslots := 4, acc := 2, tags := 64, rbjournal := 4096, handler := 0, params := [], det := false, wide32 := false,
    interlocked := false, forced := false, preferOther := false, stepping := 0x100, features := 0, dbase := 0, lbase := 0,
    dwords := [], lwords := [], equivRaw := [], equiv := [], blocks := [], sites := [], lineMap := [], packetMap := [], fixups := [], relocs := [],
    others := [], lowerings := [], reason := 0 }

/-- The launch of a loaded program: one team of one group. -/
def programLaunch (k i : Nat) : Launch :=
  { key := k, ctx := 0, queue := 0, ring := 0, image := i, st := .running, pref := 0, cluster := 1, gpt := 1, nteams := 1,
    param := 0, privBase := 0x100000, privSize := 0, privSlots := 1, planCores := 0, signal := 0, sigval := 0, started := 1,
    retired := [], ordered := [], gone := [], since := 0 }

/-- The group of a loaded program, in which only lane 0 is left. -/
def programGroup (pc : DWord) : Group :=
  { newGroup 0 64 [] 0 pc with m := [(0, 1)], threads := [newThread 0 0 pc] }

/-- The team of a loaded program, on a core, with its one squad. -/
def programTeam (k core now : Nat) (pc : DWord) : Team :=
  let l := programLaunch (k + 1) k
  { newTeam (k + 2) l (programImage k) 0 core 0 now false [] with
    groups := [programGroup pc],
    squads := [{ key := k + 3, members := [(0, 0)], wait := none, t0 := 0, tlast := 0, packet := none, line := [], pass := [],
                 held := [], popWait := none, since := [], holds := false, parted := false, join := none }] }

/-- The part as bring-up and the driver leave it: ready, with every offered feature (R355, R419). -/
def programPart (p : Part) : Part :=
  { p with boot := .ready, supply := true, accepted := Config.offered, acceptedWritten := true, anyEnabled := true,
           needsReset := false, locked := false, remote := [] }

/-- The machine loaded with one word as its program, in slot 0 of a packet whose other slots are zero and count on no flag, or,
for `EQPT`, as an L-stream word on an L-core (log entry 41). -/
def State.loadWord (s : State) (w : Word) : State :=
  let stream := match decodeWord w with
    | .ok (_, .eqpt _) => true
    | _ => false
  let core := if stream then 48 else 0
  let pc : DWord := if stream then 0 else 4
  let bytes := if stream then wordBytes w else leBytes 4 0x00FFF000 ++ wordBytes w
  let k := s.keys
  { State.reset with
    part := programPart s.part, now := s.now + 1, mem := memWrite 0x50000 bytes (programTables []), ctxs := [programContext],
    tenants := [{ key := 0, weight := 1, vtime := 0, cursor := [] }], images := [programImage k],
    launches := [programLaunch (k + 1) k], teams := [programTeam k core s.now pc], run := [(k + 2, k + 3)], fresh := s.fresh,
    keys := k + 4 }

/-- A word placed where the next step fetches: at the PC of the squad that issues next, or, where no squad would issue next, as
the program of a machine loaded anew. -/
def State.placeWord (s : State) (w : Word) : State :=
  match s.nextEvent, s.nextIssue with
  | none, some (team, sq) => match s.team? team with
    | some t => match t.squad? sq with
      | some q => s.patchWord t q w
      | none => s.loadWord w
    | none => s.loadWord w
  | _, _ => s.loadWord w

end Sys2Proof.Machine
end

