-- ==== Sys2Proof/Machine/Step.lean ====
section
/-! DEFINITION. One step: an input, an engine step that is due, the next issue unit of a squad, or a cycle that passes. -/

namespace Sys2Proof.Machine

/-- One step of the machine. A step or input that is due comes first; else the squad whose turn it is issues (R147); else a
cycle passes. With the core supply removed and no input left, nothing can step (R425). -/
def step (s : State) : Host.Outcome State Fault Refusal :=
  match s.nextEvent with
  | some (e, rest) => s.perform e rest
  | none =>
    if !s.part.supply then .fault .supplyRemoved
    else match s.nextIssue with
      | some (team, sq) => s.issue team sq
      | none => .next s.tick.settle

/-- The state with one instruction word, its low `nbits` bits `w`, where `step` fetches its next instruction. -/
def State.withFetchWord (s : State) (nbits w : Nat) : State :=
  if nbits ≤ 32 then s.placeWord (BitVec.ofNat 32 w) else s

end Sys2Proof.Machine
end

