-- ==== Sys2Proof/Safety.lean ====
section
/-! DEFINITION. The terms the statements are made in: what a register holds, what a word may change, the results the spec gives
each word, and the invariants of a safe run. -/

namespace Sys2Proof.Machine

/-! ## Registers before and after a word -/

/-- The stored value of a register of a team. -/
def State.reg (s : State) (team : Nat) (r : RegId) : DWord := match s.team? team with
  | some t => t.peek r
  | none => 0

/-- `t` is the team the word at issue reads, `u` the team it writes, and lane `l` of group `g` one of its executing threads
(R32, R149). -/
structure State.Executes (s : State) (t u : Team) (g l : Nat) : Prop where
  reads : s.readTeam = some t
  writes : s.curTeam = some u
  member : (g, l) ∈ s.members
  before : (t.thread? g l).isSome = true
  now : (u.thread? g l).isSome = true

/-- `t` and `u` as before, and `g` one of the groups of the executing threads (R150). -/
structure State.ExecutesGroup (s : State) (t u : Team) (g : Nat) : Prop where
  reads : s.readTeam = some t
  writes : s.curTeam = some u
  member : g ∈ s.curGids
  before : (t.group? g).isSome = true
  now : (u.group? g).isSome = true

/-- After the word a register of its team holds a value, which a word issued `lat` cycles later reads (R48). -/
def Lands (s s' : State) (r : RegId) (lat : Nat) (x : DWord) : Prop :=
  s'.reg s.cur.team r = x
    ∧ ∃ u, s'.team? s.cur.team = some u ∧ ∃ w ∈ u.windows, w.reg = r ∧ w.ready = some (s.now + lat)

/-- A team without what the words of R116 to R172 write: its groups, its latency windows and the note of the masks written in this
cycle. -/
def Team.outside (t : Team) : Team := { t with groups := [], windows := [], maskLog := [] }

/-- A group without its scalars, uniform predicates, masks and threads. -/
def Group.outside (g : Group) : Group := { g with s := [], q := 0, m := [], threads := [] }

/-- A thread without its vector registers and predicates. -/
def Thread.outside (x : Thread) : Thread := { x with v := [], p := 0 }

/-- The word changes nothing but the registers in `dest` of its team: no other team, no other register, flag, special or trap
register, no PC, no byte of memory, and nothing outside the teams (R48, R145). -/
structure OnlyRegs (s s' : State) (dest : RegId → Prop) : Prop where
  rest : { s' with teams := [] } = { s with teams := [] }
  others : ∀ k, k ≠ s.cur.team → s'.team? k = s.team? k
  outside : (s'.team? s.cur.team).map Team.outside = (s.team? s.cur.team).map Team.outside
  regs : ∀ r, ¬ dest r → s'.reg s.cur.team r = s.reg s.cur.team r
  groups : ∀ u u' g, s.team? s.cur.team = some u → s'.team? s.cur.team = some u' →
    (u'.group? g).map Group.outside = (u.group? g).map Group.outside
  threads : ∀ u u' g l, s.team? s.cur.team = some u → s'.team? s.cur.team = some u' →
    (u'.thread? g l).map Thread.outside = (u.thread? g l).map Thread.outside
  memory : ∀ k u u' x, s.team? k = some u → s'.team? k = some u' → s'.locByte u' x = s.locByte u x

/-! ## Results of the integer, predicate, move and bit words (R116 to R122, R135) -/

/-- The functions of R116 Table 5. -/
inductive AluOp where
  | add
  | sub
  | mul
  | mulhS
  | mulhU
  | and
  | or
  | xor
  | shl
  | shr
  | sar
  | minS
  | maxS
  | minU
  | maxU
  | addSat
  deriving DecidableEq, Repr

/-- The result of a function of R116 on x and y, in exact arithmetic and then reduced modulo 2^32. -/
def AluOp.result (f : AluOp) (x y : Word) : Word := match f with
  | .add => BitVec.ofNat 32 (x.toNat + y.toNat)
  | .sub => BitVec.ofInt 32 (x.toNat - y.toNat)
  | .mul => BitVec.ofNat 32 (x.toNat * y.toNat)
  | .mulhS => BitVec.ofInt 32 (x.toInt * y.toInt / 2 ^ 32)
  | .mulhU => BitVec.ofNat 32 (x.toNat * y.toNat / 2 ^ 32)
  | .and => x &&& y
  | .or => x ||| y
  | .xor => x ^^^ y
  | .shl => BitVec.ofNat 32 (x.toNat * 2 ^ (y.toNat % 32))
  | .shr => BitVec.ofNat 32 (x.toNat / 2 ^ (y.toNat % 32))
  | .sar => BitVec.ofInt 32 (x.toInt / 2 ^ (y.toNat % 32))
  | .minS => if x.toInt ≤ y.toInt then x else y
  | .maxS => if x.toInt ≤ y.toInt then y else x
  | .minU => if x.toNat ≤ y.toNat then x else y
  | .maxU => if x.toNat ≤ y.toNat then y else x
  | .addSat => BitVec.ofInt 32 (max (-2 ^ 31) (min (2 ^ 31 - 1) (x.toInt + y.toInt)))

/-- Result latency of R48 Table 7 in a vector word: 6 for products, else 4. -/
def AluOp.vectorLatency (f : AluOp) : Nat := match f with
  | .mul | .mulhS | .mulhU => 6
  | _ => 4

/-- Result latency of R48 Table 7 in a scalar word: 4 for products, else 2. -/
def AluOp.scalarLatency (f : AluOp) : Nat := match f with
  | .mul | .mulhS | .mulhU => 4
  | _ => 2

/-- The second source of a vector integer word: a vector register, a scalar field, or an immediate. -/
inductive AluSrc where
  | v (n : Nat)
  | s (n : Nat)
  | imm (x : Word)
  deriving DecidableEq, Repr

/-- The vector words of R116 and R118: function, destination, first and second source; `IADDI` and `ANDI` extend the sign of
their immediate, the others do not. -/
def vectorAlu : Instr → Option (AluOp × Nat × Nat × AluSrc)
  | .iadd d a b => some (.add, d.toNat, a.toNat, .v b.toNat)
  | .isub d a b => some (.sub, d.toNat, a.toNat, .v b.toNat)
  | .imul d a b => some (.mul, d.toNat, a.toNat, .v b.toNat)
  | .imulhI32 d a b => some (.mulhS, d.toNat, a.toNat, .v b.toNat)
  | .imulhN32 d a b => some (.mulhU, d.toNat, a.toNat, .v b.toNat)
  | .and d a b => some (.and, d.toNat, a.toNat, .v b.toNat)
  | .or d a b => some (.or, d.toNat, a.toNat, .v b.toNat)
  | .xor d a b => some (.xor, d.toNat, a.toNat, .v b.toNat)
  | .shl d a b => some (.shl, d.toNat, a.toNat, .v b.toNat)
  | .shr d a b => some (.shr, d.toNat, a.toNat, .v b.toNat)
  | .sar d a b => some (.sar, d.toNat, a.toNat, .v b.toNat)
  | .iminI32 d a b => some (.minS, d.toNat, a.toNat, .v b.toNat)
  | .imaxI32 d a b => some (.maxS, d.toNat, a.toNat, .v b.toNat)
  | .iminN32 d a b => some (.minU, d.toNat, a.toNat, .v b.toNat)
  | .imaxN32 d a b => some (.maxU, d.toNat, a.toNat, .v b.toNat)
  | .iaddsI32 d a b => some (.addSat, d.toNat, a.toNat, .v b.toNat)
  | .iaddVs d a k => some (.add, d.toNat, a.toNat, .s k.toNat)
  | .isubVs d a k => some (.sub, d.toNat, a.toNat, .s k.toNat)
  | .imulVs d a k => some (.mul, d.toNat, a.toNat, .s k.toNat)
  | .imulhI32Vs d a k => some (.mulhS, d.toNat, a.toNat, .s k.toNat)
  | .imulhN32Vs d a k => some (.mulhU, d.toNat, a.toNat, .s k.toNat)
  | .andVs d a k => some (.and, d.toNat, a.toNat, .s k.toNat)
  | .orVs d a k => some (.or, d.toNat, a.toNat, .s k.toNat)
  | .xorVs d a k => some (.xor, d.toNat, a.toNat, .s k.toNat)
  | .shlVs d a k => some (.shl, d.toNat, a.toNat, .s k.toNat)
  | .shrVs d a k => some (.shr, d.toNat, a.toNat, .s k.toNat)
  | .sarVs d a k => some (.sar, d.toNat, a.toNat, .s k.toNat)
  | .iminI32Vs d a k => some (.minS, d.toNat, a.toNat, .s k.toNat)
  | .imaxI32Vs d a k => some (.maxS, d.toNat, a.toNat, .s k.toNat)
  | .iminN32Vs d a k => some (.minU, d.toNat, a.toNat, .s k.toNat)
  | .imaxN32Vs d a k => some (.maxU, d.toNat, a.toNat, .s k.toNat)
  | .iaddsI32Vs d a k => some (.addSat, d.toNat, a.toNat, .s k.toNat)
  | .iaddi d a i => some (.add, d.toNat, a.toNat, .imm (i.signExtend 32))
  | .andi d a i => some (.and, d.toNat, a.toNat, .imm (i.signExtend 32))
  | .ori d a i => some (.or, d.toNat, a.toNat, .imm (i.setWidth 32))
  | .xori d a i => some (.xor, d.toNat, a.toNat, .imm (i.setWidth 32))
  | .shli d a i => some (.shl, d.toNat, a.toNat, .imm (i.setWidth 32))
  | .shri d a i => some (.shr, d.toNat, a.toNat, .imm (i.setWidth 32))
  | .sari d a i => some (.sar, d.toNat, a.toNat, .imm (i.setWidth 32))
  | _ => none

/-- The value of a second source in a thread. -/
def State.srcValue (s : State) (t : Team) (g l : Nat) : AluSrc → Word
  | .v n => s.rdV t g l n
  | .s n => s.rdS t g n
  | .imm x => x

/-- One register and its value, or nothing where the write is discarded: `p0` (R105). -/
def predResult (g l : Nat) (p : BitVec 3) (b : Bool) : List (RegId × DWord) :=
  if p = 0 then [] else [(.p g l p.toNat, if b then 1 else 0)]

/-- The conditions of R119: equal, not equal, less, not greater, greater, not less. -/
def compare (cond : BitVec 4) (x y : Int) : Bool := match cond.toNat with
  | 0 => x == y
  | 1 => x != y
  | 2 => decide (x < y)
  | 3 => decide (x ≤ y)
  | 4 => decide (x > y)
  | 5 => decide (x ≥ y)
  | _ => false

/-- The vector words of fixed latency that raise no float flags: the integer words of R116 and R118, the compares of integers
(R119), the predicate, select, move, identity and bit words, and `RWRITE` (R115 to R122, R135). -/
def isLaneWord : Instr → Bool
  | .iadd _ _ _ | .isub _ _ _ | .imul _ _ _ | .imulhI32 _ _ _ | .imulhN32 _ _ _ | .and _ _ _ | .or _ _ _ | .xor _ _ _ | .shl _ _ _
  | .shr _ _ _ | .sar _ _ _ | .iminI32 _ _ _ | .imaxI32 _ _ _ | .iminN32 _ _ _ | .imaxN32 _ _ _ | .iaddsI32 _ _ _ => true
  | .iaddVs _ _ _ | .isubVs _ _ _ | .imulVs _ _ _ | .imulhI32Vs _ _ _ | .imulhN32Vs _ _ _ | .andVs _ _ _ | .orVs _ _ _
  | .xorVs _ _ _ | .shlVs _ _ _ | .shrVs _ _ _ | .sarVs _ _ _ | .iminI32Vs _ _ _ | .imaxI32Vs _ _ _ | .iminN32Vs _ _ _
  | .imaxN32Vs _ _ _ | .iaddsI32Vs _ _ _ => true
  | .iaddi _ _ _ | .andi _ _ _ | .ori _ _ _ | .xori _ _ _ | .shli _ _ _ | .shri _ _ _ | .sari _ _ _ => true
  | .movs _ _ | .imacs _ _ _ | .movi _ _ | .mov _ _ | .laneid _ | .tid _ | .sel _ _ _ _ _ => true
  | .fabs _ _ | .fneg _ _ | .popc _ _ | .clz _ _ | .brev _ _ | .sx8 _ _ | .sx16 _ _ | .zx8 _ _ | .zx16 _ _ => true
  | .setp _ ty _ _ _ => !(2 ≤ ty.toNat && ty.toNat ≤ 4)
  | .pand _ _ _ _ _ | .por _ _ _ _ _ | .pxor _ _ _ _ _ | .pmov _ _ _ | .pfromm _ _ | .rwrite _ _ _ => true
  | _ => false

/-- What a vector word of fixed latency without float flags writes in one thread: the latency, and each register with its value
(R115 to R122, R135). -/
def State.laneResult (s : State) (t : Team) (g l : Nat) (i : Instr) : Option (Nat × List (RegId × DWord)) :=
  let v := fun (lat : Nat) (d : BitVec 7) (x : Word) => some (lat, [(RegId.v g l d.toNat, x.setWidth 64)])
  let r := fun (n : BitVec 7) => s.rdV t g l n.toNat
  let p := fun (n : BitVec 3) (neg : BitVec 1) => (s.rdP t g l n.toNat) ^^ (neg == 1)
  match i with
  | .movs d k => v 4 d (s.rdS t g k.toNat)
  | .imacs d a k => v 6 d (BitVec.ofNat 32 ((r d).toNat + (r a).toNat * (s.rdS t g k.toNat).toNat))
  | .movi d x => v 4 d (BitVec.ofInt 32 x.toInt)
  | .mov d a => v 4 d (r a)
  | .laneid d => v 4 d (BitVec.ofNat 32 l)
  | .tid d => v 4 d (BitVec.ofNat 32 (match t.thread? g l with
    | some x => x.tid
    | none => 0))
  | .sel d a b n q => v 4 d (if p q n then r a else r b)
  | .fabs d a => v 6 d (BitVec.ofNat 32 ((r a).toNat % 2 ^ 31))
  | .fneg d a => v 6 d (r a ^^^ 0x80000000#32)
  | .popc d a => v 6 d (BitVec.ofNat 32 ((List.range 32).countP (r a).getLsbD))
  | .clz d a => v 6 d (BitVec.ofNat 32 (32 - (if r a = 0 then 0 else Nat.log2 (r a).toNat + 1)))
  | .brev d a => v 6 d (r a).reverse
  | .sx8 d a => v 6 d (BitVec.ofInt 32 ((r a).setWidth 8).toInt)
  | .sx16 d a => v 6 d (BitVec.ofInt 32 ((r a).setWidth 16).toInt)
  | .zx8 d a => v 6 d (BitVec.ofNat 32 ((r a).toNat % 2 ^ 8))
  | .zx16 d a => v 6 d (BitVec.ofNat 32 ((r a).toNat % 2 ^ 16))
  | .setp q ty a b k => match ty.toNat with
    | 0 => some (4, predResult g l q (compare k (r a).toInt (r b).toInt))
    | 1 => some (4, predResult g l q (compare k (r a).toNat (r b).toNat))
    | 5 => some (4, predResult g l q (compare k (s.rdV2 t g l a.toNat).toInt (s.rdV2 t g l b.toNat).toInt))
    | 6 => some (4, predResult g l q (compare k (s.rdV2 t g l a.toNat).toNat (s.rdV2 t g l b.toNat).toNat))
    | _ => none
  | .pand q a b x y => some (4, predResult g l q (p a x && p b y))
  | .por q a b x y => some (4, predResult g l q (p a x || p b y))
  | .pxor q a b x y => some (4, predResult g l q (p a x ^^ p b y))
  | .pmov q a x => some (4, predResult g l q (p a x))
  | .pfromm q m => some (4, predResult g l q ((s.rdM t g m.toNat).getLsbD l))
  | .rwrite d a b =>
    let n := a.toNat + (r b).toNat
    if n < s.vregs t then some (4, [(.v g l n, (r d).setWidth 64)]) else none
  | i => match vectorAlu i with
    | some (f, d, a, b) => some (f.vectorLatency, [(.v g l d, (f.result (s.rdV t g l a) (s.srcValue t g l b)).setWidth 64)])
    | none => none

/-! ## Results of the scalar words and lane masks (R124 to R127, R164) -/

/-- The scalar words of R124 with two 32-bit sources: function, destination and sources. -/
def scalarAlu : Instr → Option (AluOp × Nat × Nat × Nat)
  | .sadd d a b => some (.add, d.toNat, a.toNat, b.toNat)
  | .ssub d a b => some (.sub, d.toNat, a.toNat, b.toNat)
  | .smul d a b => some (.mul, d.toNat, a.toNat, b.toNat)
  | .smulhI32 d a b => some (.mulhS, d.toNat, a.toNat, b.toNat)
  | .smulhN32 d a b => some (.mulhU, d.toNat, a.toNat, b.toNat)
  | .sand d a b => some (.and, d.toNat, a.toNat, b.toNat)
  | .sor d a b => some (.or, d.toNat, a.toNat, b.toNat)
  | .sxor d a b => some (.xor, d.toNat, a.toNat, b.toNat)
  | .sshl d a b => some (.shl, d.toNat, a.toNat, b.toNat)
  | .sshr d a b => some (.shr, d.toNat, a.toNat, b.toNat)
  | .ssar d a b => some (.sar, d.toNat, a.toNat, b.toNat)
  | .sminI32 d a b => some (.minS, d.toNat, a.toNat, b.toNat)
  | .smaxI32 d a b => some (.maxS, d.toNat, a.toNat, b.toNat)
  | .sminN32 d a b => some (.minU, d.toNat, a.toNat, b.toNat)
  | .smaxN32 d a b => some (.maxU, d.toNat, a.toNat, b.toNat)
  | _ => none

/-- A scalar result, or nothing: `s0` discards its write (R105). -/
def scalarResult (g : Nat) (d : Nat) (x : Word) : List (RegId × DWord) := if d = 0 then [] else [(.s g d, x.setWidth 64)]

/-- A pair result of the pair numbered k: the low word in the even register; `s0:s1` discards it (R74, R105). -/
def pairResult (g : Nat) (k : BitVec 5) (x : DWord) : List (RegId × DWord) :=
  if k = 0 then [] else
    [(.s g (2 * k.toNat), BitVec.ofNat 64 (x.toNat % 2 ^ 32)), (.s g (2 * k.toNat + 1), BitVec.ofNat 64 (x.toNat / 2 ^ 32))]

/-- A uniform predicate result, or nothing: `q0` (R105). -/
def uniResult (g : Nat) (q : BitVec 3) (b : Bool) : List (RegId × DWord) :=
  if q = 0 then [] else [(.q g q.toNat, if b then 1 else 0)]

/-- The scalar, uniform-predicate and lane-mask words (R124 to R127, R164). -/
def isScalarWord : Instr → Bool
  | .sadd _ _ _ | .ssub _ _ _ | .smul _ _ _ | .smulhI32 _ _ _ | .smulhN32 _ _ _ | .sand _ _ _ | .sor _ _ _ | .sxor _ _ _
  | .sshl _ _ _ | .sshr _ _ _ | .ssar _ _ _ | .sminI32 _ _ _ | .smaxI32 _ _ _ | .sminN32 _ _ _ | .smaxN32 _ _ _ => true
  | .smov _ _ | .sadd64 _ _ _ | .ssub64 _ _ _ | .sshl64 _ _ _ | .sshr64 _ _ _ | .smulw _ _ _ => true
  | .saddi _ _ _ | .slui _ _ | .saddi64 _ _ _ | .scmp _ _ _ _ _ => true
  | .qand _ _ _ _ _ | .qor _ _ _ _ _ | .qxor _ _ _ _ _ | .qmov _ _ _ => true
  | .join _ | .leave _ | .mset _ _ | .mget _ _ | .mand _ _ | .mor _ _ | .mandn _ _ | .mpopc _ _ | .mself _ => true
  | _ => false

/-- What a scalar or mask word writes in one group: the latency, and each register with its value (R124 to R127, R164). `u` is the
team as the words issued earlier in the cycle have left it: `JOIN` and `LEAVE` change single bits of its mask, and a whole-mask
write keeps the bits that they have set and cleared in the same cycle (R165). -/
def State.groupResult (s : State) (t u : Team) (g : Nat) (i : Instr) : Option (Nat × List (RegId × DWord)) :=
  let r := fun (n : BitVec 6) => s.rdS t g n.toNat
  let rr := fun (k : BitVec 5) => s.rdS2 t g k.toNat
  let m := fun (n : BitVec 4) => s.rdM t g n.toNat
  let q := fun (n : BitVec 3) (neg : BitVec 1) => (s.rdQ t g n.toNat) ^^ (neg == 1)
  let mask := fun (n : BitVec 4) (x : DWord) => some (2, [(RegId.m g n.toNat, x)])
  let whole := fun (n : BitVec 4) (x : DWord) =>
    let c := u.maskNow s.now g n.toNat
    mask n ((x ||| c.set) &&& ~~~c.clr)
  match i with
  | .smov d a => some (2, scalarResult g d.toNat (r a))
  | .sadd64 d a b => some (2, pairResult g d (BitVec.ofNat 64 ((rr a).toNat + (rr b).toNat)))
  | .ssub64 d a b => some (2, pairResult g d (BitVec.ofInt 64 ((rr a).toNat - (rr b).toNat)))
  | .sshl64 d a b => some (2, pairResult g d (BitVec.ofNat 64 ((rr a).toNat * 2 ^ ((r b).toNat % 64))))
  | .sshr64 d a b => some (2, pairResult g d (BitVec.ofNat 64 ((rr a).toNat / 2 ^ ((r b).toNat % 64))))
  | .smulw d a b => some (4, pairResult g d (BitVec.ofNat 64 ((r a).toNat * (r b).toNat)))
  | .saddi d a x => some (2, scalarResult g d.toNat (BitVec.ofInt 32 ((r a).toNat + x.toInt)))
  | .slui d x => some (2, scalarResult g d.toNat (BitVec.ofNat 32 (x.toNat * 2 ^ 13)))
  | .saddi64 d a x => some (2, pairResult g d (BitVec.ofInt 64 ((rr a).toNat + x.toInt)))
  | .scmp p ty a b k => match ty.toNat with
    | 0 => some (2, uniResult g p (compare k (r a).toInt (r b).toInt))
    | 1 => some (2, uniResult g p (compare k (r a).toNat (r b).toNat))
    | 5 => some (2, uniResult g p (compare k (s.rdS2 t g (a.toNat / 2)).toInt (s.rdS2 t g (b.toNat / 2)).toInt))
    | 6 => some (2, uniResult g p (compare k (s.rdS2 t g (a.toNat / 2)).toNat (s.rdS2 t g (b.toNat / 2)).toNat))
    | _ => none
  | .qand p a b x y => some (2, uniResult g p (q a x && q b y))
  | .qor p a b x y => some (2, uniResult g p (q a x || q b y))
  | .qxor p a b x y => some (2, uniResult g p (q a x ^^ q b y))
  | .qmov p a x => some (2, uniResult g p (q a x))
  | .join n => mask n (u.peek (.m g n.toNat) ||| laneMask (s.lanesOf g))
  | .leave n => mask n (u.peek (.m g n.toNat) &&& ~~~(laneMask (s.lanesOf g)))
  | .mset n k => whole n (if s.narrow t then BitVec.ofNat 64 ((rr k).toNat % 2 ^ 32) else rr k)
  | .mget n k => some (2, pairResult g k (m n))
  | .mand n k => whole n (m n &&& m k)
  | .mor n k => whole n (m n ||| m k)
  | .mandn n k => whole n (m n &&& ~~~(m k))
  | .mpopc n k => some (2, scalarResult g k.toNat (BitVec.ofNat 32 ((List.range 64).countP (m n).getLsbD)))
  | .mself k => some (2, pairResult g k (laneMask (s.lanesOf g)))
  | i => match scalarAlu i with
    | some (f, d, a, b) => some (f.scalarLatency, scalarResult g d (f.result (s.rdS t g a) (s.rdS t g b)))
    | none => none

/-! ## Results of the float words (R119, R129 to R136) -/

/-- The state with the operations in flight, the keys and the flag counts of another: what words that only start an operation
differ in besides registers. -/
def State.withOps (s s0 : State) : State := { s with ops := s0.ops, keys := s0.keys, toks := s0.toks }

/-- The vector words that raise float flags: arithmetic (R132, R134), conversions (R136) and the compares of floats (R119). -/
def isFloatWord : Instr → Bool
  | .fadd _ _ _ | .fsub _ _ _ | .fmul _ _ _ | .fmin _ _ _ | .fmax _ _ _ | .ffma _ _ _ => true
  | .hadd2 _ _ _ | .hmul2 _ _ _ | .hfma2 _ _ _ | .badd2 _ _ _ | .bmul2 _ _ _ | .bfma2 _ _ _ | .hmin2 _ _ _ | .hmax2 _ _ _ => true
  | .fadds _ _ _ | .fsubs _ _ _ | .fmuls _ _ _ | .ffmas _ _ _ | .fmins _ _ _ | .fmaxs _ _ _ | .hfma2s _ _ _ | .bfma2s _ _ _ => true
  | .cvtF32I32 _ _ _ | .cvtF32N32 _ _ _ | .cvtI32F32 _ _ _ _ | .cvtN32F32 _ _ _ _ | .cvtF16F32 _ _ _ _ | .cvtBf16F32 _ _ _ _
  | .cvtE4m3F32 _ _ _ _ | .cvtE5m2F32 _ _ _ _ | .cvtDm8F32 _ _ _ | .cvtF32F16 _ _ | .cvtF32Bf16 _ _ | .cvtF32E4m3 _ _
  | .cvtF32E5m2 _ _ | .cvtF32Dm8 _ _ _ => true
  | .setp _ ty _ _ _ => 2 ≤ ty.toNat && ty.toNat ≤ 4
  | _ => false

/-- The float words of R132 and R134: the operation on fpctl, the two sources and the old destination, and the fields. -/
def floatWord : Instr → Option ((Word → Word → Word → Word → Word × Word) × BitVec 7 × BitVec 7 × AluSrc)
  | .fadd d a b => some (single opAdd, d, a, .v b.toNat)
  | .fsub d a b => some (single opSub, d, a, .v b.toNat)
  | .fmul d a b => some (single opMul, d, a, .v b.toNat)
  | .fmin d a b => some (single opMin, d, a, .v b.toNat)
  | .fmax d a b => some (single opMax, d, a, .v b.toNat)
  | .ffma d a b => some (single opFma, d, a, .v b.toNat)
  | .hadd2 d a b => some (packed fmtF16 opAdd, d, a, .v b.toNat)
  | .hmul2 d a b => some (packed fmtF16 opMul, d, a, .v b.toNat)
  | .hfma2 d a b => some (packed fmtF16 opFma, d, a, .v b.toNat)
  | .badd2 d a b => some (packed fmtBf16 opAdd, d, a, .v b.toNat)
  | .bmul2 d a b => some (packed fmtBf16 opMul, d, a, .v b.toNat)
  | .bfma2 d a b => some (packed fmtBf16 opFma, d, a, .v b.toNat)
  | .hmin2 d a b => some (packed fmtF16 opMin, d, a, .v b.toNat)
  | .hmax2 d a b => some (packed fmtF16 opMax, d, a, .v b.toNat)
  | .fadds d a k => some (single opAdd, d, a, .s k.toNat)
  | .fsubs d a k => some (single opSub, d, a, .s k.toNat)
  | .fmuls d a k => some (single opMul, d, a, .s k.toNat)
  | .ffmas d a k => some (single opFma, d, a, .s k.toNat)
  | .fmins d a k => some (single opMin, d, a, .s k.toNat)
  | .fmaxs d a k => some (single opMax, d, a, .s k.toNat)
  | .hfma2s d a k => some (packed fmtF16 opFma, d, a, .s k.toNat)
  | .bfma2s d a k => some (packed fmtBf16 opFma, d, a, .s k.toNat)
  | _ => none

/-- The conversions of R136: the conversion of a code, and the fields. The value of an f32, f16, bf16, E4M3, E5M2, DM8 or
integer code is rounded to the destination's format (R88 to R90). -/
def convertWord : Instr → Option ((Nat → Nat × Word) × BitVec 7 × BitVec 7)
  | .cvtF32I32 d a r => some (fun x => cvtFromInt r.toNat (BitVec.ofNat 32 x).toInt, d, a)
  | .cvtF32N32 d a r => some (fun x => cvtFromInt r.toNat x, d, a)
  | .cvtI32F32 d a r y => some (fun x => cvtToInt true r.toNat (y == 1) (decodeFp fmtF32 x), d, a)
  | .cvtN32F32 d a r y => some (fun x => cvtToInt false r.toNat (y == 1) (decodeFp fmtF32 x), d, a)
  | .cvtF16F32 d a r y => some (fun x => cvtFp fmtF16 r.toNat (y == 1) (decodeFp fmtF32 x), d, a)
  | .cvtBf16F32 d a r y => some (fun x => cvtFp fmtBf16 r.toNat (y == 1) (decodeFp fmtF32 x), d, a)
  | .cvtE4m3F32 d a r y => some (fun x => cvtFp fmtE4m3 r.toNat (y == 1) (decodeFp fmtF32 x), d, a)
  | .cvtE5m2F32 d a r y => some (fun x => cvtFp fmtE5m2 r.toNat (y == 1) (decodeFp fmtF32 x), d, a)
  | .cvtDm8F32 d a _ => some (fun x => encodeDm8 (decodeFp fmtF32 x), d, a)
  | .cvtF32F16 d a => some (fun x => cvtFp fmtF32 0 false (decodeFp fmtF16 (x % 2 ^ 16)), d, a)
  | .cvtF32Bf16 d a => some (fun x => cvtFp fmtF32 0 false (decodeFp fmtBf16 (x % 2 ^ 16)), d, a)
  | .cvtF32E4m3 d a => some (fun x => cvtFp fmtF32 0 false (decodeFp fmtE4m3 (x % 2 ^ 8)), d, a)
  | .cvtF32E5m2 d a => some (fun x => cvtFp fmtF32 0 false (decodeFp fmtE5m2 (x % 2 ^ 8)), d, a)
  | .cvtF32Dm8 d a r => some (fun x => cvtFp fmtF32 r.toNat false (decodeDm8 (x % 2 ^ 8)), d, a)
  | _ => none

/-- A vector word with float flags in one thread: the latency, the registers with their values, and the flags it raises
(R83, R119, R130). -/
def State.floatResult (s : State) (t : Team) (g l : Nat) (i : Instr) : Option (Nat × List (RegId × DWord) × Word) :=
  let ctl := s.fpctlOf t g l
  match i with
  | .setp q ty a b k =>
    if ty.toNat ∈ [2, 3, 4] then
      let x := fpIn (cmpFmt ty.toNat) ctl (cmpCode ty.toNat (s.rdV t g l a.toNat))
      let y := fpIn (cmpFmt ty.toNat) ctl (cmpCode ty.toNat (s.rdV t g l b.toNat))
      some (4, predResult g l q (condFp k.toNat x y), sigFlag x ||| sigFlag y)
    else none
  | i => match floatWord i, convertWord i with
    | some (f, d, a, b), _ =>
      let r := f ctl (s.rdV t g l a.toNat) (s.srcValue t g l b) (s.rdV t g l d.toNat)
      some (6, [(.v g l d.toNat, r.1.setWidth 64)], r.2)
    | none, some (f, d, a) =>
      let r := f (s.rdV t g l a.toNat).toNat
      some (6, [(.v g l d.toNat, BitVec.ofNat 64 r.1)], r.2)
    | none, none => none

/-- The exact value of a finite float (R76). -/
def Val.exact : Val → Rat
  | .num neg m e => (if neg then -1 else 1) * (m : Rat) * (2 : Rat) ^ e
  | _ => 0

/-- The float formats of registers (R76). -/
def registerFmts : List Fmt := [fmtF32, fmtF16, fmtBf16]

/-! ## Full/empty producers (R107, R109, R115, R123, R137 to R141) -/

/-- The words whose vector destination is empty until its value is written: transcendentals, draws, `RDTSR` and `RREAD`
(R107, R109, R115, R137, R140). -/
def isVectorProducer : Instr → Bool
  | .rcp _ _ | .rsq _ _ | .sqrt _ _ | .exp2 _ _ | .log2 _ _ | .sinrv _ _ | .cosrv _ _ | .tanh _ _ => true
  | .rand _ _ _ | .randf _ _ _ | .rand4 _ _ _ | .rdtsr _ _ | .rread _ _ _ => true
  | _ => false

/-- A vector producer in one thread: the destination registers with their words, and the flags it raises; none for another
word, for no thread, or for a relative access out of range. -/
def State.producerResult (s : State) (t : Team) (g l : Nat) (i : Instr) : Option (List (Nat × Word) × Word) :=
  let ctl := s.fpctlOf t g l
  let trans := fun (f : Nat) (d a : BitVec 7) =>
    let r := transOf f (fpFtz ctl) (s.rdV t g l a.toNat).toNat
    some ([(d.toNat, BitVec.ofNat 32 r.1)], r.2)
  let draw := fun (a : BitVec 7) (k : BitVec 5) (out : Word × Word × Word × Word → List (Nat × Word)) =>
    (t.thread? g l).map fun x => (out (s.draw t g x a k), (0 : Word))
  match i with
  | .rcp d a => trans 0 d a
  | .rsq d a => trans 1 d a
  | .sqrt d a => trans 2 d a
  | .exp2 d a => trans 3 d a
  | .log2 d a => trans 4 d a
  | .sinrv d a => trans 5 d a
  | .cosrv d a => trans 6 d a
  | .tanh d a => trans 7 d a
  | .rand d a k => draw a k fun x => [(d.toNat, x.1)]
  | .randf d a k => draw a k fun x => [(d.toNat, BitVec.ofNat 32 (roundTo fmtF32 0 false false (x.1.toNat / 2 ^ 8) (-24)).1)]
  | .rand4 d a k => draw a k fun x =>
    [(4 * d.toNat, x.1), (4 * d.toNat + 1, x.2.1), (4 * d.toNat + 2, x.2.2.1), (4 * d.toNat + 3, x.2.2.2)]
  | .rdtsr d k => some ([(d.toNat, (s.peekReg t (.t g l k.toNat)).setWidth 32)], 0)
  | .rread d a b =>
    let n := a.toNat + (s.rdV t g l b.toNat).toNat
    if n < s.vregs t then some ([(d.toNat, s.rdV t g l n)], 0) else none
  | _ => none

/-- Is the word a random draw, which also advances the thread's draw counter (R140)? -/
def isDraw : Instr → Bool
  | .rand _ _ _ | .randf _ _ _ | .rand4 _ _ _ => true
  | _ => false

/-- A scalar producer in one group: the destination and its word: of the lowest executing lane, or of the lane named (R123). -/
def State.scalarProducer (s : State) (t : Team) (g : Nat) (i : Instr) : Option (Nat × Word) := match i with
  | .rfal a k => (s.lanesOf g).head?.map fun l => (k.toNat, s.rdV t g l a.toNat)
  | .rlane l a k => (t.group? g).map fun gr => (k.toNat, match gr.thread? l.toNat, gr.ended.find? fun x => x.lane == l.toNat with
    | some _, _ => s.rdV t g l.toNat a.toNat
    | none, some x => sget a.toNat x.v
    | none, none => 0)
  | _ => none

/-- After the word the register is empty, and an operation in flight holds the value that will fill it (R107). -/
structure Produces (s s' : State) (r : RegId) (lat : Nat) (what : OpKind → Prop) : Prop where
  empty : ∃ u, s'.team? s.cur.team = some u ∧ u.isEmpty r = true
  op : ∃ o ∈ s'.ops, o.team = s.cur.team ∧ o.due = s.now + lat ∧ what o.what

/-- What a word with a longer effect leaves as it was: every register but those in `dest`, every other team, physical memory,
and the engines and local memories of its own team. -/
structure Keeps (s s' : State) (dest : RegId → Prop) : Prop where
  regs : ∀ r, ¬ dest r → s'.reg s.cur.team r = s.reg s.cur.team r
  others : ∀ k, k ≠ s.cur.team → s'.team? k = s.team? k
  memory : s'.mem = s.mem
  engines : (s'.team? s.cur.team).map (fun t => (t.scratch, t.priv, t.tags, t.tagerr, t.chains, t.slots, t.accs, t.convs))
    = (s.team? s.cur.team).map (fun t => (t.scratch, t.priv, t.tags, t.tagerr, t.chains, t.slots, t.accs, t.convs))

/-! ## Collectives -/

/-- The vector destination of a collective word, and its register kind: a vector register or, for a vote, a predicate. -/
def collectiveDest : Instr → Option (Nat → Nat → RegId)
  | .shfl d _ _ | .shflup d _ _ | .shfldn d _ _ | .shflx d _ _ => some fun g l => .v g l d.toNat
  | .redaddI32 d _ | .redaddF32 d _ | .redmaxF32 d _ | .redminF32 d _ | .scanaddI32 d _ | .scanaddF32 d _ =>
    some fun g l => .v g l d.toNat
  | .vany d _ | .vall d _ => some fun g l => .p g l d.toNat
  | _ => none

/-! ## Taking a trap (R397) -/

/-- The last equivalence point that a thread has passed when the word at issue traps in it: the trapping word does not issue, so a
point whose slot 0 is that word is not passed (R25, R347). -/
def State.passedPoint (s : State) (g l : Nat) (y : Thread) : Option Nat :=
  if s.cur.pc = s.cur.first then
    match s.cur.was.find? fun w => w.1 == g && w.2.1 == l with
    | some w => w.2.2
    | none => y.point
  else y.point

/-- Thread l of group g of the word's team t can enter its handler at `pc`: it is outside a handler and not parked, none of its
registers is empty and no page of its frame moves, its group's `sr.tvec` names a handler, no recovery level is open, and the 64
bytes `sp` of its trap frame can be stored (R191, R397, R398). `th` is the thread with the last point it passed. -/
structure State.MayTrap (s : State) (t : Team) (g l : Nat) (gr : Group) (th : Thread) (pc : DWord) (sp : List Spot) : Prop where
  team : s.curTeam = some t
  group : t.group? g = some gr
  thread : ∃ y, t.thread? g l = some y ∧ th = { y with point := s.passedPoint g l y }
  outside : th.handler = false
  idle : th.park = none
  full : s.entryWaits t g l = false
  vector : s.handlerPc t (s.tvecNow t gr) = some pc
  levels : t.levels = []
  frame : s.privRange t th.tid .store th.tframe.toNat 64 = .ok sp

/-- Bytes stored to private places. -/
def putBytes (sp : List Spot) (bs : List Byte) (m : Bytes) : Bytes :=
  (sp.zip bs).foldl (fun m p => match p.1.loc with
    | .priv _ pa => bput pa p.2 m
    | _ => m) m

/-- The thread has entered its handler for a trap of the word at issue: cause + 256, tinst, tval and both epcs are saved, the
frame of Table 7 is stored, the thread is in HANDLER at its handler's PC in a squad of its own, and no other thread, no other
team and no byte of physical memory is touched (R397). -/
structure Entered (s s' : State) (t : Team) (g l : Nat) (th : Thread) (pc : DWord) (sp : List Spot) (cause : Nat) (tval : DWord) :
    Prop where
  thread : ∃ u x, s'.team? t.key = some u ∧ u.thread? g l = some x
    ∧ x = { th with pc := pc, handler := true, trap := none, cause := BitVec.ofNat 32 (cause + 256), tinst := s.cur.word,
                    tval := tval, epcd := (s.bothPcs t th.point s.cur.pc).1, epcl := (s.bothPcs t th.point s.cur.pc).2 }
    ∧ u.priv = putBytes sp (frameBytes x (t.kind == .lcore)) t.priv
    ∧ (∃ q ∈ u.squads, q.members = [(g, l)] ∧ q.wait = none)
    ∧ ∀ g' l', (g', l') ≠ (g, l) → u.thread? g' l' = t.thread? g' l'
  others : ∀ k, k ≠ t.key → s'.team? k = s.team? k
  memory : s'.mem = s.mem

/-! ## Control transfer (R151 to R155) -/

/-- The branch words (R151, R153). -/
def isBranch : Instr → Bool
  | .bra _ | .brp _ _ _ | .brq _ _ _ | .jmpr _ => true
  | _ => false

/-- The call words (R151, R153). -/
def isCall : Instr → Bool
  | .call _ | .callr _ => true
  | _ => false

/-- Where a branch word sends an executing thread, if it is one that transfers (R151, R153). -/
def State.branchOf (s : State) (t : Team) (g l : Nat) : Instr → Option (Option DWord)
  | .bra o => some (some (s.cur.pc + 4 * o.signExtend 64))
  | .brp n p o => some (if (s.rdP t g l p.toNat) ^^ (n == 1) then some (s.cur.pc + 4 * o.signExtend 64) else none)
  | .brq n q o => some (if (s.rdQ t g q.toNat) ^^ (n == 1) then some (s.cur.pc + 4 * o.signExtend 64) else none)
  | .jmpr a => some (some (s.rdV2 t g l (2 * a.toNat)))
  | _ => none

/-- Where a call sends an executing thread (R151, R153). -/
def State.callOf (s : State) (t : Team) (g l : Nat) : Instr → Option DWord
  | .call o => some (s.cur.pc + 4 * o.signExtend 64)
  | .callr a => some (s.rdV2 t g l (2 * a.toNat))
  | _ => none

/-- The state differs from another at most in its teams and in what is noted of the word at issue. -/
def OnlyTeams (s s' : State) : Prop := { s' with teams := [], cur := Issue.none } = { s with teams := [], cur := Issue.none }

/-- The groups of the word at issue have no chunk that has not committed, and no store that L1 has not accepted: nothing of
R221 or R222 holds the word back. -/
structure State.Unchunked (s : State) : Prop where
  stores : ∀ g ∈ s.curGids, s.storesPending s.cur.team g = false
  chunks : ∀ g ∈ s.curGids, s.groupChunks s.cur.team g = []

/-- The state in which the open chunk of each group of the word at issue has ended and the next has opened (R221). -/
def State.turned (s : State) : State := s.curGids.foldl (fun s g => s.turnChunk s.cur.team g) s

/-! ## Memory words (R187, R198, R200) -/

/-- Base pair, offset register and bytes per lane of a word that checks alignment (R187, R198, R200). -/
def accessOf : Instr → Option (BitVec 5 × BitVec 7 × Nat)
  | .ld _ k i w _ | .st _ k i w _ => some (k, i, widthBytes w.toNat)
  | .atom _ k i o _ | .red _ k i o _ => some (k, i, atomicWidth o.toNat)
  | _ => none

/-- The address a lane's access names: the pair, plus the signed 32-bit offset register unless the field is 127 (R198). -/
def State.addressOf (s : State) (t : Team) (g l : Nat) (k : BitVec 5) (i : BitVec 7) : Nat :=
  (s.rdS2 t g k.toNat + (if i = 127 then 0 else BitVec.ofInt 64 (s.rdV t g l i.toNat).toInt)).toNat

/-- The value a load finds at a lane's bytes, before it is taken into registers (R199). -/
def State.loaded (s : State) (t : Team) (l : LaneAcc) : Nat :=
  leNat (l.spots.map fun p => s.loadByte t { team := t.key, gid := l.gid, lane := l.lane } p)

/-- An operation of the word at issue is in flight. -/
def InFlight (s s' : State) (what : OpKind → Prop) : Prop := ∃ o ∈ s'.ops, o.team = s.cur.team ∧ what o.what

/-- The fence words: kind and scope (R207, R208). -/
def fenceWord : Instr → Option (Nat × BitVec 3)
  | .fenceAcq g => some (0, g)
  | .fenceRel g => some (1, g)
  | .fenceAr g => some (2, g)
  | .drainNt g => some (3, g)
  | .aliasfence g => some (4, g)
  | _ => none
/-! ## Words of one group -/

/-- The word at issue is performed for one group g of team t, its team's registers are as before its chain, and no chunk of the
group and no store that L1 has still to accept holds it back (R32, R150, R222). -/
structure State.InGroup (s : State) (t : Team) (g : Nat) : Prop where
  reads : s.readTeam = some t
  writes : s.curTeam = some t
  gids : s.curGids = [g]
  group : (t.group? g).isSome = true
  free : s.Unchunked

/-- A team of a state, and what holds of it. -/
def TeamIs (s : State) (k : Nat) (p : Team → Prop) : Prop := ∃ u, s.team? k = some u ∧ p u

/-- The squad of the word at issue waits. -/
def Waits (s s' : State) (on : WaitOn → Prop) : Prop :=
  ∀ u q, s.curTeam = some u → u.squad? s.cur.squad = some q →
    TeamIs s' s.cur.team fun u' => ∃ q' w, u'.squad? s.cur.squad = some q' ∧ q'.wait = some w ∧ on w.on

/-! ## Saves -/

/-- Does a save of the team write its private bytes back: it is in no block, no world and no fork (R179, R318, R323)? -/
def Team.writesBack (t : Team) : Prop := t.parent = none ∧ t.levels = [] ∧ t.fork = none

/-- Memory with a team's private bytes written back (R179). -/
def State.privBack (s : State) (t : Team) : List Host.Cell := t.priv.foldl (fun m p => memPut (privPa p.1) p.2 m) s.mem

/-- No COPY that a team has running has written any byte, and no team keeps copies (R230). -/
def NoChainWrites (s : State) : Prop := ∀ x ∈ s.teams, x.copies = [] ∧ ∀ c ∈ x.chains, c.wrote = []

/-- The teams without the note of the writes each has seen. -/
def State.unseen (s : State) : List Team := s.teams.map fun t => { t with seen := [] }

/-- A state after a save of team t: its private bytes are in memory, or, inside a block or a world, still its own (R179). -/
structure WroteBack (s s' : State) (t : Team) : Prop where
  out : t.writesBack → s'.mem = s.privBack t ∧ TeamIs s' t.key fun u => u.priv = []
  kept : ¬ t.writesBack → s'.mem = s.mem ∧ TeamIs s' t.key fun u => u.priv = t.priv

/-- Nothing holds back a write outside chunks: no chunk has commit priority, and no such write waits (R225, R227). -/
structure State.OpenOutside (s : State) : Prop where
  chunks : ∀ x ∈ s.lams, x.squashes < 4
  idle : s.waiting = []

/-! ## Contexts and queues -/

/-- A context of a state, and what holds of it. -/
def CtxIs (s : State) (c : Nat) (p : Context → Prop) : Prop := ∃ x, s.ctx? c = some x ∧ p x

/-- A queue of a state, and what holds of it. -/
def QueueIs (s : State) (c q : Nat) (p : Queue → Prop) : Prop := ∃ x, s.queue? c q = some x ∧ p x

/-- Memory differs at most in some bytes. -/
def MemOutside (s s' : State) (p : Nat → Prop) : Prop := ∀ a, ¬ p a → memGet a s'.mem = memGet a s.mem

/-- The bytes of a queue's descriptor that the part writes: READ and WRITE (R371). -/
def indexBytes (c : Context) (q : Nat) (a : Nat) : Prop := c.qtable + 32 * q + 16 ≤ a ∧ a < c.qtable + 32 * q + 24

/-- A packet without the time that a TIMESTAMP takes when it becomes its queue's oldest (R381). -/
def Packet.unstamped (p : Packet) : Packet := { p with stamp := none }

/-- Two lists of packets that are the same but for such times. -/
def SamePackets (ps qs : List Packet) : Prop := ps.map Packet.unstamped = qs.map Packet.unstamped

/-- A packet has left its queue, whose indices stand (R377). -/
def PacketEnded (s : State) (c : Context) (q : Queue) (p : Packet) : Prop :=
  QueueIs s c.num q.num fun x => SamePackets x.packets (q.packets.filter fun y => y.idx != p.idx) ∧ x.read = q.read ∧ x.write = q.write


/-! ## Links -/

/-- A link of the part, and what holds of it. -/
def LinkIs (s : State) (n : Nat) (p : Link → Prop) : Prop := ∃ l, s.link? n = some l ∧ p l

/-- Where bring-up leaves the part when its rails are up: BOOTFAIL where a check of steps 2 to 5 fails, else step 7 (R419, R420). -/
def Part.bootFails (p : Part) : Prop :=
  p.env.rom = false ∨ p.accept 0 = none ∨ p.accept 1 = none ∨ p.env.procs = false
    ∨ (∃ b, b < 10 ∧ p.env.trained (17 + b) ≠ .up) ∨ p.env.hbm = false ∨ p.env.trained 0 = .down

/-! ## Registers that read as constants, and arithmetic of the lanes -/

/-- The field of a word that names its scalar destination (R116, R122 to R125, R128, R164, R242, R252, R261, R289, R306, R322). -/
def scalarDest : Instr → Option (BitVec 6)
  | .sadd d _ _ | .ssub d _ _ | .smul d _ _ | .smulhI32 d _ _ | .smulhN32 d _ _ | .sand d _ _ | .sor d _ _ | .sxor d _ _
  | .sshl d _ _ | .sshr d _ _ | .ssar d _ _ | .sminI32 d _ _ | .smaxI32 d _ _ | .sminN32 d _ _ | .smaxN32 d _ _ => some d
  | .smov d _ | .saddi d _ _ | .slui d _ | .rfal _ d | .rlane _ _ d | .ssrr d _ | .mpopc _ d | .tchain d _ | .tagfirst d _
  | .oclaim d | .arrive _ _ d | .waitb _ _ _ d | .arrivex _ _ _ d | .sync _ _ d | .rbstat d | .fork d _ | .choose d _ => some d
  | _ => none

/-- The fixed tree of R99 after k levels, at a lane that is a multiple of 2^k: the lower lane is the left operand. -/
def treeAt (op : Nat → Nat → Nat) (y : Nat → Nat) : Nat → Nat → Nat
  | 0, l => y l
  | k + 1, l => op (treeAt op y k l) (treeAt op y k (l + 2 ^ k))

/-- The operators and identities of the reductions (R100 Table 10), by the sub-op of VSHUF. -/
def laneOps : List (Nat × (Nat → Nat → Nat) × Nat) :=
  [(7, addN32, 0), (8, addF32, 0x80000000), (9, maxF32, 0x7FC00000), (10, minF32, 0x7FC00000)]

/-- Those of the scans. -/
def scanOps : List (Nat × (Nat → Nat → Nat) × Nat) := [(11, addN32, 0), (12, addF32, 0x80000000)]

/-- Where a shuffle reads: the sub-ops SHFL, SHFLUP, SHFLDN, SHFLX with index n (R169). -/
def shuffleFrom (f lane n : Nat) : Int := match f with
  | 0 => n
  | 1 => (lane : Int) - n
  | 2 => (lane : Int) + n
  | _ => (lane ^^^ n : Nat)

/-- Order of two values that are no NaN (R79). -/
def Val.le : Val → Val → Prop
  | .inf a, y => a = true ∨ y = .inf false
  | _, .inf b => b = false
  | x, y => x.exact ≤ y.exact

/-- A float code read as an operand: with FTZ a subnormal is a zero of its sign (R79, R81). -/
def flushed (f : Fmt) (ftz : Bool) (c : Nat) : Nat :=
  let mag := c % 2 ^ (f.mb + f.eb)
  if ftz = true ∧ mag < 2 ^ f.mb then c - mag else c

end Sys2Proof.Machine
end

