-- ==== Sys2Proof/Certificates/Slice0/Obligations.lean ====
section
/-! DEFINITION. The statements for the provers: the rules of the spec as claims about the model. -/

open Sys2Proof Sys2Proof.Machine

/-! ## Encoding (02_encoding R30, R33, R43 to R47) -/

/-- Every well-formed instruction decodes from its word, with both values of the C bit; only `NOP` has no C bit: 0x8000_0000 is no
instruction (R30, R33). -/
def Obligations.DecodeEncode : Prop :=
  ∀ (c : Bool) (i : Instr) (w : Word), i.wf = true → encode c i = some w →
    decodeWord w = if i = .nop ∧ c = true then .error .nopBits else .ok (c, i)

/-- A word that decodes is the one word of its instruction, and the instruction is well formed: no bit that no field covers may be
set, and no field may hold a value that Table 9 or a chapter excludes (R43, R46). -/
def Obligations.EncodeDecode : Prop :=
  ∀ (w : Word) (c : Bool) (i : Instr), decodeWord w = .ok (c, i) → i.wf = true ∧ encode c i = some w

/-- Words written out in 02_encoding or from its Table 9, with what each stands for. -/
def Obligations.DecodedWords : Prop :=
  decodeWord 0x00000000#32 = .ok (false, .nop)
    ∧ decodeWord 0x82102860#32 = .ok (true, .iadd 4 5 6)
    ∧ decodeWord 0x5020A128#32 = .ok (false, .ld 8 5 9 2 0)
    ∧ decodeWord 0x22208040#32 = .ok (false, .saddi 4 4 64)
    ∧ decodeWord 0x41FFFFF7#32 = .ok (false, .bra 0x1FFFFF7)
    ∧ decodeWord 0x7C000007#32 = .ok (false, .trap 7)
    ∧ decodeWord 0x80000000#32 = .error .nopBits
    ∧ decodeWord 0x1E000000#32 = .error .reservedMajor
    ∧ decodeWord 0x2E000000#32 = .error .unassignedMajor
    ∧ decodeWord 0xFFFFFFFF#32 = .error .neverMajor

/-! ## One step -/

/-- Where an input or an engine step is due, a step performs it (R44): its meaning, on its arguments, then what the part does of
itself after any step. A cycle passes when nothing is due and no squad can issue; with the core supply removed the part stands
still, the one stop of the model (R425). -/
def Obligations.StepPerformsEvents : Prop :=
  (∀ (s s1 : State) (e : Event) (rest : List Event), s.nextEvent = some (e, rest) →
    exec e.step { s with cur := Issue.none, arg := e.arg, agenda := rest } = .next s1 →
    step s = .next ({ s1 with arg := [], cur := Issue.none, fresh := s1.fresh + 2 } : State).settle)
  ∧ (∀ (s : State), s.nextEvent = none → s.nextIssue = none →
    step s = if s.part.supply = true then .next s.tick.settle else .fault .supplyRemoved)

/-- The words that a step performs are those the packet decodes to, each on its PC with its literal, in slot order, for the threads
that issue the unit: the whole squad, or its next sub-squad (R23, R32, R37, R150). A unit of one word is its meaning, between the
beginning and the end of the unit. The hypotheses say that the squad has begun its packet, that every word of the unit decodes and
names no register beyond the kernel's, that none is an `EQPT` of a D-packet, that no thread parks at the packet for a migration and
that none reads an empty register under ETRAP (R28, R35, R39, R339, R343). -/
def Obligations.StepRunsDecoded : Prop :=
  ∀ (s : State) (t : Team) (q : Squad) (us : List UnitWord) (is : List Instr),
    s.nextEvent = none → s.part.supply = true → s.nextIssue = some (t.key, q.key) →
    s.team? t.key = some t → t.squad? q.key = some q → t.begun q = true →
    us = issueUnit t.kind (t.squadPc q) q.line →
    us.map (fun u => (decodeWord u.word).toOption.map Prod.snd) = is.map some →
    (∀ i ∈ is, s.beyond t i = none ∧ illegalIn t.kind i = false) → s.parksHere t q q.line = false →
    (∀ u ∈ us, s.etrapOf t q.line u.pc = true → ∀ i ∈ is, ∀ m ∈ q.issuing is, s.emptySource t i (q.issuing is) m = none) →
    ∃ ws s0, s.beginUnit t.key q.key = (ws, s0)
      ∧ ws.map (fun w => (w.iss.pc, w.iss.word, w.iss.lit, w.instr)) = (us.zip is).map (fun u => (u.1.pc, u.1.word, u.1.lit, u.2))
      ∧ (∀ w ∈ ws, w.iss.team = t.key ∧ w.iss.squad = q.key ∧ w.iss.members = q.issuing is)
      ∧ step s = s.issueWords t.key q.key
      ∧ ∀ w s1, ws = [w] → exec w.instr (s0.forWord w.iss) = .next s1 → s1.cur.retry = false → s1.cur.whole = [] →
          let s2 := s1.afterWord w.instr
          let cur := { s2.cur with gone := s1.cur.gone, parted := s0.cur.parted || s1.cur.parted }
          step s = .next (({ s2 with cur := cur } : State).endUnit s0 t.key q.key [w]).settle

/-- Before its first word issues, a squad's packet is fetched from the memory its PC translates to, and the words found there are
those it will issue (R21, R27, R34); the core holds none of them from before. -/
def Obligations.PacketFetched : Prop :=
  ∀ (s : State) (t : Team) (q : Squad) (p : Page) (pa : Nat),
    s.arg = [t.key, q.key] → s.team? t.key = some t → t.squad? q.key = some q → t.kind = .dcore →
    t.begun q = false → s.canIssue t q = true → s.fetchAt t (t.squadPc q) = .ok (p, pa) →
    (∀ va, s.heldWord t va = none) →
    packetError (s.fetched t (t.squadPc q) pa) = none → s.parksHere t q (s.fetched t (t.squadPc q) pa) = false →
    s.fetched t (t.squadPc q) pa = (List.range 4).map (fun n => BitVec.ofNat 32 (memNat (pa + 4 * n) 4 s.mem))
      ∧ ∃ s' u x, exec .packetIssue s = .next s' ∧ s'.team? t.key = some u ∧ u.squad? q.key = some x
        ∧ x.line = s.fetched t (t.squadPc q) pa ∧ x.packet = some (packetOf t.kind (t.squadPc q)) ∧ x.t0 = s.now
        ∧ s'.mem = s.mem

/-! ## Words that write registers (05_thread, 06_thread_float, 07_group) -/

/-- `s0`, the pair `s0:s1`, `p0` and `q0` read as constants and discard what is written to them; `s63` as a source is the literal,
and no word that names it as a destination is an instruction (R105). -/
def Obligations.ConstantRegisters : Prop :=
  (∀ (s : State) (t : Team) (g l now lat : Nat) (x : DWord),
    s.rdS t g 0 = 0 ∧ s.rdS t g 63 = s.cur.lit ∧ s.rdS2 t g 0 = 0 ∧ s.rdP t g l 0 = true ∧ s.rdQ t g 0 = true
    ∧ (∀ k, 0 < k → k < 31 → s.rdS2 t g k = s.rdS t g (2 * k + 1) ++ s.rdS t g (2 * k))
    ∧ (∀ r ∈ [RegId.s g 0, .p g l 0, .q g 0], t.write now lat (r, x) = t ∧ t.markEmpty r = t ∧ (∀ q, (t.fill (r, x)).peek q = t.peek q))
    ∧ pairWrites g 0 x = [])
  ∧ ∀ (i : Instr), scalarDest i = some 63 → ∀ c w, decodeWord w ≠ .ok (c, i)

/-- The vector integer, compare, predicate, select, move and bit words complete on all operands, `RWRITE` where its index lies below
the kernel's `.vregs`: they write in every executing thread exactly the value the spec gives, readable by words that issue the
latency of R48 later, and nothing else changes (R48, R105, R115 to R122, R135). -/
def Obligations.IntegerWords : Prop :=
  ∀ (i : Instr) (s : State) (t u : Team), isLaneWord i = true → i.wf = true → s.readTeam = some t → s.curTeam = some u →
    (∀ d a b, i = .rwrite d a b → ∀ m ∈ s.members, a.toNat + (s.rdV t m.1 m.2 b.toNat).toNat < s.vregs t) →
    ∃ s', exec i s = .next s'
      ∧ (∀ g l, s.Executes t u g l → ∃ lat ws, s.laneResult t g l i = some (lat, ws) ∧ ∀ w ∈ ws, Lands s s' w.1 lat w.2)
      ∧ OnlyRegs s s' fun r => ∃ g l lat ws x, (g, l) ∈ s.members ∧ s.laneResult t g l i = some (lat, ws) ∧ (r, x) ∈ ws

/-- The scalar, uniform-predicate and mask words complete on all operands: they write once in every group of the executing threads,
and nothing else changes (R48, R106, R124 to R127, R150, R164, R165). Of two whole-mask writes in one cycle the spec leaves open
which stays, so no other is taken to have been made in this cycle. -/
def Obligations.ScalarWords : Prop :=
  ∀ (i : Instr) (s : State) (t u : Team), isScalarWord i = true → i.wf = true → s.readTeam = some t → s.curTeam = some u →
    (∀ x ∈ u.maskLog, x.cycle = s.now → x.whole = none) →
    ∃ s', exec i s = .next s'
      ∧ (∀ g, s.ExecutesGroup t u g → ∃ lat ws, s.groupResult t u g i = some (lat, ws) ∧ ∀ w ∈ ws, Lands s s' w.1 lat w.2)
      ∧ OnlyRegs s s' fun r => ∃ g lat ws x, g ∈ s.curGids ∧ s.groupResult t u g i = some (lat, ws) ∧ (r, x) ∈ ws

/-- The float words and conversions: where no thread takes `FPX`, each executing thread's result lands with its latency, its flags
are ORed into fpflags by an operation that falls due with the result, and nothing else changes (R48, R119, R130 to R136). -/
def Obligations.FloatWords : Prop :=
  ∀ (i : Instr) (s : State) (t u : Team), isFloatWord i = true → i.wf = true → s.readTeam = some t → s.curTeam = some u →
    (∀ g l r, (g, l) ∈ s.members → s.floatResult t g l i = some r → takesFpx (s.fpctlOf t g l) r.2.2 = false) →
    ∃ s', exec i s = .next s'
      ∧ (∀ g l, s.Executes t u g l → ∃ lat ws fl, s.floatResult t g l i = some (lat, ws, fl)
          ∧ (∀ w ∈ ws, Lands s s' w.1 lat w.2)
          ∧ (fl ≠ 0 → ∃ o ∈ s'.ops, o.team = s.cur.team ∧ o.due = s.now + lat
              ∧ ∃ late, o.what = .tsr late ∧ (g, l, orFlagsIndex, fl) ∈ late))
      ∧ OnlyRegs s (s'.withOps s) fun r => ∃ g l lat ws fl x, (g, l) ∈ s.members
          ∧ s.floatResult t g l i = some (lat, ws, fl) ∧ (r, x) ∈ ws

/-- A float word that raises an enabled flag takes `FPX` with the flags raised as tval: the flags are ORed at once and the
destination is not written (R84, R131). Stated for a squad of one thread. A relative register number at or above the kernel's
`.vregs` raises `REGBOUND` with the number as tval (R115). Stated for a squad of one thread. A lane whose address is not aligned
on the access's width raises `MISALIGN` with the address as tval, before every other fault and without any effect of the access
(R186, R187, R397), unless the word is one of a group that has ended its turn with `TKDONE` on a page of DS 1, which is `ILLOP`
(R369). Stated for a squad of one thread that can enter its handler. -/
def Obligations.TrappingOperands : Prop :=
  (∀ (i : Instr) (s : State) (t u : Team) (g l lat : Nat) (ws : List (RegId × DWord)) (fl : Word),
    s.members = [(g, l)] → s.Executes t u g l → s.floatResult t g l i = some (lat, ws, fl) →
    takesFpx (s.fpctlOf t g l) fl = true →
    exec i s = .next ((s.modThread s.cur.team g l fun x => { x with fpflags := x.fpflags ||| fl }).takeTraps
      [(g, l, cFpx, fl.setWidth 64)]))
  ∧ (∀ (d a b : BitVec 7) (i : Instr) (s : State) (t u : Team) (g l : Nat), i ∈ [Instr.rread d a b, .rwrite d a b] →
    s.members = [(g, l)] → s.Executes t u g l → s.vregs t ≤ a.toNat + (s.rdV t g l b.toNat).toNat →
    exec i s = .next (s.takeTraps [(g, l, cRegbound, BitVec.ofNat 64 (a.toNat + (s.rdV t g l b.toNat).toNat))]))
  ∧ (∀ (i : Instr) (s : State) (t : Team) (c : Context) (g l : Nat) (gr : Group) (th : Thread) (pc : DWord) (sp : List Spot) (k : BitVec 5)
    (off : BitVec 7) (n : Nat),
    s.MayTrap t g l gr th pc sp → s.readTeam = some t → s.members = [(g, l)] → s.ctxOf t = some c → s.Unchunked →
    accessOf i = some (k, off, n) → misaligned (s.addressOf t g l k off) n = true →
    let done := (∀ d k' o w nt, i ≠ .ld d k' o w nt) ∧ s.dsDoneFault t (g, l, s.addressOf t g l k off, AFault.of cMisalign) = true
    (¬ done → ∃ s', exec i s = .next s' ∧ Entered s s' t g l th pc sp cMisalign (BitVec.ofNat 64 (s.addressOf t g l k off)))
    ∧ (done → s.before = none → ∃ s', exec i s = .next s'
      ∧ Entered s s' t g l th pc sp cIllop (BitVec.ofNat 64 (s.addressOf t g l k off))))

/-- `FMIN` and `FMAX`: the other operand when exactly one is a NaN, the canonical NaN when both are, else the smaller or larger of
the two as they are read, bit for bit, with −0 below +0 (R79). -/
def Obligations.MinMaxOperands : Prop :=
  ∀ (f : Fmt) (op : FpOp) (isMax : Bool) (ctl : Word) (a b c : Nat), f ∈ registerFmts → (op, isMax) ∈ [(opMin, false), (opMax, true)] →
    a < 2 ^ (f.mb + f.eb + 1) → b < 2 ^ (f.mb + f.eb + 1) →
    let x := flushed f (fpFtz ctl) a
    let y := flushed f (fpFtz ctl) b
    let r := (op f ctl a b c).1
    (isNan (decodeFp f x) = true → isNan (decodeFp f y) = true → r = canonNan f)
    ∧ (isNan (decodeFp f x) = true → isNan (decodeFp f y) = false → r = y)
    ∧ (isNan (decodeFp f x) = false → isNan (decodeFp f y) = true → r = x)
    ∧ (isNan (decodeFp f x) = false → isNan (decodeFp f y) = false →
      (r = x ∨ r = y)
      ∧ (isMax = false → (decodeFp f r).le (decodeFp f x) ∧ (decodeFp f r).le (decodeFp f y))
      ∧ (isMax = true → (decodeFp f x).le (decodeFp f r) ∧ (decodeFp f y).le (decodeFp f r))
      ∧ (isZero (decodeFp f x) = true → isZero (decodeFp f y) = true → x ≠ y → isNeg (decodeFp f r) = !isMax))
    ∧ ∀ (d v w : BitVec 7) (k : BitVec 6),
      (floatWord (.fmin d v w) = some (single opMin, d, v, .v w.toNat) ∧ floatWord (.fmax d v w) = some (single opMax, d, v, .v w.toNat))
      ∧ (floatWord (.fmins d v k) = some (single opMin, d, v, .s k.toNat) ∧ floatWord (.fmaxs d v k) = some (single opMax, d, v, .s k.toNat))
      ∧ floatWord (.hmin2 d v w) = some (packed fmtF16 opMin, d, v, .v w.toNat)
      ∧ floatWord (.hmax2 d v w) = some (packed fmtF16 opMax, d, v, .v w.toNat)

/-- Every sum, difference, product and fused product and sum of finite operands is the exact result rounded once to the format
under the rounding mode of fpctl; each element of a packed word is computed and rounded on its own in its own format (R77). -/
def Obligations.ExactThenRounded : Prop :=
  (∀ (f : Fmt) (ctl : Word) (a b c : Nat) (x y z : Val), f ∈ registerFmts → fpFtz ctl = false →
    x = decodeFp f a → y = decodeFp f b → z = decodeFp f c →
    (∃ n m e, x = .num n m e) → (∃ n m e, y = .num n m e) → (∃ n m e, z = .num n m e) →
    ∀ (neg : Bool) (m : Nat) (e : Int), m ≠ 0 →
      let v := (Val.num neg m e).exact
      let r := roundTo f (fpRm ctl) false neg m e
      (v = x.exact + y.exact → opAdd f ctl a b c = r) ∧ (v = x.exact - y.exact → opSub f ctl a b c = r)
      ∧ (v = x.exact * y.exact → opMul f ctl a b c = r) ∧ (v = x.exact * y.exact + z.exact → opFma f ctl a b c = r))
  ∧ ∀ (f : Fmt) (op : FpOp) (ctl x y z : Word), f ∈ [fmtF16, fmtBf16] → op ∈ [opAdd, opSub, opMul, opFma, opMin, opMax] →
    let lo := op f ctl (x.toNat % 2 ^ 16) (y.toNat % 2 ^ 16) (z.toNat % 2 ^ 16)
    let hi := op f ctl (x.toNat / 2 ^ 16) (y.toNat / 2 ^ 16) (z.toNat / 2 ^ 16)
    (packed f op ctl x y z).1.toNat % 2 ^ 16 = lo.1 ∧ (packed f op ctl x y z).1.toNat / 2 ^ 16 = hi.1
      ∧ (packed f op ctl x y z).2 = lo.2 ||| hi.2

/-- Rounding to nearest (R80, R83): the rounded code of a value that is not zero is finite and no finite code is nearer, with an
even code where two are equally near, or it is the infinity and the value lies beyond every finite code; FX is raised exactly when
the result is not the exact value. Directed rounding (R80): toward zero, down and up the result lies on its side of the exact
value, and no finite code lies between. An overflow in rounding down or up toward infinity gives the infinity. -/
def Obligations.Rounding : Prop :=
  (∀ (f : Fmt) (neg : Bool) (m : Nat) (e : Int), f ∈ registerFmts → m ≠ 0 →
    let c := (roundTo f 0 false neg m e).1
    let x := (Val.num neg m e).exact
    (∃ n k g, decodeFp f c = .num n k g
        ∧ (∀ c' n' k' g', decodeFp f c' = .num n' k' g' →
            |(Val.num n k g).exact - x| ≤ |(Val.num n' k' g').exact - x|
            ∧ (|(Val.num n' k' g').exact - x| = |(Val.num n k g).exact - x| →
                (Val.num n' k' g').exact ≠ (Val.num n k g).exact → c % 2 = 0))
        ∧ ((roundTo f 0 false neg m e).2 &&& flagFX = 0 ↔ (Val.num n k g).exact = x))
      ∨ (decodeFp f c = .inf neg ∧ (roundTo f 0 false neg m e).2 = flagFO ||| flagFX
        ∧ ∀ c' n' k' g', decodeFp f c' = .num n' k' g' → |(Val.num n' k' g').exact| < |x|))
  ∧ (∀ (f : Fmt) (rm : Nat) (neg : Bool) (m : Nat) (e : Int), f ∈ registerFmts → rm ∈ [1, 2, 3] → m ≠ 0 →
    let c := (roundTo f rm false neg m e).1
    let x := (Val.num neg m e).exact
    let side := fun (y : Rat) => if rm = 1 then |y| ≤ |x| ∧ 0 ≤ y * x else if rm = 2 then y ≤ x else x ≤ y
    (∃ n k g, decodeFp f c = .num n k g ∧ side (Val.num n k g).exact
        ∧ ∀ c' n' k' g', decodeFp f c' = .num n' k' g' → side (Val.num n' k' g').exact →
            |(Val.num n k g).exact - x| ≤ |(Val.num n' k' g').exact - x|)
      ∨ (decodeFp f c = .inf neg ∧ (rm = 2 ∧ neg = true ∨ rm = 3 ∧ neg = false)
        ∧ ∀ c' n' k' g', decodeFp f c' = .num n' k' g' → ¬ side (Val.num n' k' g').exact))

/-- The transcendentals, draws, `RDTSR` and `RREAD` empty their destination, whose word an operation in flight carries, with the
flags it raises; a draw advances its thread's counter at issue; no other register changes (R107, R109, R115, R130, R137, R140).
They complete where no thread takes `FPX` and `RREAD`'s index lies below the kernel's `.vregs`; `RFAL` and `RLANE` always. The
delay is the model's free value (log entry 5). `RFAL` and `RLANE` empty their scalar in every group, and an operation in flight
carries the word of the lane; with `s0` as the destination nothing is written (R105, R107, R123). -/
def Obligations.Producers : Prop :=
  (∀ (i : Instr) (s : State) (t u : Team), isVectorProducer i = true → i.wf = true → s.readTeam = some t → s.curTeam = some u →
    (∀ d a b, i = .rread d a b → ∀ m ∈ s.members, a.toNat + (s.rdV t m.1 m.2 b.toNat).toNat < s.vregs t) →
    (∀ g l r, (g, l) ∈ s.members → s.producerResult t g l i = some r → takesFpx (s.fpctlOf t g l) r.2 = false) →
    ∃ s', exec i s = .next s'
      ∧ (∀ g l, s.Executes t u g l → ∃ ws fl, s.producerResult t g l i = some (ws, fl)
          ∧ (∀ w ∈ ws, Produces s s' (.v g l w.1) s.delay fun k => ∃ all, k = .vres all 0 ∧ (g, l, w.1, w.2) ∈ all)
          ∧ (fl ≠ 0 → ∃ o ∈ s'.ops, o.team = s.cur.team ∧ o.due = s.now + s.delay
              ∧ ∃ late, o.what = .tsr late ∧ (g, l, orFlagsIndex, fl) ∈ late))
      ∧ (isDraw i = true → ∀ g l x, s.Executes t u g l → t.thread? g l = some x →
          ∃ u' x', s'.team? s.cur.team = some u' ∧ u'.thread? g l = some x' ∧ x'.draw = x.draw + 1)
      ∧ Keeps s s' fun r => isDraw i = true ∧ ∃ g l, (g, l) ∈ s.members ∧ (r = .t g l 2 ∨ r = .t g l 3))
  ∧ (∀ (i : Instr) (s : State) (t u : Team) (k : BitVec 6), (∃ a, i = .rfal a k ∨ ∃ l, i = .rlane l a k) → i.wf = true →
    s.readTeam = some t → s.curTeam = some u →
    ∃ s', exec i s = .next s'
      ∧ (k = 0 → s' = s)
      ∧ (k ≠ 0 → ∀ g, s.ExecutesGroup t u g → ∃ x, s.scalarProducer t g i = some (k.toNat, x)
          ∧ Produces s s' (.s g k.toNat) s.delay fun o => o = .sres g k.toNat x)
      ∧ Keeps s s' fun _ => False)

/-- A result is written when its operation is due: a vector or scalar destination becomes full with the operation's word, late
float flags are ORed into fpflags, and the operation is no longer in flight (R49, R107, R130). -/
def Obligations.ResultsWritten : Prop :=
  ∀ (s : State) (o : Op) (u : Team), s.arg = [o.key] → s.op? o.key = some o → o.what.isResult = true → o.due ≤ s.now →
    s.team? o.team = some u →
    ∃ s' u', exec .resultWriteback s = .next s' ∧ s'.team? o.team = some u' ∧ s'.op? o.key = none ∧ s'.mem = s.mem
      ∧ (∀ ws g l n x, o.what = .vres ws 0 → (u.thread? g l).isSome = true → (g, l, n, x) ∈ ws →
          (∀ y, (g, l, n, y) ∈ ws → y = x) →
          u'.peek (.v g l n) = x.setWidth 64 ∧ u'.isEmpty (.v g l n) = false)
      ∧ (∀ g n x, o.what = .sres g n x → n ≠ 0 → (u.group? g).isSome = true →
          u'.peek (.s g n) = x.setWidth 64 ∧ u'.isEmpty (.s g n) = false)
      ∧ (∀ late g l x fl, o.what = .tsr late → (∀ w ∈ late, w.2.2.1 = orFlagsIndex) → (g, l, orFlagsIndex, fl) ∈ late →
          u.thread? g l = some x → ∃ x', u'.thread? g l = some x' ∧ x'.fpflags &&& fl = fl)

/-- `SSRR` writes the special register's value of R110 to its scalar with latency 4, and reading the low half of a 64-bit register
latches the half above (R110, R111, R128); outside the latency of what writes the register or the latch it takes. A read of
`sr.tags` also observes the tags that are set (R230). `SSRW` writes its special register, to be read 4 cycles later: tag errors
clear where a 1 is written, the low half of `sr.tvec` waits in its latch for the high half, `sr.trayage` keeps 16 bits; nothing
else changes (R110, R111, R128). `WRTSR` writes a per-thread special register: fpctl and fpflags by an operation due 4 cycles
later, the others with the latency of a VA word; reserved bits of rsp and tframe read as zero (R48, R109, R129, R130). -/
def Obligations.SpecialRegisters : Prop :=
  (∀ (k : BitVec 6) (r : BitVec 12) (s : State) (t u : Team) (g : Nat) (gr : Group),
    s.ExecutesGroup t u g → t.group? g = some gr →
    s.srWindow t g ((srTaken r.toNat).headD r.toNat) = none →
    ∃ s' u' gr', exec (.ssrr k r) s = .next s' ∧ s'.team? s.cur.team = some u' ∧ u'.group? g = some gr'
      ∧ (k ≠ 0 → Lands s s' (.s g k.toNat) 4 ((s.readSr t gr (s.lanesOf g) r.toNat).setWidth 64))
      ∧ (r = 0x008 → gr'.clockLatch = BitVec.ofNat 32 ((s.clock t gr (s.lanesOf g)).toNat / 2 ^ 32))
      ∧ (r = 0x010 → gr'.tagsLatch = BitVec.ofNat 32 (t.tags.toNat / 2 ^ 32))
      ∧ (r = 0x012 → s.srWindow t g 0x213 = none → gr'.tagerrLatch = BitVec.ofNat 32 (t.tagerr.toNat / 2 ^ 32))
      ∧ Keeps (if r = 0x010 then s.observeTags t.key t.tags else s) s' fun r' => ∃ g, r' = .s g k.toNat)
  ∧ (∀ (k : BitVec 6) (r : BitVec 12) (s : State) (t : Team) (g : Nat) (gr : Group), s.InGroup t g → t.group? g = some gr →
    s.srWindow t g 0x118 = none →
    let x := s.rdS t g k.toNat
    ∃ s' u gr', exec (.ssrw k r) s = .next s' ∧ s'.team? s.cur.team = some u ∧ u.group? g = some gr'
      ∧ (r = 0x012 → u.tagerr = t.tagerr &&& ~~~(x.setWidth 64))
      ∧ (r = 0x013 → u.tagerr = t.tagerr &&& ~~~(x.setWidth 64 <<< 32))
      ∧ (r = 0x018 → gr'.tvecLatch = x ∧ gr'.tvec = gr.tvec)
      ∧ (r = 0x019 → gr'.tvec = x ++ gr.tvecLatch)
      ∧ (r = 0x032 → u.trayage = x &&& 0xFFFF#32)
      ∧ (∃ w ∈ u.windows, w.reg = .sr g (if r = 0x018 then 0x118 else if r = 0x013 then 0x213 else r.toNat) ∧ w.ready = some (s.now + 4))
      ∧ (∀ q, (∀ n, q ≠ .sr g n) → s'.reg s.cur.team q = s.reg s.cur.team q)
      ∧ (r ≠ 0x012 → r ≠ 0x013 → u.tagerr = t.tagerr) ∧ (r ≠ 0x032 → u.trayage = t.trayage) ∧ u.tags = t.tags
      ∧ s'.mem = s.mem ∧ ∀ n, n ≠ s.cur.team → s'.team? n = s.team? n)
  ∧ (∀ (a : BitVec 7) (k : BitVec 6) (s : State) (t u : Team), (Instr.wrtsr a k).wf = true →
    s.readTeam = some t → s.curTeam = some u →
    ∃ s', exec (.wrtsr a k) s = .next s'
      ∧ (k = 5 ∨ k = 6 → ∃ o ∈ s'.ops, o.team = s.cur.team ∧ o.due = s.now + 4 ∧ ∃ ws, o.what = .tsr ws
          ∧ (∀ g l, (g, l) ∈ s.members → (g, l, k.toNat, s.rdV t g l a.toNat) ∈ ws) ∧ OnlyRegs s (s'.withOps s) fun _ => False)
      ∧ (k ≠ 5 → k ≠ 6 → (∀ g l, s.Executes t u g l → Lands s s' (.t g l k.toNat) 4 ((s.rdV t g l a.toNat
            &&& (if k = 4 then 0xFFFFFFF8#32 else if k = 15 then 0xFFFFFFC0#32 else 0xFFFFFFFF#32)).setWidth 64))
          ∧ Keeps s s' fun r => ∃ g l, (g, l) ∈ s.members ∧ r = .t g l k.toNat))

/-! ## Collective words (R167 to R171) -/

/-- A thread that reaches a collective word waits at it; when the collective has been performed, each thread's result lands 8
cycles later and nothing else changes; `BALLOT`'s pair has been written at the performance (R48, R167 to R171). A thread at
`WAITM` waits at the word; once its mask has released it, the word has no further effect (R166). -/
def Obligations.CollectiveWords : Prop :=
  (∀ (i : Instr) (s : State) (u : Team), s.curTeam = some u →
    ((collectiveDest i).isSome = true ∨ ∃ d a, i = .ballot d a) →
    (s.passed = none → exec i s = .next (s.waitOn .collective))
      ∧ (∀ got, s.passed = some got → ∃ s', exec i s = .next s'
          ∧ (∀ d a, i = .ballot d a → s' = s)
          ∧ (∀ dest g l x, collectiveDest i = some dest → (g, l) ∈ s.members → (u.thread? g l).isSome = true →
              (g, l, x) ∈ got → (∀ y, (g, l, y) ∈ got → y = x) → x < 2 ^ 32 →
              (∀ d a, i = .vany d a ∨ i = .vall d a → x < 2) → (dest g l).discards = false →
              Lands s s' (dest g l) 8 (BitVec.ofNat 64 x))
          ∧ OnlyRegs s s' fun r => ∃ dest g l, collectiveDest i = some dest ∧ (g, l) ∈ s.members ∧ r = dest g l))
  ∧ (∀ (m : BitVec 4) (s : State),
    (s.passed = none → exec (.waitm m) s = .next (s.waitOn (.mask m.toNat)))
      ∧ ((s.passed).isSome = true → exec (.waitm m) s = .next s))

/-- What the participants of a collective receive. A reduction is the fixed tree of R99 over 64 lanes with identities where none
takes part, a scan the serial one of R100 in lane order; a shuffle gives the value of the source lane, a participant's own where
that lane is outside or holds none; a vote is the OR or the AND; `BALLOT` writes the pair of bits once (R99, R100, R169, R170). -/
def Obligations.CollectiveResults : Prop :=
  (∀ (ps : List Part1) (width : Nat), (ps.map Part1.lane).Pairwise (· < ·) → (∀ p ∈ ps, p.lane < width) → width = 32 ∨ width = 64 →
    ∀ p ∈ ps,
      (∀ f op identity, (f, op, identity) ∈ laneOps → ∀ y : Nat → Nat,
        (∀ l, (∀ q ∈ ps, q.lane = l → y l = q.x.toNat) ∧ ((∀ q ∈ ps, q.lane ≠ l) → y l = identity)) →
        (p.lane, BitVec.ofNat 32 (treeAt op y 6 0)) ∈ collective f width ps)
      ∧ (∀ f op identity, (f, op, identity) ∈ scanOps →
        (p.lane, BitVec.ofNat 32 ((ps.filter fun q => q.lane ≤ p.lane).foldl (fun a q => op a q.x.toNat) identity)) ∈ collective f width ps)
      ∧ (∀ f, f < 4 →
        let source := shuffleFrom f p.lane (p.n.toNat % width)
        (∀ q ∈ ps, (q.lane : Int) = source → (p.lane, q.x) ∈ collective f width ps)
        ∧ ((∀ q ∈ ps, (q.lane : Int) ≠ source) → (p.lane, p.x) ∈ collective f width ps))
      ∧ (p.lane, if ps.any fun q => q.p then 1 else 0) ∈ collective 4 width ps
      ∧ (p.lane, if ps.all fun q => q.p then 1 else 0) ∈ collective 5 width ps)
  ∧ ∀ (s : State) (t : Team) (g : Nat) (lanes : List Nat) (k : BitVec 6) (a : BitVec 3) (w : Word), s.team? t.key = some t →
    (t.group? g).isSome = true → (Instr.ballot k a).wf = true → k ≠ 0 → encode false (.ballot k a) = some w → lanes.Nodup →
    (∀ l ∈ lanes, l < 64) →
    ∃ m : DWord, (s.performColl t.key g w lanes).reg t.key (.s g k.toNat) = (m.setWidth 32).setWidth 64
      ∧ (s.performColl t.key g w lanes).reg t.key (.s g (k.toNat + 1)) = m >>> 32
      ∧ ∀ l, l < 64 → m.getLsbD l = (decide (l ∈ lanes) && s.rdP t g l a.toNat)

/-! ## Traps (18_context R394, R397, R399) -/

/-- A thread that traps enters its handler (R397). `TRAP` enters the handler with cause `SWTRAP` and its immediate as tval, `BKPT`
with cause `BKPT` (R397, R399). Stated for a squad of one thread. `RTT` in a handler puts back v0 to v7 and p1 to p7 from the
frame and resumes at the epc of the running encoding; outside a handler it raises `ILLOP`, at a PC where no thread may resume
`BADTARGET` (R36, R399); a frame on a page whose move the walk waits for is waited for (R191). Stated for a squad of one thread. -/
def Obligations.TrapsAndReturns : Prop :=
  (∀ (s : State) (t : Team) (g l : Nat) (gr : Group) (th : Thread) (pc : DWord) (sp : List Spot) (cause : Nat) (tval : DWord),
    s.MayTrap t g l gr th pc sp → undoesChain cause = false ∨ s.before = none →
    Entered s (s.takeTraps [(g, l, cause, tval)]) t g l th pc sp cause tval)
  ∧ (∀ (s : State) (t : Team) (g l : Nat) (gr : Group) (th : Thread) (pc : DWord) (sp : List Spot) (n : BitVec 8),
    s.MayTrap t g l gr th pc sp → s.members = [(g, l)] →
    (∃ s', exec (.trap n) s = .next s' ∧ Entered s s' t g l th pc sp cSwtrap (BitVec.ofNat 64 n.toNat))
      ∧ ∃ s', exec .bkpt s = .next s' ∧ Entered s s' t g l th pc sp cBkpt 0)
  ∧ (∀ (s : State) (t : Team) (g l : Nat) (th : Thread), s.curTeam = some t → s.members = [(g, l)] →
    t.thread? g l = some th →
    (th.handler = false → exec .rtt s = .next (s.takeTraps [(g, l, cIllop, 0)]))
      ∧ (th.handler = true → s.cur.cleared = false → s.privMoves t th false th.tframe.toNat 64 = true →
          exec .rtt s = .next s.retryWord)
      ∧ ∀ sp, th.handler = true → s.privRange t th.tid .load th.tframe.toNat 64 = .ok sp →
        s.cur.cleared = true ∨ s.privMoves t th false th.tframe.toNat 64 = false →
        (s.resumeOk t (if t.kind = .dcore then th.epcd else th.epcl) = false →
          exec .rtt s = .next (s.takeTraps [(g, l, cBadtarget, if t.kind = .dcore then th.epcd else th.epcl)]))
        ∧ (s.resumeOk t (if t.kind = .dcore then th.epcd else th.epcl) = true →
          ∃ s' u x, exec .rtt s = .next s' ∧ s'.team? t.key = some u ∧ u.thread? g l = some x
            ∧ x.handler = false ∧ x.pc = (if t.kind = .dcore then th.epcd else th.epcl)
            ∧ (∀ n, n < 8 → sget n x.v = BitVec.ofNat 32 (leNat (((sp.map fun p =>
                s.readByte t { team := t.key, gid := g, lane := l } p).drop (4 * n)).take 4)))
            ∧ (∀ n, 8 ≤ n → sget n x.v = sget n th.v)
            ∧ x.p = (sp.map fun p => s.readByte t { team := t.key, gid := g, lane := l } p).getD 32 0 ||| 1#8
            ∧ OnlyTeams s s' ∧ (∀ k, k ≠ t.key → s'.team? k = s.team? k)))

/-! ## Control transfer (07_group R151 to R161) -/

/-- The branch words complete where no thread goes to a forbidden target: they move the threads that take them to their targets,
and the others stay past the word; nothing else changes (R22, R151, R153). A target that no transfer may reach raises `BADTARGET`
with the target as tval (R22, R154). Stated for a squad of one thread and for every branch and call. -/
def Obligations.Branches : Prop :=
  (∀ (i : Instr) (s : State) (t u : Team), isBranch i = true → s.readTeam = some t → s.curTeam = some u →
    (∀ m ∈ s.members, ∀ pc, s.branchOf t m.1 m.2 i = some (some pc) → targetOk u pc = true) →
    ∃ s' u', exec i s = .next s' ∧ s'.team? s.cur.team = some u'
      ∧ (∀ g l x, s.Executes t u g l → u.thread? g l = some x →
          u'.thread? g l = some (match s.branchOf t g l i with
            | some (some pc) => { x with pc := pc }
            | _ => x))
      ∧ (∀ g l, (g, l) ∉ s.members → u'.thread? g l = u.thread? g l)
      ∧ OnlyTeams s s' ∧ Keeps s s' fun _ => False)
  ∧ (∀ (i : Instr) (s : State) (t u : Team) (g l : Nat) (pc : DWord), s.readTeam = some t → s.curTeam = some u →
    s.members = [(g, l)] → targetOk u pc = false →
    s.branchOf t g l i = some (some pc) ∨ s.callOf t g l i = some pc →
    exec i s = .next (s.takeTraps [(g, l, cBadtarget, pc)]))

/-- A call pushes in each thread the PC after its packet, or in the L-stream after its word, and transfers; with 8 entries held
the oldest is first spilled to private memory (R113, R152, R153). `RET` pops the top of each thread's return stack and transfers
there; beyond 8 entries the oldest held is refilled from private memory, where no change of `rsp` since its spill leaves its value
open (R114); an empty stack raises `RSTACK` (R113, R155). A spill or a refill on a page under a move waits for the move (R191). -/
def Obligations.CallsAndReturns : Prop :=
  (∀ (i : Instr) (s : State) (t u : Team), isCall i = true → s.readTeam = some t → s.curTeam = some u →
    (∀ m ∈ s.members, ∀ pc, s.callOf t m.1 m.2 i = some pc → targetOk u pc = true) →
    let ret := if u.kind = .dcore then BitVec.ofNat 64 (s.cur.pc.toNat / 16 * 16 + 20) else s.cur.pc + 4
    ((∀ m ∈ s.members, ∀ x, u.thread? m.1 m.2 = some x → x.depth < 8) → s.members.Nodup →
      ∃ s' u', exec i s = .next s' ∧ s'.team? s.cur.team = some u'
        ∧ (∀ g l x, s.Executes t u g l → u.thread? g l = some x → ∃ pc, s.callOf t g l i = some pc
            ∧ u'.thread? g l = some { x with pc := pc, stack := ret :: x.stack, depth := x.depth + 1, unsure := 0 })
        ∧ OnlyTeams s s' ∧ Keeps s s' fun _ => False)
    ∧ (s.cur.cleared = false → s.stackMoves u s.members true = true → exec i s = .next s.retryWord)
    ∧ ∀ g l x pc sp, s.members = [(g, l)] → u.thread? g l = some x → 8 ≤ x.depth → s.callOf t g l i = some pc →
      s.cur.cleared = true ∨ s.stackMoves u s.members true = false →
      s.privRange u x.tid .store (x.rsp.toNat + 8 * (x.depth - 8)) 8 = .ok sp →
      ∃ s' u', exec i s = .next s' ∧ s'.team? s.cur.team = some u'
        ∧ u'.thread? g l = some { x with pc := pc, stack := ret :: x.stack.take 7, depth := x.depth + 1,
                                         unsure := min x.unsure (x.depth - 8) }
        ∧ u'.priv = putBytes sp (leBytes 8 (x.stack.getD 7 0).toNat) u.priv ∧ s'.mem = s.mem
        ∧ (u.base = none → (∀ f, u.fork = some f → f.holding = false) → OnlyTeams s s')
        ∧ ∀ k, k ≠ s.cur.team → s'.team? k = s.team? k)
  ∧ (∀ (s : State) (u : Team), s.curTeam = some u →
    ((∀ m ∈ s.members, ∃ x, u.thread? m.1 m.2 = some x ∧ 0 < x.depth ∧ x.depth ≤ 8 ∧ targetOk u (x.stack.headD 0) = true) →
      s.members.Nodup →
      ∃ s' u', exec .ret s = .next s' ∧ s'.team? s.cur.team = some u'
        ∧ (∀ g l x, (g, l) ∈ s.members → u.thread? g l = some x →
            u'.thread? g l = some { x with pc := x.stack.headD 0, stack := x.stack.drop 1, depth := x.depth - 1, unsure := 0 })
        ∧ OnlyTeams s s' ∧ Keeps s s' fun _ => False)
    ∧ (s.cur.cleared = false → s.stackMoves u s.members false = true → exec .ret s = .next s.retryWord)
    ∧ ∀ g l x, s.members = [(g, l)] → u.thread? g l = some x →
      (x.depth = 0 → exec .ret s = .next (s.takeTraps [(g, l, cRstack, 0)]))
      ∧ ∀ sp, 8 < x.depth → x.unsure ≤ x.depth - 9 → s.cur.cleared = true ∨ s.stackMoves u s.members false = false →
        targetOk u (x.stack.headD 0) = true →
        s.privRange u x.tid .load (x.rsp.toNat + 8 * (x.depth - 9)) 8 = .ok sp →
        ∃ s' u', exec .ret s = .next s' ∧ s'.team? s.cur.team = some u'
          ∧ u'.thread? g l = some { x with pc := x.stack.headD 0, depth := x.depth - 1, unsure := min x.unsure (x.depth - 9), stack := x.stack.drop 1
              ++ [BitVec.ofNat 64 (s.readSpots u { team := u.key, gid := g, lane := l } sp)] })

/-- `REFORM.G`, `REFORM.T` and `YIELD` take the thread out of its squad and file it in the tray of the PC after the word, its own
group's for `.G` and `YIELD`, with the cycle of the filing: an open tray, or a free one with the lowest number; where none is free
the thread goes on (R157, R158, R161). Stated for a squad of one thread. `CVSET` gives its convergence register the mask of the
low 16 bits of its scalar, for the next round; an open round keeps the mask it latched (R265, R267). `EXIT` of threads that are
not their team's last ends them: they are no longer threads, their bits leave every mask, a group without threads is DRAINING, and
no other thread changes (R143, R156). Stated without barriers that wait for arrivals and without convergence rounds to close.
`EXIT` inside a recovery block is a failure of the routine with code 9, and ends no thread (R311, R312). -/
def Obligations.GroupWords : Prop :=
  (∀ (i : Instr) (s : State) (t : Team) (g l : Nat) (x : Thread) (grp : Option Nat) (yielded : Bool),
    (i, grp, yielded) ∈ [(Instr.reformG, some g, false), (.reformT, none, false), (.yield, some g, true)] →
    s.curTeam = some t → s.members = [(g, l)] → t.thread? g l = some x →
    let pc := nextSlot t.kind s.cur.pc
    let late := if yielded then [(g, l)] else []
    ∃ s' u, exec i s = .next s' ∧ s'.team? s.cur.team = some u ∧ OnlyTeams s s'
      ∧ (∀ y, t.trays.find? (fun y => y.pc == pc && y.group == grp) = some y →
          u.trays = updIf (fun z => z.num == y.num) (fun z =>
            { z with held := z.held ++ [(g, l, s.now)], yielded := z.yielded ++ late }) t.trays
          ∧ ∀ q ∈ u.squads, (g, l) ∉ q.members)
      ∧ (t.trays.find? (fun y => y.pc == pc && y.group == grp) = none →
          (s.freeTray t = none → s' = s)
          ∧ ∀ n, s.freeTray t = some n → u.trays = t.trays ++
              [{ num := n, pc := pc, group := grp, held := [(g, l, s.now)], yielded := late, aged := false }] ∧ ∀ q ∈ u.squads, (g, l) ∉ q.members)
      ∧ Keeps s s' fun _ => False)
  ∧ (∀ (v : BitVec 3) (k : BitVec 6) (s : State) (t : Team) (g : Nat) (c : Conv), s.InGroup t g → t.conv? v.toNat = some c →
    ∃ s', exec (.cvset v k) s = .next s' ∧ s'.mem = s.mem ∧ TeamIs s' s.cur.team fun u =>
      u.conv? v.toNat = some { c with mask := (s.rdS t g k.toNat).toNat % 65536 } ∧ ∀ n, n ≠ v.toNat → u.conv? n = t.conv? n)
  ∧ (∀ (s : State) (t : Team), s.curTeam = some t → t.levels = [] → s.lastOfTeam t = false → s.Unchunked → s.bars = [] →
    t.convs = [] →
    ∃ s' u, exec .exit s = .next s' ∧ s'.team? s.cur.team = some u ∧ s'.mem = s.mem
      ∧ (∀ g l, (g, l) ∈ s.members → u.thread? g l = none ∧ (∀ n, (u.peek (.m g n)).getLsbD l = false)
          ∧ ∀ q ∈ u.squads, (g, l) ∉ q.members)
      ∧ (∀ g l, (g, l) ∉ s.members → u.thread? g l = t.thread? g l)
      ∧ (∀ g gr, t.group? g = some gr → (∃ l, (g, l) ∈ s.members) → (∀ x ∈ gr.threads, (g, x.lane) ∈ s.members) →
          ∃ gr', u.group? g = some gr' ∧ gr'.st = .draining ∧ gr'.threads = [])
      ∧ ∀ k, k ≠ s.cur.team → s'.team? k = s.team? k)
  ∧ (∀ (s : State) (t : Team), s.curTeam = some t → t.levels ≠ [] → exec .exit s = .next (s.failRoutine t.key 9))

/-! ## Memory words (08_page_access R187, R198 to R202; 09_page_order R207 to R209) -/

/-- `LD` empties each lane's destinations, and an operation in flight carries the words found at the lane's address,
zero-extended, sign-extended or split as its width says; a lane in a pod window sends a request; an acquire is followed by its
fence. Nothing is stored (R107, R198, R199, R209, R411). Stated where no lane faults and nothing earlier has to come first (R189,
R191, R212, R227); a word that ends its chunk (an acquire, an IO page) moreover finds no store of its groups outstanding (R221);
outside recovery blocks and worlds, with no byte that a running chain has written, and through the page by which its bytes were
last written (R206). The register words of a load (R198): b8 and b16 zero-extended, i8
and i16 sign-extended, b64 and b128 from their least significant word on. -/
def Obligations.Loads : Prop :=
  (∀ (v : BitVec 7) (k : BitVec 5) (i : BitVec 7) (w : BitVec 3) (h : BitVec 2) (s : State) (t u : Team) (c : Context)
    (ls : List LaneAcc),
    (Instr.ld v k i w h).wf = true → s.readTeam = some t → s.curTeam = some u → t.key = s.cur.team → s.ctxOf t = some c →
    s.laneAccesses .load k i (widthBytes w.toNat) = (ls, []) → s.groupsHeld = false → s.loadWaits t ls = false →
    NoChainWrites s → t.levels = [] → t.view = none →
    (∀ l ∈ ls, ∀ x ∈ l.spots, ∀ w ∈ s.writes, x.loc = .mem w.pa → w.name / 65536 = x.grain / 65536) →
    (∀ l ∈ ls, (u.thread? l.gid l.lane).isSome = true ∧ (l.isPod = true → s.podDown c (bits l.va 41 34) = false)) →
    (h = 1 ∨ (∃ l ∈ ls, l.isIo = true) → ∀ g ∈ s.curGids, s.storesPending s.cur.team g = false) →
    ∃ s', exec (.ld v k i w h) s = .next s' ∧ s'.mem = s.mem
      ∧ (∀ l ∈ ls, l.va = s.addressOf t l.gid l.lane k i ∧ s.reach t c (match t.thread? l.gid l.lane with
            | some x => x.tid
            | none => 0) .load l.va (widthBytes w.toNat) = .ok l.spots)
      ∧ (∀ l ∈ ls, ∀ n < widthRegs w.toNat, ∃ u', s'.team? s.cur.team = some u'
          ∧ u'.isEmpty (.v l.gid l.lane (v.toNat + n)) = true)
      ∧ (∀ l ∈ ls, l.isPod = false → ∀ n x, (loadRegs w.toNat (s.loaded t l))[n]? = some x →
          InFlight s s' fun o => ∃ all, o = .vres all 0 ∧ (l.gid, l.lane, v.toNat + n, x) ∈ all)
      ∧ (∀ l ∈ ls, l.isPod = true → InFlight s s' fun o => ∃ regs, o = .remote regs l.va (widthBytes w.toNat) .load
          ∧ ∀ n < widthRegs w.toNat, (l.gid, l.lane, v.toNat + n) ∈ regs)
      ∧ (h = 1 → ∀ g ∈ s.curGids, InFlight s s' fun o => ∃ sc lams, o = .fence 0 sc g (s.lanesOf g) lams)
      ∧ ∀ r, s'.reg s.cur.team r = s.reg s.cur.team r)
  ∧ (∀ x : Nat, loadRegs 0 (x % 2 ^ 8) = [BitVec.ofNat 32 (x % 2 ^ 8)] ∧ loadRegs 1 (x % 2 ^ 16) = [BitVec.ofNat 32 (x % 2 ^ 16)]
    ∧ loadRegs 2 x = [BitVec.ofNat 32 x]
    ∧ loadRegs 3 x = [BitVec.ofNat 32 x, BitVec.ofNat 32 (x / 2 ^ 32)]
    ∧ loadRegs 4 x = [BitVec.ofNat 32 x, BitVec.ofNat 32 (x / 2 ^ 32), BitVec.ofNat 32 (x / 2 ^ 64), BitVec.ofNat 32 (x / 2 ^ 96)]
    ∧ loadRegs 5 x = [BitVec.ofInt 32 (BitVec.ofNat 8 x).toInt] ∧ loadRegs 6 x = [BitVec.ofInt 32 (BitVec.ofNat 16 x).toInt])

/-- `ST` sends each lane's bytes to L1 in one operation of its group, which holds every byte of the lane's register data at the
lane's place; no byte changes before L1 accepts it, no register changes, a release is preceded by its fence, and a non-temporal
store is one only to a global or pod address (R198, R199, R209, R218). Stated for lanes that neither fault nor wait, and that
store here rather than through an outbox, a staging or a pod, and for a word of which no other sub-squad has stored yet; of a byte
that several lanes of the word store, the highest lane's stays (R199). -/
def Obligations.Stores : Prop :=
  ∀ (v : BitVec 7) (k : BitVec 5) (i : BitVec 7) (w : BitVec 3) (h : BitVec 2) (s : State) (t u : Team) (ls : List LaneAcc),
    (Instr.st v k i w h).wf = true → s.readTeam = some t → s.curTeam = some u → t.key = s.cur.team → s.Unchunked →
    s.laneAccesses .store k i (widthBytes w.toNat) = (ls, []) → s.dsDone t ls = [] → s.dsWaits t false false ls = false →
    s.moveWaits t true (s.lanePlaces t ls) = false → (∀ o ∈ s.ops, o.team = t.key → o.iss.round ≠ s.cur.round) →
    (∀ l ∈ ls, s.routeOf t l = .here ∧ s.clusterForbidden t l = false ∧ (l.isIo = true → s.ioPending t.key l.gid = false)) →
    ∃ s', exec (.st v k i w h) s = .next s' ∧ s'.mem = s.mem
      ∧ (∀ l ∈ ls, l.va = s.addressOf t l.gid l.lane k i)
      ∧ (∀ l ∈ ls, InFlight s s' fun o => ∃ ws, o = .store ws (h == 2 && l.mayNt) ∧ ∀ p ∈ l.spots.zip (leBytes (widthBytes w.toNat)
            (leNat ((upFrom v.toNat (widthRegs w.toNat)).flatMap fun r => leBytes 4 (s.rdV t l.gid l.lane r).toNat))),
          (∀ m ∈ ls, l.lane < m.lane → ∀ y ∈ m.spots, y.same p.1 = false) →
          ∃ x ∈ ws, x.who = { team := t.key, gid := l.gid, lane := l.lane } ∧ x.at_ = p.1 ∧ x.byte = p.2
            ∧ (p.1.io = true → x.direct = true))
      ∧ (h = 1 → ∀ g ∈ s.curGids, InFlight s s' fun o => ∃ sc lams, o = .fence 1 sc g (s.lanesOf g) lams)
      ∧ (∀ r, s'.reg s.cur.team r = s.reg s.cur.team r)
      ∧ (s'.team? s.cur.team).map (fun x => (x.scratch, x.priv)) = (s.team? s.cur.team).map fun x => (x.scratch, x.priv)

/-- L1 accepts a store that is due and that nothing earlier of its threads holds back: its bytes are those of their scratchpad, of
their private place or of memory, the last write of a byte standing, and no other byte changes (R25, R176, R179, R199, R208,
R225). Stated for stores outside recovery blocks, with no byte that a running chain has written, and for global bytes of IO pages,
which no chunk holds, with no chunk open and no outside write waiting. A store to a global page other than IO goes into its
group's open chunk: after L1 has accepted it the core reads the new byte there, memory itself is unchanged until the chunk
commits, and no other byte is different (R199, R223, R225). Stated for one byte, a group with one chunk, open in the team's
innermost layer since before the store and with room, a frame written so far by the same page only, and chunk keys below the next
key. -/
def Obligations.StoresAccepted : Prop :=
  (∀ (s : State) (o : Op) (t : Team) (ws : List StoreByte) (nt : Bool),
    s.arg = [o.key] → s.op? o.key = some o → o.what = .store ws nt → s.team? o.team = some t → t.levels = [] →
    s.storeReady o ws = true → NoChainWrites s → s.lams = [] → s.waiting = [] →
    (∀ k ∈ s.toks, k.key ∈ o.toks → k.team = o.team) →
    (∀ w ∈ ws, match w.at_.loc with
      | .scratch k _ => k = o.team
      | .priv k _ => k = o.team
      | .mem _ => w.direct = true
      | .pod _ _ => False) →
    ∃ s' u, exec .storeAccept s = .next s' ∧ s'.team? o.team = some u ∧ s'.op? o.key = none
      ∧ s'.mem = ws.foldl (fun m w => match w.at_.loc with
          | .mem pa => memPut pa w.byte m
          | _ => m) s.mem
      ∧ u.scratch = ws.foldl (fun m w => match w.at_.loc with
          | .scratch _ off => bput off w.byte m
          | _ => m) t.scratch
      ∧ u.priv = ws.foldl (fun m w => match w.at_.loc with
          | .priv _ pa => bput pa w.byte m
          | _ => m) t.priv
      ∧ ∀ k, k ≠ o.team → s'.team? k = s.team? k)
  ∧ (∀ (s : State) (o : Op) (t : Team) (w : StoreByte) (pa : Nat) (nt : Bool) (l : Lam),
    s.arg = [o.key] → s.op? o.key = some o → o.what = .store [w] nt → s.team? o.team = some t → w.at_.loc = .mem pa →
    w.direct = false → s.storeReady o [w] = true → NoChainWrites s →
    (∀ x ∈ s.writes, x.pa / 65536 = pa / 65536 → x.name / 65536 = w.at_.grain / 65536) →
    s.groupChunks o.team w.who.gid = [l] → l.st = .open → l.key < o.key → l.crowded = false → s.splitsFor l w.at_.grain = false →
    l.core = t.core → l.parent = t.base → (s.lams.map Lam.key).Nodup →
    (∀ x ∈ s.lams, ∀ y ∈ x.lines, y.seq < s.keys) → (∀ k, t.base = some k → k ≠ l.key) →
    ∃ s' u, exec .storeAccept s = .next s' ∧ s'.team? o.team = some u ∧ s'.mem = s.mem
      ∧ s'.locByte u w.at_ = w.byte
      ∧ (∀ y pa', y.loc = .mem pa' → y.same w.at_ = false → s'.locByte u y = s.locByte t y)
      ∧ ∃ l', s'.lam? l.key = some l' ∧ (w.at_.grain ∈ l'.wsig))

/-- `ATOM` and `RED` send one request for each group and unit, with the lanes' operands in ascending order; `ATOM` empties its
destinations; nothing is written yet (R107, R200, R201). Stated for lanes that neither fault nor wait, in units of this part. -/
def Obligations.Atomics : Prop :=
  ∀ (ret : Bool) (d : BitVec 7) (k : BitVec 5) (i : BitVec 7) (op : BitVec 4) (r : BitVec 1) (s : State) (t u : Team)
    (ls : List LaneAcc),
    let word := if ret then Instr.atom d k i op r else .red d k i op r
    word.wf = true → s.readTeam = some t → s.curTeam = some u → t.key = s.cur.team → s.Unchunked →
    s.laneAccesses (if ret then .atomic else .red) k i (atomicWidth op.toNat) = (ls, []) → s.dsDone t ls = [] →
    s.dsWaits t ret true ls = false → s.moveWaits t true (s.lanePlaces t ls) = false →
    (∀ l ∈ ls, s.routeOf t l = .here ∧ l.isPod = false ∧ s.clusterForbidden t l = false ∧ (u.thread? l.gid l.lane).isSome = true) →
    ∃ s', exec word s = .next s' ∧ s'.mem = s.mem
      ∧ (∀ l ∈ ls, l.va = s.addressOf t l.gid l.lane k i)
      ∧ (∀ l ∈ ls, InFlight s s' fun o => ∃ lanes, o = .atomic l.spots op.toNat (r == 1) (if ret then some d.toNat else none) lanes
          ∧ ∃ x ∈ lanes, x.gid = l.gid ∧ x.lane = l.lane
            ∧ x.x = (if op = 1 then s.rdV2 t l.gid l.lane d.toNat else (s.rdV t l.gid l.lane d.toNat).setWidth 64)
            ∧ (op = 10 → x.cmp = s.rdV t l.gid l.lane (d.toNat + 1)))
      ∧ (ret = true → ∀ l ∈ ls, ∃ u', s'.team? s.cur.team = some u' ∧ u'.isEmpty (.v l.gid l.lane d.toNat) = true
          ∧ (op = 1 → u'.isEmpty (.v l.gid l.lane (d.toNat + 1)) = true))
      ∧ ∀ q, s'.reg s.cur.team q = s.reg s.cur.team q

/-- An atomic request is performed as one: the lanes' operations are applied in ascending order to the unit's value, each lane
that returns a value receives the value before its own operation, and no other byte changes; in memory that value is the last
write granted (R200, R201, R212). Stated without the free order of `.r`, outside blocks and worlds, with no byte that a running
chain has written, no byte kept back by a core and no outside write waiting. The operations of R200 on old value m, operand x and
comparand: sums and comparisons by their format, exchange, compare and swap, and the bounded increment. -/
def Obligations.AtomicsPerformed : Prop :=
  (∀ (s : State) (o : Op) (t : Team) (locs : List Spot) (op : Nat) (dest : Option Nat) (lanes : List AtomLane),
    s.arg = [o.key] → s.op? o.key = some o → s.team? o.team = some t → o.what = .atomic locs op false dest lanes →
    s.atomicReady o locs lanes = true → NoChainWrites s → t.levels = [] → t.view = none → s.held = [] →
    s.waiting = [] → (locs.map fun p => p.loc).Nodup →
    let m := leNat (locs.map fun p => match p.loc with
      | .mem pa => s.homeValue pa
      | _ => s.locByte t p)
    let run := fun (n : Nat) => (lanes.take n).foldl (fun a x => atomicNew op a x.x.toNat x.cmp.toNat) m
    ∃ s' u, exec .atomicRequestPerform s = .next s' ∧ s'.team? o.team = some u ∧ s'.op? o.key = none
      ∧ (∀ n p pa, locs[n]? = some p → p.loc = .mem pa →
          memGet pa s'.mem = (leBytes locs.length (run lanes.length)).getD n 0)
      ∧ (∀ pa, (∀ p ∈ locs, p.loc ≠ .mem pa) → memGet pa s'.mem = memGet pa s.mem)
      ∧ (∀ n p k off, locs[n]? = some p → p.loc = .scratch k off → (s.team? k).isSome = true →
          ∃ v, s'.team? k = some v ∧ bget off v.scratch = some ((leBytes locs.length (run lanes.length)).getD n 0))
      ∧ (∀ d n x, dest = some d → lanes[n]? = some x → (t.thread? x.gid x.lane).isSome = true →
          (lanes.map fun y => (y.gid, y.lane)).Nodup → x.lost = [] →
          u.peek (.v x.gid x.lane d) = (BitVec.ofNat 32 (run n)).setWidth 64 ∧ u.isEmpty (.v x.gid x.lane d) = false
          ∧ (op = 1 → u.peek (.v x.gid x.lane (d + 1)) = (BitVec.ofNat 32 (run n / 2 ^ 32)).setWidth 64)))
  ∧ (∀ (m x c : Word),
    atomicNew 0 m.toNat x.toNat c.toNat = (m + x).toNat
      ∧ atomicNew 2 m.toNat x.toNat c.toNat = (m &&& x).toNat ∧ atomicNew 3 m.toNat x.toNat c.toNat = (m ||| x).toNat
      ∧ atomicNew 4 m.toNat x.toNat c.toNat = (m ^^^ x).toNat
      ∧ atomicNew 5 m.toNat x.toNat c.toNat = (if m.toInt ≤ x.toInt then m else x).toNat
      ∧ atomicNew 6 m.toNat x.toNat c.toNat = (if m.toInt ≤ x.toInt then x else m).toNat
      ∧ atomicNew 7 m.toNat x.toNat c.toNat = (if m.toNat ≤ x.toNat then m else x).toNat
      ∧ atomicNew 8 m.toNat x.toNat c.toNat = (if m.toNat ≤ x.toNat then x else m).toNat
      ∧ atomicNew 9 m.toNat x.toNat c.toNat = x.toNat
      ∧ atomicNew 10 m.toNat x.toNat c.toNat = (if m = c then x else m).toNat
      ∧ atomicNew 14 m.toNat x.toNat c.toNat = if x.toNat ≤ m.toNat then 0 else m.toNat + 1)

/-- A fence word ends its groups' chunks and is in flight, for each group, until its condition is met; unless it is an acquire it
waits for the chunks of its group that held something, unless it is `DRAIN.NT` for the writes its threads have observed, and it
changes no register and no byte (R207, R208, R210, R221). `PREFETCH` changes no value. `WBL`, where no lane faults, sends the
dirty LOOSE bytes of the lanes' blocks that its core keeps on their way home and puts dirty private bytes of them into memory;
`INVL` of LOOSE pages does so with the global ones and leaves the core no copy of the blocks. Both wait for the move of a page of
theirs (R191). Each has an operation of each group
in flight for flag counting (R25, R179, R202, R216). `ICINV` ends its groups' chunks and puts the drop of its range in flight, as
a release of its threads; the squad waits for it, and goes on when it has passed the wait (R207, R221, R399). A fence completes
when its condition is met, and not while L1 has still to accept an ordinary store that one of its threads issued before it, nor
while a chunk it waits for has not committed, nor at device scope while a die has still to apply such a commit (R208, R217, R224).
An `ICINV` that completes drops what the cores of its context have fetched in its range (R399). -/
def Obligations.Fences : Prop :=
  (∀ (i : Instr) (s : State) (u : Team) (kind : Nat) (sc : BitVec 3), fenceWord i = some (kind, sc) → s.curTeam = some u →
    (∀ g ∈ s.curGids, s.storesPending s.cur.team g = false) → (s.lams.map Lam.key).Nodup →
    ∃ s', exec i s = .next s' ∧ s'.mem = s.mem ∧ s'.teams = s.teams
      ∧ ∀ g ∈ s.curGids, InFlight s s' fun o => ∃ lams, o = .fence kind sc.toNat g (s.lanesOf g) lams
          ∧ (kind ≠ 0 → ∀ l ∈ s.groupChunks s.cur.team g, l.st = .requested → l.key ∈ lams)
          ∧ (kind ≠ 0 → ∀ l, s.openChunk? s.cur.team g = some l → l.lines ≠ [] → l.key ∈ lams)
          ∧ (kind ≠ 3 → ∀ x ∈ u.seen, x.1 = g → x.2.1 ∈ s.lanesOf g → x.2.2 ∈ lams))
  ∧ (∀ (k : BitVec 5) (off : BitVec 7) (s : State) (t : Team), s.readTeam = some t →
    let ls := (s.cctlLanes k off).1
    let blocks := (ls.filter LaneAcc.isGlobal).map fun l => l.va
    let dirty := fun (h : Held) => h.dirty = true ∧ h.core = t.core ∧ h.line.ord = 2
      ∧ inBlocks t.ctx blocks h.line.grain h.line.pa = true
    let home := fun (s' : State) => ∀ h ∈ s.held, dirty h → ∃ f ∈ s'.flights, ∃ x ∈ f.lines, x.pa = h.line.pa ∧ x.byte = h.line.byte
    (∃ s', exec (.prefetch k off) s = .next s' ∧ s'.mem = s.mem ∧ s'.teams = s.teams ∧ s'.lams = s.lams
      ∧ ∀ g ∈ s.curGids, InFlight s s' fun o => o = .cctl)
    ∧ (s.cur.cleared = false → s.moveWaits t true (s.lanePlaces t ls) = true →
      exec (.wbl k off) s = .next s.retryWord ∧ exec (.invl k off) s = .next s.retryWord)
    ∧ ((s.cctlLanes k off).2 = [] → s.cur.cleared = true ∨ s.moveWaits t true (s.lanePlaces t ls) = false →
      (∃ s', exec (.wbl k off) s = .next s' ∧ s'.unseen = s.unseen ∧ home s'
        ∧ (∀ a, (∀ p ∈ t.priv, privPa p.1 ≠ a) → memGet a s'.mem = memGet a s.mem)
        ∧ (t.parent = none → t.levels = [] → (t.priv.map fun p => privPa p.1).Nodup →
          ∀ l ∈ ls, ∀ x ∈ l.spots, ∀ q a, x.loc = .priv q a → ∀ p ∈ t.priv, p.1 / 2 ^ 64 / 512 = a / 2 ^ 64 / 512 →
            memGet (privPa p.1) s'.mem = p.2)
        ∧ ∀ g ∈ s.curGids, InFlight s s' fun o => o = .cctl)
      ∧ ((∀ l ∈ ls, l.isGlobal = true ∧ ∀ x ∈ l.spots, x.ord = 2) →
        ∃ s', exec (.invl k off) s = .next s' ∧ s'.unseen = s.unseen ∧ s'.mem = s.mem ∧ home s'
          ∧ (∀ h ∈ s'.held, h.core = t.core → h.line.ord = 2 → inBlocks t.ctx blocks h.line.grain h.line.pa = false)
          ∧ ∀ g ∈ s.curGids, InFlight s s' fun o => o = .cctl)))
  ∧ (∀ (k l : BitVec 5) (s : State) (t : Team) (g : Nat), s.InGroup t g →
    ((s.passed).isSome = true → exec (.icinv k l) s = .next s)
    ∧ (s.passed = none → s.members ≠ [] → ∃ s', exec (.icinv k l) s = .next s' ∧ s'.mem = s.mem ∧ s'.icache = s.icache
        ∧ (InFlight s s' fun o => ∃ lams, o = .icinv (s.rdS2 t g k.toNat).toNat (s.rdS2 t g l.toNat).toNat g (s.lanesOf g) lams)
        ∧ Waits s s' fun w => ∃ n, w = .fence n))
  ∧ (∀ (s : State) (o : Op), s.arg = [o.key] → s.op? o.key = some o →
    (∀ kind sc g ls lams, o.what = .fence kind sc g ls lams →
      (s.fenceMet o = true → exec .fenceComplete s = .next ((s.fenceDrops o).finishOp o))
      ∧ (∀ x ws a, x ∈ s.ops → x.key < o.key → x.team = o.team → x.what = .store ws false → a ∈ ws → a.who.gid = g → a.who.lane ∈ ls →
          (∀ k pa, a.at_.loc ≠ .priv k pa) → kind ∈ [1, 2, 4] → exec .fenceComplete s = .next s)
      ∧ (∀ l ∈ s.lams, l.key ∈ lams → (sc ≠ 0 ∧ kind ≠ 0 ∨ 2 ≤ sc) → exec .fenceComplete s = .next s)
      ∧ (∀ f ∈ s.flights, f.lam ∈ lams → 3 ≤ sc → exec .fenceComplete s = .next s))
    ∧ ∀ a n g ls lams t, o.what = .icinv a n g ls lams → s.team? o.team = some t → s.fenceMet o = true →
      ∃ s', exec .fenceComplete s = .next s' ∧ s'.op? o.key = none
        ∧ ∀ f ∈ s'.icache, f ∈ s.icache ∧ (f.ctx = t.ctx → inRange a n f.va = false ∧ inRange a n (f.va + 3) = false))

/-! ## Chunks (09_page_order R221 to R228) -/

/-- A chunk ends after 4,096 packets, and after 256 cycles without an issue of its group; the next opens at once (R221). So does
one that holds something when its die has no identifier for it (R299). A die applies a committed write's signature and
acknowledges it; after the last of the eight the write is at the device stage: its bytes are in memory, and what was granted
before it to the same bytes is past (R212, R224). A die applies STRONG commits in the order of their numbers (R224, R228). Stated
where no chunk there is met. -/
def Obligations.ChunkLimits : Prop :=
  (∀ (s : State) (l : Lam), s.arg = [l.key] → s.lam? l.key = some l → l.owner = .chunk → l.st = .open →
    exec .chunkPacketLimit s
        = .next (if l.packets ≥ 4096 ∨ (s.nameless l = true ∧ s.freshChunk l = false) then s.turnChunk l.team l.gid else s)
      ∧ exec .chunkQuietPeriod s = .next (if s.now ≥ l.lastIssue + 256 then s.turnChunk l.team l.gid else s))
  ∧ (∀ (s : State) (f : Flight) (die : Nat), s.arg = [f.key, die] → s.flights.find? (fun g => g.key == f.key) = some f →
    (s.flights.map Flight.key).Nodup → (∀ x ∈ s.lams, sigsMeet f.grains x.rsig = false) →
    let f' := { f with acks := f.acks ++ [die] }
    (s.appliesNow f die = true → ∃ s', exec .signatureBroadcastApply s = .next s' ∧ s'.teams = s.teams ∧ s'.lams = s.lams
        ∧ (f'.left ≠ [] → s'.mem = s.mem ∧ ∀ g, g ∈ s'.flights ↔ (g ∈ s.flights ∧ g.key ≠ f.key) ∨ g = f')
        ∧ (f'.left = [] → s'.mem = f.lines.foldl (fun m x => memPut x.pa x.byte m) s.mem ∧ (∀ g ∈ s'.flights, g.key ≠ f.key)
          ∧ ∀ g ∈ s'.flights, g.key < f.key → ∀ x ∈ g.lines, ∀ y ∈ f.lines, x.pa ≠ y.pa))
      ∧ (∀ g ∈ s.flights, ∀ m n, g.strong = some m → f.strong = some n → m < n → die ∉ g.acks →
          exec .signatureBroadcastApply s = .next s))

/-- A granted chunk's lines leave on their stages with its signature, and no chunk is left of it; memory is as before until every die
has applied them, and a line that is not LOOSE or non-temporal stays with no core (R216, R218, R223, R224). Stated for a chunk that
commits into memory. A write outside chunks squashes a chunk that has read one of its grains: the chunk's lines are gone, its group
stands at its checkpoint with every flag idle, and memory is unchanged (R225, R226). Stated where that is the one chunk there is and
no word of its team from before the checkpoint is outstanding. -/
def Obligations.ChunkCommit : Prop :=
  (∀ (s : State) (l : Lam), s.arg = [l.key] → s.lam? l.key = some l → s.grantable l = true → l.parent = none →
    ∃ s', exec .chunkCommitGrant s = .next s' ∧ s'.lam? l.key = none ∧ s'.teams = s.teams ∧ s'.mem = s.mem
      ∧ (l.wsig ≠ [] → ∃ f ∈ s'.flights, f.lam = l.key ∧ f.grains = l.wsig ∧ f.acks = [] ∧ f.core = l.core
        ∧ ∀ x ∈ l.lines, (x.nt = none → x.ord ≠ 2 → x ∈ f.lines)
          ∧ (x ∈ f.lines ∨ ∃ h ∈ s'.held, h.core = l.core ∧ h.line = x ∧ h.dirty = true)))
  ∧ (∀ (s : State) (x : Lam) (g now : Group) (t : Team) (die : Nat), s.arg = [die] → s.lams = [x] → x.owner = .chunk →
    dieOf x.core = die → x.squashes < 4 → sigsMeet ((s.gathered.filter fun e => e.1 == die).flatMap fun e => e.2) x.rsig = true →
    x.checkpoint = some g → s.team? x.team = some t → t.group? g.gid = some now → (∀ o ∈ s.ops, o.team = x.team → x.key ≤ o.key) →
    ∃ s' u gr, exec .externalWriteSignature s = .next s' ∧ s'.team? x.team = some u ∧ u.group? g.gid = some gr
      ∧ gr.flags = [] ∧ gr.s = g.s ∧ gr.m = g.m ∧ gr.q = g.q ∧ gr.queue = now.queue
      ∧ (∀ y ∈ g.threads, ∃ z ∈ gr.threads, z.lane = y.lane ∧ z.pc = y.pc ∧ z.v = y.v ∧ z.p = y.p)
      ∧ (∀ y ∈ s'.lams, y.lines = [] ∧ y.squashes = x.squashes + 1) ∧ s'.mem = s.mem)

/-! ## Special registers of the team, the instruction side, the tensor copy engine (05_thread, 10_tile_copy, 18_context) -/

/-- `TCHAIN` waits for its threads' atomics and pod requests (R230); then it takes the lowest free handle and starts its chain at
the head, with coordinates and counters zero, holding the word's flag counts; without a free handle the result is all ones; a head
that is not aligned raises `MISALIGN` (R233, R250). `TCANCEL` stops its chain: FREE when none of its copies is in flight, else
STOPPING with the word's flag counts; a handle without a chain is left alone (R234, R253). `QPOP` gives each thread the next entry
of the queue that it has not read: from the queue when it is there, else when it is pushed (R107, R252). Stated for a squad of one
thread. -/
def Obligations.ChainWords : Prop :=
  (∀ (d : BitVec 6) (k : BitVec 5) (s : State) (t : Team) (g : Nat), s.InGroup t g →
    let head := (s.rdS2 t g k.toNat).toNat
    let off := head % 2 ^ 40
    let free := (List.range 16).find? fun h => (t.chain? h).isNone
    (s.atomsPending = true → s.cur.cleared = false → exec (.tchain d k) s = .next s.retryWord)
    ∧ (∀ h, s.atomsPending = false → free = some h → head % 32 = 0 → inScratch head = true → off + 32 ≤ s.scratchSize t →
      ∃ s' u c, exec (.tchain d k) s = .next s' ∧ s'.team? s.cur.team = some u ∧ u.chain? h = some c
        ∧ c.st = .running ∧ c.head = off ∧ c.off = off ∧ c.u = [0, 0, 0, 0] ∧ c.w = [0, 0, 0, 0] ∧ c.it = [0, 0, 0, 0]
        ∧ c.toks = s.curToks g ∧ (∀ n, n ≠ h → u.chain? n = t.chain? n)
        ∧ (d ≠ 0 → Lands s s' (.s g d.toNat) 4 (BitVec.ofNat 64 h))
        ∧ (∀ q, q ≠ .s g d.toNat → s'.reg s.cur.team q = s.reg s.cur.team q) ∧ s'.mem = s.mem)
    ∧ (s.atomsPending = false → free = none → ∃ s', exec (.tchain d k) s = .next s'
        ∧ (d ≠ 0 → Lands s s' (.s g d.toNat) 4 0xFFFFFFFF) ∧ s'.mem = s.mem ∧ TeamIs s' s.cur.team fun u => u.chains = t.chains)
    ∧ (s.atomsPending = false → free ≠ none → head % 32 ≠ 0 → exec (.tchain d k) s
        = .next (s.turned.takeTraps ((s.lanesOf g).map fun l => (g, l, cMisalign, BitVec.ofNat 64 head)))))
  ∧ ((∀ (k : BitVec 6) (s : State) (t : Team) (g : Nat), s.InGroup t g →
    let h := (s.rdS t g k.toNat).toNat
    ∃ s', exec (.tcancel k) s = .next s' ∧ s'.mem = s.mem ∧ TeamIs s' s.cur.team fun u =>
      (∀ n, n ≠ h → u.chain? n = t.chain? n) ∧ u.copies = t.copies
        ∧ (t.chainCopies h = [] → u.chain? h = none)
        ∧ ∀ c, t.chain? h = some c → t.chainCopies h ≠ [] →
            ∃ c', u.chain? h = some c' ∧ c'.st = .stopping ∧ c'.off = c.off ∧ c'.toks = c.toks ++ s.curToks g)
  ∧ ∀ (v : BitVec 7) (q : BitVec 2) (s : State) (t : Team) (g l : Nat) (gr : Group), s.InGroup t g → s.members = [(g, l)] →
    t.group? g = some gr → (t.thread? g l).isSome = true →
    let seq := gr.poppedOf l q.toNat
    ∃ s' u gr', exec (.qpop v q) s = .next s' ∧ s'.team? s.cur.team = some u ∧ u.group? g = some gr'
      ∧ u.isEmpty (.v g l v.toNat) = true ∧ gr'.poppedOf l q.toNat = seq + 1
      ∧ (∀ x, (gr.entries q.toNat).find? (fun x => x.seq == seq) = some x →
          InFlight s s' fun o => o = .vres [(g, l, v.toNat, x.words.getD l 0)] 0)
      ∧ ((gr.entries q.toNat).find? (fun x => x.seq == seq) = none → InFlight s s' fun o => o = .qpop g l v.toNat q.toNat seq)
      ∧ (∀ r, s'.reg s.cur.team r = s.reg s.cur.team r) ∧ s'.mem = s.mem)

/-- `TAGWAIT_ALL` and `TAGWAIT_ANY` go on when all, or one, of the tags of their mask are set, or the mask is empty, and else
wait; `TAGFIRST` produces the lowest of the mask's tags that is set, or all ones; what they see set is observed; `TAGCLR` clears the
mask's tags and error bits, but for tags set in the same cycle (R248, R251). `OCLAIM` claims the lowest free slot name while fewer
are claimed than the kernel declares, and produces it, or all ones; the slot holds the bytes that its context left in it, and zeros
after another one (R258). `ORELEASE` frees a slot that is not BUSY at once, its bytes kept, and for a BUSY one the squad waits with
the release noted; `OFENCE`, once the threads' scratchpad stores are performed, makes the fills observed before it seen by the rounds
that they sign after it (R257 to R262). -/
def Obligations.TagAndSlotWords : Prop :=
  (∀ (k : BitVec 5) (s : State) (t : Team) (g : Nat), s.InGroup t g →
    let m := s.tagMask t (s.rdS2 t g k.toNat)
    (t.tags &&& m = m ∨ (s.passed).isSome = true → exec (.tagwaitAll k) s = .next (s.observeTags t.key m))
    ∧ (t.tags &&& m ≠ m → s.passed = none → exec (.tagwaitAll k) s = .next (s.waitOn (.tagAll m)))
    ∧ (t.tags &&& m ≠ 0 ∨ m = 0 ∨ (s.passed).isSome = true →
        exec (.tagwaitAny k) s = .next (s.observeTags t.key (m &&& t.tags)))
    ∧ (t.tags &&& m = 0 → m ≠ 0 → s.passed = none → exec (.tagwaitAny k) s = .next (s.waitOn (.tagAny [m])))
    ∧ (∀ d : BitVec 6, d ≠ 0 → ∃ s' x, exec (.tagfirst d k) s = .next s' ∧ Produces s s' (.s g d.toNat) s.delay (fun o => o = .sres g d.toNat x)
        ∧ Keeps (s.observeTags t.key (1#64 <<< x.toNat)) s' (fun _ => False)
        ∧ (t.tags &&& m = 0 → x = 0xFFFFFFFF#32)
        ∧ ∀ n, (t.tags &&& m).getLsbD n = true → (∀ i, i < n → (t.tags &&& m).getLsbD i = false) → x = BitVec.ofNat 32 n)
    ∧ ∃ s', exec (.tagclr k) s = .next s' ∧ s'.mem = s.mem ∧ TeamIs s' s.cur.team fun u =>
        u = { t with tagerr := t.tagerr &&& ~~~m, slots := u.slots,
                     tags := t.tags &&& ~~~(m &&& ~~~(if t.tagsSet.1 = s.now then t.tagsSet.2 else 0)) }
          ∧ u.slots.map Slot.bytes = t.slots.map Slot.bytes)
  ∧ (∀ (s : State) (t : Team) (g : Nat), s.InGroup t g →
    (∀ d : BitVec 6,
      let name := if t.slots.length < s.slotCount t then (List.range 32).find? fun n => (t.slot? n).isNone else none
      ∃ s', exec (.oclaim d) s = .next s' ∧ s'.mem = s.mem
        ∧ (d ≠ 0 → ∃ lat, Produces s s' (.s g d.toNat) lat fun o =>
            o = .sres g d.toNat (match name with
              | some n => BitVec.ofNat 32 n
              | none => 0xFFFFFFFF#32))
        ∧ TeamIs s' s.cur.team fun u => (∀ n, name ≠ some n → u.slot? n = t.slot? n)
            ∧ ∀ n, name = some n → ∃ x, u.slot? n = some x ∧ x.releasing = false ∧ x.fills = []
                ∧ ∀ f, s.opstore.find? (fun f => f.core == t.core && f.phys == x.phys) = some f →
                    (f.ctx = t.ctx → x.bytes = f.bytes) ∧ (f.ctx ≠ t.ctx → ∀ off, x.byte off = 0))
    ∧ (∀ (k : BitVec 6) (x : Slot),
      let n := (s.rdS t g k.toNat).toNat
      s.passed = none → n < 32 → t.slot? n = some x → (∀ y ∈ t.slots, y.releasing = true → t.slotBusy y.name = true) →
      ∃ s', exec (.orelease k) s = .next s' ∧ s'.mem = s.mem ∧ TeamIs s' s.cur.team fun u =>
        (∀ m, m ≠ n → u.slot? m = t.slot? m)
          ∧ (t.slotBusy n = false → u.slot? n = none ∧ u.squads = t.squads
              ∧ ((∀ y ∈ t.slots, y.phys = x.phys → y = x) → ∃ f ∈ s'.opstore, f.core = t.core ∧ f.phys = x.phys ∧ f.ctx = t.ctx
                  ∧ f.bytes = x.bytes))
          ∧ (t.slotBusy n = true → u.slot? n = some { x with releasing := true }
              ∧ Waits s s' fun o => ∃ cs, o = .slots cs ∧ x.claim ∈ cs))
    ∧ (s.scratchPending = true → s.cur.cleared = false → exec .ofence s = .next s.retryWord)
    ∧ (s.scratchPending = false ∨ s.cur.cleared = true → ∃ s', exec .ofence s = .next s' ∧ s'.mem = s.mem
        ∧ TeamIs s' s.cur.team fun u => u.slots.map Slot.bytes = t.slots.map Slot.bytes
          ∧ ∀ x ∈ u.slots, ∀ f ∈ x.fills, f.seen = true → ∀ m ∈ s.members, m ∈ f.fenced))

/-! ## Operand slots and accumulator tiles (11_tile_matrix) -/

/-- `MMA` signs the round of its convergence register: when the last live thread of the latched set has signed, the operation is
issued and the round closed; before that the round stays open with its signers; a thread outside the set issues it alone. A
missing slot or tile is `SLOT` at the signature (R265, R266, R268, R271, R272). Stated for a squad of one thread that opens the
round, with room in the array's queue. `MZERO`, `MDRAIN` and `MLOAD` issue their operation, holding the word's flag counts: 16
cycles for `MZERO`, one for each 256 bytes for the others; the descriptor is what the executing lanes read. `MWAIT` goes on, and
rejoins the tile's last operation, when no operation on its tile is outstanding, and else waits for those there are. A tile the
kernel does not declare is `SLOT`, a bad descriptor `SHAPEREC` (R271 to R278). -/
def Obligations.TileWords : Prop :=
  (∀ (h : BitVec 5) (a : BitVec 3) (x y : BitVec 5) (v : BitVec 3) (z : BitVec 1) (s : State) (t : Team) (g l : Nat) (c : Conv),
    s.InGroup t g → s.members = [(g, l)] → s.passed = none → t.conv? v.toNat = some c → c.round = none →
    let op := TileOp.mma h.toNat a.toNat x.toNat y.toNat (z == 1)
    (s.slotFault t op = true → exec (.mma h a x y v z) s = .next (s.turned.slotRecords t [(g, l)]))
    ∧ (s.slotFault t op = false → s.arrayRoom t.core = true → (g, l) ∉ t.signingSet c.mask (s.gptOf t) →
        ∃ s', exec (.mma h a x y v z) s = .next s' ∧ s'.mem = s.mem ∧ TeamIs s' s.cur.team fun u =>
          u.squads = t.squads ∧ u.slots.map Slot.bytes = t.slots.map Slot.bytes ∧ u.accs = t.accs ∧ u.convs = t.convs
            ∧ ∃ m ∈ u.mops, m.op = op ∧ m.start = none ∧ m.toks = s.curToks g ∧ m.signers = [(g, l)])
    ∧ (s.slotFault t op = false → s.arrayRoom t.core = true → (g, l) ∈ t.signingSet c.mask (s.gptOf t) →
        ∃ s', exec (.mma h a x y v z) s = .next s' ∧ s'.mem = s.mem ∧ TeamIs s' s.cur.team fun u =>
          (u.squads = t.squads ∧ u.slots.map Slot.bytes = t.slots.map Slot.bytes ∧ u.accs = t.accs)
            ∧ ((∀ m ∈ t.signingSet c.mask (s.gptOf t), m = (g, l)) →
                (∃ m ∈ u.mops, m.op = op ∧ m.start = none ∧ m.toks = s.curToks g) ∧ u.conv? v.toNat = some c)
            ∧ ((∃ m ∈ t.signingSet c.mask (s.gptOf t), m ≠ (g, l)) →
                u.mops = t.mops ∧ ∃ r, u.conv? v.toNat = some { c with round := some r } ∧ r.signers = [(g, l)]
                  ∧ r.mask = c.mask ∧ r.toks = s.curToks g)))
  ∧ (∀ (a : BitVec 3) (s : State) (t : Team) (g : Nat), s.InGroup t g →
    (a.toNat ≥ s.accCount t → ∀ k : BitVec 5, ∀ i ∈ [Instr.mzero a, .mwait a, .mdrain a k, .mload a k],
      exec i s = .next (s.slotRecords t s.members))
    ∧ (a.toNat < s.accCount t →
      (∃ s', exec (.mzero a) s = .next s' ∧ s'.mem = s.mem ∧ TeamIs s' s.cur.team fun u => u.accs = t.accs
        ∧ ∃ m ∈ u.mops, m.op = .mzero a.toNat ∧ m.toks = s.curToks g ∧ m.due = s.now + 16)
      ∧ ((s.passed).isSome = true ∨ s.tileWaits t a.toNat = [] → exec (.mwait a) s = .next (s.rejoin a.toNat))
      ∧ (s.passed = none → s.tileWaits t a.toNat ≠ [] →
          exec (.mwait a) s = .next (s.waitOn (.tile a.toNat (s.tileWaits t a.toNat))))
      ∧ ∀ (k : BitVec 5) (load : Bool) (c : Context) (sp : List Spot),
        let va := (s.rdS2 t g k.toNat).toNat
        let s1 := (s.lanesOf g).foldl (fun s l => s.noteRead t g l sp) (s.turned.noteCluster t.key [va])
        let d := readDesc (sp.map fun x => s1.loadByte t { team := t.key, gid := g, lane := (s.lanesOf g).headD 0 } x)
        s.ctxOf t = some c → va % 32 = 0 → (∀ o, windowOf va ≠ .private_ o) → (∀ e o, windowOf va ≠ .pod e o) →
        s.turned.reach t c 0 .load va 32 = .ok sp →
        (∀ code, s1.descCode t load a.toNat d = some code → exec (if load then .mload a k else .mdrain a k) s
            = .next (s1.fatalWord t g (s.lanesOf g) cShaperec 0 (extra458 5 a.toNat code 0 0 0)))
        ∧ (s1.descCode t load a.toNat d = none → ∃ s', exec (if load then .mload a k else .mdrain a k) s = .next s' ∧ s'.mem = s.mem
          ∧ TeamIs s' s.cur.team fun u => u.accs = t.accs ∧ ∃ m ∈ u.mops,
              m.op = (if load then .mload a.toNat d else .mdrain a.toNat d) ∧ m.toks = s.curToks g
              ∧ m.due = s.now + d.dims.1 * d.dims.2 * d.size / 256)))

/-! ## The walker and the engines (10_tile_copy, 11_tile_matrix) -/

/-- The walker takes a running chain's next entry: COPY starts a copy of its records at the coordinates moved by the entry's and
goes on, at most four at a time; LOOP counts, moves the coordinates and goes back, or after its last turn restores them and goes
on; IFTAG skips when the tag has the sense's value; SETTAG sets or clears; END frees the chain. An entry of kind 1 or of no kind
that fails its checks, or beyond the scratchpad, fails (R233, R240 to R243, R247). QFEED pushes the 64 words at its address into
its queue, which waiting pops receive, and stalls on a full queue until it has room again; a retired group's vector is discarded
(R234, R244, R252). -/
def Obligations.ChainEntries : Prop :=
  (∀ (s : State) (t : Team) (c : Chain), s.arg = [t.key, c.h] → s.team? t.key = some t → t.chain? c.h = some c → c.st = .running →
    let e := t.scratchBytes c.off 32
    let f := fieldOf e
    let next := c.off + 32
    (next > s.scratchSize t → exec .copyEntry s = .next (s.chainError t.key c.h cTagerr 8 none))
    ∧ (next ≤ s.scratchSize t →
      (f 0 1 > 5 → exec .copyEntry s = .next (s.chainError t.key c.h cTagerr 1 none))
      ∧ (f 0 1 = 1 → (t.chainCopies c.h).length < 4 →
        let xs := (c.u.zip (i16s e 16)).map fun p => s32 (p.1 + p.2)
        let xd := (c.w.zip (i16s e 24)).map fun p => s32 (p.1 + p.2)
        let slot := f 2 1 == 0
        let src := readShape (t.scratchBytes (f 4 4) 64)
        let dst := if slot then src else readShape (t.scratchBytes (f 8 4) 64)
        (∀ code, s.copyCode t e = some code → exec .copyEntry s = .next (s.chainError t.key c.h cTagerr code (some (f 1 1))))
        ∧ (∀ code, s.copyCode t e = none → src.code false slot (xs.getD 0 0) 0 = some code →
            exec .copyEntry s = .next (s.chainError t.key c.h cShaperec code (some (f 1 1))))
        ∧ (s.copyCode t e = none → src.code false slot (xs.getD 0 0) 0 = none →
            (slot = false → dst.code true false (xd.getD 0 0) (resultFmt src) = none) →
            ∃ s', exec .copyEntry s = .next s' ∧ s'.mem = s.mem ∧ TeamIs s' t.key fun u =>
              (∃ x ∈ u.copies, x.h = c.h ∧ x.tag = f 1 1 ∧ x.slot = (if slot then some (f 3 1) else none) ∧ x.src = src ∧ x.dst = dst
                ∧ x.xs = xs ∧ x.xd = xd ∧ x.faults = [] ∧ x.off = c.off)
              ∧ (∃ c', u.chain? c.h = some c' ∧ c'.off = next ∧ c'.u = c.u ∧ c'.w = c.w ∧ c'.it = c.it) ∧ u.tags = t.tags))
      ∧ (f 0 1 = 2 → f 24 8 = 0 → f 1 1 ≤ 3 → f 2 2 ≠ 0 → f 4 4 ≠ 0 → c.head + 32 * f 2 2 ≤ c.off →
        (∀ x ∈ c.loops.getD (f 1 1) [], x.1 = c.off ∧ x.2 = false) →
        let it := c.it.getD (f 1 1) 0
        ∃ s' c', exec .loopEntry s = .next s' ∧ TeamIs s' t.key (fun u => u.chain? c.h = some c') ∧ s'.mem = s.mem
          ∧ (it + 1 < f 4 4 → c'.off = c.off - 32 * f 2 2 ∧ c'.it = c.it.set (f 1 1) (it + 1)
              ∧ c'.u = moveBy 1 c.u (i16s e 8) ∧ c'.w = moveBy 1 c.w (i16s e 16))
          ∧ (f 4 4 ≤ it + 1 → c'.off = next ∧ c'.it = c.it.set (f 1 1) 0
              ∧ c'.u = moveBy (-(it : Int)) c.u (i16s e 8) ∧ c'.w = moveBy (-(it : Int)) c.w (i16s e 16)))
      ∧ (t.chainCopies c.h = [] →
        (f 0 1 = 3 → f 1 1 < 64 → f 1 1 < s.tagCount t → f 2 1 ≤ 1 → f 3 1 = 0 → leNat (e.drop 6) = 0 →
          ∃ s', exec .iftagEntry s = .next s' ∧ s'.mem = s.mem ∧ TeamIs s' t.key fun u => ∃ c', u.chain? c.h = some c'
            ∧ c'.off = next + (if t.tags.getLsbD (f 1 1) = (f 2 1 == 1) then 32 * f 4 2 else 0) ∧ c'.u = c.u ∧ c'.it = c.it ∧ u.tags = t.tags)
        ∧ (f 0 1 = 5 → f 1 1 < 64 → f 1 1 < s.tagCount t → leNat (e.drop 3) = 0 →
          (f 2 1 = 0 → ∃ s', exec .settagEntry s = .next s' ∧ s'.mem = s.mem ∧ TeamIs s' t.key fun u =>
            u.tags = t.tags ||| BitVec.ofNat 64 (2 ^ f 1 1) ∧ ∃ c', u.chain? c.h = some c' ∧ c'.off = next)
          ∧ (f 2 1 = 1 → t.tagsSet.1 ≠ s.now → ∃ s', exec .settagEntry s = .next s' ∧ s'.mem = s.mem ∧ TeamIs s' t.key fun u =>
            u.tags = t.tags &&& ~~~(BitVec.ofNat 64 (2 ^ f 1 1)) ∧ u.tagerr = t.tagerr &&& ~~~(BitVec.ofNat 64 (2 ^ f 1 1))
              ∧ ∃ c', u.chain? c.h = some c' ∧ c'.off = next))
        ∧ (f 0 1 = 0 → leNat e = 0 → ∃ s', exec .endEntry s = .next s' ∧ s'.mem = s.mem ∧ TeamIs s' t.key fun u =>
            u.chain? c.h = none ∧ (∀ n, n ≠ c.h → u.chain? n = t.chain? n) ∧ u.tags = t.tags))))
  ∧ (∀ (s : State) (t : Team) (c : Chain) (l : Launch), s.arg = [t.key, c.h] → s.team? t.key = some t → t.chain? c.h = some c →
    s.launchOf t = some l →
    let e := t.scratchBytes c.off 32
    let f := fieldOf e
    let a : Int := f 4 4 + ((c.u.zip (i16s e 8)).map fun p => p.1 * p.2).sum
    let words := (List.range 64).map fun n => BitVec.ofNat 32 (leNat (t.scratchBytes (a.toNat + 4 * n) 4))
    (c.st = .running → c.off + 32 ≤ s.scratchSize t → t.chainCopies c.h = [] → f 0 1 = 4 → f 3 1 = 0 → leNat (e.drop 16) = 0 →
      f 1 1 ≤ 3 → f 2 1 < l.gpt → 0 ≤ a → a % 4 = 0 → a + 256 ≤ s.scratchSize t →
      (t.group? (f 2 1) = none → ∃ s', exec .qfeedEntry s = .next s' ∧ s'.mem = s.mem ∧ TeamIs s' t.key fun u => u.groups = t.groups
        ∧ ∃ c', u.chain? c.h = some c' ∧ c'.off = c.off + 32)
      ∧ ∀ g, t.group? (f 2 1) = some g →
        ((g.entries (f 1 1)).length = 8 → ∃ s', exec .qfeedEntry s = .next s' ∧ s'.mem = s.mem ∧ TeamIs s' t.key fun u =>
          u.groups = t.groups ∧ u.chain? c.h = some { c with st := .stalledQueue })
        ∧ ((g.entries (f 1 1)).length < 8 → g.threads ≠ [] → (∀ x ∈ g.threads, g.poppedOf x.lane (f 1 1) ≤ g.pushed.getD (f 1 1) 0) →
          ∃ s', exec .qfeedEntry s = .next s' ∧ s'.mem = s.mem ∧ TeamIs s' t.key (fun u =>
            (∃ c', u.chain? c.h = some c' ∧ c'.off = c.off + 32)
              ∧ ∃ g', u.group? (f 2 1) = some g' ∧ { queue := f 1 1, seq := g.pushed.getD (f 1 1) 0, words := words } ∈ g'.queue)
            ∧ ∀ o ∈ s.ops, ∀ lane v, v < 128 → o.team = t.key → o.what = .qpop (f 2 1) lane v (f 1 1) (g.pushed.getD (f 1 1) 0) →
                ∃ o' ∈ s'.ops, o'.key = o.key ∧ o'.what = .vres [(f 2 1, lane, v, words.getD lane 0)] 0))
    ∧ (c.st = .stalledQueue → (∀ g, t.group? (f 2 1) = some g → (g.entries (f 1 1)).length < 8) →
      ∃ s', exec .qfeedResume s = .next s' ∧ s'.mem = s.mem ∧ TeamIs s' t.key fun u => u.chain? c.h = some { c with st := .running, due := s.now }))

/-- A copy that completes has written every element, converted, to the place the swizzle or the slot layout gives it, has set its
tag and is no longer in flight (R237, R238, R241, R263). A copy that meets page faults writes no element and stalls with its
records. Stated for a copy whose bytes no other copy and no thread has written, started outside blocks, with no byte in a pod window,
with a slot or with a destination in the team's own scratchpad. -/
def Obligations.CopyCompletes : Prop :=
  ∀ (s : State) (t : Team) (cp : Copy) (c : Chain), s.arg = [t.key, cp.key] → s.team? t.key = some t → t.copies = [cp] →
    t.chain? cp.h = some c → cp.faults = [] → cp.stage = 0 → s.podPending t.key (.copy cp.h cp.key) = false →
    (∀ va ∈ cp.srcVas ++ cp.dstVas, inPod va = false) → t.levels = [] → cp.spoil = [] → cp.slotSpoil = [] → cp.tag < s.tagCount t → cp.tag < 64 →
    let s0 := s.noteCluster t.key (cp.srcVas ++ cp.dstVas)
    let fs := s0.tileFaults t .load (fun _ => false) cp.srcVas ++ s0.tileFaults t .store (s.wholeSector cp.dstVas) cp.dstVas
    (fs = [] →
      (∀ n x, cp.slot = some n → t.slot? n = some x →
        ∃ s' u y, exec .copyComplete s = .next s' ∧ s'.team? t.key = some u ∧ u.slot? n = some y ∧ u.copies = [] ∧ u.tags.getLsbD cp.tag = true
          ∧ u.scratch = t.scratch ∧ s'.mem = s.mem
          ∧ (((s0.slotWrites t c.level cp).map (·.1)).Nodup →
              (∀ o b, (o, some b) ∈ s0.slotWrites t c.level cp → bget o y.bytes = some b)
              ∧ ∀ o, o ∉ (s0.slotWrites t c.level cp).map (·.1) → bget o y.bytes = bget o x.bytes))
      ∧ (cp.slot = none → (∀ w ∈ s0.recordWrites t c.level cp (s.wholeSector cp.dstVas), ∃ o, w.1.loc = .scratch t.key o) →
          (∀ x ∈ s.teams, x.copies ≠ [] → x = t) →
          (∀ va ∈ cp.srcVas, ∀ sp, s0.tileSpot t .load false va = .ok sp →
            ∀ w ∈ s0.recordWrites t c.level cp (s.wholeSector cp.dstVas), w.1.loc ≠ sp.loc) →
          ∃ s' u, exec .copyComplete s = .next s' ∧ s'.team? t.key = some u ∧ u.copies = [] ∧ u.tags.getLsbD cp.tag = true
            ∧ s'.mem = s.mem ∧ u.scratch = (s0.recordWrites t c.level cp (s.wholeSector cp.dstVas)).foldl (fun m w => match w.1.loc with
                | .scratch _ o => bput o w.2 m
                | _ => m) t.scratch))
    ∧ (fs ≠ [] → (∀ f ∈ fs, f.2.cause = cPagefault ∨ f.2.cause = cProt) → s0.recordsFull t.ctx = false → c.st = .running →
        ∃ s', exec .copyComplete s = .next s' ∧ TeamIs s' t.key fun u => u.scratch = t.scratch ∧ u.slots = t.slots
          ∧ u.tags = t.tags ∧ (u.chain? cp.h).map Chain.st = some .stalledFault)

/-- The first round that waits for a core's array starts when the array is free, reads its slots as they stand, and completes its
cycles later; a completed `MMA` writes its tiles, each element the accumulation of its products in the order of R269, `MZERO`
zero, and `MLOAD` the words of memory; the tiles' kind becomes integer for the integer shape and for raw words, and the operation
is no longer outstanding (R264, R268 to R274, R278). Stated for operations whose tiles no other operation has touched, with no
byte in a pod window. A drain that completes has written each element's scaled and converted value, row by row, and only those
bytes; its tile is unchanged (R97, R275, R276). Stated for a destination in the team's scratchpad, without scale vectors and
without the sum. -/
def Obligations.MatrixPerformed : Prop :=
  ((∀ (s : State) (core : Nat) (t : Team) (m : MatOp), s.arg = [core] → s.arrayBusy core = false → s.team? t.key = some t →
    m ∈ t.mops → (t.key, m) ∈ s.arrayQueue core → (∀ p ∈ s.arrayQueue core, p.2.key ≠ m.key → m.seq < p.2.seq) →
    ((s.arrayQueue core).map fun p => p.2.key).Nodup → (t.mops.map MatOp.key).Nodup → m.due ≤ s.now →
    ∃ s', exec .matrixOpStart s = .next s' ∧ s'.mem = s.mem ∧ TeamIs s' t.key fun u => u.accs = t.accs
      ∧ { m with start := some s.now, read := t.slots.filter fun y => m.op.slots.contains y.name, due := s.now + arrayCycles s.part.stepping.toNat t.kind m.op + ownCycles t.kind 16 } ∈ u.mops)
  ∧ ∀ (s : State) (t : Team) (m : MatOp) (x : Acc), s.arg = [m.key] → s.matOp? m.key = some (t, m) → s.team? t.key = some t →
    t.levels = [] → m.clash = false → (t.accs.map Acc.n).Nodup → x ∈ t.accs →
    (∀ h a oa ob z, m.op = .mma h a oa ob z → (m.start).isSome = true → t.matBefore m = false → x.n ∈ m.op.tiles →
      ∃ s' y, exec .matrixOpComplete s = .next s' ∧ s'.mem = s.mem ∧ TeamIs s' t.key (fun u => y ∈ u.accs ∧ ∀ o ∈ u.mops, o.key ≠ m.key)
        ∧ y.n = x.n ∧ y.int = (h == 4) ∧ ∀ i j, i < 128 → j < 128 → sget (128 * i + j) y.elems
            = s.mmaElem m h oa ob (if z then 0 else sget (128 * i + j) x.elems)
                (i + if h = 1 then 128 * (x.n - a) else 0) (j + if h = 1 then 0 else 128 * (x.n - a)))
    ∧ (∀ a, m.op = .mzero a → x.n = a →
      ∃ s' y, exec .mzeroComplete s = .next s' ∧ s'.mem = s.mem ∧ TeamIs s' t.key (fun u => y ∈ u.accs ∧ ∀ o ∈ u.mops, o.key ≠ m.key)
        ∧ y.n = a ∧ y.int = false ∧ y.elems = [])
    ∧ (∀ a d, m.op = .mload a d → m.faults = [] → x.n ∈ m.op.tiles → s.podPending t.key (.mop m.key) = false →
      (∀ va ∈ d.vas, inPod va = false) → (s.noteCluster t.key d.vas).tileFaults t .load (fun _ => false) d.vas = [] →
      ∃ s' y, exec .mloadComplete s = .next s' ∧ s'.mem = s.mem ∧ TeamIs s' t.key (fun u => y ∈ u.accs ∧ ∀ o ∈ u.mops, o.key ≠ m.key)
        ∧ y.n = x.n ∧ y.int = (d.type == 4) ∧ ∀ i j, i < 128 → j < 128 → sget (128 * i + j) y.elems
            = BitVec.ofNat 32 ((s.noteCluster t.key d.vas).tileNat t m
                (d.elemVa (i + if bits d.flags 2 1 = 2 then 128 * (x.n - a) else 0)
                  (j + if bits d.flags 2 1 = 2 then 0 else 128 * (x.n - a))) 4)))
  ∧ (∀ (s : State) (t : Team) (m : MatOp) (a : Nat) (d : Desc), s.arg = [m.key] → s.matOp? m.key = some (t, m) → s.team? t.key = some t →
    t.levels = [] → m.clash = false → m.op = .mdrain a d → m.faults = [] → m.stage ≠ 2 → s.podPending t.key (.mop m.key) = false → d.rowsc = 0 → d.colsc = 0 → d.flags.testBit 0 = false →
    let s0 := s.noteCluster t.key d.vas
    let base := d.addr % 2 ^ 40
    inScratch d.addr = true → base + (d.dims.1 - 1) * d.stride + d.dims.2 * d.size ≤ s.scratchSize t → d.dims.2 * d.size ≤ d.stride → s.scratchSize t ≤ 2 ^ 40 →
    s0.tileFaults t .store (s.wholeSector d.vas) d.vas = [] → s.checks = [] →
    ∃ s' u, exec .drainComplete s = .next s' ∧ s'.team? t.key = some u ∧ u.accs = t.accs ∧ s'.mem = s.mem ∧ (∀ o ∈ u.mops, o.key ≠ m.key)
      ∧ (∀ i j n, i < d.dims.1 → j < d.dims.2 → n < d.size →
          let p := tilePlace (bits d.flags 2 1 == 2) i j
          let int := t.accs.any fun x => x.n == a + p.1 && x.int
          bget (base + i * d.stride + j * d.size + n) u.scratch
            = some ((leBytes d.size (drainElem d int (t.accElem (a + p.1) p.2).toNat 0x3F800000 0x3F800000 0)).getD n 0))
      ∧ ∀ o, (∀ i j n, i < d.dims.1 → j < d.dims.2 → n < d.size → o ≠ base + i * d.stride + j * d.size + n) →
          bget o u.scratch = bget o t.scratch)

/-! ## Barriers and the commit token (12_barrier, 17_queue R368, R369) -/

/-- An arriving thread's arrival is on its way to its instance, with its count, the destination is empty and the squad waits until it
is counted, when the cycle ends; then the word produces the phase it was counted in, in bits 31:16, and a `SYNC` waits for that phase
and produces its result. A counted thread is in the open phase; when the count is met, "all" or an `ARRIVEX` number, the phase
completes, to be released after the scope's delay, and the next opens with no arrivals and count "all". `ARRIVEX` of 0 or of 2^31
and more, and scope 4 without pod links, are `ILLOP` (R106, R107, R285 to R292). Stated for a squad of one thread, outside blocks
and worlds, at an instance that exists, for pod barriers at their home. -/
def Obligations.BarrierArrivals : Prop :=
  (∀ (sc : BitVec 3) (id d k : BitVec 6) (s : State) (t : Team) (g l : Nat),
    s.InGroup t g → s.members = [(g, l)] → t.levels = [] → t.parent = none →
    let n := (s.rdS t g k.toNat).toNat
    (sc = 4 → s.part.accepted.getLsbD 5 = false → exec (.arrive sc id d) s = .next (s.trapAll cIllop 0))
    ∧ (s.passed = none → n = 0 ∨ 2 ^ 31 ≤ n → exec (.arrivex sc id k d) s
        = let s1 := s.takeTraps [(g, l, cIllop, BitVec.ofNat 64 n)]
          if s1.members = [] then .next s1
          else .next (s1.barBegin sc.toNat id.toNat fun key x => x.barWord key sc.toNat false (fun g => some (s.rdS t g k.toNat).toNat) d.toNat))
    ∧ ∀ (o : BarOwner) (num : Nat) (b : Bar), sc.toNat ≤ 4 → (sc = 4 → s.part.accepted.getLsbD 5 = true) →
      s.barOwner t sc.toNat id.toNat = some (o, num) →
      s.bars.find? (fun x => x.owner == o && x.scope == sc.toNat && x.id == num) = some b → (s.bars.map Bar.key).Nodup →
      let sent := fun (s' : State) (count : Option Nat) => s'.mem = s.mem
        ∧ (∃ a : Arrival, a.who = (s.cur.team, g, l) ∧ a.count = count ∧ s'.bar? b.key = some { b with coming := b.coming ++ [a] })
        ∧ Waits s s' (fun w => w = .arrive b.key)
        ∧ (d ≠ 0 → TeamIs s' s.cur.team fun u => u.isEmpty (.s g d.toNat) = true)
      let gives := fun (s' : State) (x : Word) => s'.mem = s.mem
        ∧ (d ≠ 0 → ∃ lat, Produces s s' (.s g d.toNat) lat fun w => w = .sres g d.toNat x)
      (s.passed = none →
        (∃ s', exec (.arrive sc id d) s = .next s' ∧ sent s' none)
        ∧ (0 < n → n < 2 ^ 31 → ∃ s', exec (.arrivex sc id k d) s = .next s' ∧ sent s' (some n))
        ∧ ∃ s', exec (.sync sc id d) s = .next s' ∧ sent s' none)
      ∧ ∀ ph, s.passed = some [(g, l, ph)] →
        (∃ s', exec (.arrive sc id d) s = .next s' ∧ gives s' (BitVec.ofNat 32 (ph * 65536)))
        ∧ (∃ s', exec (.arrivex sc id k d) s = .next s' ∧ gives s' (BitVec.ofNat 32 (ph * 65536)))
        ∧ (b.tokenDone ph = true → ∃ s', exec (.sync sc id d) s = .next s'
            ∧ gives s' (BitVec.ofNat 32 (ph * 65536 + if (ph, t.key, g) ∈ b.results then 1 else 0)))
        ∧ (b.tokenDone ph = false → ∃ s', exec (.sync sc id d) s = .next s' ∧ s'.mem = s.mem
            ∧ Waits s s' fun w => w = .phases b.key [ph] true))
  ∧ ∀ (s : State) (b : Bar) (a : Arrival) (t : Team) (th : Thread), s.bars.filter (fun b => !b.coming.isEmpty) = [b] → b.coming = [a] →
    (s.bars.map Bar.key).Nodup → s.team? a.who.1 = some t → t.thread? a.who.2.1 a.who.2.2 = some th → a.who ∉ b.arrived →
    b.expected = none → (∀ h m, b.owner = .pod h m → h = s.part.moduleNum) →
    let closes := match a.count with
      | some n => n ≤ b.arrived.length + 1
      | none => ∃ live, s.barLive b.owner = some live ∧ live.all (b.arrived ++ [a.who]).contains = true
    s.countArrivals.mem = s.mem ∧ ∃ b', s.countArrivals.bar? b.key = some b' ∧ b'.coming = []
      ∧ (¬ closes → b'.phase = b.phase ∧ b'.arrived = b.arrived ++ [a.who] ∧ b'.expected = a.count ∧ b'.complete = b.complete)
      ∧ (closes → b'.phase = (b.phase + 1) % 65536 ∧ b'.arrived = [] ∧ b'.expected = none
          ∧ ∃ r, b'.complete = b.complete ++ [r] ∧ r.phase = b.phase ∧ r.due = s.now + releaseDelay b.scope
            ∧ (s.barDet { b with arrived := b.arrived ++ [a.who] } = false → a.who.1 < 2 ^ 64 → r.team = a.who.1 ∧ r.gid = a.who.2.1))
      ∧ ∀ q ∈ t.squads, ∀ w, q.wait = some w → w.on = .arrive b.key → a.who.2 ∈ q.members →
          TeamIs s.countArrivals a.who.1 fun u => { q with wait := some { w with got := w.got ++ [(a.who.2.1, a.who.2.2, b.phase)] } } ∈ u.squads

/-- `WAITB` produces its phase's result when the phase its token, as read at issue, names has completed, bit 0 in the elected
group, and else waits for it; a token of a die the team has left completes with VOID (R289 to R292). A completed phase is released
after its delay, once the fences of its arrivals are complete. The home of a pod barrier counts an arrival of another module in
the open phase, with its count, and completes the phase when the count is met; elsewhere the home's message completes the phase
(R287, R413). The words of DET: without a deterministic context they change nothing; `TKWAIT` goes on in the group that holds the
token, and else waits; `TKPASS` passes the token to the next group above that qualifies, else to the lowest; `TKDONE` ends the
group's part in the order, and with the last group of its team the team's (R368, R369). -/
def Obligations.BarriersAndTokens : Prop :=
  ((∀ (sc : BitVec 3) (id k d : BitVec 6) (s : State) (t : Team) (g : Nat) (o : BarOwner) (num : Nat) (b : Bar),
    s.InGroup t g → t.levels = [] → t.parent = none → sc.toNat ≤ 4 → (sc = 4 → s.part.accepted.getLsbD 5 = true) →
    s.barOwner t sc.toNat id.toNat = some (o, num) →
    s.bars.find? (fun x => x.owner == o && x.scope == sc.toNat && x.id == num) = some b → (s.bars.map Bar.key).Nodup →
    let token := match s.passed with
      | some got => laterPhase got g
      | none => (s.rdS t g k.toNat).toNat / 65536
    ((sc = 2 → (b.id, token) ∉ t.voids) → b.tokenDone token = true → ∃ s', exec (.waitb sc id k d) s = .next s' ∧ s'.mem = s.mem
      ∧ (d ≠ 0 → ∃ lat, Produces s s' (.s g d.toNat) lat fun w => w = .sres g d.toNat
          (BitVec.ofNat 32 (token * 65536 + if (token, t.key, g) ∈ b.results then 1 else 0))))
    ∧ ((sc = 2 → (b.id, token) ∉ t.voids) → b.tokenDone token = false → ∃ s', exec (.waitb sc id k d) s = .next s' ∧ s'.mem = s.mem
      ∧ Waits s s' fun w => w = .phases b.key [token] false)
    ∧ (sc = 2 → (b.id, token) ∈ t.voids → d ≠ 0 → ∃ s' lat, exec (.waitb sc id k d) s = .next s' ∧ s'.mem = s.mem
      ∧ Produces s s' (.s g d.toNat) lat fun w => w = .sres g d.toNat (BitVec.ofNat 32 (token * 65536 + 2))))
  ∧ ∀ (s : State) (b : Bar) (r : Release) (rest : List Release), s.arg = [b.key] → s.bar? b.key = some b → b.complete = r :: rest →
    (s.now < r.due ∨ (∃ k ∈ r.fences, ∃ o ∈ s.ops, o.key = k) → exec .barrierRelease s = .next s)
    ∧ (r.due ≤ s.now → (∀ k ∈ r.fences, ∀ o ∈ s.ops, o.key ≠ k) → ∃ s', exec .barrierRelease s = .next s' ∧ s'.mem = s.mem ∧ s'.teams = s.teams
        ∧ ∃ b', s'.bar? b.key = some b' ∧ b'.complete = rest ∧ (r.phase, r.team, r.gid) ∈ b'.results ∧ b'.phase = b.phase
          ∧ b'.arrived = b.arrived
          ∧ ∀ home n, b.owner = .pod home n → home = s.part.moduleNum → s'.out = s.out
            ++ [.podCompletion home n (if 2 ^ 64 ≤ r.team then r.team - 2 ^ 64 else s.part.moduleNum)]))
  ∧ (∀ (s : State) (cn id home n : Nat) (c : Context) (b : Bar), s.ctx? cn = some c → c.podBar? id = some (home, n) →
    s.bars.find? (fun x => x.owner == .pod home n && x.scope == 4 && x.id == 0) = some b → (s.bars.map Bar.key).Nodup →
    (∀ module count team gid, s.arg = [cn, id, module, count, team, gid] →
      (home ≠ s.part.moduleNum → exec .podBarrierArrival s = .next s)
      ∧ (home = s.part.moduleNum → b.expected = none → (∀ a ∈ b.arrived, a ≠ remoteThread module team gid s.keys) →
        s.team? (2 ^ 64 + module) = none →
        ∃ s' b', exec .podBarrierArrival s = .next s' ∧ s'.mem = s.mem ∧ s'.teams = s.teams ∧ s'.bar? b.key = some b'
          ∧ (count = 0 ∨ b.arrived.length + 1 < count →
              b'.phase = b.phase ∧ b'.arrived.length = b.arrived.length + 1 ∧ b'.expected = if count = 0 then none else some count)
          ∧ (count ≠ 0 → count ≤ b.arrived.length + 1 → b'.phase = (b.phase + 1) % 65536 ∧ b'.arrived = [] ∧ b'.expected = none
              ∧ b'.complete.length = b.complete.length + 1)))
    ∧ ∀ elected, s.arg = [cn, id, elected] → home ≠ s.part.moduleNum → b.arrived ≠ [] →
      ∃ s' b', exec .podBarrierCompletion s = .next s' ∧ s'.mem = s.mem ∧ s'.teams = s.teams ∧ s'.bar? b.key = some b'
        ∧ b'.phase = (b.phase + 1) % 65536 ∧ b'.arrived = [] ∧ ∃ r, b'.complete = b.complete ++ [r] ∧ r.phase = b.phase
          ∧ (elected ≠ 1 → r.team = 2 ^ 64))
  ∧ (∀ (s : State) (t : Team) (g : Nat) (gr : Group), s.InGroup t g → t.group? g = some gr →
    (s.isDet t = false → ∀ i ∈ [Instr.tkwait, .tkpass, .tkdone], exec i s = .next s)
    ∧ (s.isDet t = true →
      (t.token = some g ∨ (∃ got, s.passed = some got ∧ ∃ r ∈ got, r.1 = g) → exec .tkwait s = .next s)
      ∧ (t.token ≠ some g → s.passed = none → exec .tkwait s = .next (s.waitWith .token []))
      ∧ (t.token = some g → s.passed = none → ∃ s', exec .tkpass s = .next s' ∧ s'.mem = s.mem ∧ TeamIs s' s.cur.team fun u => u.groups = t.groups
          ∧ (∀ x ∈ t.qualified s.now, g < x → (∀ y ∈ t.qualified s.now, g < y → x ≤ y) → u.token = some x)
          ∧ (∀ x ∈ t.qualified s.now, x ≠ g → (∀ y ∈ t.qualified s.now, y ≤ g) → (∀ y ∈ t.qualified s.now, y ≠ g → x ≤ y) →
              u.token = some x)
          ∧ ((∀ y ∈ t.qualified s.now, y = g) → u.token = if g ∈ t.qualified s.now then some g else none))
      ∧ ∃ s', exec .tkdone s = .next s' ∧ s'.mem = s.mem ∧ TeamIs s' s.cur.team fun u => (∃ gr', u.group? g = some gr' ∧ gr'.tkdone = true ∧ gr'.threads = gr.threads)
          ∧ (t.token = some g → u.token ≠ some g)
          ∧ (t.parent = none → (∀ x ∈ t.groups, x.gid ≠ g → x.threads ≠ [] → x.tkdone = true) → u.doneOrdering = true
              ∧ ∀ y, s.launch? t.launch = some y → ∃ y', s'.launch? t.launch = some y' ∧ t.index ∈ y'.ordered)))

/-! ## Recovery blocks and worlds (13_lamina, 14_world) -/

/-- Without their feature the words of RB and WORLD are `ILLOP` (R355). `ENSURE` latches its word, literal and limit, and its
threads wait for the level to open; at depth 8 the routine fails. A routine's end word takes its threads to the test of their
level; at another word the routine fails, outside blocks it is `ILLOP`. `ACCEPT` and `REJECT` in the test wait for the verdict
(R303 to R305, R312). `CONVJOIN` enters its team in a conversation of at most 64 teams of the context, with a number of 8 bits;
`CONVLEAVE` leaves it; in an open block both are failures with code 11. `RBSTAT` produces depth, routine, cause, retries and the
conversation bit (R306, R312, R316). -/
def Obligations.BlockWords : Prop :=
  (∀ (s : State) (t : Team) (g : Nat), s.InGroup t g → ∀ (k d : BitVec 6) (w : BitVec 5),
    (s.feature 1 = false → ∀ i ∈ [Instr.ensure k, .elseby, .elseerror, .accept, .reject, .convjoin k, .convleave, .rbstat d],
      exec i s = .next (s.trapAll cIllop 0))
    ∧ (s.feature 0 = false → ∀ i ∈ [Instr.fork d k, .wdone k, .choose d k, .wabort, .wstat w k], exec i s = .next (s.trapAll cIllop 0))
    ∧ (s.feature 1 = true →
      ((s.passed).isSome = true → ∀ i ∈ [Instr.ensure k, .accept, .reject], exec i s = .next s)
      ∧ (s.passed = none → t.levels.length ≥ 8 → exec (.ensure k) s = .next (s.failRoutine t.key 11))
      ∧ (s.passed = none → t.levels.length < 8 → t.ensureLatch = none → ∃ s', exec (.ensure k) s = .next s' ∧ s'.mem = s.mem
        ∧ Waits s s' (fun w => w = .ensure) ∧ TeamIs s' s.cur.team fun u => u.levels = t.levels ∧ ∃ l, u.ensureLatch = some l
          ∧ l.word = s.cur.word ∧ l.lit = s.cur.lit ∧ l.val = s.rdS t g k.toNat ∧ l.arrived = uniq s.members)
      ∧ (∀ l, t.ensureLatch = some l → s.passed = none → t.levels.length < 8 → l.word ≠ s.cur.word ∨ l.lit ≠ s.cur.lit →
          exec (.ensure k) s = .next (s.trapAll cIllop (l.word.setWidth 64)))
      ∧ ∀ i ∈ [Instr.elseby, .elseerror], (t.levels = [] → exec i s = .next (s.trapAll cIllop 0))
        ∧ ∀ l rest, t.levels = l :: rest →
          (s.endPc t l l.routine ≠ some s.cur.pc → exec i s = .next (s.failRoutine t.key 10))
          ∧ (s.endPc t l l.routine = some s.cur.pc → targetOk t (s.testPc t l) = true →
            ∃ s', exec i s = .next s' ∧ s'.mem = s.mem ∧ TeamIs s' s.cur.team fun u =>
              (∀ m ∈ s.members, ∀ x, t.thread? m.1 m.2 = some x → u.thread? m.1 m.2 = some { x with pc := s.testPc t l })
                ∧ ∃ l', u.levels = l' :: rest ∧ ∀ m ∈ s.members, m ∈ l'.testing))
    ∧ ∀ i ∈ [Instr.accept, .reject], s.feature 1 = true → s.passed = none → ∀ l rest, t.levels = l :: rest →
        (∀ m ∈ s.members, m ∈ l.testing) → s.members ≠ [] →
        ∃ s', exec i s = .next s' ∧ s'.mem = s.mem ∧ Waits s s' (fun w => w = .verdict) ∧ TeamIs s' s.cur.team fun u => u.levels = t.levels)
  ∧ (∀ (s : State) (t : Team) (g : Nat) (k d : BitVec 6), s.InGroup t g → s.feature 1 = true →
    let c := (s.rdS t g k.toNat).toNat
    let others := s.teams.filter fun u => u.ctx == t.ctx && u.conv == some c && u.key != t.key
    (t.levels ≠ [] → exec (.convjoin k) s = .next (s.failRoutine t.key 11) ∧ exec .convleave s = .next (s.failRoutine t.key 11))
    ∧ (t.levels = [] → t.parent = none →
      (c ≤ 255 → others.length < 64 → ∃ s', exec (.convjoin k) s = .next s' ∧ s'.mem = s.mem
        ∧ TeamIs s' s.cur.team fun u => u = { t with conv := some c })
      ∧ (255 < c ∨ 64 ≤ others.length → exec (.convjoin k) s
          = .next (s.turned.takeTraps ((s.lanesOf g).map fun l => (g, l, cIllop, BitVec.ofNat 64 c)))))
    ∧ (t.levels = [] → exec .convleave s = .next (s.modTeam t.key fun t => { t with conv := none }))
    ∧ (d ≠ 0 → ∃ s' x, exec (.rbstat d) s = .next s' ∧ Produces s s' (.s g d.toNat) s.delay (fun o => o = .sres g d.toNat x)
        ∧ Keeps s s' (fun _ => False)
        ∧ (t.levels.length ≤ 8 → x.toNat % 16 = t.levels.length ∧ x.getLsbD 18 = t.conv.isSome ∧ bits x.toNat 15 8 = t.rbCause % 256
          ∧ (∀ l rest, t.levels = l :: rest → bits x.toNat 7 4 = l.routine % 16 ∧ bits x.toNat 17 16 = l.retries % 4)
          ∧ (t.levels = [] → bits x.toNat 7 4 = t.rbRoutine % 16 ∧ bits x.toNat 17 16 = t.rbRetry % 4))))

/-- The events of a block: a running routine that has used more than its limit fails with code 2, its level and those inside it
restoring; when the outstanding work of a level has ended it is put back, registers, masks, tags, private memory and journalled
scratchpad as saved, and its next routine, or the same for a retry, starts in every thread; an inner level without one fails the
enclosing level, the outermost one is closed with the context FAULTED; a committed outermost level closes and performs its outbox
(R302, R307 to R315). -/
def Obligations.BlockEvents : Prop :=
  ∀ (s : State) (t : Team), s.arg = [t.key] → s.team? t.key = some t →
    (s.expired t = none → exec .rbCycleLimit s = .next s)
    ∧ (∀ l, s.expired t = some l → ∃ s', exec .rbCycleLimit s = .next s' ∧ s'.mem = s.mem ∧ TeamIs s' t.key fun u =>
        u.rbCause = 2 ∧ u.groups = t.groups ∧ ∀ x ∈ u.levels, l.depth ≤ x.depth → x.st = .restoring
          ∧ (x.depth = l.depth → ∃ y ∈ t.levels, y.depth = x.depth ∧ x.nextRoutine = y.routine + 1))
    ∧ (∀ l, t.restoring = some l → s.restoreSet t l = [t] → t.workEnded l = true →
      (1 < l.depth → s.noRoutine t l = true → exec .rbRestore s = .next (s.failLevel t.key (l.depth - 1) 13))
      ∧ ∀ snap, s.snaps.find? (fun x => x.key == l.snap) = some snap →
        (s.noRoutine t l = false → s.lamsFree (dieOf t.core) 1 = true → ∃ s' u l', exec .rbRestore s = .next s' ∧ s'.mem = s.mem ∧ s'.team? t.key = some u
          ∧ u.levels = l' :: t.levels.filter (fun x => x.depth < l.depth)
          ∧ l'.st = .running ∧ l'.depth = l.depth ∧ l'.routine = l.nextRoutine ∧ l'.start = s.now
          ∧ l'.retries = (if l.nextRoutine = l.routine then l.retries + 1 else 0)
          ∧ (snap.team.kind = t.kind → u.priv = snap.team.priv) ∧ u.tags = snap.team.tags ∧ u.tagerr = snap.team.tagerr ∧ u.windows = []
          ∧ (∀ g lane x y, (snap.team.group? g).bind (fun z => z.thread? lane) = some x → t.thread? g lane = some y →
              ∃ z, u.thread? g lane = some z ∧ z.v = x.v ∧ z.p = x.p ∧ z.stack = x.stack ∧ z.depth = x.depth ∧ z.fpctl = x.fpctl
                ∧ z.fpflags = x.fpflags ∧ z.park = none ∧ z.pc = s.startPc t { l with st := .running, routine := l.nextRoutine } l.nextRoutine)
          ∧ (∀ g x y, snap.team.group? g = some x → t.group? g = some y → ∃ z, u.group? g = some z ∧ z.s = x.s ∧ z.q = x.q ∧ z.queue = x.queue
              ∧ z.tvec = x.tvec ∧ z.flags = [] ∧ z.st = y.st)
          ∧ ((∀ x ∈ t.levels, l.depth ≤ x.depth → x.journal = []) → u.scratch = t.scratch)
          ∧ (∀ w prior, t.levels = [l] → l.journal = [(t.key, w, prior)] → u.scratch = t.scratch.wordBack w prior))
        ∧ (s.noRoutine t l = true → l.depth = 1 → ∀ c, s.ctxOf t = some c → c.recording = true →
          ∃ s' c', exec .rbRestore s = .next s' ∧ TeamIs s' t.key (fun u => u.levels = [] ∧ u.priv = snap.team.priv)
            ∧ s'.ctx? t.ctx = some c' ∧ c'.st = .faulted))
    ∧ ∀ l, t.levels = [l] → l.st = .committing →
      ((s.lam? l.lam).isSome = true ∨ s.sendingOn t = true
          ∨ (∃ f ∈ s.flights, f.key < l.mark ∧ (f.team = t.key ∨ f.die = dieOf t.core ∨ ∃ x ∈ t.seen, x.2.2 = f.lam)) →
        exec .rbCommitComplete s = .next s)
      ∧ (s.levelOut t l = true → t.parent = none →
        (t.outbox = [] → ∃ s', exec .rbCommitComplete s = .next s' ∧ s'.mem = s.mem ∧ TeamIs s' t.key fun u =>
          u.levels = [] ∧ u.rbRoutine = l.routine ∧ u.rbRetry = l.retries ∧ u.groups = t.groups
            ∧ ∀ q ∈ u.squads, ∀ w, q.wait = some w → w.on ≠ .verdict)
        ∧ ∀ e va pa n x, t.outbox = [e] → e.op = .store va (some pa) n x → s.OpenOutside → (∀ o ∈ s.ops, o.key < s.keys) →
          ∃ s', exec .rbCommitComplete s = .next s' ∧ TeamIs s' t.key (fun u => u.levels = [] ∧ u.outbox = [])
            ∧ (∀ i, i < n → memGet (pa + i) s'.mem = (leBytes n x).getD i 0)
            ∧ ∀ a, a < pa ∨ pa + n ≤ a → memGet a s'.mem = memGet a s.mem)

/-- The words of WORLD: `FORK` with 2 to 8 rivals, outside blocks and clusters, empties its destination and waits with its number
latched; `CHOOSE` of a HOLDING parent does so with its rival or all ones; `WDONE` records the group's score with its lowest lane
and ends its threads; `WABORT` ends its rival as ABORTED with cause 1; `WSTAT` produces score and status; other numbers, and
rivals' words outside rivals, are `ILLOP` (R322 to R326). -/
def Obligations.WorldWords : Prop :=
  ∀ (s : State) (t : Team) (g : Nat) (d k : BitVec 6), s.InGroup t g → s.feature 0 = true → t.levels = [] → s.members ≠ [] →
    let n := (s.rdS t g k.toNat).toNat
    ((s.passed).isSome = true → exec (.fork d k) s = .next s ∧ exec (.choose d k) s = .next s)
    ∧ (s.passed = none → t.forkLatch = none → n < 2 ∨ 8 < n → exec (.fork d k) s = .next (s.trapAll cIllop (BitVec.ofNat 64 n)))
    ∧ (s.passed = none → t.forkLatch = none → 2 ≤ n → n ≤ 8 → s.clusterSize t ≤ 1 →
      ∃ s', exec (.fork d k) s = .next s' ∧ s'.mem = s.mem ∧ Waits s s' (fun w => w = .fork) ∧ TeamIs s' s.cur.team fun u =>
        (d ≠ 0 → u.isEmpty (.s g d.toNat) = true) ∧ ∃ l, u.forkLatch = some l ∧ l.val = s.rdS t g k.toNat ∧ l.d = d.toNat)
    ∧ (∀ f, t.fork = some f → f.holding = true → t.chooseLatch = none → s.passed = none →
      (n < f.rivals.length ∨ n = 0xFFFFFFFF → ∃ s', exec (.choose d k) s = .next s' ∧ s'.mem = s.mem ∧ Waits s s' (fun w => w = .choose)
        ∧ TeamIs s' s.cur.team fun u => ∃ l, u.chooseLatch = some l ∧ l.val = s.rdS t g k.toNat ∧ l.d = d.toNat)
      ∧ (f.rivals.length ≤ n → n ≠ 0xFFFFFFFF → exec (.choose d k) s = .next (s.trapAll cIllop (BitVec.ofNat 64 n))))
    ∧ (t.fork = none → s.passed = none → t.chooseLatch = none → exec (.choose d k) s = .next (s.trapAll cIllop (BitVec.ofNat 64 n)))
    ∧ (t.worldDepth = 0 → exec (.wdone k) s = .next (s.trapAll cIllop 0) ∧ exec .wabort s = .next (s.trapAll cIllop 0))
    ∧ (t.worldDepth ≠ 0 → ∃ s', exec (.wdone k) s = .next s' ∧ s'.mem = s.mem ∧ TeamIs s' s.cur.team fun u =>
        (∀ m ∈ s.members, u.thread? m.1 m.2 = none) ∧ (∀ h l, (h, l) ∉ s.members → u.thread? h l = t.thread? h l)
          ∧ ∀ l ∈ s.lanesOf g, (∀ y ∈ s.lanesOf g, l ≤ y) → (g, l, s.rdS t g k.toNat) ∈ u.wdone)
    ∧ (t.worldDepth ≠ 0 → ∀ p pt f r, t.parent = some p → p ≠ t.key → s.team? p = some pt → pt.fork = some f → t.fork = none →
      f.rivals.filter (fun x => x.team == t.key) = [r] → r.st = .running →
      ∃ s', exec .wabort s = .next s' ∧ s'.mem = s.mem ∧ TeamIs s' t.key (fun u => u.groups = [] ∧ u.squads = []) ∧ TeamIs s' p fun u =>
        ∃ f', u.fork = some f' ∧ { r with st := .aborted, cause := 1, score := 0 } ∈ f'.rivals)
    ∧ ∀ w : BitVec 5, w ≠ 0 → ∃ s' a b lat, exec (.wstat w k) s = .next s'
        ∧ Produces s s' (.s g (2 * w.toNat)) lat (fun o => o = .sres g (2 * w.toNat) a)
        ∧ (∃ lat, Produces s s' (.s g (2 * w.toNat + 1)) lat fun o => o = .sres g (2 * w.toNat + 1) b) ∧ Keeps s s' (fun _ => False)
        ∧ ((∀ f, t.fork = some f → f.holding = false) → a = 0 ∧ b = 0)
        ∧ ∀ f r, t.fork = some f → f.holding = true → f.rivals.find? (fun r => r.num == n) = some r → a = r.score
            ∧ (r.st = .done → b.toNat % 256 = 2) ∧ (r.st = .aborted → b.toNat % 256 = 3) ∧ bits b.toNat 15 8 = r.cause % 256

/-- When every live thread has arrived at `FORK` and the team has come to rest, its rivals are made, each a copy of the team with
its number in the destination, a view of its own and its place in `sr.world`, and the parent is SUSPENDED; at depth 4 the `FORK`
yields `0xFFFF_FFFE` (R319, R321, R323). Stated for a team without chunks and without pending results. A rival without live
threads is DONE with the score of its lowest group, once its chunks have committed and its engines rest, or ABORTED with cause 2
when none executed `WDONE`; a rival that has run 200 µs while another waits for a core begins its save; the waiting rival with the
lowest number goes onto a core that holds it; when all have ended the parent is HOLDING with all ones in its destination (R321,
R323, R324, R328). -/
def Obligations.ForkAndRivals : Prop :=
  (∀ (s : State) (t : Team) (l : Latch), s.arg = [t.key] → s.team? t.key = some t → t.forkLatch = some l → t.fork = none →
    let atFork := t.allWait fun w => w == .fork
    (atFork = false → exec .forkComplete s = .next s)
    ∧ (atFork = true → t.worldDepth ≥ 4 → l.d ≠ 0 → (t.groups.map Group.gid).Nodup → ∃ s', exec .forkComplete s = .next s' ∧ s'.mem = s.mem
      ∧ TeamIs s' t.key fun u => u.st = t.st ∧ u.fork = none ∧ u.forkLatch = none
        ∧ (∀ gr ∈ t.groups, u.peek (.s gr.gid l.d) = 0xFFFFFFFE) ∧ ∀ q ∈ u.squads, ∀ w, q.wait = some w → w.on ≠ .fork)
    ∧ (atFork = true → t.worldDepth < 4 → s.lamsFree (dieOf t.core) l.val.toNat = true → (∀ x ∈ s.lams, x.owner = .chunk → x.team ≠ t.key) →
      s.quiet t = true → s.settledFork t l.d = true → (∀ x ∈ s.teams, x.key < s.keys) → (∀ k, t.view = some k → k < s.keys) → l.d ≠ 0 → (t.groups.map Group.gid).Nodup →
      ∃ s' u f, exec .forkComplete s = .next s' ∧ s'.mem = s.mem ∧ s'.team? t.key = some u ∧ u.st = .suspended ∧ u.fork = some f
        ∧ u.groups = t.groups ∧ f.holding = false ∧ f.rivals.length = l.val.toNat
        ∧ ∀ n, n < l.val.toNat → ∃ r v, f.rivals[n]? = some r ∧ r.num = n ∧ s'.team? r.team = some v
          ∧ v.parent = some t.key ∧ v.scratch = t.scratch ∧ v.priv = t.priv ∧ v.slots = t.slots ∧ v.accs = t.accs ∧ v.tags = t.tags
          ∧ v.view.isSome = true ∧ v.view ≠ t.view
          ∧ v.world = BitVec.ofNat 32 (t.world.toNat / 8 * 8 + (t.worldDepth + 1) + n * 2 ^ (3 * (t.worldDepth + 1)))
          ∧ (r.st = .running ∨ r.st = .waiting)
          ∧ ∀ gr ∈ t.groups, ∃ gr', v.group? gr.gid = some gr' ∧ gr'.threads = gr.threads ∧ gr'.m = gr.m ∧ gr'.q = gr.q
            ∧ sget l.d gr'.s = BitVec.ofNat 32 n ∧ ∀ k, k ≠ l.d → sget k gr'.s = sget k gr.s))
  ∧ ((∀ (s : State) (t pt : Team) (p : Nat) (f : ForkRes) (r : Rival), s.team? t.key = some t → t.parent = some p → p ≠ t.key →
    s.team? p = some pt → pt.fork = some f → t.fork = none → f.rivals.filter (fun x => x.team == t.key) = [r] →
    let recorded := fun (s' : State) (r' : Rival) => s'.mem = s.mem ∧ TeamIs s' t.key (fun u => u.groups = [] ∧ u.scratch = t.scratch)
      ∧ TeamIs s' p fun u => ∃ f', u.fork = some f' ∧ r' ∈ f'.rivals
    (∀ cause, cause ≠ 3 → r.st = .running → s.arg = [t.key, cause] → ∃ s', exec .rivalDone s = .next s'
        ∧ recorded s' { r with st := .aborted, cause := cause, score := 0 })
    ∧ (s.arg = [t.key] → r.st = .running → t.st = .running → (∀ g ∈ t.groups, g.threads = []) →
      (t.wdone = [] → ∃ s', exec .rivalDone s = .next s' ∧ recorded s' { r with st := .aborted, cause := 2, score := 0 })
      ∧ ∀ w ∈ t.wdone, (∀ x ∈ t.wdone, threadLe (w.1, w.2.1) (x.1, x.2.1) = true) →
        (t.wdone.map fun x => (x.1, x.2.1)).Nodup → (∀ x ∈ s.lams, x.owner = .chunk → x.team ≠ t.key) → s.quiet t = true →
        ∃ s', exec .rivalDone s = .next s' ∧ recorded s' { r with st := .done, cause := 0, score := w.2.2 })
    ∧ (s.arg = [t.key] → (s.shareOver t = true → ∃ s', exec .rivalTimeShare s = .next s' ∧ s'.mem = s.mem
          ∧ TeamIs s' t.key fun u => u = { t with st := .stopping })
        ∧ (s.now < t.placedAt + 200 * Config.cyclesPerUs → exec .rivalTimeShare s = .next s))
    ∧ ∀ core c, s.arg = [t.key, core] → s.ctxOf t = some c → c.st = .running → s.coreFits core (s.needs t) = true →
      (s.contextCores c t.kind).contains core = true → t.st = .saved → (s.nextWaiting t).map (·.team) = some t.key →
      ∃ s', exec .rivalPlace s = .next s' ∧ s'.mem = s.mem ∧ TeamIs s' t.key (fun u => u.st = .running ∧ u.core = core ∧ u.kind = kindOf core)
        ∧ TeamIs s' p fun u => ∃ f', u.fork = some f' ∧ { r with st := .running } ∈ f'.rivals)
  ∧ ∀ (s : State) (t : Team) (f : ForkRes) (core : Nat), s.arg = [t.key] → s.team? t.key = some t → t.fork = some f → t.st = .suspended →
    f.holding = false →
    ((∃ r ∈ f.rivals, r.st ≠ .done ∧ r.st ≠ .aborted) → exec .parentResume s = .next s)
    ∧ ((∀ r ∈ f.rivals, r.st = .done ∨ r.st = .aborted) → s.coreFor t t.kind = some core → f.d ≠ 0 → (t.groups.map Group.gid).Nodup →
      (∀ p, t.parent = some p → p ≠ t.key) →
      ∃ s' u, exec .parentResume s = .next s' ∧ s'.mem = s.mem ∧ s'.team? t.key = some u ∧ u.st = .running ∧ u.core = core
        ∧ u.fork = some { f with holding := true } ∧ ∀ gr ∈ t.groups, u.peek (.s gr.gid f.d) = 0xFFFFFFFF))

/-! ## Groups, placement and faults (07_group, 15_group_place, 18_context R397) -/

/-- An aged tray is marked; a tray is drawn as a squad of, at each lane position, its oldest thread, which leaves the tray; of the
threads that `YIELD` filed, an idle scheduler draws those that have given way (R159 to R161). A trap that waited for an empty
register, or for the move of a page of its frame, enters its handler when every register of its thread is full and no page of the
frame moves, and not before; stated for a thread that its word trapped alone, and outside blocks, whose register log the entry
fills (R108, R191, R307, R397). A replay of a page fault lets its parked lanes go on, and ignores an index that names no pending
record (R188). -/
def Obligations.TraysAndHandlers : Prop :=
  (∀ (s : State) (t : Team) (y : Tray), s.team? t.key = some t → y ∈ t.trays → (t.trays.map Tray.num).Nodup →
    (s.arg = [t.key, y.num] →
      (s.now < y.oldest + s.ageLimit t → y.held ≠ [] → ∃ s', exec .trayAged s = .next s' ∧ s'.team? t.key = some t)
      ∧ (y.oldest + s.ageLimit t ≤ s.now → y.held ≠ [] → ∃ s', exec .trayAged s = .next s' ∧ OnlyTeams s s'
          ∧ TeamIs s' t.key fun u => u.groups = t.groups ∧ u.squads = t.squads ∧ { y with aged := true } ∈ u.trays
            ∧ ∀ z ∈ t.trays, z.num ≠ y.num → z ∈ u.trays))
    ∧ ∀ core sched idle, s.arg = [core, sched] → s.trayChoice core sched = some ((t, y), idle) →
      let z := s.drawable core t y idle
      z.held ≠ [] → y.held.Nodup → ∃ s' u q, exec .trayDraw s = .next s' ∧ s'.mem = s.mem ∧ s'.team? t.key = some u ∧ u.groups = t.groups
        ∧ u.squads = t.squads ++ [q] ∧ q.wait = none
        ∧ (∀ m ∈ q.members, ∃ n, (m.1, m.2, n) ∈ z.held ∧ ∀ h ∈ z.held, h.2.1 = m.2 → n ≤ h.2.2)
        ∧ (∀ h ∈ z.held, ∃ m ∈ q.members, m.2 = h.2.1) ∧ (q.members.map (·.2)).Nodup
        ∧ ∀ w ∈ u.trays, w.num = y.num → w.held ≠ [] ∧ ∀ h ∈ w.held, (h.1, h.2.1) ∉ q.members ∧ h ∈ y.held)
  ∧ ((∀ (s : State) (t : Team) (g l : Nat) (gr : Group) (x : Thread) (tr : Trap) (pc : DWord) (sp : List Spot),
    s.arg = [t.key, g, l] → s.team? t.key = some t → t.group? g = some gr → gr.threads = [x] → x.lane = l → x.trap = some tr →
    (t.groups.map Group.gid).Nodup → (∀ h ∈ t.groups, ∀ z ∈ h.threads, ∀ tz, z.trap = some tz → tz.event = tr.event → h.gid = g) →
    t.levels = [] → (s.entryWaits t g l = true → exec .handlerEntry s = .next s)
    ∧ (s.entryWaits t g l = false → x.park = none → s.handlerPc t (s.tvecNow t gr) = some pc →
      s.privRange t x.tid .store x.tframe.toNat 64 = .ok sp →
      let pcs := s.bothPcs t x.point tr.pc
      let x' := { x with pc := pc, handler := true, trap := none, cause := BitVec.ofNat 32 (tr.cause + 256), tinst := tr.word,
                         tval := tr.tval, epcd := pcs.1, epcl := pcs.2 }
      ∃ s' u, exec .handlerEntry s = .next s' ∧ s'.mem = s.mem ∧ s'.team? t.key = some u ∧ u.thread? g l = some x'
        ∧ u.priv = putBytes sp (frameBytes x' (t.kind == .lcore)) t.priv ∧ ∃ q ∈ u.squads, q.members = [(g, l)] ∧ q.wait = none))
  ∧ ∀ (s : State) (c : Context) (cn idx : Nat), s.arg = [cn, idx] → s.ctx? cn = some c → c.st = .running →
    ((∀ p ∈ c.pending, p.idx ≠ some idx) → exec .replay s = .next s)
    ∧ ∀ (p : PendRec) (t : Team) (g l : Nat) (x : Thread), c.pending.find? (fun p => p.idx == some idx) = some p →
      p.blocked = .lanes t.key g [l] → s.team? t.key = some t → t.st = .running → t.thread? g l = some x → x.park = some (.fault p.key) →
      x.trap = none → ∃ s' u c', exec .replay s = .next s' ∧ s'.mem = s.mem ∧ s'.team? t.key = some u
        ∧ u.thread? g l = some { x with park := none } ∧ s'.ctx? cn = some c' ∧ c'.pending = c.pending.filter (fun y => y.key != p.key)
        ∧ ((∃ y ∈ u.trays, ∃ n, (g, l, n) ∈ y.held) ∨ ∃ q ∈ u.squads, (g, l) ∈ q.members))

/-- `NOP` changes nothing (R33). `EQPT` is illegal in a D-packet and in the L-stream marks its point passed (R340, R347).
`MIGRATE` notes a request for another kind of core that can be met, has no effect without its feature or towards the team's own
kind, and is a failure in a block (R312, R341, R342, R355). `KLAUNCH` to an enabled queue reads its packet, releases at `.dev` and
sends it; the squad waits until it is written; in a DET context it is staged until the team's turn; inside a block or a world it
goes to the outbox (R315, R364, R365, R367); it waits while the page of its packet moves (R191). Stated for a squad of one thread
whose address is aligned and can be read. -/
def Obligations.PlacementWords : Prop :=
  (∀ (s : State) (t : Team) (g : Nat), s.InGroup t g →
    exec .nop s = .next s
    ∧ (∀ i : BitVec 16, (t.kind = .dcore → exec (.eqpt i) s = .next (s.trapAll cIllop 0))
      ∧ (t.kind = .lcore → ∃ s', exec (.eqpt i) s = .next s' ∧ OnlyTeams s s' ∧ TeamIs s' s.cur.team fun u =>
          u.squads = t.squads ∧ (∀ m ∈ s.members, ∀ x, t.thread? m.1 m.2 = some x → u.thread? m.1 m.2 = some { x with point := some i.toNat })
            ∧ ∀ h l, (h, l) ∉ s.members → u.thread? h l = t.thread? h l))
    ∧ ∀ k : BitVec 2,
      let target := if k = 0 then Kind.lcore else if k = 1 then Kind.dcore else otherKind t.kind
      let asked : Migr := Migr.mk target s.now g (laneMask (s.lanesOf g)) s.cur.word.toNat (s.migratePcs t g)
      (s.feature 3 = false → exec (.migrate k) s = .next s)
      ∧ (s.feature 3 = true → t.levels ≠ [] → exec (.migrate k) s = .next (s.failRoutine t.key 11))
      ∧ (s.feature 3 = true → t.levels = [] → t.parent = none →
        (target = t.kind ∨ t.migr ≠ none → ∃ s', exec (.migrate k) s = .next s' ∧ s'.mem = s.mem ∧ s'.teams = s.teams)
        ∧ (target ≠ t.kind → t.migr = none → s.turned.requestRefusal t target = none →
          ∃ s', exec (.migrate k) s = .next s' ∧ s'.mem = s.mem
            ∧ TeamIs s' s.cur.team fun u => u = { t with migr := some asked })
        ∧ ∀ code, target ≠ t.kind → t.migr = none → s.turned.requestRefusal t target = some code →
          ∃ s', exec (.migrate k) s = .next s' ∧ TeamIs s' s.cur.team fun u => u = t))
  ∧ (∀ (k : BitVec 5) (q : BitVec 6) (s : State) (t : Team) (g l : Nat) (c : Context) (th : Thread) (sp : List Spot),
    s.InGroup t g → s.members = [(g, l)] → s.ctxOf t = some c → t.thread? g l = some th →
    let va := (s.rdS2 t g k.toNat).toNat
    let n := (s.rdS t g q.toNat).toNat
    let s1 := s.turned.noteCluster t.key [va]
    let packet := sp.map fun p => s1.loadByte t { team := t.key, gid := g, lane := l } p
    let moves := s.moveWaits t false (s.placesOf t g l va 64)
    let entry := s.heldEntry t g l (.klaunch n packet)
    ((s.passed).isSome = true → exec (.klaunch k q) s = .next s)
    ∧ (s.passed = none → s.cur.cleared = false → moves = true → exec (.klaunch k q) s = .next s.retryWord)
    ∧ (s.passed = none → moves = false → c.klaunchOk n = true → va % 64 = 0 → s1.reach t c th.tid .load va 64 = .ok sp →
      (t.levels = [] → t.parent = none → s.isDet t = false ∨ t.turn = true → ∃ s', exec (.klaunch k q) s = .next s' ∧ s'.mem = s.mem
        ∧ (InFlight s s' fun o => o = .klaunch n packet none entry.pcs) ∧ (InFlight s s' fun o => ∃ lams, o = .fence 1 3 g [l] lams)
        ∧ Waits s s' fun w => ∃ o, w = .delivery o)
      ∧ (t.levels = [] → t.parent = none → s.isDet t = true → t.turn = false → ∃ s', exec (.klaunch k q) s = .next s' ∧ s'.mem = s.mem
        ∧ TeamIs s' s.cur.team fun u => u.staged = t.staged ++ [entry])
      ∧ (t.defers = true → t.outboxRoom = true → ∃ s', exec (.klaunch k q) s = .next s' ∧ s'.mem = s.mem
        ∧ TeamIs s' s.cur.team fun u => u.outbox = t.outbox ++ [entry])))

/-- A pending request whose team has come to rest at points of the map is performed on the target kind: each thread's registers
move by the map of its point, its PC is the point's in the other encoding, its return addresses are mapped; a request that cannot
be met, or that has waited 1 ms, is refused and its threads go on. A thermal migration moves a team that has stayed 2 ms at 95 °C
and more to another, cooler D-core unchanged (R336, R338, R342 to R346). Its private bytes are written back to memory (R179).
Stated for teams without chunks and return stacks within the core. -/
def Obligations.Migrations : Prop :=
  ∀ (s : State) (t : Team), s.team? t.key = some t → (∀ x ∈ s.lams, x.owner = .chunk → x.team ≠ t.key) →
    let goesOn := fun (s' : State) => TeamIs s' t.key fun u => u.migr = none ∧ u.st = t.st ∧ u.core = t.core
      ∧ ∀ g l x n, t.thread? g l = some x → x.park = some (.point n) → u.thread? g l = some { x with park := none }
    (∀ m, t.migr = some m → s.arg = [t.key] → t.st = .running →
      (s.now < m.since + 1000 * Config.cyclesPerUs → exec .migrationTimeout s = .next s)
      ∧ (m.since + 1000 * Config.cyclesPerUs ≤ s.now → ∃ s', exec .migrationTimeout s = .next s' ∧ goesOn s'))
    ∧ (∀ m i core, s.arg = [t.key, core] → t.migr = some m → s.imageOf t = some i → t.st = .running → t.allParked = true → t.mops = [] →
      (∀ code, s.parkedRefusal t m.target = some code → ∃ s', exec .migrationPerform s = .next s' ∧ goesOn s')
      ∧ (s.parkedRefusal t m.target = none → s.saveReady t = true → s.coreOk t m.target core = true → kindOf core = m.target →
        (∀ g ∈ t.groups, ∀ x ∈ g.threads, x.depth ≤ 8) →
        ∃ s' u, exec .migrationPerform s = .next s' ∧ WroteBack s s' t ∧ s'.team? t.key = some u ∧ u.st = .running ∧ u.core = core
          ∧ u.kind = m.target ∧ u.migr = none ∧ u.scratch = t.scratch ∧ u.accs = t.accs ∧ u.tags = t.tags
          ∧ (u.slots.map fun x => (x.name, x.claim, x.bytes)) = (t.slots.map fun x => (x.name, x.claim, x.bytes))
          ∧ ∀ g l x e, t.thread? g l = some x → s.parkedAt t x = some e → ∃ z, u.thread? g l = some z ∧ z.park = none
            ∧ z.pc = pickPc m.target (e.dpc, e.lpc) ∧ z.point = some e.id ∧ z.depth = x.depth
            ∧ z.stack = x.stack.map (fun pc => (i.siteTo m.target pc).getD pc)
            ∧ (((e.vec.map (mapPair m.target)).map (·.2)).Nodup →
                ∀ p ∈ e.vec, sget (mapPair m.target p).2 z.v = sget (mapPair m.target p).1 x.v)))
    ∧ ∀ core here there, s.arg = [t.key, core, here, there] → s.clusterSize t ≤ 1 → t.kind = .dcore → t.migr = none → t.st = .running →
      (s.now < t.placedAt + 2000 * Config.cyclesPerUs ∨ here < 95 ∨ here ≤ there ∨ core = t.core ∨ kindOf core = .lcore →
        exec .thermalMigration s = .next s)
      ∧ (t.placedAt + 2000 * Config.cyclesPerUs ≤ s.now → 95 ≤ here → there < here → core ≠ t.core → kindOf core = .dcore →
        (s.saveReady t = false → ∃ s', exec .thermalMigration s = .next s'
          ∧ TeamIs s' t.key fun u => u = { t with st := .stopping, heat := some core })
        ∧ (s.saveReady t = true → (s.saveTeam t).coreOk t .dcore core = true → ∃ s' u, exec .thermalMigration s = .next s' ∧ WroteBack s s' t
          ∧ s'.team? t.key = some u ∧ u.st = .running ∧ u.core = core ∧ u.scratch = t.scratch ∧ u.tags = t.tags
          ∧ ∀ g l x, t.thread? g l = some x → u.thread? g l = some x))

/-! ## Queues and their packets (17_queue) -/

/-- A doorbell moves WRITE, and writes it to the queue's descriptor, unless it would move back, pass READ by more than the ring or
name a queue of kernels, which is a record; a DISABLED queue ignores it. A QUPDATE reads the descriptor again: a DISABLED queue
with ENABLE set is EMPTY, others take priority and quantum at once and report another change or a value that is refused, and one
without ENABLE that is EMPTY or HALTED is DISABLED (R371 to R373, R384). The CP takes the next packet of an ACTIVE queue, at most
16 incomplete ones: READ advances, its slot is free, and an invalid packet takes the context to FAULTED (R359, R375, R376). A
TIMESTAMP that is then the oldest packet takes its time (R381). A packet starts only when Table 4 of R377 lets it: behind a
WAITSIG or a FENCE only a NOP does, and a SIGNAL, TIMESTAMP or FENCE is first. -/
def Obligations.QueueIndices : Prop :=
  (∀ (s : State) (c : Context) (q : Queue) (v : Nat), s.ctx? c.num = some c → c.queue? q.num = some q → v < 2 ^ 64 →
    (s.arg = [c.num, q.num, v] →
      let w := BitVec.ofNat 32 v
      let bad := 2 ^ q.log2 < (w - q.read).toNat ∨ q.free < (w - q.write).toNat ∨ q.kernels = true
      (q.st = .disabled → exec .doorbell s = .next s)
      ∧ (q.st ≠ .disabled → bad → exec .doorbell s
          = .next (s.putRecords c.num [({ plainRecord cIllop with extra := leBytes 1 1 ++ leBytes 1 q.num }, none)]))
      ∧ (q.st ≠ .disabled → ¬ bad → ∃ s', exec .doorbell s = .next s' ∧ s'.teams = s.teams
        ∧ QueueIs s' c.num q.num (fun x => x.write = w ∧ x.read = q.read ∧ SamePackets x.packets q.packets
            ∧ (q.st ≠ .halted → q.packets = [] → x.st = if w = q.read then .empty else .active) ∧ (q.st = .halted → x.st = .halted))
        ∧ MemOutside s s' (indexBytes c q.num)
        ∧ memBytes (c.qtable + 32 * q.num + 16) 8 s'.mem = leBytes 4 q.read.toNat ++ leBytes 4 w.toNat))
    ∧ (s.arg = [c.num, q.num] → q.num < 64 → c.st = .ready ∨ c.st = .running →
      let d := s.queueDesc c q.num
      (q.st = .disabled → queueOn d = false → exec .qupdate s = .next s)
      ∧ (queueBad d = true → queueOn d = true →
        (q.st = .disabled → exec .qupdate s = .next (s.emit (.driver c.num refusedQueue q.num)))
        ∧ (q.st ≠ .disabled → ∃ s', exec .qupdate s = .next s' ∧ s'.mem = s.mem ∧ s'.out = s.out ++ [.driver c.num refusedQueue q.num]
          ∧ QueueIs s' c.num q.num fun x => x.prio = (if 7 < fieldOf d 9 1 then q.prio else fieldOf d 9 1) ∧ x.quantum = queueQuantum d
            ∧ x.st = q.st ∧ x.base = q.base ∧ x.log2 = q.log2 ∧ x.packets = q.packets))
      ∧ (queueBad d = false →
        (q.st = .disabled → queueOn d = true → ∃ s', exec .qupdate s = .next s' ∧ s'.mem = s.mem
          ∧ QueueIs s' c.num q.num fun x => x = queueFrom q.num d .empty)
        ∧ (q.st ≠ .disabled → queueOn d = true → ∃ s', exec .qupdate s = .next s' ∧ s'.mem = s.mem ∧ QueueIs s' c.num q.num fun x =>
            x.prio = fieldOf d 9 1 ∧ x.eff = s.agedPrio c { q with prio := fieldOf d 9 1 } ∧ x.quantum = queueQuantum d ∧ x.st = q.st ∧ x.base = q.base ∧ x.log2 = q.log2
              ∧ x.kernels = q.kernels ∧ x.packets = q.packets)
        ∧ (q.st = .empty ∨ q.st = .halted → queueOn d = false → ∃ s', exec .qupdate s = .next s' ∧ s'.mem = s.mem
          ∧ QueueIs s' c.num q.num fun x => x.st = .disabled ∧ x.packets = []))))
  ∧ ((∀ (s : State) (c : Context) (q : Queue), s.ctx? c.num = some c → c.queue? q.num = some q → s.arg = [c.num, q.num] →
    (c.takes = false ∨ q.canTake = false → exec .queuePacketTake s = .next s)
    ∧ (c.takes = true → q.canTake = true →
      let s1 := s.modQueue c.num q.num fun y => { y with packets := y.packets.filter Packet.wasRead }
      ∀ pas, s1.cpReach c .load (q.base + 64 * (q.read.toNat % 2 ^ q.log2)) 64 = .ok pas →
        let p : Packet := { idx := q.read.toNat, bytes := s.cpBytes pas, st := .taken, launch := none, since := 0, fault := none, stamp := none }
        (s1.packetBad c p = none → ∃ s', exec .queuePacketTake s = .next s' ∧ MemOutside s s' (indexBytes c q.num) ∧ s'.teams = s.teams
          ∧ QueueIs s' c.num q.num fun x => x.read = q.read + 1 ∧ x.write = q.write
            ∧ SamePackets x.packets (q.packets.filter Packet.wasRead ++ [p])
            ∧ (q.packets.filter Packet.wasRead = [] → p.kind = 5 →
                x.packets = [{ p with stamp := some (s.timeOfDay.1, s.timeOfDay.2, s.part.locked) }]))
        ∧ ∀ off, s1.packetBad c p = some off → ∃ s', exec .queuePacketTake s = .next s' ∧ CtxIs s' c.num fun x => x.st = .faulted))
  ∧ ∀ (s : State) (c : Context) (q : Queue) (p : Packet), s.ctx? c.num = some c → c.queue? q.num = some q →
    q.packets.find? (fun x => x.idx == p.idx) = some p → s.arg = [c.num, q.num, p.idx] →
    ((∃ x ∈ q.before p.idx, x.holding = true) → ∀ i ∈ [Instr.launch, .waitsig, .copyPacket], exec i s = .next s)
    ∧ (q.before p.idx ≠ [] → ∀ i ∈ [Instr.signal, .timestamp, .fencePacket], exec i s = .next s))

/-- A packet that may start does what its kind says: NOP completes, LAUNCH queues its grid with the packet's fields, WAITSIG
completes when its signal has been reached and with its TIMEOUT passed takes the context to FAULTED, COPY and FENCE start, FENCE
completes when the context's commits before it are at the device stage (R357 to R359, R377, R378). What packets write: SIGNAL adds
to or exchanges its 8 bytes and raises its vector, COPY copies its bytes, TIMESTAMP writes the time of day at which every earlier
packet had completed and its lock, and a delivered `KLAUNCH` packet stands at WRITE, which advances (R364, R374, R379 to R381).
Stated where no copy of a chain is in flight and no chunk has commit priority, and, for bytes apart from the queue's indices, of
ranges that do not overlap. -/
def Obligations.PacketEffects : Prop :=
  (∀ (s : State) (c : Context) (q : Queue) (p : Packet),
    (s.starting 0 = some (c, q, p) → ∃ s', exec .nopPacket s = .next s' ∧ PacketEnded s' c q p ∧ MemOutside s s' (indexBytes c q.num))
    ∧ (∀ i, s.starting 1 = some (c, q, p) → s.launchImage c.num p = some i → ∃ s', exec .launch s = .next s' ∧ s'.mem = s.mem
      ∧ QueueIs s' c.num q.num (fun x => ∃ y ∈ x.packets, y.idx = p.idx ∧ y.st = .started ∧ y.launch = some s.keys)
      ∧ ∃ l, s'.launches = s.launches ++ [l] ∧ l.key = s.keys ∧ l.ctx = c.num ∧ l.queue = q.num ∧ l.image = i.key ∧ l.st = .queued ∧ l.started = 0
        ∧ l.nteams = (if p.field 4 4 = 0 then 2 ^ 32 else p.field 4 4) ∧ l.param = p.field 16 8 ∧ l.signal = p.field 48 8
        ∧ l.sigval = BitVec.ofNat 64 (p.field 56 8) ∧ l.gpt = (if p.field 3 1 = 0 then i.team / 64 else p.field 3 1)
        ∧ l.cluster = (if p.field 2 1 = 0 then i.cluster else p.field 2 1))
    ∧ (∀ v, s.starting 2 = some (c, q, p) → (s.modPacket c.num q.num p.idx fun x => { x with st := .started, since := s.now }).signalAt c p = .ok v →
      (p.field 16 8 ≤ v → ∃ s', exec .waitsig s = .next s' ∧ PacketEnded s' c q p)
      ∧ (v < p.field 16 8 → ∃ s', exec .waitsig s = .next s' ∧ s'.mem = s.mem
        ∧ QueueIs s' c.num q.num fun x => ∃ y ∈ x.packets, y.idx = p.idx ∧ y.st = .started ∧ y.since = s.now))
    ∧ (∀ v, s.startedPacket 2 = some (c, q, p) → s.signalAt c p = .ok v →
      (p.field 16 8 ≤ v → ∃ s', exec .waitsigReread s = .next s' ∧ PacketEnded s' c q p)
      ∧ (v < p.field 16 8 → exec .waitsigReread s = .next s)
      ∧ (s.sigExpired p = false → exec .waitsigTimeout s = .next s)
      ∧ (s.sigExpired p = true → p.field 16 8 ≤ v → ∃ s', exec .waitsigTimeout s = .next s' ∧ PacketEnded s' c q p)
      ∧ (s.sigExpired p = true → v < p.field 16 8 → ∃ s', exec .waitsigTimeout s = .next s' ∧ CtxIs s' c.num fun x => x.st = .faulted))
    ∧ (s.starting 4 = some (c, q, p) → ∃ s', exec .copyPacket s = .next s' ∧ s'.mem = s.mem
      ∧ QueueIs s' c.num q.num fun x => ∃ y ∈ x.packets, y.idx = p.idx ∧ y.st = .started)
    ∧ (s.starting 6 = some (c, q, p) → ∃ s', exec .fencePacket s = .next s' ∧ s'.mem = s.mem
      ∧ QueueIs s' c.num q.num fun x => ∃ y ∈ x.packets, y.idx = p.idx ∧ y.st = .started ∧ y.since = s.keys)
    ∧ (s.startedPacket 6 = some (c, q, p) →
      (s.waiting ≠ [] ∨ (∃ f ∈ s.flights, f.ctx = c.num ∧ f.key < p.since) → exec .fencePacketComplete s = .next s)
      ∧ ((∀ f ∈ s.flights, f.ctx = c.num → p.since ≤ f.key) → s.waiting = [] → p.field 1 1 = 0 → ∃ s', exec .fencePacketComplete s = .next s' ∧ PacketEnded s' c q p)))
  ∧ (∀ (s : State) (c : Context) (q : Queue), (∀ x ∈ s.teams, x.copies = []) → s.OpenOutside →
    let written := fun (s' : State) (pas : List (Nat × Nat)) (bs : List Byte) =>
      (∀ n a, (pas.map (·.1))[n]? = some a → memGet a s'.mem = bs.getD n 0)
        ∧ MemOutside s s' fun a => indexBytes c q.num a ∨ a ∈ pas.map (·.1)
    let apart := fun (pas : List (Nat × Nat)) => (∀ a ∈ pas.map (·.1), ¬ indexBytes c q.num a) ∧ (pas.map (·.1)).Nodup
    (∀ p pas, s.starting 3 = some (c, q, p) → s.cpReach c .atomic (p.field 8 8) 8 = .ok pas → apart pas → pas.length = 8 →
      ∃ s', exec .signal s = .next s' ∧ PacketEnded s' c q p ∧ written s' pas (leBytes 8
          (if p.field 1 1 = 0 then (leNat (s.cpHome pas) + p.field 16 8) % 2 ^ 64 else p.field 16 8))
        ∧ (p.field 2 1 = 1 → p.field 3 1 ≠ 15 → CtxIs s' c.num fun x => x.vectors = c.vectors ++ [p.field 3 1]))
    ∧ (∀ p a b, s.startedPacket 4 = some (c, q, p) → s.cpReach c .load (p.field 8 8) (p.field 24 8) = .ok a →
      s.cpReach c .store (p.field 16 8) (p.field 24 8) = .ok b → a.length = b.length → (∀ x ∈ b, x.1 ∉ a.map (·.1)) → apart b →
      ∃ s', exec .copyPacketComplete s = .next s' ∧ PacketEnded s' c q p ∧ written s' b (s.cpBytes a))
    ∧ (∀ p pas, s.starting 5 = some (c, q, p) → s.cpReach c .store (p.field 8 8) 16 = .ok pas → apart pas → pas.length = 16 →
      let (sec, ns, locked) := p.stamp.getD (s.timeOfDay.1, s.timeOfDay.2, s.part.locked)
      ∃ s', exec .timestamp s = .next s' ∧ PacketEnded s' c q p ∧ written s' pas
        (leBytes 8 (sec % 2 ^ 48) ++ leBytes 4 ns ++ leBytes 4 (if locked then 1 else 0)))
    ∧ ∀ (o : Op) (t : Team) (bytes : List Byte) (f : Option Nat) (pcs : DWord × DWord) (pas : List (Nat × Nat)), s.arg = [o.key] → s.op? o.key = some o →
      o.what = .klaunch q.num bytes f pcs → s.team? o.team = some t → s.ctxOf t = some c → c.queue? q.num = some q →
      (s.deliverable o = false → exec .klaunchDelivery s = .next s)
      ∧ (s.deliverable o = true → s.cpReach c .store (q.base + 64 * (q.write.toNat % 2 ^ q.log2)) 64 = .ok pas → apart pas →
        bytes.length = 64 → pas.length = 64 →
        ∃ s', exec .klaunchDelivery s = .next s' ∧ s'.op? o.key = none ∧ written s' pas bytes
          ∧ QueueIs s' c.num q.num fun x => x.write = q.write + 1 ∧ x.read = q.read ∧ SamePackets x.packets q.packets))

/-! ## Scheduling, launches and contexts (17_queue, 18_context) -/

/-- A core granted to a launch starts its next team there: all its groups ACTIVE at the kernel's entry, one squad to a group,
every register zero but the preloaded scalars, m0 full, private slot, world and handler as R360 gives; its scratchpad reads zero
where another context wrote last, and holds nothing else defined (R176); the launch is RUNNING and one team further. A DRAINING
group whose flags are idle and whose stores are accepted retires, and with the last one the team (R103, R143, R144, R360, R361).
Stated for launches without clusters. A launch all of whose work is performed adds its value to its signal and is DONE, and its
packet ends. The turn of the bakery begins when every lower team has ended its order and nothing that the team staged is still in a
chunk: what it staged is performed in order (R357, R363, R367). -/
def Obligations.LaunchLife : Prop :=
  ((∀ (s : State) (core k slot : Nat) (l : Launch) (i : Image) (c : Context) (reached : List (Nat × Nat)) (scalars : Sparse 32),
    s.arg = [core] →
    s.coreChoice core = some (l, (none, [k]), reached) → s.image? l.image = some i → s.ctx? l.ctx = some c → s.launch? l.key = some l →
    s.preload c k l i = .ok scalars → s.freeSlots l 1 = [slot] →
    ∃ s' t, exec .coreGrant s = .next s' ∧ s'.mem = s.mem ∧ t ∈ s'.teams ∧ t.launch = l.key ∧ t.ctx = l.ctx ∧ t.index = l.started
      ∧ t.core = k ∧ t.kind = kindOf k ∧ t.st = .running ∧ t.privSlot = slot ∧ t.tags = 0 ∧ t.world = 0 ∧ t.placedAt = s.now
      ∧ (∀ o b, bget o t.scratch = some b → b = 0) ∧ ((∀ w ∈ s.sram, w.1 = k → w.2.2 = l.ctx) → t.scratch = [])
      ∧ t.groups.map Group.gid = List.range l.gpt
      ∧ (∀ g ∈ t.groups, g.st = .active ∧ g.s = scalars ∧ g.q = 1#8 ∧ g.tvec = i.handler
          ∧ g.m = [(0, laneMask (List.range (if i.wide32 then 32 else 64)))]
          ∧ g.threads.map Thread.lane = List.range (if i.wide32 then 32 else 64)
          ∧ (∀ x ∈ g.threads, x.pc = i.entry (kindOf k) ∧ x.tid = 64 * g.gid + x.lane ∧ x.v = [] ∧ x.p = 1#8 ∧ x.depth = 0 ∧ x.handler = false)
          ∧ ∃ q ∈ t.squads, q.members = g.threads.map fun x => (g.gid, x.lane))
      ∧ (∃ l', s'.launch? l.key = some l' ∧ l'.st = .running ∧ l'.started = l.started + 1)
      ∧ CtxIs s' l.ctx fun x => x.st = .running ∧ x.resident = true)
  ∧ ∀ (s : State) (t : Team) (g : Group), s.arg = [t.key, g.gid] → s.team? t.key = some t → t.group? g.gid = some g →
    (s.canRetire t g = false → exec .groupRetire s = .next s)
    ∧ (s.canRetire t g = true →
      (∀ h ∈ t.groups, h.gid ≠ g.gid → ∃ s', exec .groupRetire s = .next s' ∧ s'.mem = s.mem
        ∧ TeamIs s' t.key fun u => u.group? g.gid = none ∧ u.group? h.gid = t.group? h.gid)
      ∧ ((∀ h ∈ t.groups, h.gid = g.gid) → t.chains = [] → t.copies = [] → t.mops = [] → t.parent = none → t.staged = [] →
        s.delivering t.key = false → ∃ s', exec .groupRetire s = .next s' ∧ s'.mem = s.mem ∧ s'.team? t.key = none
          ∧ ∀ l, s.launch? t.launch = some l → ∃ l', s'.launch? t.launch = some l' ∧ t.index ∈ l'.retired)))
  ∧ ((∀ (s : State) (l : Launch) (c : Context), s.arg = [l.key] → s.launch? l.key = some l → s.ctx? l.ctx = some c →
    (s.launchOver l = false ∨ c.recording = false → exec .launchComplete s = .next s)
    ∧ (s.launchOver l = true → c.recording = true →
      (l.signal = 0 → ∃ s' l', exec .launchComplete s = .next s' ∧ s'.launch? l.key = some l' ∧ l'.st = .done
        ∧ ∀ q, c.queue? l.queue = some q → QueueIs s' l.ctx l.queue fun x => ∀ y ∈ x.packets, y.idx ≠ l.ring)
      ∧ ∀ pas, l.signal ≠ 0 → s.cpReach c .atomic l.signal 8 = .ok pas → (pas.map (·.1)).Nodup → pas.length = 8 →
        (∀ x ∈ s.teams, x.copies = []) → s.OpenOutside → (∀ a ∈ pas.map (·.1), ¬ indexBytes c l.queue a) → (c.queue? l.queue).isSome = true →
        s.reclaims = [] → ∃ s' l', exec .launchComplete s = .next s' ∧ s'.launch? l.key = some l' ∧ l'.st = .done
          ∧ ∀ n a, (pas.map (·.1))[n]? = some a → memGet a s'.mem
              = (leBytes 8 ((leNat (s.cpHome pas) + l.sigval.toNat) % 2 ^ 64)).getD n 0))
  ∧ ∀ (s : State) (t : Team), s.arg = [t.key] → s.team? t.key = some t →
    (s.turnReady t = false → exec .bakeryTurnBegin s = .next s)
    ∧ (s.turnReady t = true → t.groups ≠ [] →
      (t.staged = [] → ∃ s', exec .bakeryTurnBegin s = .next s' ∧ s'.mem = s.mem ∧ TeamIs s' t.key fun u => u = { t with turn := true })
      ∧ ∀ e va pa n x, t.staged = [e] → e.op = .store va (some pa) n x → s.OpenOutside → (∀ o ∈ s.ops, o.key < s.keys) →
        ∃ s', exec .bakeryTurnBegin s = .next s' ∧ (TeamIs s' t.key fun u => u.turn = true ∧ u.staged = [])
          ∧ (∀ i, i < n → memGet (pa + i) s'.mem = (leBytes n x).getD i 0) ∧ MemOutside s s' fun a => pa ≤ a ∧ a < pa + n))

/-- Aging raises a queue's effective priority above its PRIO by one for each ms that its oldest QUEUED launch has waited, up to 7.
A reclaim ends no earlier than DRAIN from now and MINSLICE after its grants; at its stop time its teams stop; a stopped team whose
effects are complete is SAVED, its private bytes written back (R179); a saved team chosen for a core runs there (R361, R384, R386,
R400 to R403). Stated for teams without clusters. -/
def Obligations.Preemption : Prop :=
  (∀ (s : State) (c : Context) (q : Queue), s.arg = [c.num, q.num] → s.ctx? c.num = some c → c.queue? q.num = some q →
    ∃ s', exec .priorityAging s = .next s' ∧ s'.mem = s.mem ∧ QueueIs s' c.num q.num fun x => x.prio = q.prio
      ∧ x.eff = (match s.launches.find? fun l => l.ctx == c.num && l.queue == q.num && l.st == .queued with
        | some l => min 7 (q.prio + (s.now - l.since) / (1000 * Config.cyclesPerUs))
        | none => q.prio))
  ∧ (∀ (s : State) (cn count : Nat) (l : Launch) (w : Tenant) (cs : List (Context × List Nat)) (c : Context) (cores : List Nat),
    s.arg = [cn, count] → s.victims = some (l, w, cs) → cs.find? (fun x => x.1.num == cn) = some (c, cores) →
    let n := min count (s.wanted l)
    (s.reclaimSet cn n cores = [] → exec .coreReclaim s = .next s)
    ∧ (s.reclaimSet cn n cores ≠ [] → ∃ s' r, exec .coreReclaim s = .next s' ∧ s'.mem = s.mem ∧ s'.teams = s.teams
      ∧ s'.reclaims = s.reclaims ++ [r] ∧ r.ctx = cn ∧ r.sent = false ∧ s.now + c.drain * Config.cyclesPerUs ≤ r.tend
      ∧ r.cores.length ≤ n ∧ ((∀ k ∈ cores, s.withClusters cn [k] = [k]) → cores.Nodup → r.cores = cores.take n)
      ∧ ∀ g ∈ c.granted, g.1 ∈ r.cores → g.2 + (c.minslice - min c.charge c.minslice) * Config.cyclesPerUs ≤ r.tend))
  ∧ (∀ (s : State) (core : Nat) (r : Reclaim), s.arg = [core] →
    s.reclaims.find? (fun r => r.cores.contains core && s.stopDue r) = some r →
    ∃ s', exec .preemptStopRequest s = .next s' ∧ s'.mem = s.mem ∧ { r with sent := true } ∈ s'.reclaims
      ∧ ∀ t ∈ s.teams, s.team? t.key = some t → t.ctx = r.ctx → t.st = .running → r.cores.contains t.core = true →
          TeamIs s' t.key fun u => u = { t with st := .stopping })
  ∧ (∀ (s : State) (t : Team), s.arg = [t.key] → s.team? t.key = some t →
    (s.canSave t = false → exec .teamSaveComplete s = .next s)
    ∧ (s.canSave t = true → s.reclaims = [] → t.parent = none → ∃ s' u, exec .teamSaveComplete s = .next s' ∧ WroteBack s s' t ∧ s'.team? t.key = some u
      ∧ u.st = .saved ∧ u.scratch = t.scratch ∧ u.tags = t.tags ∧ u.accs = t.accs ∧ u.slots = t.slots ∧ u.trays = []
      ∧ (∀ g l, u.thread? g l = t.thread? g l) ∧ (∀ c ∈ u.chains, c.st = .saved ∨ c.st = .stopping)))
  ∧ ∀ (s : State) (t : Team) (core k : Nat) (l : Launch) (reached : List (Nat × Nat)), s.arg = [t.key, core] → s.team? t.key = some t →
    s.coreChoice core = some (l, (some t.key, [k]), reached) → s.clusterSize t ≤ 1 →
    ∃ s' u, exec .teamRestore s = .next s' ∧ s'.mem = s.mem ∧ s'.team? t.key = some u ∧ u.st = .running ∧ u.core = k ∧ u.kind = kindOf k
      ∧ u.scratch = t.scratch ∧ u.priv = t.priv ∧ u.tags = t.tags ∧ ∀ g l, u.thread? g l = t.thread? g l

/-- The commands of a context: CREATE of a FREE one whose descriptor breaks no rule, else the driver is told; ENABLE of a CREATED
one once the features are accepted, with its 64 queues; TERMINATE halts its queues and then everything it held is freed and its
vector raised; RELEASE of a TERMINATED one makes it FREE; TQREAD moves the read index; the features accepted are those both
written and offered, until the first ENABLE (R355, R371, R388, R390 to R392, R395). A covered wait longer than the watchdog time
takes the context to FAULTED, and, with its records written at the end of the cycle, to TERMINATED; without one nothing happens (R294
to R296, R393). -/
def Obligations.ContextLife : Prop :=
  (∀ (s : State) (n : Nat), (s.arg = [n] →
      (s.ctx? n ≠ none ∨ 64 ≤ n ∨ s.part.up = false → exec .create s = .next s)
      ∧ (s.ctx? n = none → n < 64 → s.part.up = true →
        (∀ code, s.descError (s.ctxDesc n) = some code → exec .create s = .next (s.emit (.driver n refusedCreate code)))
        ∧ (s.descError (s.ctxDesc n) = none → ∃ s', exec .create s = .next s' ∧ s'.mem = s.mem ∧ s'.teams = s.teams
            ∧ CtxIs s' n fun x => x = contextOf n (s.ctxDesc n)))
      ∧ (∀ c, s.ctx? n = some c →
        (c.st ≠ .created ∨ s.part.acceptedWritten = false ∨ s.part.up = false → exec .enable s = .next s)
        ∧ (c.st = .created → s.part.acceptedWritten = true → s.part.up = true → ∃ s', exec .enable s = .next s' ∧ s'.mem = s.mem
          ∧ s'.part.anyEnabled = true ∧ CtxIs s' n fun x => x.st = .ready ∧ ∀ k, k < 64 →
            x.queue? k = some (queueFrom k (s.queueDesc c k)
              (if queueOn (s.queueDesc c k) && !queueBad (s.queueDesc c k) then .empty else .disabled)))
        ∧ (c.terminable = false → exec .terminate s = .next s)
        ∧ (c.terminable = true → ∃ s', exec .terminate s = .next s' ∧ s'.mem = s.mem ∧ s'.teams = s.teams
          ∧ s'.agenda = s.agenda ++ [{ step := .contextResourcesFreed, arg := [n] }]
          ∧ CtxIs s' n fun x => x.st = .terminated ∧ x.freed = false ∧ ∀ q ∈ x.queues, q.st = .halted ∨ q.st = .disabled)
        ∧ (c.st = .terminated → c.freed = false → ∃ s', exec .contextResourcesFreed s = .next s' ∧ s'.mem = s.mem
          ∧ (∀ t ∈ s'.teams, t ∈ s.teams ∧ t.ctx ≠ n) ∧ (∀ l ∈ s'.launches, l.ctx = n → l.st = .done ∨ l.st = .faulted)
          ∧ (∀ x ∈ s'.images, x.ctx ≠ n) ∧ (∀ x ∈ s'.lams, x.ctx ≠ n) ∧ (∀ x ∈ s'.tlb, x.ctx ≠ n)
          ∧ CtxIs s' n fun x => x.st = .terminated ∧ x.freed = true ∧ x.pending = [] ∧ (∀ q ∈ x.queues, q.st = .disabled)
              ∧ (c.faultvec ≠ 15 → x.vectors = c.vectors ++ [c.faultvec]))
        ∧ (c.st ≠ .terminated ∨ c.freed = true → exec .contextResourcesFreed s = .next s)
        ∧ (c.st ≠ .terminated ∨ c.freed = false → exec .release s = .next s)
        ∧ (c.st = .terminated → c.freed = true → ∃ s', exec .release s = .next s' ∧ s'.mem = s.mem ∧ s'.ctx? n = none
          ∧ ∀ m, m ≠ n → s'.ctx? m = s.ctx? m))
      ∧ (s.part.anyEnabled = true ∨ s.part.up = false → exec .featureAccept s = .next s)
      ∧ (s.part.anyEnabled = false → s.part.up = true → ∃ s', exec .featureAccept s = .next s' ∧ s'.mem = s.mem
        ∧ s'.part.accepted = BitVec.ofNat 256 n &&& Config.offered ∧ s'.part.acceptedWritten = true))
    ∧ ∀ v c, s.arg = [n, v] → s.ctx? n = some c →
      (c.heldCount = 0 → ∃ s', exec .tqread s = .next s' ∧ s'.mem = s.mem ∧ CtxIs s' n fun x => x = { c with tqread := BitVec.ofNat 32 v })
      ∧ ∃ s', exec .tqread s = .next s' ∧ CtxIs s' n fun x => x.tqread = BitVec.ofNat 32 v)
  ∧ (∀ (s : State) (c : Context), s.arg = [c.num] → s.ctx? c.num = some c →
    (s.firstTimeout c = none → exec .watchdogTimeout s = .next s)
    ∧ ((s.firstTimeout c).isSome = true → ∃ s', exec .watchdogTimeout s = .next s' ∧ CtxIs s' c.num fun x =>
        x.st = .faulted ∧ x.watchdogFired = true ∧ x.raised.length = c.raised.length + 1)
    ∧ (c.st = .faulted → c.watchdogFired = true → CtxIs s.tick c.num fun x => x.st = .terminated ∧ x.raised = []
        ∧ ∀ h, c.raised = [[(h, none)]] → h.fatal = true → (1 ≤ c.room → x.tqwrite = c.tqwrite + 1)
          ∧ (c.faultvec ≠ 15 → c.faultvec ∈ x.vectors)))

/-! ## Pages and the host (08_page_access) -/

/-- A move or an unmap of a page is noted, a unified page's with a REVOKE that every host agent has to answer; when a move may end
its bytes stand at the new home, its leaf names that home and no TLB holds the old translation; a correctable failure leaves it
where it was with a replayable record, an uncorrectable error sets POISON; an unmap clears the leaf (R190, R191, R194). A write to
SDLEN starts a shootdown or waits for the one under way; its completion leaves no cached translation of the range. TRANSLATE
answers the address and rights of a unified page or a fault, PERMIT changes those rights after a shootdown and answers (R184, R193,
R390). -/
def Obligations.PageEvents : Prop :=
  (∀ (s : State) (ctx va dst at_ level e : Nat), s.leafOf ctx va = some (at_, level, e) →
    let base := pageBase va level
    let old := leafPa e
    let n := pageSize level
    let noted := fun (d : Option Nat) => ∃ s', exec .pageMove s = .next s' ∧ s'.mem = s.mem ∧ s'.tlb = s.tlb
        ∧ s'.moves = s.moves ++ [⟨ctx, base, level, d, if e.testBit 11 then s.part.env.agents else []⟩]
        ∧ s'.out = s.out ++ (if e.testBit 11 then [.revoke ctx base] else [])
    let stays := fun (m : Move) => ∃ s', exec .pageMove s = .next s' ∧ m ∉ s'.moves ∧ s'.tlb = s.tlb
        ∧ ∀ c, s.ctx? ctx = some c → c.recording = true → CtxIs s' ctx fun x => x.st = c.st
          ∧ ∃ p ∈ x.pending, p.record.cause = 0x17 ∧ p.record.replayable = true ∧ p.record.fatal = false
    ((∀ m ∈ s.moves, ¬ (m.ctx = ctx ∧ m.va = base)) →
      (s.arg = [ctx, va, dst] → (e.testBit 59 = true → exec .pageMove s = .next s) ∧ (e.testBit 59 = false → noted (some dst)))
      ∧ (s.arg = [ctx, va] → noted none))
    ∧ (∀ m, s.arg = [ctx, va, dst] ∨ s.arg = [ctx, va] → s.moves.find? (fun m => m.ctx == ctx && m.va == base) = some m →
      (s.moveReady m = false → exec .pageMove s = .next s)
      ∧ (s.moveReady m = true → s.leafOf ctx base = some (at_, level, e) → m.level = level →
        (∀ d, m.dst = some d →
          (s.homeFits d level = true → s.pageBad old n = false → Memory.wf s.mem = true →
            (∀ i, i < 8 → ¬ (d ≤ at_ + i ∧ at_ + i < d + n)) →
            ∃ s', exec .pageMove s = .next s' ∧ (∀ i, i < n → memGet (d + i) s'.mem = memGet (old + i) s.mem)
              ∧ (leafPa (memNat at_ 8 s'.mem) = d ∧ memNat at_ 8 s'.mem = e - old + d)
              ∧ (MemOutside s s' fun a => (d ≤ a ∧ a < d + n) ∨ (at_ ≤ a ∧ a < at_ + 8))
              ∧ (∀ x ∈ s'.tlb, x.leaf.toNat ≠ e) ∧ m ∉ s'.moves)
          ∧ (s.homeFits d level = false → stays m)
          ∧ (s.homeFits d level = true → s.pageBad old n = true → ∃ s', exec .pageMove s = .next s' ∧ m ∉ s'.moves
              ∧ ∀ c, s.ctx? ctx = some c → c.recording = true → CtxIs s' ctx fun x => x.st = .faulted))
        ∧ (m.dst = none → ∃ s', exec .pageMove s = .next s' ∧ m ∉ s'.moves ∧ memNat at_ 8 s'.mem = 0
            ∧ (MemOutside s s' fun a => at_ ≤ a ∧ a < at_ + 8) ∧ ∀ x ∈ s'.tlb, x.leaf.toNat ≠ e)))
    ∧ (∀ x y m, s.arg = [ctx, va, x, y] →
      s.moves.find? (fun m => m.ctx == ctx && m.dst.isSome && pageBase va m.level == m.va) = some m → stays m)
    ∧ (s.arg = [ctx, va] →
      ((∀ m ∈ s.moves, ¬ (m.ctx = ctx ∧ m.va = base)) → ∃ s', exec .eccErrorReport s = .next s'
        ∧ (memNat at_ 8 s'.mem).testBit 59 = true ∧ (MemOutside s s' fun a => at_ ≤ a ∧ a < at_ + 8) ∧ s'.ctxs = s.ctxs)
      ∧ (∀ m ∈ s.moves, m.ctx = ctx → m.va = base → ∃ s', exec .eccErrorReport s = .next s' ∧ m ∉ s'.moves
        ∧ ∀ c, s.ctx? ctx = some c → c.recording = true → CtxIs s' ctx fun x => x.st = .faulted)
      )
    ∧ ∀ agent, s.arg = [ctx, va, agent] → ∃ s', exec .revokeAnswer s = .next s' ∧ s'.mem = s.mem
      ∧ s'.moves.length = s.moves.length ∧ ∀ (i : Nat) (m : Move), s.moves[i]? = some m → s'.moves[i]? = some
          (if m.ctx = ctx ∧ m.va = pageBase va m.level then { m with revoking := m.revoking.filter fun a => a != agent } else m))
  ∧ ((∀ (s : State) (c : Context) (n k : Nat), s.ctx? n = some c →
    (s.arg = [n, k] → ∃ s', exec .shootdown s = .next s' ∧ s'.mem = s.mem ∧ s'.tlb = s.tlb ∧ s'.teams = s.teams
      ∧ CtxIs s' n fun x => x = if c.sdbusy then { c with sdwait := c.sdwait ++ [BitVec.ofNat 64 k] }
          else { c with sdbusy := true, sdlen := BitVec.ofNat 64 k, sdfrom := c.sdaddr })
    ∧ (s.arg = [n] → (c.sdbusy = false → exec .shootdownComplete s = .next s)
      ∧ (c.sdbusy = true → ∃ s', exec .shootdownComplete s = .next s' ∧ s'.mem = s.mem
        ∧ (∀ x, x ∈ s'.tlb ↔ x ∈ s.tlb ∧ ¬ (x.ctx = n ∧ x.within c.sdfrom.toNat c.sdlen.toNat = true))
        ∧ CtxIs s' n fun x => (c.sdwait = [] → x = { c with sdbusy := false })
          ∧ ∀ w ws, c.sdwait = w :: ws → x = { c with sdlen := w, sdfrom := c.sdaddr, sdwait := ws })))
  ∧ ∀ (s : State) (ctx va n rights : Nat),
    (s.arg = [ctx, va, n] → 0 < n →
      ∀ c, s.ctx? ctx = some c →
        (∀ p, s.walk c.root va = .ok p → va + n ≤ pageBase va p.level + pageSize p.level →
          exec .translate s = .next (s.emit (.translations ctx
            [(pageBase va p.level, if p.uni = true ∧ s.moving ctx va = false then some (p.base, bits p.leaf 3 1) else none)])))
        ∧ (∀ f, s.walk c.root va = .error f → va + n ≤ pageBase va 3 + 65536 →
          exec .translate s = .next (s.emit (.translations ctx [(pageBase va 3, none)]))))
    ∧ (s.arg = [ctx, va, rights] → ∀ at_ level e, s.leafOf ctx va = some (at_, level, e) →
      (e.testBit 11 = false → exec .permit s = .next s)
      ∧ (e.testBit 11 = true → ∃ s', exec .permit s = .next s' ∧ s'.out = s.out ++ [.permitDone ctx va] ∧ s'.teams = s.teams
        ∧ bits (memNat at_ 8 s'.mem) 3 1 = rights % 8 ∧ (∀ i, i < 64 → i ≠ 1 → i ≠ 2 → i ≠ 3 → (memNat at_ 8 s'.mem).testBit i = e.testBit i)
        ∧ (MemOutside s s' fun a => at_ ≤ a ∧ a < at_ + 8) ∧ ∀ x ∈ s'.tlb, x.leaf.toNat ≠ e)))

/-- The host reads the bytes of device memory as agents outside the cores find them (R215), those of a bad sector marked poisoned, and
writes them; a range outside device
memory, or a merge into a bad sector, is answered with an error. An error completion of a CXL.cache access takes its context to
FAULTED (R192, R406). -/
def Obligations.HostAccesses : Prop :=
  ∀ (s : State),
    (∀ pa n, s.arg = [pa, n] →
      (s.deviceRange pa n = false → exec .hostMemRead s = .next (s.emit (.hostError pa)))
      ∧ (s.deviceRange pa n = true → ∃ d, exec .hostMemRead s = .next (s.emit (.hostData pa d)) ∧ d.length = n
        ∧ ∀ i, i < n → d[i]? = some (if s.checkBad ((pa + i) / 32) = true ∨ (pa + i) / 32 ∈ s.badEcc then none
            else some (s.outerByte (pa + i)))))
    ∧ (∀ pa n v, s.arg = [pa, n, v] →
      (s.deviceRange pa n = false ∨ (∃ x ∈ partSectors pa n, s.checkBad x = true) → exec .hostMemWrite s = .next (s.emit (.hostError pa)))
      ∧ (s.deviceRange pa n = true → (∀ x ∈ partSectors pa n, s.checkBad x = false) → (∀ t ∈ s.teams, t.copies = []) →
        s.OpenOutside → ∃ s', exec .hostMemWrite s = .next s' ∧ s'.out = s.out ++ [.hostDone pa] ∧ s'.teams = s.teams
          ∧ (∀ i, i < n → memGet (pa + i) s'.mem = (leBytes n v).getD i 0) ∧ (MemOutside s s' fun a => pa ≤ a ∧ a < pa + n)
          ∧ ∀ x, pa ≤ 32 * x → 32 * x + 32 ≤ pa + n → (∀ e ∈ s'.checks, e.1 ≠ x) ∧ x ∉ s'.badEcc))
    ∧ ∀ key poisoned o, s.arg = [key, poisoned] → s.op? key = some o → o.key = key →
      (s.hostLanes o = [] → exec .hostErrorCompletion s = .next s)
      ∧ ∀ t c, s.hostLanes o ≠ [] → s.team? o.team = some t → s.ctxOf t = some c → t.levels = [] → c.recording = true →
        ∃ s', exec .hostErrorCompletion s = .next s' ∧ s'.op? key = none ∧ CtxIs s' t.ctx fun x => x.st = .faulted

/-! ## Kernels and links (16_kernel, 19_link) -/

/-- A submitted image is LOADING; one that has no pair to run, or that breaks a rule of the load, is REFUSED with the rule's
number and the driver told; else it is LOADED, its equivalence table read from the bytes of its section, its return sites are
mapped and the words of both sections stand where its context's tables place them. An unload makes it FREE once no launch of it is
left (R338, R348 to R356). -/
def Obligations.KernelImages : Prop :=
  ∀ (s : State) (k : Nat) (i : Image), s.arg = [k] → s.image? k = some i → (s.images.map Image.key).Nodup →
    let refused := fun (code : Nat) => ∃ s', exec .kernelLoad s = .next s' ∧ s'.mem = s.mem
      ∧ s'.out = s.out ++ [.driver i.ctx refusedImage code] ∧ s'.image? k = some { i with st := .refused, reason := code }
    (∀ c, s.ctx? i.ctx = some c → i.st = .submitted → c.terminable = true → c.st ≠ .faulted → ∃ s', exec .kernelLoad s = .next s'
      ∧ s'.mem = s.mem ∧ s'.image? k = some { i with st := .loading } ∧ s'.agenda = s.agenda ++ [{ step := .kernelLoad, arg := [k] }])
    ∧ (∀ c, s.ctx? i.ctx = some c → i.st = .loading → c.terminable = true → c.st ≠ .faulted →
      (i.chosen s.part.stepping.toNat = none → refused 349)
      ∧ (∀ j, i.chosen s.part.stepping.toNat = some j → parseEquiv j.dbase j.lbase j.equivRaw.length j.equivRaw = none → refused 336)
      ∧ ∀ j0 table, i.chosen s.part.stepping.toNat = some j0 → parseEquiv j0.dbase j0.lbase j0.equivRaw.length j0.equivRaw = some table →
      let j := ({ j0 with equiv := table } : Image).avoiding s.part.errata s.part.stepping.toNat
      let f := j.fixed s.part.gradeA
      (∀ code, s.refusal c j = some code → refused code)
      ∧ (s.refusal c j = none → ∃ s', exec .kernelLoad s = .next s' ∧ s'.teams = s.teams
        ∧ s'.image? k = some { f with st := .loaded, sites := j.siteMap, packetMap := j.packetsByWord }
        ∧ ∀ dp lp, f.relocs = [] → s.sectionPas c j.dbase f.dwords.length = some dp →
          (s.putSection c j.dbase f.dwords).sectionPas c j.lbase f.lwords.length = some lp →
          s.OpenOutside → (∀ a ∈ dp ++ lp, a % 4 = 0) → (dp ++ lp).Nodup →
          (∀ p, ((s.putSection c j.dbase f.dwords).putSection c j.lbase f.lwords).walk c.root j.kaddr = .ok p → ∀ a ∈ dp ++ lp,
            a + 4 ≤ p.base + j.kaddr % 2 ^ p.bits ∨ p.base + j.kaddr % 2 ^ p.bits + 256 ≤ a) →
          (∀ x ∈ dp.zip f.dwords ++ lp.zip f.lwords, memNat x.1 4 s'.mem = x.2.toNat)
          ∧ ∀ a, memGet a s'.mem ≠ memGet a s.mem → (∃ x ∈ dp ++ lp, x ≤ a ∧ a < x + 4)
              ∨ ∃ p, ((s.putSection c j.dbase f.dwords).putSection c j.lbase f.lwords).walk c.root j.kaddr = .ok p
                ∧ p.base + j.kaddr % 2 ^ p.bits ≤ a ∧ a < p.base + j.kaddr % 2 ^ p.bits + 256))
    ∧ (i.st = .loaded →
      (s.imageBusy k = true → ∃ s', exec .kernelUnload s = .next s' ∧ s'.mem = s.mem ∧ s'.image? k = some { i with st := .unloading })
      ∧ (s.imageBusy k = false → ∃ s', exec .kernelUnload s = .next s' ∧ s'.mem = s.mem ∧ s'.image? k = none
        ∧ ∀ n x, n ≠ k → s.image? n = some x → x.st ≠ .unloading → s'.image? n = some x))

/-- The states of a link: enabled from DOWN it trains; training ends UP, DEGRADED or, the third time it fails, DOWN; more than
1,000 retries in a second degrade it; disabled it is DOWN. A die-to-die boundary that goes DOWN is a machine check: every resident
context is TERMINATED (R404, R425). A flit with a bad check or an unknown kind counts as a retry, one out of sequence is
discarded, and another is accepted: the next number is expected, what it acknowledges is dropped, the permits it returns are held
again, and its message has its effect: a response fills the register that waits for it (R408, R409, R411, R413, R414). -/
def Obligations.LinksAndFlits : Prop :=
  (∀ (s : State) (n r : Nat) (l : Link), s.link? n = some l →
    let down := fun (s' : State) => (¬ isBoundary n = true → s'.ctxs = s.ctxs ∧ s'.part.needsReset = s.part.needsReset)
      ∧ (isBoundary n = true → s'.part.needsReset = true ∧ .managementInterrupt ∈ s'.out
        ∧ ∀ c, s.ctx? c.num = some c → c.resident = true → c.terminable = true → CtxIs s' c.num fun x => x.st = .terminated)
    (s.arg = [n] →
      (l.st = .down → ∃ s', exec .linkEnable s = .next s' ∧ s'.mem = s.mem ∧ s'.ctxs = s.ctxs
        ∧ LinkIs s' n fun x => x = { l with st := .training, attempts := 0, enabled := true })
      ∧ (l.st ≠ .down → ∃ s', exec .linkEnable s = .next s' ∧ s'.mem = s.mem ∧ LinkIs s' n fun x => x = l)
      ∧ ∃ s', exec .linkDisable s = .next s' ∧ s'.mem = s.mem ∧ down s' ∧ LinkIs s' n fun x => x = { l with st := .down, enabled := false })
    ∧ (s.arg = [n, r] →
      (l.st ≠ .training → exec .linkTrained s = .next s)
      ∧ (l.st = .training →
        (r = 2 → ∃ s', exec .linkTrained s = .next s' ∧ s'.ctxs = s.ctxs ∧ LinkIs s' n fun x => x = { l with st := .up, attempts := 0 })
        ∧ (r = 1 → ∃ s', exec .linkTrained s = .next s' ∧ s'.ctxs = s.ctxs ∧ LinkIs s' n fun x => x = { l with st := .degraded, attempts := 0 })
        ∧ (r = 0 → l.attempts < 2 → ∃ s', exec .linkTrained s = .next s' ∧ s'.ctxs = s.ctxs
          ∧ LinkIs s' n fun x => x = { l with attempts := l.attempts + 1 })
        ∧ (r = 0 → 2 ≤ l.attempts → ∃ s', exec .linkTrained s = .next s' ∧ s'.mem = s.mem ∧ down s'
          ∧ LinkIs s' n fun x => x = { l with st := .down, attempts := 0 }))
      ∧ (r ≤ 1000 → exec .linkRetryRate s = .next s)
      ∧ (1000 < r → l.st = .up → ∃ s', exec .linkRetryRate s = .next s' ∧ s'.mem = s.mem ∧ LinkIs s' n fun x => x.st = .degraded)))
  ∧ (∀ (s : State) (f : Flit) (p : Port), s.arg = [f.port] → s.part.rx.find? (fun x => x.port == f.port) = some f →
    s.part.ports.find? (fun x => x.num == f.port) = some p →
    let port := fun (s' : State) (q : Port → Prop) => ∃ x, s'.part.ports.find? (fun x => x.num == f.port) = some x ∧ q x
    ((f.checks = false ∨ 4 ≤ f.kind) → ∃ s', exec .flitReceive s = .next s' ∧ s'.teams = s.teams ∧ s'.part.rx = s.part.rx.erase f
      ∧ s'.part.channels = s.part.channels ∧ port s' fun x => x = { p with retries := p.retries + 1 })
    ∧ (f.checks = true → f.kind < 4 → f.seq ≠ p.expect → ∃ s', exec .flitReceive s = .next s' ∧ s'.teams = s.teams
      ∧ s'.part.rx = s.part.rx.erase f ∧ s'.part.channels = s.part.channels ∧ port s' fun x => x = p)
    ∧ (f.checks = true → f.kind < 4 → f.seq = p.expect →
      let takes := fun (s' : State) => s'.mem = s.mem ∧ s'.part.rx = s.part.rx.erase f
        ∧ (port s' fun x => x.expect = p.expect + 1 ∧ x.next = p.next ∧ ∀ n, n ∈ x.unacked ↔ n ∈ p.unacked ∧ ¬ (f.ack - n).toNat < 2 ^ 31)
        ∧ ∀ c ∈ s.part.channels, c.kind = 1 → c.num = f.port →
            { c with held := c.held + f.ret.getD c.cls 0, occupied := c.occupied - f.ret.getD c.cls 0 } ∈ s'.part.channels
      ((f.msg = none ∨ f.kind ≠ 1) → ∃ s', exec .flitReceive s = .next s' ∧ takes s' ∧ s'.teams = s.teams)
      ∧ (f.kind = 1 →
        (∀ r, f.msg = some (.request r) → ∃ s', exec .flitReceive s = .next s' ∧ takes s' ∧ s'.teams = s.teams
          ∧ s'.part.remote = s.part.remote ++ [r])
        ∧ (∀ c i m n t g, f.msg = some (.arrival c i m n t g) → ∃ s', exec .flitReceive s = .next s' ∧ takes s' ∧ s'.teams = s.teams
          ∧ s'.agenda = s.agenda ++ [{ step := .podBarrierArrival, arg := [c, i, m, n, t, g] }])
        ∧ (∀ c i b, f.msg = some (.completion c i b) → ∃ s', exec .flitReceive s = .next s' ∧ takes s' ∧ s'.teams = s.teams
          ∧ s'.agenda = s.agenda ++ [{ step := .podBarrierCompletion, arg := [c, i, if b then 1 else 0] }])
        ∧ ∀ k v o g l n t va w a x xs, f.msg = some (.response k v) → s.op? k = some o → o.what = .remote [(g, l, n)] va w a →
          n < 128 → podRegs o.iss.word a s.fresh v = x :: xs → o.toks = [] →
          s.team? o.team = some t → (t.thread? g l).isSome = true → ∃ s', exec .flitReceive s = .next s' ∧ takes s' ∧ s'.op? k = none
            ∧ TeamIs s' o.team fun u => u.peek (.v g l n) = x.setWidth 64 ∧ u.isEmpty (.v g l n) = false)))

/-- The proofer leaves a channel whose sum is right, or whose link is not in use; else its permits are made good, the event log is
written and its link retrains. A granted access of a remote module is performed in its context and answered; one that is not
granted is a fault to its source, with REASON and level of a `PAGEATTR`; the lanes of one unit's atomic are applied in their order
(R201, R404, R411, R415, R417, R458). -/
def Obligations.ProoferAndRemote : Prop :=
  (∀ (s : State) (n : Nat) (c : Channel), s.arg = [n] → s.part.channels[n]? = some c →
    let sum := c.held + c.occupied + c.returning
    (s.audited c = false ∨ sum = c.total → exec .prooferAudit s = .next s)
    ∧ (s.audited c = true → sum ≠ c.total → ∃ s' c', exec .prooferAudit s = .next s' ∧ .eventLog 5 n ∈ s'.out
      ∧ s'.part.channels[n]? = some c' ∧ c'.returning = 0 ∧ c'.occupied = c.occupied
      ∧ (c.occupied ≤ c.total → c'.held + c'.occupied = c'.total) ∧ c'.total = c.total
      ∧ (∀ m, m ≠ n → s'.part.channels[m]? = s.part.channels[m]?)
      ∧ (∀ k l, c.link = some k → s.link? k = some l → LinkIs s' k fun x => (x.st = .training ∨ x.st = .down)
          ∧ (l.quarantines = [] → x.st = .training))
      ∧ ∀ q, c.link = none → c.mismatch = some q → s.now < q + oneSecond → s'.part.needsReset = true))
  ∧ ∀ (s : State) (n : Nat) (r : RemoteReq), s.arg = [n] → s.part.remote[n]? = some r →
    let done := fun (s' : State) (o : Output) => exec .remotePodAccess s = .next s' ∧ s'.out = s.out ++ [o]
      ∧ s'.part.remote = s.part.remote.eraseIdx n ∧ s'.teams = s.teams
    ((r.module, r.sctx, r.rctx) ∉ s.part.grants → ∃ s', done s' (.podReplyFault r.module r.tag 0x06 0 0) ∧ s'.mem = s.mem)
    ∧ ∀ c, (r.module, r.sctx, r.rctx) ∈ s.part.grants → s.ctx? r.rctx = some c →
      (∀ e, s.cpReach c r.acc r.va r.width = .error e →
        ∃ s', done s' (.podReplyFault r.module r.tag e.1.cause e.1.reason e.1.level) ∧ s'.mem = s.mem)
      ∧ ∀ pas, s.cpReach c r.acc r.va r.width = .ok pas → pas.length = r.width → (pas.map (·.1)).Nodup → (∀ t ∈ s.teams, t.copies = []) →
        s.OpenOutside →
        let old := leNat (s.cpHome pas)
        let stored := fun (s' : State) (x : Nat) => (∀ m a, (pas.map (·.1))[m]? = some a → memGet a s'.mem = (leBytes r.width x).getD m 0)
          ∧ MemOutside s s' fun a => a ∈ pas.map (·.1)
        (r.act = .load → ∃ s', done s' (.podReply r.module r.tag (leNat (s.cpBytes pas))) ∧ s'.mem = s.mem)
        ∧ (∀ v, r.act = .store v → ∃ s', done s' (.podReply r.module r.tag 0) ∧ stored s' v)
        ∧ ∀ op ret lanes, r.act = .atom op ret false lanes → ∃ s', done s' (.podReply r.module r.tag old)
          ∧ stored s' (lanes.foldl (fun m x => atomicNew op m x.1 x.2) old)

/-! ## Bring-up, management and registers (20_management, 18_context R390) -/

/-- A power-on with rails that are not up waits in step 1; else, and at a warm reset of a part that is up and supplied, every
context, team, launch and image is lost, and bring-up ends in BOOTFAIL where a check of steps 2 to 5 fails, else in step 7 with
its links as they trained and the accepted images measured. A warm reset leaves memory, a power-on leaves none. An attestation
report holds what the part is and runs (R419 to R421). A write to a page of a context's registers does what R390 Table 2 names at
its offset: a doorbell, the read index, the shootdown address and length, a command, a queue's update; another offset is ignored. A
read is answered with the register of that table at its offset.
A write to a management register sets what it names (R373, R388, R390; the numbers of the management registers are log entry
32's). -/
def Obligations.Management : Prop :=
  (∀ (s : State),
    let lost := fun (s' : State) => s'.ctxs = [] ∧ s'.teams = [] ∧ s'.launches = [] ∧ s'.images = [] ∧ s'.ops = [] ∧ s'.tlb = []
      ∧ s'.part.accepted = 0 ∧ s'.part.acceptedWritten = false ∧ s'.part.anyEnabled = false
    let boots := fun (s' : State) =>
      (s.part.bootFails → s'.part.boot = .fail)
      ∧ (¬ s.part.bootFails → s'.part.boot = .step 7 ∧ s'.part.ddr = s.part.env.ddr
        ∧ (∃ cp mp, s.part.accept 0 = some cp ∧ s.part.accept 1 = some mp
          ∧ s'.part.measured = [(cp.digest, cp.version), (mp.digest, mp.version)])
        ∧ ∀ l ∈ s'.part.links, l.st = if l.num = 0 ∨ isBoundary l.num = true ∨ l.enabled = true then s.part.env.trained l.num else .down)
    (∃ s', exec .powerOn s = .next s' ∧ lost s' ∧ s'.mem = []
      ∧ (s.part.env.rails = false → s'.part.boot = .step 1) ∧ (s.part.env.rails = true → boots s'))
    ∧ (s.part.supply = false ∨ s.part.boot = .step 1 → exec .warmReset s = .next s)
    ∧ (s.part.supply = true → s.part.boot ≠ .step 1 → ∃ s', exec .warmReset s = .next s' ∧ lost s' ∧ s'.mem = s.mem ∧ boots s')
    ∧ ∀ nonce, s.arg = [nonce] → ∃ sig, exec .attestationRequest s = .next (s.emit (.report nonce s.part.gradeA s.part.stepping.toNat
        s.part.measured s.part.accepted.toNat s.part.minVersion sig)))
  ∧ (∀ (s : State) (p n off v : Nat), s.arg = [p, n, off, v] →
    (p = 0 → (off % 8 = 0 → off ≤ 0x1F8 → exec .registerWrite s = .next (s.doorbell n (off / 8) (BitVec.ofNat 64 v)))
      ∧ (off % 8 ≠ 0 ∨ 0x1F8 < off → exec .registerWrite s = .next s))
    ∧ (p = 1 →
      (off = 0x000 → exec .registerWrite s = .next (s.writeTqread n (BitVec.ofNat 64 v)))
      ∧ (off = 0x030 → v < 2 ^ 64 → exec .registerWrite s = .next (s.replayRecord n v))
      ∧ (off = 0x048 → exec .registerWrite s = .next (s.shootdown n (BitVec.ofNat 64 v)))
      ∧ (off = 0x060 → exec .registerWrite s = .next (s.qupdate n (BitVec.ofNat 64 v)))
      ∧ (∀ c, off = 0x040 → s.ctx? n = some c → ∃ s', exec .registerWrite s = .next s' ∧ s'.mem = s.mem ∧ s'.teams = s.teams
        ∧ CtxIs s' n fun x => x = { c with sdaddr := BitVec.ofNat 64 v })
      ∧ (off = 0x058 → exec .registerWrite s = (match v % 2 ^ 64 with
          | 1 => exec .create { s with arg := [n] }
          | 2 => exec .enable { s with arg := [n] }
          | 3 => exec .terminate { s with arg := [n] }
          | 4 => exec .release { s with arg := [n] }
          | _ => .next { s with arg := [n] }))
      ∧ (off ∉ [0x000, 0x030, 0x040, 0x048, 0x058, 0x060] → exec .registerWrite s = .next s))
    ∧ (2 ≤ p → ∃ s', exec .registerWrite s = .next s' ∧ s'.mem = s.mem ∧ s'.teams = s.teams ∧ s'.ops = s.ops
      ∧ (p = 5 → s'.part.moduleNum = v % 256)
      ∧ (p = 8 → 100 ≤ v → v ≤ 100000 → s'.part.audit = v)
      ∧ (p = 9 → s'.part.ctxTable = v)
      ∧ (p = 10 → ∀ l, s.link? off = some l → LinkIs s' off fun x => x = { l with enabled := v % 2 == 1 })
      ∧ (p = 7 → 1 ≤ v → v ≤ 255 → off < 16 → ∃ t ∈ s'.tenants, t.key = off ∧ t.weight = v)
      ∧ (p = 3 → ∀ c, s.ctx? n = some c → off < 16 → 0 < v → CtxIs s' n fun x => (off, (v - 1) % 256, (v - 1) / 256) ∈ x.podbar)))
  ∧ ∀ (s : State) (n off : Nat),
    let gives := fun (page x : Nat) => exec .registerWrite s = .next (s.emit (.registerData page n off x))
    (s.arg = [0, n, off] → gives 0 0)
    ∧ (s.arg = [1, n, off] → (s.ctx? n = none → off = 0x010 → gives 1 0) ∧ ∀ c, s.ctx? n = some c →
      (off = 0x000 → gives 1 c.tqread.toNat) ∧ (off = 0x008 → gives 1 c.tqwrite.toNat)
      ∧ (off = 0x010 → gives 1 (c.st.code + if c.fatalsum = none then 0 else 16)) ∧ (off = 0x018 → gives 1 c.dropped.toNat)
      ∧ (∀ b, c.fatalsum = some b → (off = 0x020 → gives 1 (leNat (b.take 8))) ∧ (off = 0x028 → gives 1 (leNat (b.drop 8))))
      ∧ (off = 0x038 → gives 1 c.overrun.toNat) ∧ (off = 0x040 → gives 1 c.sdaddr.toNat)
      ∧ (off = 0x050 → gives 1 (if c.sdbusy then 1 else 0)))

/-- Four consecutive edges that agree with the time of day to within 100 ns lock the CP's time; 2 s without one lose the lock. The
management port sets the time of day. A power limit is taken from 1,000 W to 3,600 W, a cap of a context in watts (R422, R423). An
L-core at 95 °C falls by 10 % of its clock, and again until it reads below 92 °C, as a D-core with no team to move does; below 90
°C it rises by 10 %. A stack is halved from 95 °C until below 90 °C. 105 °C, or a missed heartbeat, is a machine check: every
resident context is TERMINATED; the first removes the core supply, the second brings the standby (R424, R425). -/
def Obligations.PowerAndTime : Prop :=
  (∀ (s : State) (a b : Nat),
    let late := s.part.lastPps + 2 * oneSecond ≤ s.now
    let here := s.timeOfDay.1 * 10 ^ 9 + s.timeOfDay.2
    let edge := a * 10 ^ 9 + b
    (late → ∃ s', exec .ppsLoss s = .next s' ∧ s'.part.locked = false) ∧ (¬ late → exec .ppsLoss s = .next s)
    ∧ (s.arg = [a, b] →
      (∃ s', exec .ppsEdge s = .next s' ∧ s'.mem = s.mem ∧ s'.teams = s.teams ∧ s'.part.lastPps = s.now
        ∧ (edge ≤ here + 100 → here ≤ edge + 100 → ¬ late → s'.part.agree = s.part.agree + 1
            ∧ (s'.part.locked = true ↔ s.part.locked = true ∨ 3 ≤ s.part.agree))
        ∧ (edge ≤ here + 100 → here ≤ edge + 100 → late → s'.part.agree = 1 ∧ s'.part.locked = false)
        ∧ (edge > here + 100 ∨ here > edge + 100 → s'.part.agree = 0))
      ∧ (b < 10 ^ 9 → ∃ s', exec .ieee1588TimeOfDay s = .next s' ∧ s'.mem = s.mem ∧ s'.teams = s.teams ∧ s'.timeOfDay = (a, b)
        ∧ s'.part.locked = s.part.locked)
      ∧ ∀ c, s.ctx? a = some c → ∃ s', exec .contextPowerCapSet s = .next s' ∧ s'.mem = s.mem ∧ s'.teams = s.teams
        ∧ CtxIs s' a fun x => x = { c with cap := b })
    ∧ (s.arg = [a] →
      (1000 ≤ a → a ≤ 3600 → ∃ s', exec .powerLimitSet s = .next s' ∧ s'.mem = s.mem ∧ s'.part.powerLimit = a)
      ∧ (a < 1000 ∨ 3600 < a → exec .powerLimitSet s = .next s)))
  ∧ (∀ (s : State) (a b : Nat),
    let checked := fun (s' : State) => s'.mem = s.mem ∧ .managementInterrupt ∈ s'.out
      ∧ ∀ c, s.ctx? c.num = some c → c.resident = true → c.terminable = true → CtxIs s' c.num fun x => x.st = .terminated
    (s.arg = [a, b] →
      (∃ s', exec .lCoreThermalThrottle s = .next s' ∧ s'.mem = s.mem ∧ s'.teams = s.teams
        ∧ (kindOf a = .lcore ∨ s.movableTeam a = false → 10 < s.clockOf a →
          (95 ≤ b ∨ s.clockOf a < 100 ∧ 92 ≤ b → s'.clockOf a = s.clockOf a - 10) ∧ (b < 92 → s'.clockOf a = s.clockOf a))
        ∧ (kindOf a = .dcore → s.movableTeam a = true → s'.clockOf a = s.clockOf a)
        ∧ ∀ k, k ≠ a → s'.clockOf k = s.clockOf k)
      ∧ (∃ s', exec .throttleClockRise s = .next s' ∧ s'.mem = s.mem ∧ s'.teams = s.teams
        ∧ (b < 90 → s'.clockOf a = min 100 (s.clockOf a + 10)) ∧ (90 ≤ b → s'.clockOf a = s.clockOf a)
        ∧ ∀ k, k ≠ a → s'.clockOf k = s.clockOf k)
      ∧ (∃ s', exec .hbmThermalThrottle s = .next s' ∧ s'.mem = s.mem ∧ (95 ≤ b → a ∈ s'.part.hotStacks)
        ∧ (b < 95 → s'.part.hotStacks = s.part.hotStacks))
      ∧ (∃ s', exec .hbmStackBelow90C s = .next s' ∧ s'.mem = s.mem ∧ (b < 90 → a ∉ s'.part.hotStacks)
        ∧ (90 ≤ b → s'.part.hotStacks = s.part.hotStacks))
      ∧ (b < 10 ∨ 1 < a → exec .heartbeatMiss s = .next s)
      ∧ (10 ≤ b → a = 0 → s.part.cpStandby = false → ∃ s', exec .heartbeatMiss s = .next s' ∧ checked s'
        ∧ s'.part.cpStandby = true ∧ s'.part.needsReset = s.part.needsReset)
      ∧ (10 ≤ b → a = 1 → s.part.mpStandby = false → ∃ s', exec .heartbeatMiss s = .next s' ∧ checked s'
        ∧ s'.part.mpStandby = true ∧ s'.part.needsReset = s.part.needsReset))
    ∧ (s.arg = [a] →
      (a < 105 → exec .tempCritical s = .next s)
      ∧ (105 ≤ a → ∃ s', exec .tempCritical s = .next s' ∧ checked s' ∧ s'.part.supply = false ∧ s'.part.needsReset = true)))

/-! ## Reset and invariants -/

/-- Memory keeps its canonical form in every step: addresses rising, and no byte listed that reads as zero (the model's own form;
log entry 1). -/
def Obligations.StepKeepsMemory : Prop :=
  ∀ s s' : State, Memory.wf s.mem = true → step s = .next s' → Memory.wf s'.mem = true

/-- The machine after reset is in step 2 of bring-up with core supply, every link DOWN, the first stepping, no accepted feature,
no context, team, launch or image, and a memory that lists nothing (R404, R419, R426; the rest is log entry 2's choice). -/
def Obligations.ResetState : Prop :=
  State.reset.part.boot = .step 2 ∧ State.reset.part.supply = true ∧ State.reset.part.stepping = 0x100#32
    ∧ (∀ l ∈ State.reset.part.links, l.st = .down) ∧ State.reset.part.accepted = 0 ∧ State.reset.ctxs = [] ∧ State.reset.teams = []
    ∧ State.reset.launches = [] ∧ State.reset.images = [] ∧ State.reset.mem = [] ∧ Memory.wf State.reset.mem = true
    ∧ (∀ a, memGet a State.reset.mem = 0) ∧ (∀ n, State.reset.ctx? n = none) ∧ ∀ n, State.reset.team? n = none
end

