-- ==== Sys2Proof/Laws/Alu.lean ====
section
/-! SUPPORT. The integer functions of the model are those of R116 in exact arithmetic. -/

namespace Sys2Proof.Machine

theorem aluAdd_result (x y : Word) : aluAdd x y = AluOp.add.result x y := by
  simp [aluAdd, AluOp.result, BitVec.ofNat_add]

theorem aluSub_result (x y : Word) : aluSub x y = AluOp.sub.result x y := by
  apply BitVec.eq_of_toNat_eq
  have hx := x.isLt
  have hy := y.isLt
  simp only [aluSub, AluOp.result, BitVec.toNat_sub, BitVec.toNat_ofInt]
  omega

theorem aluMul_result (x y : Word) : aluMul x y = AluOp.mul.result x y := by
  simp [aluMul, AluOp.result, BitVec.ofNat_mul]

theorem aluMulhS_result (x y : Word) : aluMulhS x y = AluOp.mulhS.result x y := rfl

theorem aluMulhU_result (x y : Word) : aluMulhU x y = AluOp.mulhU.result x y := rfl

theorem aluShl_result (x y : Word) : aluShl x y = AluOp.shl.result x y := by
  apply BitVec.eq_of_toNat_eq
  simp [aluShl, AluOp.result, Nat.shiftLeft_eq]

theorem aluShr_result (x y : Word) : aluShr x y = AluOp.shr.result x y := by
  apply BitVec.eq_of_toNat_eq
  have hx := x.isLt
  have h : x.toNat / 2 ^ (y.toNat % 32) ≤ x.toNat := Nat.div_le_self _ _
  simp only [aluShr, AluOp.result, BitVec.toNat_ushiftRight, Nat.shiftRight_eq_div_pow, BitVec.toNat_ofNat]
  exact (Nat.mod_eq_of_lt (h.trans_lt hx)).symm

theorem aluSar_result (x y : Word) : aluSar x y = AluOp.sar.result x y := by
  apply BitVec.eq_of_toInt_eq
  have h1 := BitVec.toInt_lt (x := x)
  have h2 := BitVec.le_toInt (x := x)
  have hpos : (0 : Int) < 2 ^ (y.toNat % 32) := by positivity
  have h3 : x.toInt / 2 ^ (y.toNat % 32) ≤ max 0 x.toInt := by
    rcases Int.le_total 0 x.toInt with h | h
    · exact (Int.ediv_le_self _ h).trans (le_max_right _ _)
    · exact (Int.ediv_nonpos_of_nonpos_of_neg h hpos).trans (le_max_left _ _)
  have h4 : min 0 x.toInt ≤ x.toInt / 2 ^ (y.toNat % 32) := by
    rcases Int.le_total 0 x.toInt with h | h
    · exact (min_le_left _ _).trans (Int.ediv_nonneg h hpos.le)
    · refine (min_le_right _ _).trans ?_
      rw [Int.le_ediv_iff_mul_le hpos]
      have : (1 : Int) ≤ 2 ^ (y.toNat % 32) := by omega
      nlinarith
  simp only [aluSar, AluOp.result, BitVec.toInt_sshiftRight, Int.shiftRight_eq_div_pow, BitVec.toInt_ofInt]
  rw [Int.bmod_eq_of_le]
  · push_cast; rfl
  · push_cast at h1 h2 ⊢; omega
  · push_cast at h1 h2 ⊢; omega

theorem aluAddSat_result (x y : Word) : aluAddSat x y = AluOp.addSat.result x y := rfl

end Sys2Proof.Machine
end

