-- ==== Sys2Proof/Laws/State.lean ====
section
/-! SUPPORT. What each plain update of the state leaves alone: one lemma for each update and field. -/

namespace Sys2Proof.Machine

/-! ## modTeam -/

@[simp] theorem State.modTeam_part (s : State) (k : Nat) (f : Team → Team) : (s.modTeam k f).part = s.part := rfl
@[simp] theorem State.modTeam_now (s : State) (k : Nat) (f : Team → Team) : (s.modTeam k f).now = s.now := rfl
@[simp] theorem State.modTeam_mem (s : State) (k : Nat) (f : Team → Team) : (s.modTeam k f).mem = s.mem := rfl
@[simp] theorem State.modTeam_checks (s : State) (k : Nat) (f : Team → Team) : (s.modTeam k f).checks = s.checks := rfl
@[simp] theorem State.modTeam_badEcc (s : State) (k : Nat) (f : Team → Team) : (s.modTeam k f).badEcc = s.badEcc := rfl
@[simp] theorem State.modTeam_tlb (s : State) (k : Nat) (f : Team → Team) : (s.modTeam k f).tlb = s.tlb := rfl
@[simp] theorem State.modTeam_icache (s : State) (k : Nat) (f : Team → Team) : (s.modTeam k f).icache = s.icache := rfl
@[simp] theorem State.modTeam_lams (s : State) (k : Nat) (f : Team → Team) : (s.modTeam k f).lams = s.lams := rfl
@[simp] theorem State.modTeam_flights (s : State) (k : Nat) (f : Team → Team) : (s.modTeam k f).flights = s.flights := rfl
@[simp] theorem State.modTeam_applied (s : State) (k : Nat) (f : Team → Team) : (s.modTeam k f).applied = s.applied := rfl
@[simp] theorem State.modTeam_external (s : State) (k : Nat) (f : Team → Team) : (s.modTeam k f).external = s.external := rfl
@[simp] theorem State.modTeam_gathered (s : State) (k : Nat) (f : Team → Team) : (s.modTeam k f).gathered = s.gathered := rfl
@[simp] theorem State.modTeam_waiting (s : State) (k : Nat) (f : Team → Team) : (s.modTeam k f).waiting = s.waiting := rfl
@[simp] theorem State.modTeam_held (s : State) (k : Nat) (f : Team → Team) : (s.modTeam k f).held = s.held := rfl
@[simp] theorem State.modTeam_shadows (s : State) (k : Nat) (f : Team → Team) : (s.modTeam k f).shadows = s.shadows := rfl
@[simp] theorem State.modTeam_writes (s : State) (k : Nat) (f : Team → Team) : (s.modTeam k f).writes = s.writes := rfl
@[simp] theorem State.modTeam_names (s : State) (k : Nat) (f : Team → Team) : (s.modTeam k f).names = s.names := rfl
@[simp] theorem State.modTeam_strongSeq (s : State) (k : Nat) (f : Team → Team) : (s.modTeam k f).strongSeq = s.strongSeq := rfl
@[simp] theorem State.modTeam_ops (s : State) (k : Nat) (f : Team → Team) : (s.modTeam k f).ops = s.ops := rfl
@[simp] theorem State.modTeam_toks (s : State) (k : Nat) (f : Team → Team) : (s.modTeam k f).toks = s.toks := rfl
@[simp] theorem State.modTeam_bars (s : State) (k : Nat) (f : Team → Team) : (s.modTeam k f).bars = s.bars := rfl
@[simp] theorem State.modTeam_sram (s : State) (k : Nat) (f : Team → Team) : (s.modTeam k f).sram = s.sram := rfl
@[simp] theorem State.modTeam_opstore (s : State) (k : Nat) (f : Team → Team) : (s.modTeam k f).opstore = s.opstore := rfl
@[simp] theorem State.modTeam_images (s : State) (k : Nat) (f : Team → Team) : (s.modTeam k f).images = s.images := rfl
@[simp] theorem State.modTeam_launches (s : State) (k : Nat) (f : Team → Team) : (s.modTeam k f).launches = s.launches := rfl
@[simp] theorem State.modTeam_ctxs (s : State) (k : Nat) (f : Team → Team) : (s.modTeam k f).ctxs = s.ctxs := rfl
@[simp] theorem State.modTeam_tenants (s : State) (k : Nat) (f : Team → Team) : (s.modTeam k f).tenants = s.tenants := rfl
@[simp] theorem State.modTeam_reclaims (s : State) (k : Nat) (f : Team → Team) : (s.modTeam k f).reclaims = s.reclaims := rfl
@[simp] theorem State.modTeam_moves (s : State) (k : Nat) (f : Team → Team) : (s.modTeam k f).moves = s.moves := rfl
@[simp] theorem State.modTeam_snaps (s : State) (k : Nat) (f : Team → Team) : (s.modTeam k f).snaps = s.snaps := rfl
@[simp] theorem State.modTeam_run (s : State) (k : Nat) (f : Team → Team) : (s.modTeam k f).run = s.run := rfl
@[simp] theorem State.modTeam_busy (s : State) (k : Nat) (f : Team → Team) : (s.modTeam k f).busy = s.busy := rfl
@[simp] theorem State.modTeam_drawn (s : State) (k : Nat) (f : Team → Team) : (s.modTeam k f).drawn = s.drawn := rfl
@[simp] theorem State.modTeam_drew (s : State) (k : Nat) (f : Team → Team) : (s.modTeam k f).drew = s.drew := rfl
@[simp] theorem State.modTeam_out (s : State) (k : Nat) (f : Team → Team) : (s.modTeam k f).out = s.out := rfl
@[simp] theorem State.modTeam_agenda (s : State) (k : Nat) (f : Team → Team) : (s.modTeam k f).agenda = s.agenda := rfl
@[simp] theorem State.modTeam_arg (s : State) (k : Nat) (f : Team → Team) : (s.modTeam k f).arg = s.arg := rfl
@[simp] theorem State.modTeam_cur (s : State) (k : Nat) (f : Team → Team) : (s.modTeam k f).cur = s.cur := rfl
@[simp] theorem State.modTeam_before (s : State) (k : Nat) (f : Team → Team) : (s.modTeam k f).before = s.before := rfl
@[simp] theorem State.modTeam_fresh (s : State) (k : Nat) (f : Team → Team) : (s.modTeam k f).fresh = s.fresh := rfl
@[simp] theorem State.modTeam_keys (s : State) (k : Nat) (f : Team → Team) : (s.modTeam k f).keys = s.keys := rfl

/-! ## modCtx -/

@[simp] theorem State.modCtx_part (s : State) (c : Nat) (f : Context → Context) : (s.modCtx c f).part = s.part := rfl
@[simp] theorem State.modCtx_now (s : State) (c : Nat) (f : Context → Context) : (s.modCtx c f).now = s.now := rfl
@[simp] theorem State.modCtx_mem (s : State) (c : Nat) (f : Context → Context) : (s.modCtx c f).mem = s.mem := rfl
@[simp] theorem State.modCtx_checks (s : State) (c : Nat) (f : Context → Context) : (s.modCtx c f).checks = s.checks := rfl
@[simp] theorem State.modCtx_badEcc (s : State) (c : Nat) (f : Context → Context) : (s.modCtx c f).badEcc = s.badEcc := rfl
@[simp] theorem State.modCtx_tlb (s : State) (c : Nat) (f : Context → Context) : (s.modCtx c f).tlb = s.tlb := rfl
@[simp] theorem State.modCtx_icache (s : State) (c : Nat) (f : Context → Context) : (s.modCtx c f).icache = s.icache := rfl
@[simp] theorem State.modCtx_lams (s : State) (c : Nat) (f : Context → Context) : (s.modCtx c f).lams = s.lams := rfl
@[simp] theorem State.modCtx_flights (s : State) (c : Nat) (f : Context → Context) : (s.modCtx c f).flights = s.flights := rfl
@[simp] theorem State.modCtx_applied (s : State) (c : Nat) (f : Context → Context) : (s.modCtx c f).applied = s.applied := rfl
@[simp] theorem State.modCtx_external (s : State) (c : Nat) (f : Context → Context) : (s.modCtx c f).external = s.external := rfl
@[simp] theorem State.modCtx_gathered (s : State) (c : Nat) (f : Context → Context) : (s.modCtx c f).gathered = s.gathered := rfl
@[simp] theorem State.modCtx_waiting (s : State) (c : Nat) (f : Context → Context) : (s.modCtx c f).waiting = s.waiting := rfl
@[simp] theorem State.modCtx_held (s : State) (c : Nat) (f : Context → Context) : (s.modCtx c f).held = s.held := rfl
@[simp] theorem State.modCtx_shadows (s : State) (c : Nat) (f : Context → Context) : (s.modCtx c f).shadows = s.shadows := rfl
@[simp] theorem State.modCtx_writes (s : State) (c : Nat) (f : Context → Context) : (s.modCtx c f).writes = s.writes := rfl
@[simp] theorem State.modCtx_names (s : State) (c : Nat) (f : Context → Context) : (s.modCtx c f).names = s.names := rfl
@[simp] theorem State.modCtx_strongSeq (s : State) (c : Nat) (f : Context → Context) : (s.modCtx c f).strongSeq = s.strongSeq := rfl
@[simp] theorem State.modCtx_ops (s : State) (c : Nat) (f : Context → Context) : (s.modCtx c f).ops = s.ops := rfl
@[simp] theorem State.modCtx_toks (s : State) (c : Nat) (f : Context → Context) : (s.modCtx c f).toks = s.toks := rfl
@[simp] theorem State.modCtx_bars (s : State) (c : Nat) (f : Context → Context) : (s.modCtx c f).bars = s.bars := rfl
@[simp] theorem State.modCtx_sram (s : State) (c : Nat) (f : Context → Context) : (s.modCtx c f).sram = s.sram := rfl
@[simp] theorem State.modCtx_opstore (s : State) (c : Nat) (f : Context → Context) : (s.modCtx c f).opstore = s.opstore := rfl
@[simp] theorem State.modCtx_images (s : State) (c : Nat) (f : Context → Context) : (s.modCtx c f).images = s.images := rfl
@[simp] theorem State.modCtx_launches (s : State) (c : Nat) (f : Context → Context) : (s.modCtx c f).launches = s.launches := rfl
@[simp] theorem State.modCtx_tenants (s : State) (c : Nat) (f : Context → Context) : (s.modCtx c f).tenants = s.tenants := rfl
@[simp] theorem State.modCtx_reclaims (s : State) (c : Nat) (f : Context → Context) : (s.modCtx c f).reclaims = s.reclaims := rfl
@[simp] theorem State.modCtx_moves (s : State) (c : Nat) (f : Context → Context) : (s.modCtx c f).moves = s.moves := rfl
@[simp] theorem State.modCtx_teams (s : State) (c : Nat) (f : Context → Context) : (s.modCtx c f).teams = s.teams := rfl
@[simp] theorem State.modCtx_snaps (s : State) (c : Nat) (f : Context → Context) : (s.modCtx c f).snaps = s.snaps := rfl
@[simp] theorem State.modCtx_run (s : State) (c : Nat) (f : Context → Context) : (s.modCtx c f).run = s.run := rfl
@[simp] theorem State.modCtx_busy (s : State) (c : Nat) (f : Context → Context) : (s.modCtx c f).busy = s.busy := rfl
@[simp] theorem State.modCtx_drawn (s : State) (c : Nat) (f : Context → Context) : (s.modCtx c f).drawn = s.drawn := rfl
@[simp] theorem State.modCtx_drew (s : State) (c : Nat) (f : Context → Context) : (s.modCtx c f).drew = s.drew := rfl
@[simp] theorem State.modCtx_out (s : State) (c : Nat) (f : Context → Context) : (s.modCtx c f).out = s.out := rfl
@[simp] theorem State.modCtx_agenda (s : State) (c : Nat) (f : Context → Context) : (s.modCtx c f).agenda = s.agenda := rfl
@[simp] theorem State.modCtx_arg (s : State) (c : Nat) (f : Context → Context) : (s.modCtx c f).arg = s.arg := rfl
@[simp] theorem State.modCtx_cur (s : State) (c : Nat) (f : Context → Context) : (s.modCtx c f).cur = s.cur := rfl
@[simp] theorem State.modCtx_before (s : State) (c : Nat) (f : Context → Context) : (s.modCtx c f).before = s.before := rfl
@[simp] theorem State.modCtx_fresh (s : State) (c : Nat) (f : Context → Context) : (s.modCtx c f).fresh = s.fresh := rfl
@[simp] theorem State.modCtx_keys (s : State) (c : Nat) (f : Context → Context) : (s.modCtx c f).keys = s.keys := rfl

/-! ## modLaunch -/

@[simp] theorem State.modLaunch_part (s : State) (k : Nat) (f : Launch → Launch) : (s.modLaunch k f).part = s.part := rfl
@[simp] theorem State.modLaunch_now (s : State) (k : Nat) (f : Launch → Launch) : (s.modLaunch k f).now = s.now := rfl
@[simp] theorem State.modLaunch_mem (s : State) (k : Nat) (f : Launch → Launch) : (s.modLaunch k f).mem = s.mem := rfl
@[simp] theorem State.modLaunch_checks (s : State) (k : Nat) (f : Launch → Launch) : (s.modLaunch k f).checks = s.checks := rfl
@[simp] theorem State.modLaunch_badEcc (s : State) (k : Nat) (f : Launch → Launch) : (s.modLaunch k f).badEcc = s.badEcc := rfl
@[simp] theorem State.modLaunch_tlb (s : State) (k : Nat) (f : Launch → Launch) : (s.modLaunch k f).tlb = s.tlb := rfl
@[simp] theorem State.modLaunch_icache (s : State) (k : Nat) (f : Launch → Launch) : (s.modLaunch k f).icache = s.icache := rfl
@[simp] theorem State.modLaunch_lams (s : State) (k : Nat) (f : Launch → Launch) : (s.modLaunch k f).lams = s.lams := rfl
@[simp] theorem State.modLaunch_flights (s : State) (k : Nat) (f : Launch → Launch) : (s.modLaunch k f).flights = s.flights := rfl
@[simp] theorem State.modLaunch_applied (s : State) (k : Nat) (f : Launch → Launch) : (s.modLaunch k f).applied = s.applied := rfl
@[simp] theorem State.modLaunch_external (s : State) (k : Nat) (f : Launch → Launch) : (s.modLaunch k f).external = s.external := rfl
@[simp] theorem State.modLaunch_gathered (s : State) (k : Nat) (f : Launch → Launch) : (s.modLaunch k f).gathered = s.gathered := rfl
@[simp] theorem State.modLaunch_waiting (s : State) (k : Nat) (f : Launch → Launch) : (s.modLaunch k f).waiting = s.waiting := rfl
@[simp] theorem State.modLaunch_held (s : State) (k : Nat) (f : Launch → Launch) : (s.modLaunch k f).held = s.held := rfl
@[simp] theorem State.modLaunch_shadows (s : State) (k : Nat) (f : Launch → Launch) : (s.modLaunch k f).shadows = s.shadows := rfl
@[simp] theorem State.modLaunch_writes (s : State) (k : Nat) (f : Launch → Launch) : (s.modLaunch k f).writes = s.writes := rfl
@[simp] theorem State.modLaunch_names (s : State) (k : Nat) (f : Launch → Launch) : (s.modLaunch k f).names = s.names := rfl
@[simp] theorem State.modLaunch_strongSeq (s : State) (k : Nat) (f : Launch → Launch) : (s.modLaunch k f).strongSeq = s.strongSeq := rfl
@[simp] theorem State.modLaunch_ops (s : State) (k : Nat) (f : Launch → Launch) : (s.modLaunch k f).ops = s.ops := rfl
@[simp] theorem State.modLaunch_toks (s : State) (k : Nat) (f : Launch → Launch) : (s.modLaunch k f).toks = s.toks := rfl
@[simp] theorem State.modLaunch_bars (s : State) (k : Nat) (f : Launch → Launch) : (s.modLaunch k f).bars = s.bars := rfl
@[simp] theorem State.modLaunch_sram (s : State) (k : Nat) (f : Launch → Launch) : (s.modLaunch k f).sram = s.sram := rfl
@[simp] theorem State.modLaunch_opstore (s : State) (k : Nat) (f : Launch → Launch) : (s.modLaunch k f).opstore = s.opstore := rfl
@[simp] theorem State.modLaunch_images (s : State) (k : Nat) (f : Launch → Launch) : (s.modLaunch k f).images = s.images := rfl
@[simp] theorem State.modLaunch_ctxs (s : State) (k : Nat) (f : Launch → Launch) : (s.modLaunch k f).ctxs = s.ctxs := rfl
@[simp] theorem State.modLaunch_tenants (s : State) (k : Nat) (f : Launch → Launch) : (s.modLaunch k f).tenants = s.tenants := rfl
@[simp] theorem State.modLaunch_reclaims (s : State) (k : Nat) (f : Launch → Launch) : (s.modLaunch k f).reclaims = s.reclaims := rfl
@[simp] theorem State.modLaunch_moves (s : State) (k : Nat) (f : Launch → Launch) : (s.modLaunch k f).moves = s.moves := rfl
@[simp] theorem State.modLaunch_teams (s : State) (k : Nat) (f : Launch → Launch) : (s.modLaunch k f).teams = s.teams := rfl
@[simp] theorem State.modLaunch_snaps (s : State) (k : Nat) (f : Launch → Launch) : (s.modLaunch k f).snaps = s.snaps := rfl
@[simp] theorem State.modLaunch_run (s : State) (k : Nat) (f : Launch → Launch) : (s.modLaunch k f).run = s.run := rfl
@[simp] theorem State.modLaunch_busy (s : State) (k : Nat) (f : Launch → Launch) : (s.modLaunch k f).busy = s.busy := rfl
@[simp] theorem State.modLaunch_drawn (s : State) (k : Nat) (f : Launch → Launch) : (s.modLaunch k f).drawn = s.drawn := rfl
@[simp] theorem State.modLaunch_drew (s : State) (k : Nat) (f : Launch → Launch) : (s.modLaunch k f).drew = s.drew := rfl
@[simp] theorem State.modLaunch_out (s : State) (k : Nat) (f : Launch → Launch) : (s.modLaunch k f).out = s.out := rfl
@[simp] theorem State.modLaunch_agenda (s : State) (k : Nat) (f : Launch → Launch) : (s.modLaunch k f).agenda = s.agenda := rfl
@[simp] theorem State.modLaunch_arg (s : State) (k : Nat) (f : Launch → Launch) : (s.modLaunch k f).arg = s.arg := rfl
@[simp] theorem State.modLaunch_cur (s : State) (k : Nat) (f : Launch → Launch) : (s.modLaunch k f).cur = s.cur := rfl
@[simp] theorem State.modLaunch_before (s : State) (k : Nat) (f : Launch → Launch) : (s.modLaunch k f).before = s.before := rfl
@[simp] theorem State.modLaunch_fresh (s : State) (k : Nat) (f : Launch → Launch) : (s.modLaunch k f).fresh = s.fresh := rfl
@[simp] theorem State.modLaunch_keys (s : State) (k : Nat) (f : Launch → Launch) : (s.modLaunch k f).keys = s.keys := rfl

/-! ## modLam -/

@[simp] theorem State.modLam_part (s : State) (k : Nat) (f : Lam → Lam) : (s.modLam k f).part = s.part := rfl
@[simp] theorem State.modLam_now (s : State) (k : Nat) (f : Lam → Lam) : (s.modLam k f).now = s.now := rfl
@[simp] theorem State.modLam_mem (s : State) (k : Nat) (f : Lam → Lam) : (s.modLam k f).mem = s.mem := rfl
@[simp] theorem State.modLam_checks (s : State) (k : Nat) (f : Lam → Lam) : (s.modLam k f).checks = s.checks := rfl
@[simp] theorem State.modLam_badEcc (s : State) (k : Nat) (f : Lam → Lam) : (s.modLam k f).badEcc = s.badEcc := rfl
@[simp] theorem State.modLam_tlb (s : State) (k : Nat) (f : Lam → Lam) : (s.modLam k f).tlb = s.tlb := rfl
@[simp] theorem State.modLam_icache (s : State) (k : Nat) (f : Lam → Lam) : (s.modLam k f).icache = s.icache := rfl
@[simp] theorem State.modLam_flights (s : State) (k : Nat) (f : Lam → Lam) : (s.modLam k f).flights = s.flights := rfl
@[simp] theorem State.modLam_applied (s : State) (k : Nat) (f : Lam → Lam) : (s.modLam k f).applied = s.applied := rfl
@[simp] theorem State.modLam_external (s : State) (k : Nat) (f : Lam → Lam) : (s.modLam k f).external = s.external := rfl
@[simp] theorem State.modLam_gathered (s : State) (k : Nat) (f : Lam → Lam) : (s.modLam k f).gathered = s.gathered := rfl
@[simp] theorem State.modLam_waiting (s : State) (k : Nat) (f : Lam → Lam) : (s.modLam k f).waiting = s.waiting := rfl
@[simp] theorem State.modLam_held (s : State) (k : Nat) (f : Lam → Lam) : (s.modLam k f).held = s.held := rfl
@[simp] theorem State.modLam_shadows (s : State) (k : Nat) (f : Lam → Lam) : (s.modLam k f).shadows = s.shadows := rfl
@[simp] theorem State.modLam_writes (s : State) (k : Nat) (f : Lam → Lam) : (s.modLam k f).writes = s.writes := rfl
@[simp] theorem State.modLam_names (s : State) (k : Nat) (f : Lam → Lam) : (s.modLam k f).names = s.names := rfl
@[simp] theorem State.modLam_strongSeq (s : State) (k : Nat) (f : Lam → Lam) : (s.modLam k f).strongSeq = s.strongSeq := rfl
@[simp] theorem State.modLam_ops (s : State) (k : Nat) (f : Lam → Lam) : (s.modLam k f).ops = s.ops := rfl
@[simp] theorem State.modLam_toks (s : State) (k : Nat) (f : Lam → Lam) : (s.modLam k f).toks = s.toks := rfl
@[simp] theorem State.modLam_bars (s : State) (k : Nat) (f : Lam → Lam) : (s.modLam k f).bars = s.bars := rfl
@[simp] theorem State.modLam_sram (s : State) (k : Nat) (f : Lam → Lam) : (s.modLam k f).sram = s.sram := rfl
@[simp] theorem State.modLam_opstore (s : State) (k : Nat) (f : Lam → Lam) : (s.modLam k f).opstore = s.opstore := rfl
@[simp] theorem State.modLam_images (s : State) (k : Nat) (f : Lam → Lam) : (s.modLam k f).images = s.images := rfl
@[simp] theorem State.modLam_launches (s : State) (k : Nat) (f : Lam → Lam) : (s.modLam k f).launches = s.launches := rfl
@[simp] theorem State.modLam_ctxs (s : State) (k : Nat) (f : Lam → Lam) : (s.modLam k f).ctxs = s.ctxs := rfl
@[simp] theorem State.modLam_tenants (s : State) (k : Nat) (f : Lam → Lam) : (s.modLam k f).tenants = s.tenants := rfl
@[simp] theorem State.modLam_reclaims (s : State) (k : Nat) (f : Lam → Lam) : (s.modLam k f).reclaims = s.reclaims := rfl
@[simp] theorem State.modLam_moves (s : State) (k : Nat) (f : Lam → Lam) : (s.modLam k f).moves = s.moves := rfl
@[simp] theorem State.modLam_teams (s : State) (k : Nat) (f : Lam → Lam) : (s.modLam k f).teams = s.teams := rfl
@[simp] theorem State.modLam_snaps (s : State) (k : Nat) (f : Lam → Lam) : (s.modLam k f).snaps = s.snaps := rfl
@[simp] theorem State.modLam_run (s : State) (k : Nat) (f : Lam → Lam) : (s.modLam k f).run = s.run := rfl
@[simp] theorem State.modLam_busy (s : State) (k : Nat) (f : Lam → Lam) : (s.modLam k f).busy = s.busy := rfl
@[simp] theorem State.modLam_drawn (s : State) (k : Nat) (f : Lam → Lam) : (s.modLam k f).drawn = s.drawn := rfl
@[simp] theorem State.modLam_drew (s : State) (k : Nat) (f : Lam → Lam) : (s.modLam k f).drew = s.drew := rfl
@[simp] theorem State.modLam_out (s : State) (k : Nat) (f : Lam → Lam) : (s.modLam k f).out = s.out := rfl
@[simp] theorem State.modLam_agenda (s : State) (k : Nat) (f : Lam → Lam) : (s.modLam k f).agenda = s.agenda := rfl
@[simp] theorem State.modLam_arg (s : State) (k : Nat) (f : Lam → Lam) : (s.modLam k f).arg = s.arg := rfl
@[simp] theorem State.modLam_cur (s : State) (k : Nat) (f : Lam → Lam) : (s.modLam k f).cur = s.cur := rfl
@[simp] theorem State.modLam_before (s : State) (k : Nat) (f : Lam → Lam) : (s.modLam k f).before = s.before := rfl
@[simp] theorem State.modLam_fresh (s : State) (k : Nat) (f : Lam → Lam) : (s.modLam k f).fresh = s.fresh := rfl
@[simp] theorem State.modLam_keys (s : State) (k : Nat) (f : Lam → Lam) : (s.modLam k f).keys = s.keys := rfl

/-! ## modBar -/

@[simp] theorem State.modBar_part (s : State) (k : Nat) (f : Bar → Bar) : (s.modBar k f).part = s.part := rfl
@[simp] theorem State.modBar_now (s : State) (k : Nat) (f : Bar → Bar) : (s.modBar k f).now = s.now := rfl
@[simp] theorem State.modBar_mem (s : State) (k : Nat) (f : Bar → Bar) : (s.modBar k f).mem = s.mem := rfl
@[simp] theorem State.modBar_checks (s : State) (k : Nat) (f : Bar → Bar) : (s.modBar k f).checks = s.checks := rfl
@[simp] theorem State.modBar_badEcc (s : State) (k : Nat) (f : Bar → Bar) : (s.modBar k f).badEcc = s.badEcc := rfl
@[simp] theorem State.modBar_tlb (s : State) (k : Nat) (f : Bar → Bar) : (s.modBar k f).tlb = s.tlb := rfl
@[simp] theorem State.modBar_icache (s : State) (k : Nat) (f : Bar → Bar) : (s.modBar k f).icache = s.icache := rfl
@[simp] theorem State.modBar_lams (s : State) (k : Nat) (f : Bar → Bar) : (s.modBar k f).lams = s.lams := rfl
@[simp] theorem State.modBar_flights (s : State) (k : Nat) (f : Bar → Bar) : (s.modBar k f).flights = s.flights := rfl
@[simp] theorem State.modBar_applied (s : State) (k : Nat) (f : Bar → Bar) : (s.modBar k f).applied = s.applied := rfl
@[simp] theorem State.modBar_external (s : State) (k : Nat) (f : Bar → Bar) : (s.modBar k f).external = s.external := rfl
@[simp] theorem State.modBar_gathered (s : State) (k : Nat) (f : Bar → Bar) : (s.modBar k f).gathered = s.gathered := rfl
@[simp] theorem State.modBar_waiting (s : State) (k : Nat) (f : Bar → Bar) : (s.modBar k f).waiting = s.waiting := rfl
@[simp] theorem State.modBar_held (s : State) (k : Nat) (f : Bar → Bar) : (s.modBar k f).held = s.held := rfl
@[simp] theorem State.modBar_shadows (s : State) (k : Nat) (f : Bar → Bar) : (s.modBar k f).shadows = s.shadows := rfl
@[simp] theorem State.modBar_writes (s : State) (k : Nat) (f : Bar → Bar) : (s.modBar k f).writes = s.writes := rfl
@[simp] theorem State.modBar_names (s : State) (k : Nat) (f : Bar → Bar) : (s.modBar k f).names = s.names := rfl
@[simp] theorem State.modBar_strongSeq (s : State) (k : Nat) (f : Bar → Bar) : (s.modBar k f).strongSeq = s.strongSeq := rfl
@[simp] theorem State.modBar_ops (s : State) (k : Nat) (f : Bar → Bar) : (s.modBar k f).ops = s.ops := rfl
@[simp] theorem State.modBar_toks (s : State) (k : Nat) (f : Bar → Bar) : (s.modBar k f).toks = s.toks := rfl
@[simp] theorem State.modBar_sram (s : State) (k : Nat) (f : Bar → Bar) : (s.modBar k f).sram = s.sram := rfl
@[simp] theorem State.modBar_opstore (s : State) (k : Nat) (f : Bar → Bar) : (s.modBar k f).opstore = s.opstore := rfl
@[simp] theorem State.modBar_images (s : State) (k : Nat) (f : Bar → Bar) : (s.modBar k f).images = s.images := rfl
@[simp] theorem State.modBar_launches (s : State) (k : Nat) (f : Bar → Bar) : (s.modBar k f).launches = s.launches := rfl
@[simp] theorem State.modBar_ctxs (s : State) (k : Nat) (f : Bar → Bar) : (s.modBar k f).ctxs = s.ctxs := rfl
@[simp] theorem State.modBar_tenants (s : State) (k : Nat) (f : Bar → Bar) : (s.modBar k f).tenants = s.tenants := rfl
@[simp] theorem State.modBar_reclaims (s : State) (k : Nat) (f : Bar → Bar) : (s.modBar k f).reclaims = s.reclaims := rfl
@[simp] theorem State.modBar_moves (s : State) (k : Nat) (f : Bar → Bar) : (s.modBar k f).moves = s.moves := rfl
@[simp] theorem State.modBar_teams (s : State) (k : Nat) (f : Bar → Bar) : (s.modBar k f).teams = s.teams := rfl
@[simp] theorem State.modBar_snaps (s : State) (k : Nat) (f : Bar → Bar) : (s.modBar k f).snaps = s.snaps := rfl
@[simp] theorem State.modBar_run (s : State) (k : Nat) (f : Bar → Bar) : (s.modBar k f).run = s.run := rfl
@[simp] theorem State.modBar_busy (s : State) (k : Nat) (f : Bar → Bar) : (s.modBar k f).busy = s.busy := rfl
@[simp] theorem State.modBar_drawn (s : State) (k : Nat) (f : Bar → Bar) : (s.modBar k f).drawn = s.drawn := rfl
@[simp] theorem State.modBar_drew (s : State) (k : Nat) (f : Bar → Bar) : (s.modBar k f).drew = s.drew := rfl
@[simp] theorem State.modBar_out (s : State) (k : Nat) (f : Bar → Bar) : (s.modBar k f).out = s.out := rfl
@[simp] theorem State.modBar_agenda (s : State) (k : Nat) (f : Bar → Bar) : (s.modBar k f).agenda = s.agenda := rfl
@[simp] theorem State.modBar_arg (s : State) (k : Nat) (f : Bar → Bar) : (s.modBar k f).arg = s.arg := rfl
@[simp] theorem State.modBar_cur (s : State) (k : Nat) (f : Bar → Bar) : (s.modBar k f).cur = s.cur := rfl
@[simp] theorem State.modBar_before (s : State) (k : Nat) (f : Bar → Bar) : (s.modBar k f).before = s.before := rfl
@[simp] theorem State.modBar_fresh (s : State) (k : Nat) (f : Bar → Bar) : (s.modBar k f).fresh = s.fresh := rfl
@[simp] theorem State.modBar_keys (s : State) (k : Nat) (f : Bar → Bar) : (s.modBar k f).keys = s.keys := rfl

/-! ## modOp -/

@[simp] theorem State.modOp_part (s : State) (k : Nat) (f : Op → Op) : (s.modOp k f).part = s.part := rfl
@[simp] theorem State.modOp_now (s : State) (k : Nat) (f : Op → Op) : (s.modOp k f).now = s.now := rfl
@[simp] theorem State.modOp_mem (s : State) (k : Nat) (f : Op → Op) : (s.modOp k f).mem = s.mem := rfl
@[simp] theorem State.modOp_checks (s : State) (k : Nat) (f : Op → Op) : (s.modOp k f).checks = s.checks := rfl
@[simp] theorem State.modOp_badEcc (s : State) (k : Nat) (f : Op → Op) : (s.modOp k f).badEcc = s.badEcc := rfl
@[simp] theorem State.modOp_tlb (s : State) (k : Nat) (f : Op → Op) : (s.modOp k f).tlb = s.tlb := rfl
@[simp] theorem State.modOp_icache (s : State) (k : Nat) (f : Op → Op) : (s.modOp k f).icache = s.icache := rfl
@[simp] theorem State.modOp_lams (s : State) (k : Nat) (f : Op → Op) : (s.modOp k f).lams = s.lams := rfl
@[simp] theorem State.modOp_flights (s : State) (k : Nat) (f : Op → Op) : (s.modOp k f).flights = s.flights := rfl
@[simp] theorem State.modOp_applied (s : State) (k : Nat) (f : Op → Op) : (s.modOp k f).applied = s.applied := rfl
@[simp] theorem State.modOp_external (s : State) (k : Nat) (f : Op → Op) : (s.modOp k f).external = s.external := rfl
@[simp] theorem State.modOp_gathered (s : State) (k : Nat) (f : Op → Op) : (s.modOp k f).gathered = s.gathered := rfl
@[simp] theorem State.modOp_waiting (s : State) (k : Nat) (f : Op → Op) : (s.modOp k f).waiting = s.waiting := rfl
@[simp] theorem State.modOp_held (s : State) (k : Nat) (f : Op → Op) : (s.modOp k f).held = s.held := rfl
@[simp] theorem State.modOp_shadows (s : State) (k : Nat) (f : Op → Op) : (s.modOp k f).shadows = s.shadows := rfl
@[simp] theorem State.modOp_writes (s : State) (k : Nat) (f : Op → Op) : (s.modOp k f).writes = s.writes := rfl
@[simp] theorem State.modOp_names (s : State) (k : Nat) (f : Op → Op) : (s.modOp k f).names = s.names := rfl
@[simp] theorem State.modOp_strongSeq (s : State) (k : Nat) (f : Op → Op) : (s.modOp k f).strongSeq = s.strongSeq := rfl
@[simp] theorem State.modOp_toks (s : State) (k : Nat) (f : Op → Op) : (s.modOp k f).toks = s.toks := rfl
@[simp] theorem State.modOp_bars (s : State) (k : Nat) (f : Op → Op) : (s.modOp k f).bars = s.bars := rfl
@[simp] theorem State.modOp_sram (s : State) (k : Nat) (f : Op → Op) : (s.modOp k f).sram = s.sram := rfl
@[simp] theorem State.modOp_opstore (s : State) (k : Nat) (f : Op → Op) : (s.modOp k f).opstore = s.opstore := rfl
@[simp] theorem State.modOp_images (s : State) (k : Nat) (f : Op → Op) : (s.modOp k f).images = s.images := rfl
@[simp] theorem State.modOp_launches (s : State) (k : Nat) (f : Op → Op) : (s.modOp k f).launches = s.launches := rfl
@[simp] theorem State.modOp_ctxs (s : State) (k : Nat) (f : Op → Op) : (s.modOp k f).ctxs = s.ctxs := rfl
@[simp] theorem State.modOp_tenants (s : State) (k : Nat) (f : Op → Op) : (s.modOp k f).tenants = s.tenants := rfl
@[simp] theorem State.modOp_reclaims (s : State) (k : Nat) (f : Op → Op) : (s.modOp k f).reclaims = s.reclaims := rfl
@[simp] theorem State.modOp_moves (s : State) (k : Nat) (f : Op → Op) : (s.modOp k f).moves = s.moves := rfl
@[simp] theorem State.modOp_teams (s : State) (k : Nat) (f : Op → Op) : (s.modOp k f).teams = s.teams := rfl
@[simp] theorem State.modOp_snaps (s : State) (k : Nat) (f : Op → Op) : (s.modOp k f).snaps = s.snaps := rfl
@[simp] theorem State.modOp_run (s : State) (k : Nat) (f : Op → Op) : (s.modOp k f).run = s.run := rfl
@[simp] theorem State.modOp_busy (s : State) (k : Nat) (f : Op → Op) : (s.modOp k f).busy = s.busy := rfl
@[simp] theorem State.modOp_drawn (s : State) (k : Nat) (f : Op → Op) : (s.modOp k f).drawn = s.drawn := rfl
@[simp] theorem State.modOp_drew (s : State) (k : Nat) (f : Op → Op) : (s.modOp k f).drew = s.drew := rfl
@[simp] theorem State.modOp_out (s : State) (k : Nat) (f : Op → Op) : (s.modOp k f).out = s.out := rfl
@[simp] theorem State.modOp_agenda (s : State) (k : Nat) (f : Op → Op) : (s.modOp k f).agenda = s.agenda := rfl
@[simp] theorem State.modOp_arg (s : State) (k : Nat) (f : Op → Op) : (s.modOp k f).arg = s.arg := rfl
@[simp] theorem State.modOp_cur (s : State) (k : Nat) (f : Op → Op) : (s.modOp k f).cur = s.cur := rfl
@[simp] theorem State.modOp_before (s : State) (k : Nat) (f : Op → Op) : (s.modOp k f).before = s.before := rfl
@[simp] theorem State.modOp_fresh (s : State) (k : Nat) (f : Op → Op) : (s.modOp k f).fresh = s.fresh := rfl
@[simp] theorem State.modOp_keys (s : State) (k : Nat) (f : Op → Op) : (s.modOp k f).keys = s.keys := rfl

/-! ## dropOp -/

@[simp] theorem State.dropOp_part (s : State) (k : Nat) : (s.dropOp k).part = s.part := rfl
@[simp] theorem State.dropOp_now (s : State) (k : Nat) : (s.dropOp k).now = s.now := rfl
@[simp] theorem State.dropOp_mem (s : State) (k : Nat) : (s.dropOp k).mem = s.mem := rfl
@[simp] theorem State.dropOp_checks (s : State) (k : Nat) : (s.dropOp k).checks = s.checks := rfl
@[simp] theorem State.dropOp_badEcc (s : State) (k : Nat) : (s.dropOp k).badEcc = s.badEcc := rfl
@[simp] theorem State.dropOp_tlb (s : State) (k : Nat) : (s.dropOp k).tlb = s.tlb := rfl
@[simp] theorem State.dropOp_icache (s : State) (k : Nat) : (s.dropOp k).icache = s.icache := rfl
@[simp] theorem State.dropOp_lams (s : State) (k : Nat) : (s.dropOp k).lams = s.lams := rfl
@[simp] theorem State.dropOp_flights (s : State) (k : Nat) : (s.dropOp k).flights = s.flights := rfl
@[simp] theorem State.dropOp_applied (s : State) (k : Nat) : (s.dropOp k).applied = s.applied := rfl
@[simp] theorem State.dropOp_external (s : State) (k : Nat) : (s.dropOp k).external = s.external := rfl
@[simp] theorem State.dropOp_gathered (s : State) (k : Nat) : (s.dropOp k).gathered = s.gathered := rfl
@[simp] theorem State.dropOp_waiting (s : State) (k : Nat) : (s.dropOp k).waiting = s.waiting := rfl
@[simp] theorem State.dropOp_held (s : State) (k : Nat) : (s.dropOp k).held = s.held := rfl
@[simp] theorem State.dropOp_shadows (s : State) (k : Nat) : (s.dropOp k).shadows = s.shadows := rfl
@[simp] theorem State.dropOp_writes (s : State) (k : Nat) : (s.dropOp k).writes = s.writes := rfl
@[simp] theorem State.dropOp_names (s : State) (k : Nat) : (s.dropOp k).names = s.names := rfl
@[simp] theorem State.dropOp_strongSeq (s : State) (k : Nat) : (s.dropOp k).strongSeq = s.strongSeq := rfl
@[simp] theorem State.dropOp_toks (s : State) (k : Nat) : (s.dropOp k).toks = s.toks := rfl
@[simp] theorem State.dropOp_bars (s : State) (k : Nat) : (s.dropOp k).bars = s.bars := rfl
@[simp] theorem State.dropOp_sram (s : State) (k : Nat) : (s.dropOp k).sram = s.sram := rfl
@[simp] theorem State.dropOp_opstore (s : State) (k : Nat) : (s.dropOp k).opstore = s.opstore := rfl
@[simp] theorem State.dropOp_images (s : State) (k : Nat) : (s.dropOp k).images = s.images := rfl
@[simp] theorem State.dropOp_launches (s : State) (k : Nat) : (s.dropOp k).launches = s.launches := rfl
@[simp] theorem State.dropOp_ctxs (s : State) (k : Nat) : (s.dropOp k).ctxs = s.ctxs := rfl
@[simp] theorem State.dropOp_tenants (s : State) (k : Nat) : (s.dropOp k).tenants = s.tenants := rfl
@[simp] theorem State.dropOp_reclaims (s : State) (k : Nat) : (s.dropOp k).reclaims = s.reclaims := rfl
@[simp] theorem State.dropOp_moves (s : State) (k : Nat) : (s.dropOp k).moves = s.moves := rfl
@[simp] theorem State.dropOp_teams (s : State) (k : Nat) : (s.dropOp k).teams = s.teams := rfl
@[simp] theorem State.dropOp_snaps (s : State) (k : Nat) : (s.dropOp k).snaps = s.snaps := rfl
@[simp] theorem State.dropOp_run (s : State) (k : Nat) : (s.dropOp k).run = s.run := rfl
@[simp] theorem State.dropOp_busy (s : State) (k : Nat) : (s.dropOp k).busy = s.busy := rfl
@[simp] theorem State.dropOp_drawn (s : State) (k : Nat) : (s.dropOp k).drawn = s.drawn := rfl
@[simp] theorem State.dropOp_drew (s : State) (k : Nat) : (s.dropOp k).drew = s.drew := rfl
@[simp] theorem State.dropOp_out (s : State) (k : Nat) : (s.dropOp k).out = s.out := rfl
@[simp] theorem State.dropOp_agenda (s : State) (k : Nat) : (s.dropOp k).agenda = s.agenda := rfl
@[simp] theorem State.dropOp_arg (s : State) (k : Nat) : (s.dropOp k).arg = s.arg := rfl
@[simp] theorem State.dropOp_cur (s : State) (k : Nat) : (s.dropOp k).cur = s.cur := rfl
@[simp] theorem State.dropOp_before (s : State) (k : Nat) : (s.dropOp k).before = s.before := rfl
@[simp] theorem State.dropOp_fresh (s : State) (k : Nat) : (s.dropOp k).fresh = s.fresh := rfl
@[simp] theorem State.dropOp_keys (s : State) (k : Nat) : (s.dropOp k).keys = s.keys := rfl

/-! ## post -/

@[simp] theorem State.post_part (s : State) (i : Instr) (a : List Nat) : (s.post i a).part = s.part := rfl
@[simp] theorem State.post_now (s : State) (i : Instr) (a : List Nat) : (s.post i a).now = s.now := rfl
@[simp] theorem State.post_mem (s : State) (i : Instr) (a : List Nat) : (s.post i a).mem = s.mem := rfl
@[simp] theorem State.post_checks (s : State) (i : Instr) (a : List Nat) : (s.post i a).checks = s.checks := rfl
@[simp] theorem State.post_badEcc (s : State) (i : Instr) (a : List Nat) : (s.post i a).badEcc = s.badEcc := rfl
@[simp] theorem State.post_tlb (s : State) (i : Instr) (a : List Nat) : (s.post i a).tlb = s.tlb := rfl
@[simp] theorem State.post_icache (s : State) (i : Instr) (a : List Nat) : (s.post i a).icache = s.icache := rfl
@[simp] theorem State.post_lams (s : State) (i : Instr) (a : List Nat) : (s.post i a).lams = s.lams := rfl
@[simp] theorem State.post_flights (s : State) (i : Instr) (a : List Nat) : (s.post i a).flights = s.flights := rfl
@[simp] theorem State.post_applied (s : State) (i : Instr) (a : List Nat) : (s.post i a).applied = s.applied := rfl
@[simp] theorem State.post_external (s : State) (i : Instr) (a : List Nat) : (s.post i a).external = s.external := rfl
@[simp] theorem State.post_gathered (s : State) (i : Instr) (a : List Nat) : (s.post i a).gathered = s.gathered := rfl
@[simp] theorem State.post_waiting (s : State) (i : Instr) (a : List Nat) : (s.post i a).waiting = s.waiting := rfl
@[simp] theorem State.post_held (s : State) (i : Instr) (a : List Nat) : (s.post i a).held = s.held := rfl
@[simp] theorem State.post_shadows (s : State) (i : Instr) (a : List Nat) : (s.post i a).shadows = s.shadows := rfl
@[simp] theorem State.post_writes (s : State) (i : Instr) (a : List Nat) : (s.post i a).writes = s.writes := rfl
@[simp] theorem State.post_names (s : State) (i : Instr) (a : List Nat) : (s.post i a).names = s.names := rfl
@[simp] theorem State.post_strongSeq (s : State) (i : Instr) (a : List Nat) : (s.post i a).strongSeq = s.strongSeq := rfl
@[simp] theorem State.post_ops (s : State) (i : Instr) (a : List Nat) : (s.post i a).ops = s.ops := rfl
@[simp] theorem State.post_toks (s : State) (i : Instr) (a : List Nat) : (s.post i a).toks = s.toks := rfl
@[simp] theorem State.post_bars (s : State) (i : Instr) (a : List Nat) : (s.post i a).bars = s.bars := rfl
@[simp] theorem State.post_sram (s : State) (i : Instr) (a : List Nat) : (s.post i a).sram = s.sram := rfl
@[simp] theorem State.post_opstore (s : State) (i : Instr) (a : List Nat) : (s.post i a).opstore = s.opstore := rfl
@[simp] theorem State.post_images (s : State) (i : Instr) (a : List Nat) : (s.post i a).images = s.images := rfl
@[simp] theorem State.post_launches (s : State) (i : Instr) (a : List Nat) : (s.post i a).launches = s.launches := rfl
@[simp] theorem State.post_ctxs (s : State) (i : Instr) (a : List Nat) : (s.post i a).ctxs = s.ctxs := rfl
@[simp] theorem State.post_tenants (s : State) (i : Instr) (a : List Nat) : (s.post i a).tenants = s.tenants := rfl
@[simp] theorem State.post_reclaims (s : State) (i : Instr) (a : List Nat) : (s.post i a).reclaims = s.reclaims := rfl
@[simp] theorem State.post_moves (s : State) (i : Instr) (a : List Nat) : (s.post i a).moves = s.moves := rfl
@[simp] theorem State.post_teams (s : State) (i : Instr) (a : List Nat) : (s.post i a).teams = s.teams := rfl
@[simp] theorem State.post_snaps (s : State) (i : Instr) (a : List Nat) : (s.post i a).snaps = s.snaps := rfl
@[simp] theorem State.post_run (s : State) (i : Instr) (a : List Nat) : (s.post i a).run = s.run := rfl
@[simp] theorem State.post_busy (s : State) (i : Instr) (a : List Nat) : (s.post i a).busy = s.busy := rfl
@[simp] theorem State.post_drawn (s : State) (i : Instr) (a : List Nat) : (s.post i a).drawn = s.drawn := rfl
@[simp] theorem State.post_drew (s : State) (i : Instr) (a : List Nat) : (s.post i a).drew = s.drew := rfl
@[simp] theorem State.post_out (s : State) (i : Instr) (a : List Nat) : (s.post i a).out = s.out := rfl
@[simp] theorem State.post_arg (s : State) (i : Instr) (a : List Nat) : (s.post i a).arg = s.arg := rfl
@[simp] theorem State.post_cur (s : State) (i : Instr) (a : List Nat) : (s.post i a).cur = s.cur := rfl
@[simp] theorem State.post_before (s : State) (i : Instr) (a : List Nat) : (s.post i a).before = s.before := rfl
@[simp] theorem State.post_fresh (s : State) (i : Instr) (a : List Nat) : (s.post i a).fresh = s.fresh := rfl
@[simp] theorem State.post_keys (s : State) (i : Instr) (a : List Nat) : (s.post i a).keys = s.keys := rfl

/-! ## emit -/

@[simp] theorem State.emit_part (s : State) (o : Output) : (s.emit o).part = s.part := rfl
@[simp] theorem State.emit_now (s : State) (o : Output) : (s.emit o).now = s.now := rfl
@[simp] theorem State.emit_mem (s : State) (o : Output) : (s.emit o).mem = s.mem := rfl
@[simp] theorem State.emit_checks (s : State) (o : Output) : (s.emit o).checks = s.checks := rfl
@[simp] theorem State.emit_badEcc (s : State) (o : Output) : (s.emit o).badEcc = s.badEcc := rfl
@[simp] theorem State.emit_tlb (s : State) (o : Output) : (s.emit o).tlb = s.tlb := rfl
@[simp] theorem State.emit_icache (s : State) (o : Output) : (s.emit o).icache = s.icache := rfl
@[simp] theorem State.emit_lams (s : State) (o : Output) : (s.emit o).lams = s.lams := rfl
@[simp] theorem State.emit_flights (s : State) (o : Output) : (s.emit o).flights = s.flights := rfl
@[simp] theorem State.emit_applied (s : State) (o : Output) : (s.emit o).applied = s.applied := rfl
@[simp] theorem State.emit_external (s : State) (o : Output) : (s.emit o).external = s.external := rfl
@[simp] theorem State.emit_gathered (s : State) (o : Output) : (s.emit o).gathered = s.gathered := rfl
@[simp] theorem State.emit_waiting (s : State) (o : Output) : (s.emit o).waiting = s.waiting := rfl
@[simp] theorem State.emit_held (s : State) (o : Output) : (s.emit o).held = s.held := rfl
@[simp] theorem State.emit_shadows (s : State) (o : Output) : (s.emit o).shadows = s.shadows := rfl
@[simp] theorem State.emit_writes (s : State) (o : Output) : (s.emit o).writes = s.writes := rfl
@[simp] theorem State.emit_names (s : State) (o : Output) : (s.emit o).names = s.names := rfl
@[simp] theorem State.emit_strongSeq (s : State) (o : Output) : (s.emit o).strongSeq = s.strongSeq := rfl
@[simp] theorem State.emit_ops (s : State) (o : Output) : (s.emit o).ops = s.ops := rfl
@[simp] theorem State.emit_toks (s : State) (o : Output) : (s.emit o).toks = s.toks := rfl
@[simp] theorem State.emit_bars (s : State) (o : Output) : (s.emit o).bars = s.bars := rfl
@[simp] theorem State.emit_sram (s : State) (o : Output) : (s.emit o).sram = s.sram := rfl
@[simp] theorem State.emit_opstore (s : State) (o : Output) : (s.emit o).opstore = s.opstore := rfl
@[simp] theorem State.emit_images (s : State) (o : Output) : (s.emit o).images = s.images := rfl
@[simp] theorem State.emit_launches (s : State) (o : Output) : (s.emit o).launches = s.launches := rfl
@[simp] theorem State.emit_ctxs (s : State) (o : Output) : (s.emit o).ctxs = s.ctxs := rfl
@[simp] theorem State.emit_tenants (s : State) (o : Output) : (s.emit o).tenants = s.tenants := rfl
@[simp] theorem State.emit_reclaims (s : State) (o : Output) : (s.emit o).reclaims = s.reclaims := rfl
@[simp] theorem State.emit_moves (s : State) (o : Output) : (s.emit o).moves = s.moves := rfl
@[simp] theorem State.emit_teams (s : State) (o : Output) : (s.emit o).teams = s.teams := rfl
@[simp] theorem State.emit_snaps (s : State) (o : Output) : (s.emit o).snaps = s.snaps := rfl
@[simp] theorem State.emit_run (s : State) (o : Output) : (s.emit o).run = s.run := rfl
@[simp] theorem State.emit_busy (s : State) (o : Output) : (s.emit o).busy = s.busy := rfl
@[simp] theorem State.emit_drawn (s : State) (o : Output) : (s.emit o).drawn = s.drawn := rfl
@[simp] theorem State.emit_drew (s : State) (o : Output) : (s.emit o).drew = s.drew := rfl
@[simp] theorem State.emit_agenda (s : State) (o : Output) : (s.emit o).agenda = s.agenda := rfl
@[simp] theorem State.emit_arg (s : State) (o : Output) : (s.emit o).arg = s.arg := rfl
@[simp] theorem State.emit_cur (s : State) (o : Output) : (s.emit o).cur = s.cur := rfl
@[simp] theorem State.emit_before (s : State) (o : Output) : (s.emit o).before = s.before := rfl
@[simp] theorem State.emit_fresh (s : State) (o : Output) : (s.emit o).fresh = s.fresh := rfl
@[simp] theorem State.emit_keys (s : State) (o : Output) : (s.emit o).keys = s.keys := rfl

/-! ## modThread -/

@[simp] theorem State.modThread_part (s : State) (k g l : Nat) (f : Thread → Thread) : (s.modThread k g l f).part = s.part := rfl
@[simp] theorem State.modThread_now (s : State) (k g l : Nat) (f : Thread → Thread) : (s.modThread k g l f).now = s.now := rfl
@[simp] theorem State.modThread_mem (s : State) (k g l : Nat) (f : Thread → Thread) : (s.modThread k g l f).mem = s.mem := rfl
@[simp] theorem State.modThread_checks (s : State) (k g l : Nat) (f : Thread → Thread) : (s.modThread k g l f).checks = s.checks := rfl
@[simp] theorem State.modThread_badEcc (s : State) (k g l : Nat) (f : Thread → Thread) : (s.modThread k g l f).badEcc = s.badEcc := rfl
@[simp] theorem State.modThread_tlb (s : State) (k g l : Nat) (f : Thread → Thread) : (s.modThread k g l f).tlb = s.tlb := rfl
@[simp] theorem State.modThread_icache (s : State) (k g l : Nat) (f : Thread → Thread) : (s.modThread k g l f).icache = s.icache := rfl
@[simp] theorem State.modThread_lams (s : State) (k g l : Nat) (f : Thread → Thread) : (s.modThread k g l f).lams = s.lams := rfl
@[simp] theorem State.modThread_flights (s : State) (k g l : Nat) (f : Thread → Thread) : (s.modThread k g l f).flights = s.flights := rfl
@[simp] theorem State.modThread_applied (s : State) (k g l : Nat) (f : Thread → Thread) : (s.modThread k g l f).applied = s.applied := rfl
@[simp] theorem State.modThread_external (s : State) (k g l : Nat) (f : Thread → Thread) : (s.modThread k g l f).external = s.external := rfl
@[simp] theorem State.modThread_gathered (s : State) (k g l : Nat) (f : Thread → Thread) : (s.modThread k g l f).gathered = s.gathered := rfl
@[simp] theorem State.modThread_waiting (s : State) (k g l : Nat) (f : Thread → Thread) : (s.modThread k g l f).waiting = s.waiting := rfl
@[simp] theorem State.modThread_held (s : State) (k g l : Nat) (f : Thread → Thread) : (s.modThread k g l f).held = s.held := rfl
@[simp] theorem State.modThread_shadows (s : State) (k g l : Nat) (f : Thread → Thread) : (s.modThread k g l f).shadows = s.shadows := rfl
@[simp] theorem State.modThread_writes (s : State) (k g l : Nat) (f : Thread → Thread) : (s.modThread k g l f).writes = s.writes := rfl
@[simp] theorem State.modThread_names (s : State) (k g l : Nat) (f : Thread → Thread) : (s.modThread k g l f).names = s.names := rfl
@[simp] theorem State.modThread_strongSeq (s : State) (k g l : Nat) (f : Thread → Thread) : (s.modThread k g l f).strongSeq = s.strongSeq := rfl
@[simp] theorem State.modThread_ops (s : State) (k g l : Nat) (f : Thread → Thread) : (s.modThread k g l f).ops = s.ops := rfl
@[simp] theorem State.modThread_toks (s : State) (k g l : Nat) (f : Thread → Thread) : (s.modThread k g l f).toks = s.toks := rfl
@[simp] theorem State.modThread_bars (s : State) (k g l : Nat) (f : Thread → Thread) : (s.modThread k g l f).bars = s.bars := rfl
@[simp] theorem State.modThread_sram (s : State) (k g l : Nat) (f : Thread → Thread) : (s.modThread k g l f).sram = s.sram := rfl
@[simp] theorem State.modThread_opstore (s : State) (k g l : Nat) (f : Thread → Thread) : (s.modThread k g l f).opstore = s.opstore := rfl
@[simp] theorem State.modThread_images (s : State) (k g l : Nat) (f : Thread → Thread) : (s.modThread k g l f).images = s.images := rfl
@[simp] theorem State.modThread_launches (s : State) (k g l : Nat) (f : Thread → Thread) : (s.modThread k g l f).launches = s.launches := rfl
@[simp] theorem State.modThread_ctxs (s : State) (k g l : Nat) (f : Thread → Thread) : (s.modThread k g l f).ctxs = s.ctxs := rfl
@[simp] theorem State.modThread_tenants (s : State) (k g l : Nat) (f : Thread → Thread) : (s.modThread k g l f).tenants = s.tenants := rfl
@[simp] theorem State.modThread_reclaims (s : State) (k g l : Nat) (f : Thread → Thread) : (s.modThread k g l f).reclaims = s.reclaims := rfl
@[simp] theorem State.modThread_moves (s : State) (k g l : Nat) (f : Thread → Thread) : (s.modThread k g l f).moves = s.moves := rfl
@[simp] theorem State.modThread_snaps (s : State) (k g l : Nat) (f : Thread → Thread) : (s.modThread k g l f).snaps = s.snaps := rfl
@[simp] theorem State.modThread_run (s : State) (k g l : Nat) (f : Thread → Thread) : (s.modThread k g l f).run = s.run := rfl
@[simp] theorem State.modThread_busy (s : State) (k g l : Nat) (f : Thread → Thread) : (s.modThread k g l f).busy = s.busy := rfl
@[simp] theorem State.modThread_drawn (s : State) (k g l : Nat) (f : Thread → Thread) : (s.modThread k g l f).drawn = s.drawn := rfl
@[simp] theorem State.modThread_drew (s : State) (k g l : Nat) (f : Thread → Thread) : (s.modThread k g l f).drew = s.drew := rfl
@[simp] theorem State.modThread_out (s : State) (k g l : Nat) (f : Thread → Thread) : (s.modThread k g l f).out = s.out := rfl
@[simp] theorem State.modThread_agenda (s : State) (k g l : Nat) (f : Thread → Thread) : (s.modThread k g l f).agenda = s.agenda := rfl
@[simp] theorem State.modThread_arg (s : State) (k g l : Nat) (f : Thread → Thread) : (s.modThread k g l f).arg = s.arg := rfl
@[simp] theorem State.modThread_cur (s : State) (k g l : Nat) (f : Thread → Thread) : (s.modThread k g l f).cur = s.cur := rfl
@[simp] theorem State.modThread_before (s : State) (k g l : Nat) (f : Thread → Thread) : (s.modThread k g l f).before = s.before := rfl
@[simp] theorem State.modThread_fresh (s : State) (k g l : Nat) (f : Thread → Thread) : (s.modThread k g l f).fresh = s.fresh := rfl
@[simp] theorem State.modThread_keys (s : State) (k g l : Nat) (f : Thread → Thread) : (s.modThread k g l f).keys = s.keys := rfl

/-! ## modGroup -/

@[simp] theorem State.modGroup_part (s : State) (k g : Nat) (f : Group → Group) : (s.modGroup k g f).part = s.part := rfl
@[simp] theorem State.modGroup_now (s : State) (k g : Nat) (f : Group → Group) : (s.modGroup k g f).now = s.now := rfl
@[simp] theorem State.modGroup_mem (s : State) (k g : Nat) (f : Group → Group) : (s.modGroup k g f).mem = s.mem := rfl
@[simp] theorem State.modGroup_checks (s : State) (k g : Nat) (f : Group → Group) : (s.modGroup k g f).checks = s.checks := rfl
@[simp] theorem State.modGroup_badEcc (s : State) (k g : Nat) (f : Group → Group) : (s.modGroup k g f).badEcc = s.badEcc := rfl
@[simp] theorem State.modGroup_tlb (s : State) (k g : Nat) (f : Group → Group) : (s.modGroup k g f).tlb = s.tlb := rfl
@[simp] theorem State.modGroup_icache (s : State) (k g : Nat) (f : Group → Group) : (s.modGroup k g f).icache = s.icache := rfl
@[simp] theorem State.modGroup_lams (s : State) (k g : Nat) (f : Group → Group) : (s.modGroup k g f).lams = s.lams := rfl
@[simp] theorem State.modGroup_flights (s : State) (k g : Nat) (f : Group → Group) : (s.modGroup k g f).flights = s.flights := rfl
@[simp] theorem State.modGroup_applied (s : State) (k g : Nat) (f : Group → Group) : (s.modGroup k g f).applied = s.applied := rfl
@[simp] theorem State.modGroup_external (s : State) (k g : Nat) (f : Group → Group) : (s.modGroup k g f).external = s.external := rfl
@[simp] theorem State.modGroup_gathered (s : State) (k g : Nat) (f : Group → Group) : (s.modGroup k g f).gathered = s.gathered := rfl
@[simp] theorem State.modGroup_waiting (s : State) (k g : Nat) (f : Group → Group) : (s.modGroup k g f).waiting = s.waiting := rfl
@[simp] theorem State.modGroup_held (s : State) (k g : Nat) (f : Group → Group) : (s.modGroup k g f).held = s.held := rfl
@[simp] theorem State.modGroup_shadows (s : State) (k g : Nat) (f : Group → Group) : (s.modGroup k g f).shadows = s.shadows := rfl
@[simp] theorem State.modGroup_writes (s : State) (k g : Nat) (f : Group → Group) : (s.modGroup k g f).writes = s.writes := rfl
@[simp] theorem State.modGroup_names (s : State) (k g : Nat) (f : Group → Group) : (s.modGroup k g f).names = s.names := rfl
@[simp] theorem State.modGroup_strongSeq (s : State) (k g : Nat) (f : Group → Group) : (s.modGroup k g f).strongSeq = s.strongSeq := rfl
@[simp] theorem State.modGroup_ops (s : State) (k g : Nat) (f : Group → Group) : (s.modGroup k g f).ops = s.ops := rfl
@[simp] theorem State.modGroup_toks (s : State) (k g : Nat) (f : Group → Group) : (s.modGroup k g f).toks = s.toks := rfl
@[simp] theorem State.modGroup_bars (s : State) (k g : Nat) (f : Group → Group) : (s.modGroup k g f).bars = s.bars := rfl
@[simp] theorem State.modGroup_sram (s : State) (k g : Nat) (f : Group → Group) : (s.modGroup k g f).sram = s.sram := rfl
@[simp] theorem State.modGroup_opstore (s : State) (k g : Nat) (f : Group → Group) : (s.modGroup k g f).opstore = s.opstore := rfl
@[simp] theorem State.modGroup_images (s : State) (k g : Nat) (f : Group → Group) : (s.modGroup k g f).images = s.images := rfl
@[simp] theorem State.modGroup_launches (s : State) (k g : Nat) (f : Group → Group) : (s.modGroup k g f).launches = s.launches := rfl
@[simp] theorem State.modGroup_ctxs (s : State) (k g : Nat) (f : Group → Group) : (s.modGroup k g f).ctxs = s.ctxs := rfl
@[simp] theorem State.modGroup_tenants (s : State) (k g : Nat) (f : Group → Group) : (s.modGroup k g f).tenants = s.tenants := rfl
@[simp] theorem State.modGroup_reclaims (s : State) (k g : Nat) (f : Group → Group) : (s.modGroup k g f).reclaims = s.reclaims := rfl
@[simp] theorem State.modGroup_moves (s : State) (k g : Nat) (f : Group → Group) : (s.modGroup k g f).moves = s.moves := rfl
@[simp] theorem State.modGroup_snaps (s : State) (k g : Nat) (f : Group → Group) : (s.modGroup k g f).snaps = s.snaps := rfl
@[simp] theorem State.modGroup_run (s : State) (k g : Nat) (f : Group → Group) : (s.modGroup k g f).run = s.run := rfl
@[simp] theorem State.modGroup_busy (s : State) (k g : Nat) (f : Group → Group) : (s.modGroup k g f).busy = s.busy := rfl
@[simp] theorem State.modGroup_drawn (s : State) (k g : Nat) (f : Group → Group) : (s.modGroup k g f).drawn = s.drawn := rfl
@[simp] theorem State.modGroup_drew (s : State) (k g : Nat) (f : Group → Group) : (s.modGroup k g f).drew = s.drew := rfl
@[simp] theorem State.modGroup_out (s : State) (k g : Nat) (f : Group → Group) : (s.modGroup k g f).out = s.out := rfl
@[simp] theorem State.modGroup_agenda (s : State) (k g : Nat) (f : Group → Group) : (s.modGroup k g f).agenda = s.agenda := rfl
@[simp] theorem State.modGroup_arg (s : State) (k g : Nat) (f : Group → Group) : (s.modGroup k g f).arg = s.arg := rfl
@[simp] theorem State.modGroup_cur (s : State) (k g : Nat) (f : Group → Group) : (s.modGroup k g f).cur = s.cur := rfl
@[simp] theorem State.modGroup_before (s : State) (k g : Nat) (f : Group → Group) : (s.modGroup k g f).before = s.before := rfl
@[simp] theorem State.modGroup_fresh (s : State) (k g : Nat) (f : Group → Group) : (s.modGroup k g f).fresh = s.fresh := rfl
@[simp] theorem State.modGroup_keys (s : State) (k g : Nat) (f : Group → Group) : (s.modGroup k g f).keys = s.keys := rfl

/-! ## newKey -/

@[simp] theorem State.newKey_fst (s : State) : s.newKey.1 = s.keys := rfl

@[simp] theorem State.newKey_keys (s : State) : s.newKey.2.keys = s.keys + 1 := rfl
@[simp] theorem State.newKey_part (s : State) : s.newKey.2.part = s.part := rfl
@[simp] theorem State.newKey_now (s : State) : s.newKey.2.now = s.now := rfl
@[simp] theorem State.newKey_mem (s : State) : s.newKey.2.mem = s.mem := rfl
@[simp] theorem State.newKey_checks (s : State) : s.newKey.2.checks = s.checks := rfl
@[simp] theorem State.newKey_badEcc (s : State) : s.newKey.2.badEcc = s.badEcc := rfl
@[simp] theorem State.newKey_tlb (s : State) : s.newKey.2.tlb = s.tlb := rfl
@[simp] theorem State.newKey_icache (s : State) : s.newKey.2.icache = s.icache := rfl
@[simp] theorem State.newKey_lams (s : State) : s.newKey.2.lams = s.lams := rfl
@[simp] theorem State.newKey_flights (s : State) : s.newKey.2.flights = s.flights := rfl
@[simp] theorem State.newKey_applied (s : State) : s.newKey.2.applied = s.applied := rfl
@[simp] theorem State.newKey_external (s : State) : s.newKey.2.external = s.external := rfl
@[simp] theorem State.newKey_gathered (s : State) : s.newKey.2.gathered = s.gathered := rfl
@[simp] theorem State.newKey_waiting (s : State) : s.newKey.2.waiting = s.waiting := rfl
@[simp] theorem State.newKey_held (s : State) : s.newKey.2.held = s.held := rfl
@[simp] theorem State.newKey_shadows (s : State) : s.newKey.2.shadows = s.shadows := rfl
@[simp] theorem State.newKey_writes (s : State) : s.newKey.2.writes = s.writes := rfl
@[simp] theorem State.newKey_names (s : State) : s.newKey.2.names = s.names := rfl
@[simp] theorem State.newKey_strongSeq (s : State) : s.newKey.2.strongSeq = s.strongSeq := rfl
@[simp] theorem State.newKey_ops (s : State) : s.newKey.2.ops = s.ops := rfl
@[simp] theorem State.newKey_toks (s : State) : s.newKey.2.toks = s.toks := rfl
@[simp] theorem State.newKey_bars (s : State) : s.newKey.2.bars = s.bars := rfl
@[simp] theorem State.newKey_sram (s : State) : s.newKey.2.sram = s.sram := rfl
@[simp] theorem State.newKey_opstore (s : State) : s.newKey.2.opstore = s.opstore := rfl
@[simp] theorem State.newKey_images (s : State) : s.newKey.2.images = s.images := rfl
@[simp] theorem State.newKey_launches (s : State) : s.newKey.2.launches = s.launches := rfl
@[simp] theorem State.newKey_ctxs (s : State) : s.newKey.2.ctxs = s.ctxs := rfl
@[simp] theorem State.newKey_tenants (s : State) : s.newKey.2.tenants = s.tenants := rfl
@[simp] theorem State.newKey_reclaims (s : State) : s.newKey.2.reclaims = s.reclaims := rfl
@[simp] theorem State.newKey_moves (s : State) : s.newKey.2.moves = s.moves := rfl
@[simp] theorem State.newKey_teams (s : State) : s.newKey.2.teams = s.teams := rfl
@[simp] theorem State.newKey_snaps (s : State) : s.newKey.2.snaps = s.snaps := rfl
@[simp] theorem State.newKey_run (s : State) : s.newKey.2.run = s.run := rfl
@[simp] theorem State.newKey_busy (s : State) : s.newKey.2.busy = s.busy := rfl
@[simp] theorem State.newKey_drawn (s : State) : s.newKey.2.drawn = s.drawn := rfl
@[simp] theorem State.newKey_drew (s : State) : s.newKey.2.drew = s.drew := rfl
@[simp] theorem State.newKey_out (s : State) : s.newKey.2.out = s.out := rfl
@[simp] theorem State.newKey_agenda (s : State) : s.newKey.2.agenda = s.agenda := rfl
@[simp] theorem State.newKey_arg (s : State) : s.newKey.2.arg = s.arg := rfl
@[simp] theorem State.newKey_cur (s : State) : s.newKey.2.cur = s.cur := rfl
@[simp] theorem State.newKey_before (s : State) : s.newKey.2.before = s.before := rfl
@[simp] theorem State.newKey_fresh (s : State) : s.newKey.2.fresh = s.fresh := rfl

end Sys2Proof.Machine
end

