-- ==== Sys2Proof/Laws/Data.lean ====
section
/-! SUPPORT. Laws of sparse values, of bytes by offset, and of finding and changing parts of the state by their keys. -/

namespace Sys2Proof.Machine

/-! ## Sparse values and bytes -/

theorem sget_filter_self {w : Nat} (n : Nat) (l : Sparse w) : sget n (l.filter fun p => p.1 != n) = 0 := by
  induction l with
  | nil => rfl
  | cons p r ih =>
    by_cases h : p.1 = n
    · simpa [h] using ih
    · simp [h, sget, ih]

theorem sget_filter_of_ne {w : Nat} {m n : Nat} (hne : m ≠ n) (l : Sparse w) :
    sget m (l.filter fun p => p.1 != n) = sget m l := by
  induction l with
  | nil => rfl
  | cons p r ih =>
    by_cases h : p.1 = n
    · simp [h, sget, ih, Ne.symm hne]
    · simp [h, sget, ih]

/-- A value reads back as it was put. -/
theorem sget_sput_self {w : Nat} (n : Nat) (x : BitVec w) (l : Sparse w) : sget n (sput n x l) = x := by
  induction l with
  | nil => unfold sput; split <;> simp_all [sget]
  | cons p r ih =>
    unfold sput
    split
    · next h => simp [sget, ih, Nat.ne_of_lt h]
    · split <;> split <;> simp_all [sget, sget_filter_self]

/-- Putting a value leaves the others alone. -/
theorem sget_sput_of_ne {w : Nat} {m n : Nat} (hne : m ≠ n) (x : BitVec w) (l : Sparse w) :
    sget m (sput n x l) = sget m l := by
  induction l with
  | nil => unfold sput; split <;> simp [sget, Ne.symm hne]
  | cons p r ih =>
    unfold sput
    split
    · simp [sget, ih]
    · split <;> split <;> simp_all [sget, sget_filter_of_ne hne, Ne.symm hne]

/-- A byte reads back as it was put. -/
theorem bget_bput_self (n : Nat) (x : Byte) (l : Bytes) : bget n (bput n x l) = some x := by
  induction l with
  | nil => simp [bput, bget]
  | cons p r ih =>
    unfold bput
    split
    · next h => simp [bget, ih, Nat.ne_of_lt h]
    · split <;> simp [bget]

/-- Putting a byte leaves the others alone. -/
theorem bget_bput_of_ne {m n : Nat} (hne : m ≠ n) (x : Byte) (l : Bytes) : bget m (bput n x l) = bget m l := by
  induction l with
  | nil => simp [bput, bget, Ne.symm hne]
  | cons p r ih =>
    unfold bput
    split
    · simp [bget, ih]
    · split <;> simp_all [bget, Ne.symm hne]

/-! ## Lists by key -/

@[simp] theorem updIf_nil {α : Type} (p : α → Bool) (f : α → α) : updIf p f [] = [] := rfl

theorem find?_updIf {α : Type} (p : α → Bool) (f : α → α) (l : List α) (h : ∀ x, p x = true → p (f x) = true) :
    (updIf p f l).find? p = (l.find? p).map f := by
  induction l with
  | nil => rfl
  | cons x r ih =>
    simp only [updIf, List.map_cons] at ih ⊢
    by_cases hx : p x = true
    · simp [hx, h x hx]
    · simp [hx, ih]

theorem find?_updIf_ne {α : Type} (p q : α → Bool) (f : α → α) (l : List α) (h : ∀ x, p x = true → q x = false ∧ q (f x) = false) :
    (updIf p f l).find? q = l.find? q := by
  induction l with
  | nil => rfl
  | cons x r ih =>
    simp only [updIf, List.map_cons] at ih ⊢
    by_cases hx : p x = true
    · simp [hx, h x hx, ih]
    · simp [hx, ih, List.find?_cons]

/-! ## Teams, groups, threads -/

/-- The team changed is the team found. -/
theorem State.team?_modTeam (s : State) (k : Nat) (f : Team → Team) (h : ∀ t, (f t).key = t.key) :
    (s.modTeam k f).team? k = (s.team? k).map f :=
  find?_updIf _ f s.teams fun t ht => by simpa [h t] using ht

/-- The other teams stay. -/
theorem State.team?_modTeam_ne (s : State) {j k : Nat} (f : Team → Team) (hne : j ≠ k) (h : ∀ t, (f t).key = t.key) :
    (s.modTeam k f).team? j = s.team? j :=
  find?_updIf_ne _ _ f s.teams fun t ht => by
    simp only [beq_iff_eq] at ht
    simp [h t, ht, Ne.symm hne]

theorem Team.group?_modGroup (t : Team) (g : Nat) (f : Group → Group) (h : ∀ x, (f x).gid = x.gid) :
    (t.modGroup g f).group? g = (t.group? g).map f :=
  find?_updIf _ f t.groups fun x hx => by simpa [h x] using hx

theorem Team.group?_modGroup_ne (t : Team) {j g : Nat} (f : Group → Group) (hne : j ≠ g) (h : ∀ x, (f x).gid = x.gid) :
    (t.modGroup g f).group? j = t.group? j :=
  find?_updIf_ne _ _ f t.groups fun x hx => by
    simp only [beq_iff_eq] at hx
    simp [h x, hx, Ne.symm hne]

theorem Group.thread?_modThread (g : Group) (l : Nat) (f : Thread → Thread) (h : ∀ x, (f x).lane = x.lane) :
    (g.modThread l f).thread? l = (g.thread? l).map f :=
  find?_updIf _ f g.threads fun x hx => by simpa [h x] using hx

theorem Group.thread?_modThread_ne (g : Group) {j l : Nat} (f : Thread → Thread) (hne : j ≠ l) (h : ∀ x, (f x).lane = x.lane) :
    (g.modThread l f).thread? j = g.thread? j :=
  find?_updIf_ne _ _ f g.threads fun x hx => by
    simp only [beq_iff_eq] at hx
    simp [h x, hx, Ne.symm hne]

theorem Team.thread?_modThread (t : Team) (g l : Nat) (f : Thread → Thread) (h : ∀ x, (f x).lane = x.lane) :
    (t.modThread g l f).thread? g l = (t.thread? g l).map f := by
  unfold Team.thread? Team.modThread
  rw [Team.group?_modGroup _ _ (fun x => x.modThread l f) (fun _ => rfl)]
  cases t.group? g with
  | none => rfl
  | some x => simp [Group.thread?_modThread _ _ _ h]

theorem Team.thread?_modThread_ne (t : Team) {g l g' l' : Nat} (f : Thread → Thread) (hne : (g', l') ≠ (g, l))
    (h : ∀ x, (f x).lane = x.lane) : (t.modThread g l f).thread? g' l' = t.thread? g' l' := by
  unfold Team.thread? Team.modThread
  by_cases hg : g' = g
  · subst hg
    rw [Team.group?_modGroup _ _ (fun x => x.modThread l f) (fun _ => rfl)]
    cases t.group? g' with
    | none => rfl
    | some x =>
      have hl : l' ≠ l := fun e => hne (by rw [e])
      simp [Group.thread?_modThread_ne x f hl h]
  · rw [Team.group?_modGroup_ne _ (fun x => x.modThread l f) hg (fun _ => rfl)]

@[simp] theorem Team.modThread_key (t : Team) (g l : Nat) (f : Thread → Thread) : (t.modThread g l f).key = t.key := rfl

@[simp] theorem Team.modGroup_key (t : Team) (g : Nat) (f : Group → Group) : (t.modGroup g f).key = t.key := rfl

end Sys2Proof.Machine
end

