-- ==== Sys2Proof/Laws/Memory.lean ====
section
/-! SUPPORT. Laws of physical memory: a byte reads back as it was written, a write leaves the others alone, and every
operation keeps the canonical form. -/

namespace Sys2Proof.Machine

theorem memGet_filter_self (a : Nat) (l : List Host.Cell) : memGet a (l.filter fun p => p.1 != a) = 0 := by
  induction l with
  | nil => rfl
  | cons p r ih =>
    by_cases h : p.1 = a
    · simpa [h] using ih
    · simp [h, memGet, ih]

theorem memGet_filter_of_ne {a b : Nat} (hne : b ≠ a) (l : List Host.Cell) :
    memGet b (l.filter fun p => p.1 != a) = memGet b l := by
  induction l with
  | nil => rfl
  | cons p r ih =>
    by_cases h : p.1 = a
    · simp [h, memGet, ih, Ne.symm hne]
    · simp [h, memGet, ih]

/-- A byte reads back as it was written. -/
theorem memGet_memPut_self (a : Nat) (x : Byte) (l : List Host.Cell) : memGet a (memPut a x l) = x := by
  induction l with
  | nil => unfold memPut; split <;> simp_all [memGet]
  | cons p r ih =>
    unfold memPut
    split
    · next h => simp [memGet, ih, Nat.ne_of_lt h]
    · split <;> split <;> simp_all [memGet, memGet_filter_self]

/-- Writing a byte leaves the others alone. -/
theorem memGet_memPut_of_ne {a b : Nat} (hne : b ≠ a) (x : Byte) (l : List Host.Cell) :
    memGet b (memPut a x l) = memGet b l := by
  induction l with
  | nil => unfold memPut; split <;> simp [memGet, Ne.symm hne]
  | cons p r ih =>
    unfold memPut
    split
    · simp [memGet, ih]
    · split <;> split <;> simp_all [memGet, memGet_filter_of_ne hne, Ne.symm hne]

theorem memWfFrom_mono {lo hi : Nat} (h : lo ≤ hi) (l : List Host.Cell) (hl : memWfFrom hi l = true) :
    memWfFrom lo l = true := by
  cases l with
  | nil => rfl
  | cons p r => simp only [memWfFrom, Bool.and_eq_true, decide_eq_true_eq] at hl ⊢; exact ⟨⟨by omega, hl.1.2⟩, hl.2⟩

theorem memWfFrom_filter (f : Host.Cell → Bool) (lo : Nat) (l : List Host.Cell) (hl : memWfFrom lo l = true) :
    memWfFrom lo (l.filter f) = true := by
  induction l generalizing lo with
  | nil => rfl
  | cons p r ih =>
    simp only [memWfFrom, Bool.and_eq_true, decide_eq_true_eq] at hl
    by_cases hp : f p = true
    · simp only [List.filter_cons_of_pos hp, memWfFrom, Bool.and_eq_true, decide_eq_true_eq]
      exact ⟨hl.1, ih _ hl.2⟩
    · rw [List.filter_cons_of_neg hp]
      exact memWfFrom_mono (by omega) _ (ih _ hl.2)

theorem memWfFrom_memPut (lo a : Nat) (x : Byte) (l : List Host.Cell) (ha : lo ≤ a) (hl : memWfFrom lo l = true) :
    memWfFrom lo (memPut a x l) = true := by
  induction l generalizing lo with
  | nil => unfold memPut; split <;> simp_all [memWfFrom]
  | cons p r ih =>
    simp only [memWfFrom, Bool.and_eq_true, decide_eq_true_eq] at hl
    unfold memPut
    split
    · next h =>
      simp only [memWfFrom, Bool.and_eq_true, decide_eq_true_eq]
      exact ⟨hl.1, ih _ h hl.2⟩
    · next h1 =>
      split
      · next h2 =>
        split
        · exact memWfFrom_filter _ _ _ (memWfFrom_mono (by omega) _ hl.2)
        · next h3 => simp only [memWfFrom, Bool.and_eq_true, decide_eq_true_eq]; exact ⟨⟨ha, h3⟩, by rw [← h2]; exact hl.2⟩
      · next h2 =>
        split
        · simp only [memWfFrom, Bool.and_eq_true, decide_eq_true_eq]
          exact ⟨hl.1, memWfFrom_filter _ _ _ hl.2⟩
        · next h3 =>
          simp only [memWfFrom, Bool.and_eq_true, decide_eq_true_eq]
          exact ⟨⟨ha, h3⟩, ⟨by omega, hl.1.2⟩, hl.2⟩

/-- Writing a byte keeps the canonical form. -/
theorem memPut_wf (a : Nat) (x : Byte) (l : List Host.Cell) (hl : Memory.wf l = true) : Memory.wf (memPut a x l) = true :=
  memWfFrom_memPut 0 a x l (Nat.zero_le a) hl

theorem foldl_memPut_wf {α : Type} (xs : List α) (f : α → Nat) (g : α → Byte) (l : List Host.Cell) (hl : Memory.wf l = true) :
    Memory.wf (xs.foldl (fun m x => memPut (f x) (g x) m) l) = true := by
  induction xs generalizing l with
  | nil => exact hl
  | cons x r ih => exact ih _ (memPut_wf _ _ _ hl)

/-- Writing bytes keeps the canonical form. -/
theorem memWrite_wf (a : Nat) (bs : List Byte) (l : List Host.Cell) (hl : Memory.wf l = true) :
    Memory.wf (memWrite a bs l) = true :=
  foldl_memPut_wf _ _ _ _ hl

/-- The memory after reset has the canonical form. -/
theorem reset_mem_wf : Memory.wf State.reset.mem = true := rfl

end Sys2Proof.Machine
end

