-- ==== Sys2Proof/Laws/Form.lean ====
section
/-! SUPPORT. Operations that write physical memory outside chunks keep its canonical form: bytes, queue indices, leaf entries, page moves and
trap-queue records. -/

namespace Sys2Proof.Machine

/-- The memory of a state has the canonical form. -/
abbrev State.Formed (s : State) : Prop := Memory.wf s.mem = true

theorem State.Formed.of_mem {s s' : State} (h : s.Formed) (e : s'.mem = s.mem) : s'.Formed := by rw [Formed, e]; exact h

theorem State.Formed.foldl {α : Type} {f : State → α → State} (hf : ∀ s a, s.Formed → (f s a).Formed) (l : List α) {s : State}
    (h : s.Formed) : (l.foldl f s).Formed := by
  induction l generalizing s with
  | nil => exact h
  | cons a r ih => exact ih (hf s a h)

theorem State.ite_formed {p : Prop} {_ : Decidable p} {a b : State} (ha : a.Formed) (hb : b.Formed) : (if p then a else b).Formed := by
  split <;> assumption

theorem State.noteName_mem (s : State) (g pa : Nat) : (s.noteName g pa).mem = s.mem := by
  unfold State.noteName; simp only; split <;> rfl

theorem State.castShadow_mem (s : State) (core g pa : Nat) : (s.castShadow core g pa).mem = s.mem := by
  unfold State.castShadow; simp only; split <;> rfl

theorem State.dropCopies_mem (s : State) (core g pa : Nat) : (s.dropCopies core g pa).mem = s.mem := rfl

theorem State.Formed.enterByte {s : State} (h : s.Formed) (pa : Nat) (b : Byte) (gs : List Nat) : (s.enterByte pa b gs).Formed :=
  memPut_wf _ _ _ h

/-- A write outside chunks puts one byte into memory, or waits. -/
theorem State.Formed.outsideWrite {s : State} (h : s.Formed) (pa : Nat) (b : Byte) (gs : List Nat) :
    (s.outsideWrite pa b gs).Formed := by
  unfold State.outsideWrite
  split
  · exact h
  · exact h.enterByte _ _ _

theorem State.Formed.externalByte {s : State} (h : s.Formed) (core pa : Nat) (b : Byte) (g : Nat) :
    (s.externalByte core pa b g).Formed :=
  Formed.outsideWrite (h.of_mem (by rw [dropCopies_mem, castShadow_mem, noteName_mem])) _ _ _

theorem State.Formed.physByte {s : State} (h : s.Formed) (pa : Nat) (b : Byte) : (s.physByte pa b).Formed :=
  Formed.outsideWrite (h.of_mem (s' := { s with
    shadows := s.shadows.filter fun x => x.pa != pa, writes := s.writes.filter fun x => x.pa != pa }) rfl) _ _ _

theorem State.Formed.physBytes {s : State} (h : s.Formed) (pa : Nat) (bs : List Byte) : (s.physBytes pa bs).Formed :=
  foldl (fun _ _ hs => hs.physByte _ _) _ h

theorem State.Formed.putIndices {s : State} (h : s.Formed) (c : Context) (q : Queue) : (s.putIndices c q).Formed :=
  memWrite_wf _ _ _ h

theorem State.Formed.putLeaf {s : State} (h : s.Formed) (a e : Nat) : (s.putLeaf a e).Formed := memWrite_wf _ _ _ h

theorem State.Formed.moveHome {s : State} (h : s.Formed) (m : Move) (d a e : Nat) : (s.moveHome m d a e).Formed := by
  unfold State.moveHome
  refine State.Formed.putLeaf ?_ _ _
  have hm : Memory.wf (s.mem.filter fun c => !(d ≤ c.1 && c.1 < d + pageSize m.level)) = true := memWfFrom_filter _ 0 s.mem h
  exact foldl_memPut_wf _ (fun c : Host.Cell => movedPa (leafPa e) d (pageSize m.level) c.1) (fun c => c.2) _ hm

/-- A commit that every die has applied enters memory byte by byte. -/
theorem State.Formed.land {s : State} (h : s.Formed) (f : Flight) : (s.land f).Formed := by
  have hm : Memory.wf (f.lines.foldl (fun m x => memPut x.pa x.byte m) s.mem) = true :=
    foldl_memPut_wf f.lines (fun x : Line => x.pa) (fun x => x.byte) s.mem h
  unfold State.land State.healWritten
  simp only
  split
  · exact hm
  · refine State.Formed.foldl (fun s a hs => ?_) _ hm
    split
    · exact hs
    · exact hs

theorem State.Formed.modCtx {s : State} (h : s.Formed) (c : Nat) (f : Context → Context) : (s.modCtx c f).Formed := h.of_mem (modCtx_mem s c f)

theorem State.Formed.modTeam {s : State} (h : s.Formed) (k : Nat) (f : Team → Team) : (s.modTeam k f).Formed := h.of_mem (modTeam_mem s k f)

theorem State.Formed.modLam {s : State} (h : s.Formed) (k : Nat) (f : Lam → Lam) : (s.modLam k f).Formed := h.of_mem (modLam_mem s k f)

theorem State.Formed.newKey {s : State} (h : s.Formed) : s.newKey.2.Formed := h.of_mem (newKey_mem s)

theorem State.Formed.storeRecord {s : State} (h : s.Formed) (c : Context) (r : Record) : (s.storeRecord c r).Formed := by
  have hm := memWrite_wf (c.tqbase + 64 * (c.tqwrite.toNat % 2 ^ c.tqlog2)) (r.bytes c.num) s.mem h
  generalize hb : r.bytes c.num = bs at hm
  simp only [State.Formed, State.storeRecord, modCtx_mem, hb]
  exact hm

theorem State.Formed.raise {s : State} (h : s.Formed) (c v : Nat) : (s.raise c v).Formed := by
  unfold State.raise
  split
  · exact h
  · exact (h.modCtx _ _).of_mem (emit_mem _ _)

theorem State.Formed.faultContext {s : State} (h : s.Formed) (c : Nat) : (s.faultContext c).Formed := by
  unfold State.faultContext
  exact h.of_mem (modCtx_mem _ _ _)

theorem State.Formed.noteRecord {s : State} (h : s.Formed) (cn : Nat) (r : Record) (b : Option Blocked) :
    (s.noteRecord cn r b).2.Formed := by
  unfold State.noteRecord
  split
  · exact h
  · exact h.newKey.modCtx _ _

theorem State.Formed.putRecords {s : State} (h : s.Formed) (cn : Nat) (rs : List (Record × Option Blocked)) :
    (s.putRecords cn rs).Formed := by
  have hf : ∀ (l : List (Record × Option Blocked)) (a : List (Record × Option Nat) × State), a.2.Formed →
      (l.foldl (fun (a : List (Record × Option Nat) × State) p =>
        ((a.1 ++ [(a.2.noteRecord cn p.1 p.2).1]), (a.2.noteRecord cn p.1 p.2).2)) a).2.Formed := by
    intro l
    induction l with
    | nil => exact fun _ ha => ha
    | cons p l ih => exact fun a ha => ih _ (ha.noteRecord cn p.1 p.2)
  unfold State.putRecords
  split
  · exact h
  · split
    · exact h
    · have hs := hf rs ([], s) h
      exact State.ite_formed ((State.Formed.modCtx hs _ _).faultContext _) (State.Formed.modCtx hs _ _)

theorem State.Formed.putRecord {s : State} (h : s.Formed) (cn : Nat) (r : Record) (p : Option PendRec) :
    (s.putRecord cn r p).Formed := by
  unfold State.putRecord
  split
  · exact h
  · split
    · split
      · exact h.storeRecord _ _
      · exact h.modCtx _ _
    · split
      · split
        · exact h
        · exact State.Formed.modCtx (State.ite_formed (h.storeRecord _ _) h) _ _
      · split
        · exact h.storeRecord _ _
        · exact h.modCtx _ _

theorem State.Formed.writeEvent {s : State} (h : s.Formed) (cn : Nat) (ps : List PendRec) (e : List (Record × Option Nat)) :
    (s.writeEvent cn ps e).Formed := by
  have hf : ∀ l : List (Record × Option Nat),
      (l.foldl (fun s x => s.putRecord cn x.1 (x.2.bind fun k => ps.find? fun p => p.key == k)) s).Formed :=
    fun l => foldl (fun _ _ hs => hs.putRecord _ _ _) l h
  unfold State.writeEvent
  split
  · exact h
  · exact State.ite_formed ((hf _).raise _ _) (hf _)

theorem State.Formed.writeRaised {s : State} (h : s.Formed) (cn : Nat) : (s.writeRaised cn).Formed := by
  have hf : ∀ (ps : List PendRec) (es : List (List (Record × Option Nat))) (s : State), s.Formed →
      (es.foldl (fun s e => s.writeEvent cn ps e) s).Formed :=
    fun ps es s hs => foldl (fun _ e hs => State.Formed.writeEvent hs cn ps e) es hs
  unfold State.writeRaised
  split
  · exact h
  · split
    · exact h
    · exact State.ite_formed (State.Formed.raise (hf _ _ _ (h.modCtx _ _)) _ _) (hf _ _ _ (h.modCtx _ _))

theorem State.Formed.writeHeld {s : State} (h : s.Formed) (cn n : Nat) : (s.writeHeld cn n).Formed := by
  induction n generalizing s with
  | zero => exact h
  | succ n ih =>
    unfold State.writeHeld
    split
    · exact h
    · split
      · exact h
      · split
        · exact ih ((h.storeRecord _ _).modCtx _ _)
        · exact h

end Sys2Proof.Machine
end

