-- ==== Sys2Proof/Laws/Order.lean ====
section
/-! SUPPORT. What holds back or disturbs no access: no moves, no chain writes, no flights, a context that is not deterministic. -/

namespace Sys2Proof.Machine

@[simp] theorem State.privMoves_nil {s : State} (h : s.moves = []) (t : Team) (x : Thread) (w : Bool) (p n : Nat) :
    s.privMoves t x w p n = false := by simp [State.privMoves, h]

@[simp] theorem State.stackMoves_nil {s : State} (h : s.moves = []) (t : Team) (ms : List (Nat × Nat)) (push : Bool) :
    s.stackMoves t ms push = false := by simp [State.stackMoves, h]

@[simp] theorem State.moveWaits_nil {s : State} (h : s.moves = []) (t : Team) (w : Bool) (vas : List Nat) :
    s.moveWaits t w vas = false := by simp [State.moveWaits, h]

theorem State.entryWaits_nil {s : State} (h : s.moves = []) (t : Team) (g l : Nat) : s.entryWaits t g l = t.threadEmpty g l := by
  cases hx : t.thread? g l <;> simp [State.entryWaits, hx, h]

/-- Where no chain has written, no place is left undefined by one (R230). -/
theorem State.chainHits_of_noChainWrites {s : State} (h : NoChainWrites s) (lay : Option Nat) (x : Loc) : s.chainHits lay x = false := by
  simp only [State.chainHits, State.copyHits, Bool.or_eq_false_iff, List.any_eq_false]
  refine ⟨fun t ht => by simp [(h t ht).1], fun t ht => ?_⟩
  simp only [List.any_eq_true, not_exists, not_and]
  intro c hc
  simp [(h t ht).2 c hc]

/-- With no commit on its way an agent outside the cores finds memory's byte (R215). -/
theorem State.outerByte_of_flights {s : State} (h : s.flights = []) (pa : Nat) : s.outerByte pa = memGet pa s.mem := by
  simp [State.outerByte, State.strongByte, h]

/-- Outside deterministic contexts no access is ordered by the bakery (R366). -/
theorem State.dsAccess_of_isDet {s : State} {t : Team} (h : s.isDet t = false) (l : LaneAcc) : s.dsAccess t l = false := by
  simp [State.dsAccess, h]

theorem State.dsWaits_of_isDet {s : State} {t : Team} (h : s.isDet t = false) (a r : Bool) (ls : List LaneAcc) :
    s.dsWaits t a r ls = false := by simp [State.dsWaits, State.dsAccess, h]

theorem State.dsDone_of_isDet {s : State} {t : Team} (h : s.isDet t = false) (ls : List LaneAcc) : s.dsDone t ls = [] := by
  simp [State.dsDone, State.dsAccess, h]

theorem State.dsDoneFault_of_isDet {s : State} {t : Team} (h : s.isDet t = false) (f : Nat × Nat × Nat × AFault) :
    s.dsDoneFault t f = false := by simp [State.dsDoneFault, h]

/-- Two lists of packets with the same packets are the same but for times. -/
theorem SamePackets.refl (ps : List Packet) : SamePackets ps ps := rfl

end Sys2Proof.Machine
end

