-- ==== Sys2Proof/Laws/PerInstr.lean ====
section
/-! SUPPORT. Statements made for every constructor of `Instr`: the C bit of a word is bit 31 and nothing else (R32). -/

namespace Sys2Proof.Laws.Framing

/-- The encodings of an instruction with and without its C bit differ by bit 31 alone, and there is one exactly where there is the
other. -/
def Statement (i : Instr) : Prop := encode true i = (encode false i).map fun w => w + 0x80000000#32

theorem of_encode (i : Instr) : Statement i := by
  unfold Statement encode
  cases encodeBody i with
  | none => rfl
  | some n => exact congrArg some (BitVec.ofNat_add n (2 ^ 31))

theorem nop : Statement (.nop) := of_encode _
theorem iadd (d a b : BitVec 7) : Statement (.iadd d a b) := of_encode _
theorem isub (d a b : BitVec 7) : Statement (.isub d a b) := of_encode _
theorem imul (d a b : BitVec 7) : Statement (.imul d a b) := of_encode _
theorem imulhI32 (d a b : BitVec 7) : Statement (.imulhI32 d a b) := of_encode _
theorem imulhN32 (d a b : BitVec 7) : Statement (.imulhN32 d a b) := of_encode _
theorem and (d a b : BitVec 7) : Statement (.and d a b) := of_encode _
theorem or (d a b : BitVec 7) : Statement (.or d a b) := of_encode _
theorem xor (d a b : BitVec 7) : Statement (.xor d a b) := of_encode _
theorem shl (d a b : BitVec 7) : Statement (.shl d a b) := of_encode _
theorem shr (d a b : BitVec 7) : Statement (.shr d a b) := of_encode _
theorem sar (d a b : BitVec 7) : Statement (.sar d a b) := of_encode _
theorem iminI32 (d a b : BitVec 7) : Statement (.iminI32 d a b) := of_encode _
theorem imaxI32 (d a b : BitVec 7) : Statement (.imaxI32 d a b) := of_encode _
theorem iminN32 (d a b : BitVec 7) : Statement (.iminN32 d a b) := of_encode _
theorem imaxN32 (d a b : BitVec 7) : Statement (.imaxN32 d a b) := of_encode _
theorem iaddsI32 (d a b : BitVec 7) : Statement (.iaddsI32 d a b) := of_encode _
theorem iaddVs (d a : BitVec 7) (s : BitVec 6) : Statement (.iaddVs d a s) := of_encode _
theorem isubVs (d a : BitVec 7) (s : BitVec 6) : Statement (.isubVs d a s) := of_encode _
theorem imulVs (d a : BitVec 7) (s : BitVec 6) : Statement (.imulVs d a s) := of_encode _
theorem imulhI32Vs (d a : BitVec 7) (s : BitVec 6) : Statement (.imulhI32Vs d a s) := of_encode _
theorem imulhN32Vs (d a : BitVec 7) (s : BitVec 6) : Statement (.imulhN32Vs d a s) := of_encode _
theorem andVs (d a : BitVec 7) (s : BitVec 6) : Statement (.andVs d a s) := of_encode _
theorem orVs (d a : BitVec 7) (s : BitVec 6) : Statement (.orVs d a s) := of_encode _
theorem xorVs (d a : BitVec 7) (s : BitVec 6) : Statement (.xorVs d a s) := of_encode _
theorem shlVs (d a : BitVec 7) (s : BitVec 6) : Statement (.shlVs d a s) := of_encode _
theorem shrVs (d a : BitVec 7) (s : BitVec 6) : Statement (.shrVs d a s) := of_encode _
theorem sarVs (d a : BitVec 7) (s : BitVec 6) : Statement (.sarVs d a s) := of_encode _
theorem iminI32Vs (d a : BitVec 7) (s : BitVec 6) : Statement (.iminI32Vs d a s) := of_encode _
theorem imaxI32Vs (d a : BitVec 7) (s : BitVec 6) : Statement (.imaxI32Vs d a s) := of_encode _
theorem iminN32Vs (d a : BitVec 7) (s : BitVec 6) : Statement (.iminN32Vs d a s) := of_encode _
theorem imaxN32Vs (d a : BitVec 7) (s : BitVec 6) : Statement (.imaxN32Vs d a s) := of_encode _
theorem iaddsI32Vs (d a : BitVec 7) (s : BitVec 6) : Statement (.iaddsI32Vs d a s) := of_encode _
theorem movs (d : BitVec 7) (s : BitVec 6) : Statement (.movs d s) := of_encode _
theorem imacs (d a : BitVec 7) (s : BitVec 6) : Statement (.imacs d a s) := of_encode _
theorem iaddi (d a : BitVec 7) (i : BitVec 8) : Statement (.iaddi d a i) := of_encode _
theorem andi (d a : BitVec 7) (i : BitVec 8) : Statement (.andi d a i) := of_encode _
theorem ori (d a : BitVec 7) (i : BitVec 8) : Statement (.ori d a i) := of_encode _
theorem xori (d a : BitVec 7) (i : BitVec 8) : Statement (.xori d a i) := of_encode _
theorem shli (d a : BitVec 7) (i : BitVec 5) : Statement (.shli d a i) := of_encode _
theorem shri (d a : BitVec 7) (i : BitVec 5) : Statement (.shri d a i) := of_encode _
theorem sari (d a : BitVec 7) (i : BitVec 5) : Statement (.sari d a i) := of_encode _
theorem movi (d : BitVec 7) (i : BitVec 8) : Statement (.movi d i) := of_encode _
theorem setp (p : BitVec 3) (t : BitVec 4) (a b : BitVec 7) (k : BitVec 4) : Statement (.setp p t a b k) := of_encode _
theorem pand (d a b : BitVec 3) (x y : BitVec 1) : Statement (.pand d a b x y) := of_encode _
theorem por (d a b : BitVec 3) (x y : BitVec 1) : Statement (.por d a b x y) := of_encode _
theorem pxor (d a b : BitVec 3) (x y : BitVec 1) : Statement (.pxor d a b x y) := of_encode _
theorem pmov (d a : BitVec 3) (x : BitVec 1) : Statement (.pmov d a x) := of_encode _
theorem pfromm (d : BitVec 3) (m : BitVec 4) : Statement (.pfromm d m) := of_encode _
theorem sel (d a b : BitVec 7) (n : BitVec 1) (p : BitVec 3) : Statement (.sel d a b n p) := of_encode _
theorem fadd (d a b : BitVec 7) : Statement (.fadd d a b) := of_encode _
theorem fsub (d a b : BitVec 7) : Statement (.fsub d a b) := of_encode _
theorem fmul (d a b : BitVec 7) : Statement (.fmul d a b) := of_encode _
theorem fmin (d a b : BitVec 7) : Statement (.fmin d a b) := of_encode _
theorem fmax (d a b : BitVec 7) : Statement (.fmax d a b) := of_encode _
theorem ffma (d a b : BitVec 7) : Statement (.ffma d a b) := of_encode _
theorem hadd2 (d a b : BitVec 7) : Statement (.hadd2 d a b) := of_encode _
theorem hmul2 (d a b : BitVec 7) : Statement (.hmul2 d a b) := of_encode _
theorem hfma2 (d a b : BitVec 7) : Statement (.hfma2 d a b) := of_encode _
theorem badd2 (d a b : BitVec 7) : Statement (.badd2 d a b) := of_encode _
theorem bmul2 (d a b : BitVec 7) : Statement (.bmul2 d a b) := of_encode _
theorem bfma2 (d a b : BitVec 7) : Statement (.bfma2 d a b) := of_encode _
theorem hmin2 (d a b : BitVec 7) : Statement (.hmin2 d a b) := of_encode _
theorem hmax2 (d a b : BitVec 7) : Statement (.hmax2 d a b) := of_encode _
theorem fadds (d a : BitVec 7) (s : BitVec 6) : Statement (.fadds d a s) := of_encode _
theorem fsubs (d a : BitVec 7) (s : BitVec 6) : Statement (.fsubs d a s) := of_encode _
theorem fmuls (d a : BitVec 7) (s : BitVec 6) : Statement (.fmuls d a s) := of_encode _
theorem ffmas (d a : BitVec 7) (s : BitVec 6) : Statement (.ffmas d a s) := of_encode _
theorem fmins (d a : BitVec 7) (s : BitVec 6) : Statement (.fmins d a s) := of_encode _
theorem fmaxs (d a : BitVec 7) (s : BitVec 6) : Statement (.fmaxs d a s) := of_encode _
theorem hfma2s (d a : BitVec 7) (s : BitVec 6) : Statement (.hfma2s d a s) := of_encode _
theorem bfma2s (d a : BitVec 7) (s : BitVec 6) : Statement (.bfma2s d a s) := of_encode _
theorem cvtF32I32 (d a : BitVec 7) (r : BitVec 2) : Statement (.cvtF32I32 d a r) := of_encode _
theorem cvtF32N32 (d a : BitVec 7) (r : BitVec 2) : Statement (.cvtF32N32 d a r) := of_encode _
theorem cvtI32F32 (d a : BitVec 7) (r : BitVec 2) (s : BitVec 1) : Statement (.cvtI32F32 d a r s) := of_encode _
theorem cvtN32F32 (d a : BitVec 7) (r : BitVec 2) (s : BitVec 1) : Statement (.cvtN32F32 d a r s) := of_encode _
theorem cvtF16F32 (d a : BitVec 7) (r : BitVec 2) (s : BitVec 1) : Statement (.cvtF16F32 d a r s) := of_encode _
theorem cvtF32F16 (d a : BitVec 7) : Statement (.cvtF32F16 d a) := of_encode _
theorem cvtBf16F32 (d a : BitVec 7) (r : BitVec 2) (s : BitVec 1) : Statement (.cvtBf16F32 d a r s) := of_encode _
theorem cvtF32Bf16 (d a : BitVec 7) : Statement (.cvtF32Bf16 d a) := of_encode _
theorem cvtDm8F32 (d a : BitVec 7) (s : BitVec 1) : Statement (.cvtDm8F32 d a s) := of_encode _
theorem cvtF32Dm8 (d a : BitVec 7) (r : BitVec 2) : Statement (.cvtF32Dm8 d a r) := of_encode _
theorem cvtE4m3F32 (d a : BitVec 7) (r : BitVec 2) (s : BitVec 1) : Statement (.cvtE4m3F32 d a r s) := of_encode _
theorem cvtF32E4m3 (d a : BitVec 7) : Statement (.cvtF32E4m3 d a) := of_encode _
theorem cvtE5m2F32 (d a : BitVec 7) (r : BitVec 2) (s : BitVec 1) : Statement (.cvtE5m2F32 d a r s) := of_encode _
theorem cvtF32E5m2 (d a : BitVec 7) : Statement (.cvtF32E5m2 d a) := of_encode _
theorem fabs (d a : BitVec 7) : Statement (.fabs d a) := of_encode _
theorem fneg (d a : BitVec 7) : Statement (.fneg d a) := of_encode _
theorem popc (d a : BitVec 7) : Statement (.popc d a) := of_encode _
theorem clz (d a : BitVec 7) : Statement (.clz d a) := of_encode _
theorem brev (d a : BitVec 7) : Statement (.brev d a) := of_encode _
theorem sx8 (d a : BitVec 7) : Statement (.sx8 d a) := of_encode _
theorem sx16 (d a : BitVec 7) : Statement (.sx16 d a) := of_encode _
theorem zx8 (d a : BitVec 7) : Statement (.zx8 d a) := of_encode _
theorem zx16 (d a : BitVec 7) : Statement (.zx16 d a) := of_encode _
theorem rcp (d a : BitVec 7) : Statement (.rcp d a) := of_encode _
theorem rsq (d a : BitVec 7) : Statement (.rsq d a) := of_encode _
theorem sqrt (d a : BitVec 7) : Statement (.sqrt d a) := of_encode _
theorem exp2 (d a : BitVec 7) : Statement (.exp2 d a) := of_encode _
theorem log2 (d a : BitVec 7) : Statement (.log2 d a) := of_encode _
theorem sinrv (d a : BitVec 7) : Statement (.sinrv d a) := of_encode _
theorem cosrv (d a : BitVec 7) : Statement (.cosrv d a) := of_encode _
theorem tanh (d a : BitVec 7) : Statement (.tanh d a) := of_encode _
theorem mov (d a : BitVec 7) : Statement (.mov d a) := of_encode _
theorem rfal (a : BitVec 7) (k : BitVec 6) : Statement (.rfal a k) := of_encode _
theorem rlane (l : BitVec 6) (a : BitVec 7) (k : BitVec 6) : Statement (.rlane l a k) := of_encode _
theorem laneid (d : BitVec 7) : Statement (.laneid d) := of_encode _
theorem tid (d : BitVec 7) : Statement (.tid d) := of_encode _
theorem rdtsr (d : BitVec 7) (k : BitVec 6) : Statement (.rdtsr d k) := of_encode _
theorem wrtsr (a : BitVec 7) (k : BitVec 6) : Statement (.wrtsr a k) := of_encode _
theorem shfl (d a b : BitVec 7) : Statement (.shfl d a b) := of_encode _
theorem shflup (d a b : BitVec 7) : Statement (.shflup d a b) := of_encode _
theorem shfldn (d a b : BitVec 7) : Statement (.shfldn d a b) := of_encode _
theorem shflx (d a b : BitVec 7) : Statement (.shflx d a b) := of_encode _
theorem vany (p q : BitVec 3) : Statement (.vany p q) := of_encode _
theorem vall (p q : BitVec 3) : Statement (.vall p q) := of_encode _
theorem ballot (s : BitVec 6) (q : BitVec 3) : Statement (.ballot s q) := of_encode _
theorem redaddI32 (d a : BitVec 7) : Statement (.redaddI32 d a) := of_encode _
theorem redaddF32 (d a : BitVec 7) : Statement (.redaddF32 d a) := of_encode _
theorem redmaxF32 (d a : BitVec 7) : Statement (.redmaxF32 d a) := of_encode _
theorem redminF32 (d a : BitVec 7) : Statement (.redminF32 d a) := of_encode _
theorem scanaddI32 (d a : BitVec 7) : Statement (.scanaddI32 d a) := of_encode _
theorem scanaddF32 (d a : BitVec 7) : Statement (.scanaddF32 d a) := of_encode _
theorem rread (d a b : BitVec 7) : Statement (.rread d a b) := of_encode _
theorem rwrite (d a b : BitVec 7) : Statement (.rwrite d a b) := of_encode _
theorem rand (d a : BitVec 7) (s : BitVec 5) : Statement (.rand d a s) := of_encode _
theorem randf (d a : BitVec 7) (s : BitVec 5) : Statement (.randf d a s) := of_encode _
theorem rand4 (d : BitVec 5) (a : BitVec 7) (s : BitVec 5) : Statement (.rand4 d a s) := of_encode _
theorem sadd (d a b : BitVec 6) : Statement (.sadd d a b) := of_encode _
theorem ssub (d a b : BitVec 6) : Statement (.ssub d a b) := of_encode _
theorem smul (d a b : BitVec 6) : Statement (.smul d a b) := of_encode _
theorem smulhI32 (d a b : BitVec 6) : Statement (.smulhI32 d a b) := of_encode _
theorem smulhN32 (d a b : BitVec 6) : Statement (.smulhN32 d a b) := of_encode _
theorem sand (d a b : BitVec 6) : Statement (.sand d a b) := of_encode _
theorem sor (d a b : BitVec 6) : Statement (.sor d a b) := of_encode _
theorem sxor (d a b : BitVec 6) : Statement (.sxor d a b) := of_encode _
theorem sshl (d a b : BitVec 6) : Statement (.sshl d a b) := of_encode _
theorem sshr (d a b : BitVec 6) : Statement (.sshr d a b) := of_encode _
theorem ssar (d a b : BitVec 6) : Statement (.ssar d a b) := of_encode _
theorem sminI32 (d a b : BitVec 6) : Statement (.sminI32 d a b) := of_encode _
theorem smaxI32 (d a b : BitVec 6) : Statement (.smaxI32 d a b) := of_encode _
theorem sminN32 (d a b : BitVec 6) : Statement (.sminN32 d a b) := of_encode _
theorem smaxN32 (d a b : BitVec 6) : Statement (.smaxN32 d a b) := of_encode _
theorem smov (d a : BitVec 6) : Statement (.smov d a) := of_encode _
theorem sadd64 (d a b : BitVec 5) : Statement (.sadd64 d a b) := of_encode _
theorem ssub64 (d a b : BitVec 5) : Statement (.ssub64 d a b) := of_encode _
theorem sshl64 (d a : BitVec 5) (b : BitVec 6) : Statement (.sshl64 d a b) := of_encode _
theorem sshr64 (d a : BitVec 5) (b : BitVec 6) : Statement (.sshr64 d a b) := of_encode _
theorem smulw (d : BitVec 5) (a b : BitVec 6) : Statement (.smulw d a b) := of_encode _
theorem saddi (d a : BitVec 6) (i : BitVec 13) : Statement (.saddi d a i) := of_encode _
theorem slui (d : BitVec 6) (i : BitVec 19) : Statement (.slui d i) := of_encode _
theorem saddi64 (d a : BitVec 5) (i : BitVec 13) : Statement (.saddi64 d a i) := of_encode _
theorem scmp (q : BitVec 3) (t : BitVec 4) (a b : BitVec 6) (k : BitVec 4) : Statement (.scmp q t a b k) := of_encode _
theorem qand (d a b : BitVec 3) (x y : BitVec 1) : Statement (.qand d a b x y) := of_encode _
theorem qor (d a b : BitVec 3) (x y : BitVec 1) : Statement (.qor d a b x y) := of_encode _
theorem qxor (d a b : BitVec 3) (x y : BitVec 1) : Statement (.qxor d a b x y) := of_encode _
theorem qmov (d a : BitVec 3) (x : BitVec 1) : Statement (.qmov d a x) := of_encode _
theorem ssrr (s : BitVec 6) (r : BitVec 12) : Statement (.ssrr s r) := of_encode _
theorem ssrw (s : BitVec 6) (r : BitVec 12) : Statement (.ssrw s r) := of_encode _
theorem join (m : BitVec 4) : Statement (.join m) := of_encode _
theorem leave (m : BitVec 4) : Statement (.leave m) := of_encode _
theorem waitm (m : BitVec 4) : Statement (.waitm m) := of_encode _
theorem mset (m : BitVec 4) (s : BitVec 5) : Statement (.mset m s) := of_encode _
theorem mget (m : BitVec 4) (s : BitVec 5) : Statement (.mget m s) := of_encode _
theorem mand (m n : BitVec 4) : Statement (.mand m n) := of_encode _
theorem mor (m n : BitVec 4) : Statement (.mor m n) := of_encode _
theorem mandn (m n : BitVec 4) : Statement (.mandn m n) := of_encode _
theorem mpopc (m : BitVec 4) (s : BitVec 6) : Statement (.mpopc m s) := of_encode _
theorem mself (s : BitVec 5) : Statement (.mself s) := of_encode _
theorem bra (o : BitVec 25) : Statement (.bra o) := of_encode _
theorem brp (n : BitVec 1) (p : BitVec 3) (o : BitVec 21) : Statement (.brp n p o) := of_encode _
theorem brq (n : BitVec 1) (q : BitVec 3) (o : BitVec 21) : Statement (.brq n q o) := of_encode _
theorem call (o : BitVec 25) : Statement (.call o) := of_encode _
theorem callr (a : BitVec 6) : Statement (.callr a) := of_encode _
theorem jmpr (a : BitVec 6) : Statement (.jmpr a) := of_encode _
theorem ret : Statement (.ret) := of_encode _
theorem exit : Statement (.exit) := of_encode _
theorem reformG : Statement (.reformG) := of_encode _
theorem reformT : Statement (.reformT) := of_encode _
theorem yield : Statement (.yield) := of_encode _
theorem ld (v : BitVec 7) (s : BitVec 5) (i : BitVec 7) (w : BitVec 3) (h : BitVec 2) : Statement (.ld v s i w h) := of_encode _
theorem st (v : BitVec 7) (s : BitVec 5) (i : BitVec 7) (w : BitVec 3) (h : BitVec 2) : Statement (.st v s i w h) := of_encode _
theorem atom (d : BitVec 7) (s : BitVec 5) (i : BitVec 7) (o : BitVec 4) (r : BitVec 1) : Statement (.atom d s i o r) := of_encode _
theorem red (d : BitVec 7) (s : BitVec 5) (i : BitVec 7) (o : BitVec 4) (r : BitVec 1) : Statement (.red d s i o r) := of_encode _
theorem fenceAcq (g : BitVec 3) : Statement (.fenceAcq g) := of_encode _
theorem fenceRel (g : BitVec 3) : Statement (.fenceRel g) := of_encode _
theorem fenceAr (g : BitVec 3) : Statement (.fenceAr g) := of_encode _
theorem drainNt (g : BitVec 3) : Statement (.drainNt g) := of_encode _
theorem aliasfence (g : BitVec 3) : Statement (.aliasfence g) := of_encode _
theorem prefetch (s : BitVec 5) (i : BitVec 7) : Statement (.prefetch s i) := of_encode _
theorem wbl (s : BitVec 5) (i : BitVec 7) : Statement (.wbl s i) := of_encode _
theorem invl (s : BitVec 5) (i : BitVec 7) : Statement (.invl s i) := of_encode _
theorem tchain (d : BitVec 6) (s : BitVec 5) : Statement (.tchain d s) := of_encode _
theorem tagwaitAll (s : BitVec 5) : Statement (.tagwaitAll s) := of_encode _
theorem tagwaitAny (s : BitVec 5) : Statement (.tagwaitAny s) := of_encode _
theorem tagfirst (d : BitVec 6) (s : BitVec 5) : Statement (.tagfirst d s) := of_encode _
theorem tagclr (s : BitVec 5) : Statement (.tagclr s) := of_encode _
theorem qpop (v : BitVec 7) (q : BitVec 2) : Statement (.qpop v q) := of_encode _
theorem tcancel (s : BitVec 6) : Statement (.tcancel s) := of_encode _
theorem oclaim (d : BitVec 6) : Statement (.oclaim d) := of_encode _
theorem orelease (s : BitVec 6) : Statement (.orelease s) := of_encode _
theorem ofence : Statement (.ofence) := of_encode _
theorem mma (h : BitVec 5) (a : BitVec 3) (x y : BitVec 5) (v : BitVec 3) (z : BitVec 1) : Statement (.mma h a x y v z) := of_encode _
theorem mwait (a : BitVec 3) : Statement (.mwait a) := of_encode _
theorem mdrain (a : BitVec 3) (s : BitVec 5) : Statement (.mdrain a s) := of_encode _
theorem mzero (a : BitVec 3) : Statement (.mzero a) := of_encode _
theorem mload (a : BitVec 3) (s : BitVec 5) : Statement (.mload a s) := of_encode _
theorem cvset (v : BitVec 3) (s : BitVec 6) : Statement (.cvset v s) := of_encode _
theorem arrive (g : BitVec 3) (b d : BitVec 6) : Statement (.arrive g b d) := of_encode _
theorem waitb (g : BitVec 3) (b k d : BitVec 6) : Statement (.waitb g b k d) := of_encode _
theorem sync (g : BitVec 3) (b d : BitVec 6) : Statement (.sync g b d) := of_encode _
theorem arrivex (g : BitVec 3) (b k d : BitVec 6) : Statement (.arrivex g b k d) := of_encode _
theorem tkwait : Statement (.tkwait) := of_encode _
theorem tkpass : Statement (.tkpass) := of_encode _
theorem tkdone : Statement (.tkdone) := of_encode _
theorem ensure (s : BitVec 6) : Statement (.ensure s) := of_encode _
theorem elseby : Statement (.elseby) := of_encode _
theorem elseerror : Statement (.elseerror) := of_encode _
theorem accept : Statement (.accept) := of_encode _
theorem reject : Statement (.reject) := of_encode _
theorem convjoin (s : BitVec 6) : Statement (.convjoin s) := of_encode _
theorem convleave : Statement (.convleave) := of_encode _
theorem rbstat (d : BitVec 6) : Statement (.rbstat d) := of_encode _
theorem fork (d s : BitVec 6) : Statement (.fork d s) := of_encode _
theorem wdone (s : BitVec 6) : Statement (.wdone s) := of_encode _
theorem choose (d s : BitVec 6) : Statement (.choose d s) := of_encode _
theorem wabort : Statement (.wabort) := of_encode _
theorem wstat (d : BitVec 5) (s : BitVec 6) : Statement (.wstat d s) := of_encode _
theorem migrate (k : BitVec 2) : Statement (.migrate k) := of_encode _
theorem eqpt (i : BitVec 16) : Statement (.eqpt i) := of_encode _
theorem klaunch (k : BitVec 5) (q : BitVec 6) : Statement (.klaunch k q) := of_encode _
theorem trap (i : BitVec 8) : Statement (.trap i) := of_encode _
theorem rtt : Statement (.rtt) := of_encode _
theorem icinv (k l : BitVec 5) : Statement (.icinv k l) := of_encode _
theorem bkpt : Statement (.bkpt) := of_encode _
theorem packetIssue : Statement (.packetIssue) := of_encode _
theorem resultWriteback : Statement (.resultWriteback) := of_encode _
theorem storeAccept : Statement (.storeAccept) := of_encode _
theorem fenceComplete : Statement (.fenceComplete) := of_encode _
theorem handlerEntry : Statement (.handlerEntry) := of_encode _
theorem trayAged : Statement (.trayAged) := of_encode _
theorem trayDraw : Statement (.trayDraw) := of_encode _
theorem replay : Statement (.replay) := of_encode _
theorem chunkPacketLimit : Statement (.chunkPacketLimit) := of_encode _
theorem chunkQuietPeriod : Statement (.chunkQuietPeriod) := of_encode _
theorem chunkCommitGrant : Statement (.chunkCommitGrant) := of_encode _
theorem signatureBroadcastApply : Statement (.signatureBroadcastApply) := of_encode _
theorem externalWriteSignature : Statement (.externalWriteSignature) := of_encode _
theorem atomicRequestPerform : Statement (.atomicRequestPerform) := of_encode _
theorem pageMove : Statement (.pageMove) := of_encode _
theorem eccErrorReport : Statement (.eccErrorReport) := of_encode _
theorem shootdown : Statement (.shootdown) := of_encode _
theorem shootdownComplete : Statement (.shootdownComplete) := of_encode _
theorem hostMemRead : Statement (.hostMemRead) := of_encode _
theorem hostMemWrite : Statement (.hostMemWrite) := of_encode _
theorem hostErrorCompletion : Statement (.hostErrorCompletion) := of_encode _
theorem translate : Statement (.translate) := of_encode _
theorem permit : Statement (.permit) := of_encode _
theorem revokeAnswer : Statement (.revokeAnswer) := of_encode _
theorem copyEntry : Statement (.copyEntry) := of_encode _
theorem copyComplete : Statement (.copyComplete) := of_encode _
theorem loopEntry : Statement (.loopEntry) := of_encode _
theorem iftagEntry : Statement (.iftagEntry) := of_encode _
theorem settagEntry : Statement (.settagEntry) := of_encode _
theorem qfeedEntry : Statement (.qfeedEntry) := of_encode _
theorem qfeedResume : Statement (.qfeedResume) := of_encode _
theorem endEntry : Statement (.endEntry) := of_encode _
theorem matrixOpStart : Statement (.matrixOpStart) := of_encode _
theorem matrixOpComplete : Statement (.matrixOpComplete) := of_encode _
theorem mzeroComplete : Statement (.mzeroComplete) := of_encode _
theorem drainComplete : Statement (.drainComplete) := of_encode _
theorem mloadComplete : Statement (.mloadComplete) := of_encode _
theorem barrierRelease : Statement (.barrierRelease) := of_encode _
theorem podBarrierArrival : Statement (.podBarrierArrival) := of_encode _
theorem podBarrierCompletion : Statement (.podBarrierCompletion) := of_encode _
theorem watchdogTimeout : Statement (.watchdogTimeout) := of_encode _
theorem rbCycleLimit : Statement (.rbCycleLimit) := of_encode _
theorem rbRestore : Statement (.rbRestore) := of_encode _
theorem rbCommitComplete : Statement (.rbCommitComplete) := of_encode _
theorem forkComplete : Statement (.forkComplete) := of_encode _
theorem rivalDone : Statement (.rivalDone) := of_encode _
theorem rivalTimeShare : Statement (.rivalTimeShare) := of_encode _
theorem rivalPlace : Statement (.rivalPlace) := of_encode _
theorem parentResume : Statement (.parentResume) := of_encode _
theorem migrationPerform : Statement (.migrationPerform) := of_encode _
theorem migrationTimeout : Statement (.migrationTimeout) := of_encode _
theorem thermalMigration : Statement (.thermalMigration) := of_encode _
theorem kernelLoad : Statement (.kernelLoad) := of_encode _
theorem kernelUnload : Statement (.kernelUnload) := of_encode _
theorem featureAccept : Statement (.featureAccept) := of_encode _
theorem coreGrant : Statement (.coreGrant) := of_encode _
theorem groupRetire : Statement (.groupRetire) := of_encode _
theorem launchComplete : Statement (.launchComplete) := of_encode _
theorem bakeryTurnBegin : Statement (.bakeryTurnBegin) := of_encode _
theorem doorbell : Statement (.doorbell) := of_encode _
theorem qupdate : Statement (.qupdate) := of_encode _
theorem queuePacketTake : Statement (.queuePacketTake) := of_encode _
theorem nopPacket : Statement (.nopPacket) := of_encode _
theorem launch : Statement (.launch) := of_encode _
theorem waitsig : Statement (.waitsig) := of_encode _
theorem waitsigReread : Statement (.waitsigReread) := of_encode _
theorem waitsigTimeout : Statement (.waitsigTimeout) := of_encode _
theorem signal : Statement (.signal) := of_encode _
theorem copyPacket : Statement (.copyPacket) := of_encode _
theorem copyPacketComplete : Statement (.copyPacketComplete) := of_encode _
theorem timestamp : Statement (.timestamp) := of_encode _
theorem fencePacket : Statement (.fencePacket) := of_encode _
theorem fencePacketComplete : Statement (.fencePacketComplete) := of_encode _
theorem klaunchDelivery : Statement (.klaunchDelivery) := of_encode _
theorem priorityAging : Statement (.priorityAging) := of_encode _
theorem coreReclaim : Statement (.coreReclaim) := of_encode _
theorem preemptStopRequest : Statement (.preemptStopRequest) := of_encode _
theorem teamSaveComplete : Statement (.teamSaveComplete) := of_encode _
theorem teamRestore : Statement (.teamRestore) := of_encode _
theorem create : Statement (.create) := of_encode _
theorem enable : Statement (.enable) := of_encode _
theorem terminate : Statement (.terminate) := of_encode _
theorem release : Statement (.release) := of_encode _
theorem contextResourcesFreed : Statement (.contextResourcesFreed) := of_encode _
theorem tqread : Statement (.tqread) := of_encode _
theorem registerWrite : Statement (.registerWrite) := of_encode _
theorem linkEnable : Statement (.linkEnable) := of_encode _
theorem linkTrained : Statement (.linkTrained) := of_encode _
theorem linkRetryRate : Statement (.linkRetryRate) := of_encode _
theorem linkDisable : Statement (.linkDisable) := of_encode _
theorem flitReceive : Statement (.flitReceive) := of_encode _
theorem prooferAudit : Statement (.prooferAudit) := of_encode _
theorem remotePodAccess : Statement (.remotePodAccess) := of_encode _
theorem powerOn : Statement (.powerOn) := of_encode _
theorem warmReset : Statement (.warmReset) := of_encode _
theorem attestationRequest : Statement (.attestationRequest) := of_encode _
theorem ppsEdge : Statement (.ppsEdge) := of_encode _
theorem ppsLoss : Statement (.ppsLoss) := of_encode _
theorem powerLimitSet : Statement (.powerLimitSet) := of_encode _
theorem contextPowerCapSet : Statement (.contextPowerCapSet) := of_encode _
theorem lCoreThermalThrottle : Statement (.lCoreThermalThrottle) := of_encode _
theorem throttleClockRise : Statement (.throttleClockRise) := of_encode _
theorem hbmThermalThrottle : Statement (.hbmThermalThrottle) := of_encode _
theorem tempCritical : Statement (.tempCritical) := of_encode _
theorem heartbeatMiss : Statement (.heartbeatMiss) := of_encode _
theorem hbmStackBelow90C : Statement (.hbmStackBelow90C) := of_encode _
theorem ieee1588TimeOfDay : Statement (.ieee1588TimeOfDay) := of_encode _

end Sys2Proof.Laws.Framing
end

