-- ==== Sys2Proof/Laws/Registers.lean ====
section
/-! SUPPORT. Laws of registers: what a write leaves in the register written and in the others, and the windows it opens. -/

namespace Sys2Proof.Machine

/-! ## Predicates -/

theorem predBit_setPred_self (p : BitVec 8) (n : Nat) (b : Bool) (hn : n ≠ 0) (h8 : n < 8) : predBit (setPred p n b) n = b := by
  have : n = 1 ∨ n = 2 ∨ n = 3 ∨ n = 4 ∨ n = 5 ∨ n = 6 ∨ n = 7 := by omega
  rcases this with rfl | rfl | rfl | rfl | rfl | rfl | rfl <;> cases b <;> simp [predBit, setPred]

theorem predBit_setPred_of_ne (p : BitVec 8) (m n : Nat) (b : Bool) (hne : m ≠ n) (h8 : n < 8) :
    predBit (setPred p n b) m = predBit p m := by
  unfold predBit setPred
  have : n = 0 ∨ n = 1 ∨ n = 2 ∨ n = 3 ∨ n = 4 ∨ n = 5 ∨ n = 6 ∨ n = 7 := by omega
  by_cases h : m < 8
  · have hm : m = 0 ∨ m = 1 ∨ m = 2 ∨ m = 3 ∨ m = 4 ∨ m = 5 ∨ m = 6 ∨ m = 7 := by omega
    rcases this with rfl | rfl | rfl | rfl | rfl | rfl | rfl | rfl <;>
      rcases hm with rfl | rfl | rfl | rfl | rfl | rfl | rfl | rfl <;> cases b <;> simp_all
  · rw [BitVec.getLsbD_of_ge _ _ (by omega), BitVec.getLsbD_of_ge _ _ (by omega)]

/-! ## Stored values -/

/-- The registers whose stored value is what a write of `poke` leaves in them: not `s0`, `p0` or `q0`, and a predicate number
below 8. -/
def RegId.plain : RegId → Bool
  | .v _ _ _ => true
  | .p _ _ n => n != 0 && decide (n < 8)
  | .s _ n => n != 0
  | .q _ n => n != 0 && decide (n < 8)
  | .m _ _ => true
  | _ => false

/-- The value a register of its width keeps. -/
def RegId.trim : RegId → DWord → DWord
  | .v _ _ _, x => (x.setWidth 32).setWidth 64
  | .p _ _ _, x => if x != 0 then 1 else 0
  | .s _ _, x => (x.setWidth 32).setWidth 64
  | .q _ _, x => if x != 0 then 1 else 0
  | _, x => x

/-- Does a team have the thread or group of a register? -/
def Team.hasReg (t : Team) : RegId → Bool
  | .v g l _ => (t.thread? g l).isSome
  | .p g l _ => (t.thread? g l).isSome
  | .t g l _ => (t.thread? g l).isSome
  | .s g _ => (t.group? g).isSome
  | .q g _ => (t.group? g).isSome
  | .m g _ => (t.group? g).isSome
  | .sr g _ => (t.group? g).isSome

/-- A register reads back as it was written. -/
theorem Team.peek_poke_self (t : Team) (r : RegId) (x : DWord) (hp : r.plain = true) (h : t.hasReg r = true) :
    (t.poke r x).peek r = r.trim x := by
  cases r with
  | v g l n =>
    simp only [hasReg, Option.isSome_iff_exists] at h
    obtain ⟨th, hth⟩ := h
    simp only [poke, peek, RegId.trim]
    rw [Team.thread?_modThread _ _ _ (fun th => { th with v := sput n (x.setWidth 32) th.v }) (fun _ => rfl), hth]
    simp [sget_sput_self]
  | p g l n =>
    simp only [hasReg, Option.isSome_iff_exists] at h
    obtain ⟨th, hth⟩ := h
    simp only [RegId.plain, Bool.and_eq_true, bne_iff_ne, ne_eq, decide_eq_true_eq] at hp
    simp only [poke, peek, RegId.trim]
    rw [Team.thread?_modThread _ _ _ (fun th => { th with p := setPred th.p n (x != 0) }) (fun _ => rfl), hth]
    simp [predBit_setPred_self _ _ _ hp.1 hp.2]
  | t g l k => simp [RegId.plain] at hp
  | s g n =>
    simp only [hasReg, Option.isSome_iff_exists] at h
    obtain ⟨gr, hgr⟩ := h
    simp only [RegId.plain, bne_iff_ne, ne_eq] at hp
    simp only [poke, peek, RegId.trim, if_neg hp]
    rw [Team.group?_modGroup _ _ (fun gr => { gr with s := sput n (x.setWidth 32) gr.s }) (fun _ => rfl), hgr]
    simp [sget_sput_self]
  | q g n =>
    simp only [hasReg, Option.isSome_iff_exists] at h
    obtain ⟨gr, hgr⟩ := h
    simp only [RegId.plain, Bool.and_eq_true, bne_iff_ne, ne_eq, decide_eq_true_eq] at hp
    simp only [poke, peek, RegId.trim]
    rw [Team.group?_modGroup _ _ (fun gr => { gr with q := setPred gr.q n (x != 0) }) (fun _ => rfl), hgr]
    simp [predBit_setPred_self _ _ _ hp.1 hp.2]
  | m g n =>
    simp only [hasReg, Option.isSome_iff_exists] at h
    obtain ⟨gr, hgr⟩ := h
    simp only [poke, peek, RegId.trim]
    rw [Team.group?_modGroup _ _ (fun gr => { gr with m := sput n x gr.m }) (fun _ => rfl), hgr]
    simp [sget_sput_self]
  | sr g n => simp [RegId.plain] at hp

@[simp] theorem Team.poke_key (t : Team) (r : RegId) (x : DWord) : (t.poke r x).key = t.key := by
  cases r <;> simp only [poke] <;> (try split) <;> rfl

@[simp] theorem Team.poke_windows (t : Team) (r : RegId) (x : DWord) : (t.poke r x).windows = t.windows := by
  cases r <;> simp only [poke] <;> (try split) <;> rfl

@[simp] theorem Team.poke_levels (t : Team) (r : RegId) (x : DWord) : (t.poke r x).levels = t.levels := by
  cases r <;> simp only [poke] <;> (try split) <;> rfl

/-- What a thread's change leaves alone in the registers of others, and in registers its change does not touch. -/
theorem Team.peek_modThread (t : Team) (g l : Nat) (f : Thread → Thread) (r : RegId) (hl : ∀ x, (f x).lane = x.lane)
    (hv : ∀ n, r = .v g l n → ∀ x, sget n (f x).v = sget n x.v)
    (hp : ∀ n, r = .p g l n → ∀ x, predBit (f x).p n = predBit x.p n)
    (ht : ∀ k, r = .t g l k → ∀ x, (f x).tsr t.levels.length k = x.tsr t.levels.length k) :
    (t.modThread g l f).peek r = t.peek r := by
  have hth : ∀ g' l', (t.modThread g l f).thread? g' l'
      = if (g', l') = (g, l) then (t.thread? g l).map f else t.thread? g' l' := fun g' l' => by
    split
    · next h => cases h; exact Team.thread?_modThread t g l f hl
    · next h => exact Team.thread?_modThread_ne t f h hl
  have hgr : ∀ g', ((t.modThread g l f).group? g').map Group.s = (t.group? g').map Group.s
      ∧ ((t.modThread g l f).group? g').map Group.q = (t.group? g').map Group.q
      ∧ ((t.modThread g l f).group? g').map Group.m = (t.group? g').map Group.m
      ∧ ((t.modThread g l f).group? g').map Group.tvec = (t.group? g').map Group.tvec := fun g' => by
    unfold Team.modThread
    by_cases h : g' = g
    · subst h
      rw [Team.group?_modGroup t g' (fun x => x.modThread l f) (fun _ => rfl)]
      cases t.group? g' <;> simp [Group.modThread]
    · rw [Team.group?_modGroup_ne t (fun x => x.modThread l f) h (fun _ => rfl)]
      simp
  cases r with
  | v g' l' n =>
    simp only [peek, hth]
    by_cases h : (g', l') = (g, l)
    · cases h
      cases h2 : t.thread? g l <;> simp [hv n rfl]
    · simp only [if_neg h]
  | p g' l' n =>
    simp only [peek, hth]
    by_cases h : (g', l') = (g, l)
    · cases h
      cases h2 : t.thread? g l <;> simp [hp n rfl]
    · simp only [if_neg h]
  | t g' l' k =>
    simp only [peek, hth, show (t.modThread g l f).levels = t.levels from rfl]
    by_cases h : (g', l') = (g, l)
    · cases h
      cases h2 : t.thread? g l <;> simp [ht k rfl]
    · simp only [if_neg h]
  | s g' n => have h := (hgr g').1; cases h1 : (t.modThread g l f).group? g' <;> cases h2 : t.group? g' <;> simp_all [peek]
  | q g' n => have h := (hgr g').2.1; cases h1 : (t.modThread g l f).group? g' <;> cases h2 : t.group? g' <;> simp_all [peek]
  | m g' n => have h := (hgr g').2.2.1; cases h1 : (t.modThread g l f).group? g' <;> cases h2 : t.group? g' <;> simp_all [peek]
  | sr g' n => have h := (hgr g').2.2.2; cases h1 : (t.modThread g l f).group? g' <;> cases h2 : t.group? g' <;> simp_all [peek]

/-- What a group's change of its own registers leaves alone. -/
theorem Team.peek_modGroup (t : Team) (g : Nat) (f : Group → Group) (r : RegId) (hg : ∀ x, (f x).gid = x.gid)
    (hth : ∀ x, (f x).threads = x.threads)
    (hs : ∀ n, r = .s g n → ∀ x, sget n (f x).s = sget n x.s)
    (hq : ∀ n, r = .q g n → ∀ x, predBit (f x).q n = predBit x.q n)
    (hm : ∀ n, r = .m g n → ∀ x, sget n (f x).m = sget n x.m)
    (hsr : ∀ n, r = .sr g n → ∀ x, (f x).tvec = x.tvec) :
    (t.modGroup g f).peek r = t.peek r := by
  have hgr : ∀ g', (t.modGroup g f).group? g' = if g' = g then (t.group? g).map f else t.group? g' := fun g' => by
    split
    · next h => subst h; exact Team.group?_modGroup t g' f hg
    · next h => exact Team.group?_modGroup_ne t f h hg
  have hthr : ∀ g' l', (t.modGroup g f).thread? g' l' = t.thread? g' l' := fun g' l' => by
    unfold Team.thread?
    rw [hgr]
    split
    · next h => subst h; cases t.group? g' <;> simp [Group.thread?, hth]
    · rfl
  cases r with
  | v g' l' n => simp [peek, hthr]
  | p g' l' n => simp [peek, hthr]
  | t g' l' k => simp only [peek, hthr]; rfl
  | s g' n =>
    simp only [peek, hgr]
    by_cases h : g' = g
    · subst h
      cases h2 : t.group? g' <;> simp [hs n rfl]
    · simp only [if_neg h]
  | q g' n =>
    simp only [peek, hgr]
    by_cases h : g' = g
    · subst h
      cases h2 : t.group? g' <;> simp [hq n rfl]
    · simp only [if_neg h]
  | m g' n =>
    simp only [peek, hgr]
    by_cases h : g' = g
    · subst h
      cases h2 : t.group? g' <;> simp [hm n rfl]
    · simp only [if_neg h]
  | sr g' n =>
    simp only [peek, hgr]
    by_cases h : g' = g
    · subst h
      cases h2 : t.group? g' <;> simp [hsr n rfl]
    · simp only [if_neg h]

/-- A write leaves the other registers alone. -/
theorem Team.peek_poke_of_ne (t : Team) (r r' : RegId) (x : DWord) (hp : r.plain = true) (hne : r' ≠ r) :
    (t.poke r x).peek r' = t.peek r' := by
  cases r with
  | v g l n =>
    refine Team.peek_modThread t g l _ r' (fun _ => rfl) (fun m h _ => ?_) (fun _ _ _ => rfl) (fun k _ _ => ?_)
    · exact sget_sput_of_ne (fun e => hne (by rw [h, e])) _ _
    · simp only [Thread.tsr]
  | p g l n =>
    simp only [RegId.plain, Bool.and_eq_true, bne_iff_ne, ne_eq, decide_eq_true_eq] at hp
    refine Team.peek_modThread t g l _ r' (fun _ => rfl) (fun _ _ _ => rfl) (fun m h _ => ?_) (fun k _ _ => ?_)
    · exact predBit_setPred_of_ne _ _ _ _ (fun e => hne (by rw [h, e])) hp.2
    · simp only [Thread.tsr]
  | t g l k => simp [RegId.plain] at hp
  | s g n =>
    simp only [RegId.plain, bne_iff_ne, ne_eq] at hp
    simp only [poke, if_neg hp]
    exact Team.peek_modGroup t g _ r' (fun _ => rfl) (fun _ => rfl)
      (fun m h _ => sget_sput_of_ne (fun e => hne (by rw [h, e])) _ _) (fun _ _ _ => rfl) (fun _ _ _ => rfl) (fun _ _ _ => rfl)
  | q g n =>
    simp only [RegId.plain, Bool.and_eq_true, bne_iff_ne, ne_eq, decide_eq_true_eq] at hp
    exact Team.peek_modGroup t g _ r' (fun _ => rfl) (fun _ => rfl) (fun _ _ _ => rfl)
      (fun m h _ => predBit_setPred_of_ne _ _ _ _ (fun e => hne (by rw [h, e])) hp.2) (fun _ _ _ => rfl) (fun _ _ _ => rfl)
  | m g n =>
    exact Team.peek_modGroup t g _ r' (fun _ => rfl) (fun _ => rfl) (fun _ _ _ => rfl) (fun _ _ _ => rfl)
      (fun m h _ => sget_sput_of_ne (fun e => hne (by rw [h, e])) _ _) (fun _ _ _ => rfl)
  | sr g n => simp [RegId.plain] at hp

end Sys2Proof.Machine
end

