-- ==== Sys2Proof/Laws/Words.lean ====
section
/-! SUPPORT. What a word performed for each thread or each group can do: the laws of register writes with a latency, of
`laneWord` and of `groupWord`. -/

namespace Sys2Proof.Machine

/-! ## Writes with a latency -/

@[simp] theorem Team.write_key (now lat : Nat) (t : Team) (w : RegId × DWord) : (Team.write now lat t w).key = t.key := by
  unfold write
  split
  · rfl
  · simp only; split <;> simp

@[simp] theorem Team.foldl_write_key (now lat : Nat) (ws : List (RegId × DWord)) (t : Team) :
    (ws.foldl (Team.write now lat) t).key = t.key := by
  induction ws generalizing t with
  | nil => rfl
  | cons w r ih => simp [ih]

/-- A write whose register is a plain one, or discards it. -/
def goodWrite (w : RegId × DWord) : Prop := w.1.plain = true ∨ w.1.discards = true

theorem RegId.plain_not_discards {r : RegId} (h : r.plain = true) : r.discards = false := by
  cases r <;> simp_all [plain, discards]

theorem Team.write_of_discards {now lat : Nat} {t : Team} {w : RegId × DWord} (h : w.1.discards = true) :
    Team.write now lat t w = t := by simp [write, h]

theorem Team.peek_windows (t : Team) (ws : List Window) (r : RegId) : Team.peek { t with windows := ws } r = t.peek r := by
  cases r <;> rfl

theorem Team.peek_write {now lat : Nat} {t : Team} {w : RegId × DWord} (h : w.1.discards = false) (r : RegId) :
    (Team.write now lat t w).peek r = (t.poke w.1 w.2).peek r := by
  simp only [write, h, Bool.false_eq_true, if_false]
  split
  · rfl
  · exact Team.peek_windows _ _ _

theorem Team.peek_write_of_ne {now lat : Nat} {t : Team} {w : RegId × DWord} (hw : goodWrite w) {r : RegId} (hne : r ≠ w.1) :
    (Team.write now lat t w).peek r = t.peek r := by
  rcases hw with h | h
  · rw [Team.peek_write (RegId.plain_not_discards h), Team.peek_poke_of_ne t w.1 r w.2 h hne]
  · rw [Team.write_of_discards h]

/-- The groups and threads a write leaves in place. -/
theorem Team.poke_shape (t : Team) (r : RegId) (x : DWord) (h : r.plain = true) :
    (t.poke r x).outside = t.outside
      ∧ (∀ g, ((t.poke r x).group? g).map Group.outside = (t.group? g).map Group.outside)
      ∧ (∀ g l, ((t.poke r x).thread? g l).map Thread.outside = (t.thread? g l).map Thread.outside) := by
  have hthread : ∀ (g l : Nat) (f : Thread → Thread), (∀ x, (f x).lane = x.lane) → (∀ x, (f x).outside = x.outside) →
      (t.modThread g l f).outside = t.outside
        ∧ (∀ g', ((t.modThread g l f).group? g').map Group.outside = (t.group? g').map Group.outside)
        ∧ (∀ g' l', ((t.modThread g l f).thread? g' l').map Thread.outside = (t.thread? g' l').map Thread.outside) := by
    intro g l f hl hf
    refine ⟨rfl, fun g' => ?_, fun g' l' => ?_⟩
    · unfold modThread
      by_cases e : g' = g
      · subst e
        rw [Team.group?_modGroup t g' (fun x => x.modThread l f) (fun _ => rfl)]
        cases t.group? g' <;> rfl
      · rw [Team.group?_modGroup_ne t (fun x => x.modThread l f) e (fun _ => rfl)]
    · by_cases e : (g', l') = (g, l)
      · cases e
        rw [Team.thread?_modThread t g l f hl]
        cases t.thread? g l <;> simp [hf]
      · rw [Team.thread?_modThread_ne t f e hl]
  have hgroup : ∀ (g : Nat) (f : Group → Group), (∀ x, (f x).gid = x.gid) → (∀ x, (f x).threads = x.threads) →
      (∀ x, (f x).outside = x.outside) →
      (t.modGroup g f).outside = t.outside
        ∧ (∀ g', ((t.modGroup g f).group? g').map Group.outside = (t.group? g').map Group.outside)
        ∧ (∀ g' l', ((t.modGroup g f).thread? g' l').map Thread.outside = (t.thread? g' l').map Thread.outside) := by
    intro g f hg hth hf
    refine ⟨rfl, fun g' => ?_, fun g' l' => ?_⟩
    · by_cases e : g' = g
      · subst e
        rw [Team.group?_modGroup t g' f hg]
        cases t.group? g' <;> simp [hf]
      · rw [Team.group?_modGroup_ne t f e hg]
    · unfold thread?
      by_cases e : g' = g
      · subst e
        rw [Team.group?_modGroup t g' f hg]
        cases t.group? g' <;> simp [Group.thread?, hth]
      · rw [Team.group?_modGroup_ne t f e hg]
  cases r with
  | v g l n => exact hthread g l _ (fun _ => rfl) (fun _ => rfl)
  | p g l n => exact hthread g l _ (fun _ => rfl) (fun _ => rfl)
  | t g l k => simp [RegId.plain] at h
  | s g n =>
    simp only [RegId.plain, bne_iff_ne, ne_eq] at h
    simp only [poke, if_neg h]
    exact hgroup g _ (fun _ => rfl) (fun _ => rfl) (fun _ => rfl)
  | q g n => exact hgroup g _ (fun _ => rfl) (fun _ => rfl) (fun _ => rfl)
  | m g n => exact hgroup g _ (fun _ => rfl) (fun _ => rfl) (fun _ => rfl)
  | sr g n => simp [RegId.plain] at h

/-- Two teams that differ in registers and windows only. -/
structure Team.SameShape (t t' : Team) : Prop where
  outside : t'.outside = t.outside
  groups : ∀ g, (t'.group? g).map Group.outside = (t.group? g).map Group.outside
  threads : ∀ g l, (t'.thread? g l).map Thread.outside = (t.thread? g l).map Thread.outside

theorem Team.SameShape.refl (t : Team) : t.SameShape t := ⟨rfl, fun _ => rfl, fun _ _ => rfl⟩

theorem Team.SameShape.trans {t u v : Team} (h : t.SameShape u) (h' : u.SameShape v) : t.SameShape v :=
  ⟨h'.1.trans h.1, fun g => (h'.2 g).trans (h.2 g), fun g l => (h'.3 g l).trans (h.3 g l)⟩

theorem Team.SameShape.hasReg {t t' : Team} (h : t.SameShape t') (r : RegId) : t'.hasReg r = t.hasReg r := by
  have hg : ∀ g, (t'.group? g).isSome = (t.group? g).isSome := fun g => by
    have := congrArg Option.isSome (h.2 g); simpa using this
  have ht : ∀ g l, (t'.thread? g l).isSome = (t.thread? g l).isSome := fun g l => by
    have := congrArg Option.isSome (h.3 g l); simpa using this
  cases r <;> simp [Team.hasReg, hg, ht]

theorem Team.write_shape (now lat : Nat) (t : Team) (w : RegId × DWord) (hw : goodWrite w) :
    t.SameShape (Team.write now lat t w) := by
  rcases hw with h | h
  · have hs := Team.poke_shape t w.1 w.2 h
    simp only [write, RegId.plain_not_discards h, Bool.false_eq_true, if_false]
    split
    · exact ⟨hs.1, hs.2.1, hs.2.2⟩
    · exact ⟨hs.1, hs.2.1, hs.2.2⟩
  · rw [Team.write_of_discards h]; exact .refl t

theorem Team.foldl_write_shape (now lat : Nat) (ws : List (RegId × DWord)) (t : Team) (hw : ∀ w ∈ ws, goodWrite w) :
    t.SameShape (ws.foldl (Team.write now lat) t) := by
  induction ws generalizing t with
  | nil => exact .refl t
  | cons w r ih =>
    exact (Team.write_shape now lat t w (hw w (by simp))).trans (ih _ fun x hx => hw x (by simp [hx]))

/-- Registers that a list of writes does not name keep their value. -/
theorem Team.foldl_write_other (now lat : Nat) (ws : List (RegId × DWord)) (t : Team) (hw : ∀ w ∈ ws, goodWrite w) (r : RegId)
    (hr : ∀ w ∈ ws, w.1.discards = true ∨ w.1 ≠ r) : (ws.foldl (Team.write now lat) t).peek r = t.peek r := by
  induction ws generalizing t with
  | nil => rfl
  | cons w rest ih =>
    rw [List.foldl_cons, ih _ (fun x hx => hw x (by simp [hx])) (fun x hx => hr x (by simp [hx]))]
    rcases hr w (by simp) with h | h
    · rw [Team.write_of_discards h]
    · exact Team.peek_write_of_ne (hw w (by simp)) (Ne.symm h)

/-- A register that a list of writes gives one value holds it. -/
theorem Team.foldl_write_self (now lat : Nat) (ws : List (RegId × DWord)) (t : Team) (hw : ∀ w ∈ ws, goodWrite w) (r : RegId)
    (x : DWord) (hp : r.plain = true) (hh : t.hasReg r = true) (hmem : (r, x) ∈ ws) (huniq : ∀ w ∈ ws, w.1 = r → w.2 = x) :
    (ws.foldl (Team.write now lat) t).peek r = r.trim x := by
  induction ws generalizing t with
  | nil => cases hmem
  | cons w rest ih =>
    have hw' : ∀ y ∈ rest, goodWrite y := fun y hy => hw y (by simp [hy])
    have hu' : ∀ y ∈ rest, y.1 = r → y.2 = x := fun y hy => huniq y (by simp [hy])
    have hsh := Team.write_shape now lat t w (hw w (by simp))
    rw [List.foldl_cons]
    by_cases hlater : (r, x) ∈ rest
    · exact ih _ hw' (by rw [hsh.hasReg]; exact hh) hlater hu'
    · have hw1 : w = (r, x) := by
        rcases List.mem_cons.mp hmem with h | h
        · exact h.symm
        · exact absurd h hlater
      rw [Team.foldl_write_other now lat rest _ hw' r (fun y hy => .inr fun e => hlater (by
        have := hu' y hy e; rw [← e, ← this]; exact hy)), hw1, Team.peek_write (RegId.plain_not_discards hp)]
      exact Team.peek_poke_self t r x hp hh

theorem Team.foldl_write_windows_mono (now lat : Nat) (ws : List (RegId × DWord)) (t : Team) (w : Window) (h : w ∈ t.windows) :
    w ∈ (ws.foldl (Team.write now lat) t).windows := by
  induction ws generalizing t with
  | nil => exact h
  | cons x rest ih =>
    refine ih _ ?_
    unfold write
    split
    · exact h
    · simp only
      split
      · simpa using h
      · simp [h]

/-- Each write opens a window of its latency. -/
theorem Team.foldl_write_window (now lat : Nat) (ws : List (RegId × DWord)) (t : Team) (r : RegId) (x : DWord)
    (hp : r.plain = true) (hl : lat ≠ 0) (hmem : (r, x) ∈ ws) :
    ∃ w ∈ (ws.foldl (Team.write now lat) t).windows, w.reg = r ∧ w.ready = some (now + lat) := by
  induction ws generalizing t with
  | nil => cases hmem
  | cons y rest ih =>
    rcases List.mem_cons.mp hmem with h | h
    · subst h
      refine ⟨{ reg := r, old := t.peek r, ready := some (now + lat) }, ?_, rfl, rfl⟩
      refine Team.foldl_write_windows_mono now lat rest _ _ ?_
      simp [write, RegId.plain_not_discards hp, hl]
    · exact ih _ h

/-! ## Words performed for each thread or group -/

theorem State.modTeam_id (s : State) (k : Nat) : s.modTeam k (fun t => t) = s := by
  simp [State.modTeam, updIf]

@[simp] theorem Team.orFlags_nil (t : Team) : t.orFlags [] = t := rfl

/-- Where no thread traps, no point is taken back. -/
@[simp] theorem State.unpass_nil (s : State) : s.unpass [] = s := by
  simp [State.unpass, Team.modThreads, State.modTeam_id]

@[simp] theorem State.takeTraps_nil (s : State) : s.takeTraps [] = s := by
  unfold State.takeTraps State.enterTraps
  simp only [List.map_nil, State.unpass_nil]
  cases s.curTeam <;> simp

/-- A word performed for each thread, in which no thread traps or raises a flag, only writes registers. -/
theorem laneWord_eq (lat : Nat) (f : Team → Nat → Thread → LaneOut) (s : State)
    (h : ∀ o ∈ s.laneOuts f, o.2.2.trap = none ∧ o.2.2.fl = 0) :
    laneWord lat f s = s.modTeam s.cur.team fun t =>
      ((s.laneOuts f).flatMap fun o => o.2.2.regs).foldl (Team.write s.now lat) t := by
  have hgood : ((s.laneOuts f).filter fun o => o.2.2.trap.isNone) = s.laneOuts f := by
    rw [List.filter_eq_self]; intro o ho; simp [(h o ho).1]
  have hbad : ((s.laneOuts f).filterMap fun o => o.2.2.trap.map fun tr => (o.1, o.2.1, tr.1, tr.2)) = [] := by
    rw [List.filterMap_eq_nil_iff]; intro o ho; simp [(h o ho).1]
  have hlate : ((s.laneOuts f).filterMap fun o => if o.2.2.fl = 0 then none else some (o.1, o.2.1, orFlagsIndex, o.2.2.fl)) = [] := by
    rw [List.filterMap_eq_nil_iff]; intro o ho; simp [(h o ho).2]
  have hfl : ((s.laneOuts f).filterMap fun o => if o.2.2.trap.isSome then some (o.1, o.2.1, o.2.2.fl) else none) = [] := by
    rw [List.filterMap_eq_nil_iff]; intro o ho; simp [(h o ho).1]
  unfold laneWord
  simp only [hgood, hbad, hlate, hfl, List.isEmpty_nil, if_true, Team.orFlags_nil, State.takeTraps_nil, State.modTeam_cur,
    State.modTeam_id]

/-- What such a word leaves: registers named by the writes hold their values, and nothing else has changed. -/
theorem writes_lands (s : State) (u : Team) (lat : Nat) (ws : List (RegId × DWord)) (hu : s.curTeam = some u)
    (hw : ∀ w ∈ ws, goodWrite w) (r : RegId) (x : DWord) (hp : r.plain = true) (hh : u.hasReg r = true) (hl : lat ≠ 0)
    (hmem : (r, x) ∈ ws) (huniq : ∀ w ∈ ws, w.1 = r → w.2 = x) (hx : r.trim x = x) :
    Lands s (s.modTeam s.cur.team fun t => ws.foldl (Team.write s.now lat) t) r lat x := by
  have hf := State.team?_modTeam s s.cur.team (fun t => ws.foldl (Team.write s.now lat) t) (by simp)
  rw [show s.team? s.cur.team = some u from hu] at hf
  refine ⟨?_, _, hf, Team.foldl_write_window s.now lat ws u r x hp hl hmem⟩
  unfold State.reg
  rw [hf]
  simp only [Option.map_some]
  rw [Team.foldl_write_self s.now lat ws u hw r x hp hh hmem huniq, hx]

/-- States that differ in their teams only, and teams that differ in groups and windows only, read the same byte at every place. -/
theorem Team.outside_locByte {s s' : State} (hrest : ({ s' with teams := [] } : State) = { s with teams := [] })
    (hteam : ∀ k, (s'.team? k).map Team.outside = (s.team? k).map Team.outside) {u u' : Team} (hu : u'.outside = u.outside) (x : Spot) :
    s'.locByte u' x = s.locByte u x := by
  have h1 : u'.core = u.core := (congrArg Team.core hu : u'.outside.core = u.outside.core)
  have h2 : u'.levels = u.levels := (congrArg Team.levels hu : u'.outside.levels = u.outside.levels)
  have h3 : u'.view = u.view := (congrArg Team.view hu : u'.outside.view = u.outside.view)
  have hb : u'.base = u.base := by simp [Team.base, h2, h3]
  obtain ⟨ts, rfl⟩ : ∃ ts, s' = { s with teams := ts } := ⟨s'.teams, by
    have h := congrArg (fun z : State => ({ z with teams := s'.teams } : State)) hrest
    exact h⟩
  have hchain : ∀ n k, ({ s with teams := ts } : State).lamChain n k = s.lamChain n k := fun n => by
    induction n with
    | zero => intro k; rfl
    | succ n ih => intro k; cases k with
      | none => rfl
      | some k => simp only [State.lamChain, ih]; rfl
  have hcore : ∀ core g pa, ({ s with teams := ts } : State).coreByte core g pa = s.coreByte core g pa := fun _ _ _ => rfl
  have hview : ∀ core g pa p home ls,
      ({ s with teams := ts } : State).viewByte core g pa p home ls = s.viewByte core g pa p home ls :=
    fun core g pa p home ls => by
      induction ls with
      | nil => rfl
      | cons k r ih =>
        unfold State.viewByte
        rw [ih]
        rfl
  have htb : ∀ g pa, ({ s with teams := ts } : State).teamByte u' g pa = s.teamByte u g pa := fun g pa => by
    unfold State.teamByte State.teamView
    rw [hview, hchain, hb, h1, hcore]
  unfold State.locByte
  cases x.loc with
  | scratch k off =>
    have := hteam k
    simp only
    cases h : ({ s with teams := ts } : State).team? k <;> cases h' : s.team? k <;> simp_all
    have a := congrArg Team.scratch this
    have b := congrArg Team.key this
    simp only [Team.outside] at a b
    simp [scratchByte, a, b]
  | priv k pa =>
    have := hteam k
    simp only [hcore, h1]
    cases h : ({ s with teams := ts } : State).team? k <;> cases h' : s.team? k <;> simp_all
    have a := congrArg Team.priv this
    simp only [Team.outside] at a
    simp [a]
  | mem pa => simp only [htb]
  | pod e off => rfl

theorem writes_only (s : State) (lat : Nat) (ws : List (RegId × DWord)) (hw : ∀ w ∈ ws, goodWrite w) (dest : RegId → Prop)
    (hd : ∀ w ∈ ws, w.1.discards = true ∨ dest w.1) : OnlyRegs s (s.modTeam s.cur.team fun t => ws.foldl (Team.write s.now lat) t) dest := by
  have hf := State.team?_modTeam s s.cur.team (fun t => ws.foldl (Team.write s.now lat) t) (by simp)
  have hne : ∀ k, k ≠ s.cur.team → (s.modTeam s.cur.team fun t => ws.foldl (Team.write s.now lat) t).team? k = s.team? k :=
    fun k hk => State.team?_modTeam_ne s (fun t => ws.foldl (Team.write s.now lat) t) hk (by simp)
  have hall : ∀ k, ((s.modTeam s.cur.team fun t => ws.foldl (Team.write s.now lat) t).team? k).map Team.outside
      = (s.team? k).map Team.outside := fun k => by
    by_cases hk : k = s.cur.team
    · subst hk
      rw [hf]
      cases s.team? s.cur.team with
      | none => rfl
      | some u => simp [(Team.foldl_write_shape s.now lat ws u hw).outside]
    · rw [hne k hk]
  refine ⟨rfl, hne, hall _, fun r hr => ?_, fun u u' g h h' => ?_, fun u u' g l h h' => ?_, fun k u u' loc h h' => ?_⟩
  · unfold State.reg
    rw [hf]
    cases s.team? s.cur.team with
    | none => rfl
    | some u =>
      simp only [Option.map_some]
      exact Team.foldl_write_other s.now lat ws u hw r fun w hwm =>
        (hd w hwm).imp id fun h e => hr (e ▸ h)
  · rw [hf, h, Option.map_some, Option.some.injEq] at h'
    subst h'
    exact (Team.foldl_write_shape s.now lat ws u hw).groups g
  · rw [hf, h, Option.map_some, Option.some.injEq] at h'
    subst h'
    exact (Team.foldl_write_shape s.now lat ws u hw).threads g l
  · have := hall k
    rw [h, h', Option.map_some, Option.map_some, Option.some.injEq] at this
    exact Team.outside_locByte (s := s) (s' := s.modTeam s.cur.team fun t => ws.foldl (Team.write s.now lat) t) rfl hall this loc

/-! ## A word by the registers it writes -/

theorem laneOuts_mem {s : State} {t : Team} (ht : s.readTeam = some t) (f : Team → Nat → Thread → LaneOut) (o : Nat × Nat × LaneOut) :
    o ∈ s.laneOuts f ↔ ∃ g l th, (g, l) ∈ s.members ∧ t.thread? g l = some th ∧ o = (g, l, f t g th) := by
  unfold State.laneOuts
  rw [ht]
  simp only [List.mem_filterMap, Option.map_eq_some_iff, Prod.exists]
  constructor
  · rintro ⟨g, l, hm, th, hth, rfl⟩; exact ⟨g, l, th, hm, hth, rfl⟩
  · rintro ⟨g, l, th, hm, hth, rfl⟩; exact ⟨g, l, hm, th, hth, rfl⟩

theorem thread_lane {t : Team} {g l : Nat} {th : Thread} (h : t.thread? g l = some th) : th.lane = l := by
  unfold Team.thread? at h
  cases hg : t.group? g with
  | none => simp [hg] at h
  | some x =>
    simp only [hg, Option.bind_some] at h
    have := List.find?_some h
    simpa using this

/-- Writes without those that are discarded (R105). -/
def drop0 (ws : List (RegId × DWord)) : List (RegId × DWord) := ws.filter fun w => !w.1.discards

/-- A word performed for each thread, whose effect in a thread is to write some registers: each holds its value, and nothing
else has changed. -/
theorem lane_result (s : State) (t u : Team) (lat : Nat) (f : Team → Nat → Thread → LaneOut) (res : Nat → Nat → List (RegId × DWord))
    (hlat : lat ≠ 0) (ht : s.readTeam = some t) (hu : s.curTeam = some u)
    (hf : ∀ g l th, t.thread? g l = some th → ∃ rs, f t g th = LaneOut.ok rs ∧ drop0 rs = res g l)
    (hres : ∀ g l, ∀ w ∈ res g l, w.1.plain = true ∧ w.1.trim w.2 = w.2 ∧ (∀ u : Team, (u.thread? g l).isSome = true → u.hasReg w.1 = true))
    (huniq : ∀ g l g' l', ∀ w ∈ res g l, ∀ w' ∈ res g' l', w.1 = w'.1 → w.2 = w'.2) :
    (∀ g l, s.Executes t u g l → ∀ w ∈ res g l, Lands s (laneWord lat f s) w.1 lat w.2)
      ∧ OnlyRegs s (laneWord lat f s) (fun r => ∃ g l x, (g, l) ∈ s.members ∧ (r, x) ∈ res g l) := by
  have houts : ∀ o ∈ s.laneOuts f, ∃ g l th rs, (g, l) ∈ s.members ∧ t.thread? g l = some th ∧ o = (g, l, LaneOut.ok rs) ∧ drop0 rs = res g l := by
    intro o ho
    obtain ⟨g, l, th, hm, hth, rfl⟩ := (laneOuts_mem ht f o).mp ho
    obtain ⟨rs, h1, h2⟩ := hf g l th hth
    exact ⟨g, l, th, rs, hm, hth, by rw [h1], h2⟩
  rw [laneWord_eq lat f s (fun o ho => by obtain ⟨g, l, th, rs, -, -, rfl, -⟩ := houts o ho; exact ⟨rfl, rfl⟩)]
  have hws : ∀ w ∈ (s.laneOuts f).flatMap (fun o => o.2.2.regs), w.1.discards = true ∨ ∃ g l, (g, l) ∈ s.members ∧ w ∈ res g l := by
    intro w hw
    rw [List.mem_flatMap] at hw
    obtain ⟨o, ho, hw⟩ := hw
    obtain ⟨g, l, th, rs, hm, -, rfl, h2⟩ := houts o ho
    cases hd : w.1.discards
    · right; refine ⟨g, l, hm, ?_⟩; rw [← h2]; simp only [drop0, List.mem_filter]; exact ⟨hw, by simp [hd]⟩
    · left; rfl
  have hgood : ∀ w ∈ (s.laneOuts f).flatMap (fun o => o.2.2.regs), goodWrite w := fun w hw => by
    rcases hws w hw with h | ⟨g, l, -, h⟩
    · exact .inr h
    · exact .inl (hres g l w h).1
  refine ⟨fun g l he w hw => ?_, ?_⟩
  · obtain ⟨th, hth⟩ := Option.isSome_iff_exists.mp he.before
    have hp := hres g l w hw
    refine writes_lands s u lat _ hu hgood w.1 w.2 hp.1 (hp.2.2 u he.now) hlat ?_ ?_ hp.2.1
    · obtain ⟨rs, h1, h2⟩ := hf g l th hth
      rw [List.mem_flatMap]
      refine ⟨(g, l, f t g th), (laneOuts_mem ht f _).mpr ⟨g, l, th, he.member, hth, rfl⟩, ?_⟩
      rw [← h2] at hw
      simp only [h1]
      exact (List.mem_filter.mp hw).1
    · intro y hy e
      rcases hws y hy with h | ⟨g', l', -, h⟩
      · rw [e, RegId.plain_not_discards hp.1] at h; cases h
      · exact huniq g' l' g l y h w hw e
  · exact writes_only s lat _ hgood _ fun w hw => (hws w hw).imp id fun ⟨g, l, h1, h2⟩ => ⟨g, l, w.2, h1, h2⟩

theorem curGids_mem {s : State} {g : Nat} : g ∈ s.curGids ↔ ∃ l, (g, l) ∈ s.members := by
  have key : ∀ (xs acc : List Nat), g ∈ xs.foldl (fun acc x => if acc.contains x then acc else acc ++ [x]) acc ↔ g ∈ acc ∨ g ∈ xs := by
    intro xs
    induction xs with
    | nil => simp
    | cons x r ih =>
      intro acc
      rw [List.foldl_cons, ih]
      by_cases h : acc.contains x = true
      · simp only [h, if_true, List.mem_cons]
        rw [List.contains_iff_mem] at h
        constructor
        · rintro (a | a) <;> simp [a]
        · rintro (a | rfl | a) <;> simp_all
      · simp only [h]
        simp [or_assoc]
  unfold State.curGids uniq
  rw [key]
  simp

/-- A word performed for each group, whose effect in a group is to write some registers: each holds its value, and nothing else
has changed. -/
theorem group_result (s : State) (t u : Team) (lat : Nat) (f : Team → Group → List Nat → List (RegId × DWord))
    (res : Nat → List (RegId × DWord)) (hlat : lat ≠ 0) (ht : s.readTeam = some t) (hu : s.curTeam = some u)
    (hf : ∀ g gr, t.group? g = some gr → drop0 (f t gr (s.lanesOf g)) = res g)
    (hres : ∀ g, ∀ w ∈ res g, w.1.plain = true ∧ w.1.trim w.2 = w.2 ∧ (∀ u : Team, (u.group? g).isSome = true → u.hasReg w.1 = true))
    (huniq : ∀ g g', ∀ w ∈ res g, ∀ w' ∈ res g', w.1 = w'.1 → w.2 = w'.2) :
    (∀ g, s.ExecutesGroup t u g → ∀ w ∈ res g, Lands s (groupWord lat f s) w.1 lat w.2)
      ∧ OnlyRegs s (groupWord lat f s) (fun r => ∃ g x, g ∈ s.curGids ∧ (r, x) ∈ res g) := by
  unfold groupWord
  rw [ht]
  simp only
  have hws : ∀ w ∈ s.curGids.flatMap (fun g => match t.group? g with
      | some gr => f t gr (s.lanesOf g)
      | none => []), w.1.discards = true ∨ ∃ g, g ∈ s.curGids ∧ w ∈ res g := by
    intro w hw
    rw [List.mem_flatMap] at hw
    obtain ⟨g, hg, hw⟩ := hw
    cases hgr : t.group? g with
    | none => simp [hgr] at hw
    | some gr =>
      simp only [hgr] at hw
      cases hd : w.1.discards
      · right; refine ⟨g, hg, ?_⟩; rw [← hf g gr hgr]; simp only [drop0, List.mem_filter]; exact ⟨hw, by simp [hd]⟩
      · left; rfl
  have hgood : ∀ w ∈ s.curGids.flatMap (fun g => match t.group? g with
      | some gr => f t gr (s.lanesOf g)
      | none => []), goodWrite w := fun w hw => by
    rcases hws w hw with h | ⟨g, -, h⟩
    · exact .inr h
    · exact .inl (hres g w h).1
  refine ⟨fun g he w hw => ?_, ?_⟩
  · obtain ⟨gr, hgr⟩ := Option.isSome_iff_exists.mp he.before
    have hp := hres g w hw
    refine writes_lands s u lat _ hu hgood w.1 w.2 hp.1 (hp.2.2 u he.now) hlat ?_ ?_ hp.2.1
    · rw [List.mem_flatMap]
      refine ⟨g, he.member, ?_⟩
      rw [← hf g gr hgr] at hw
      simp only [hgr]
      exact (List.mem_filter.mp hw).1
    · intro y hy e
      rcases hws y hy with h | ⟨g', -, h⟩
      · rw [e, RegId.plain_not_discards hp.1] at h; cases h
      · exact huniq g' g y h w hw e
  · exact writes_only s lat _ hgood _ fun w hw => (hws w hw).imp id fun ⟨g, h1, h2⟩ => ⟨g, w.2, h1, h2⟩

end Sys2Proof.Machine
end

