-- ==== Sys2Proof/Tests/Slice0.lean ====
section
/-! SUPPORT. Tests: words of the encoding tables, ill-formed terms, and states that meet the hypotheses of the statements. -/

set_option maxRecDepth 100000

namespace Sys2Proof.Machine

/-- Every word of a list decodes, with its C bit clear, to the instruction beside it. -/
def reads (l : List (Word × Instr)) : Bool := l.all fun p => (decodeWord p.1).toOption == some (false, p.2)

/-- Words written out from the encodings of R33, R116. -/
theorem test_words_1 : reads [
    (0x00000000, .nop),
    (0x0220A240, .iadd 8 0x14 0x24),
    (0x0220A241, .isub 8 0x14 0x24),
    (0x0220A242, .imul 8 0x14 0x24),
    (0x0220A243, .imulhI32 8 0x14 0x24),
    (0x0220A244, .imulhN32 8 0x14 0x24),
    (0x0220A245, .and 8 0x14 0x24),
    (0x0220A246, .or 8 0x14 0x24),
    (0x0220A247, .xor 8 0x14 0x24),
    (0x0220A248, .shl 8 0x14 0x24),
    (0x0220A249, .shr 8 0x14 0x24),
    (0x0220A24A, .sar 8 0x14 0x24),
    (0x0220A24B, .iminI32 8 0x14 0x24),
    (0x0220A24C, .imaxI32 8 0x14 0x24),
    (0x0220A24D, .iminN32 8 0x14 0x24),
    (0x0220A24E, .imaxN32 8 0x14 0x24)] = true := by decide

/-- Words written out from the encodings of R116. -/
theorem test_words_2 : reads [
    (0x0220A24F, .iaddsI32 8 0x14 0x24),
    (0x0620A080, .iaddVs 8 0x14 4),
    (0x0620A081, .isubVs 8 0x14 4),
    (0x0620A082, .imulVs 8 0x14 4),
    (0x0620A083, .imulhI32Vs 8 0x14 4),
    (0x0620A084, .imulhN32Vs 8 0x14 4),
    (0x0620A085, .andVs 8 0x14 4),
    (0x0620A086, .orVs 8 0x14 4),
    (0x0620A087, .xorVs 8 0x14 4),
    (0x0620A088, .shlVs 8 0x14 4),
    (0x0620A089, .shrVs 8 0x14 4),
    (0x0620A08A, .sarVs 8 0x14 4),
    (0x0620A08B, .iminI32Vs 8 0x14 4),
    (0x0620A08C, .imaxI32Vs 8 0x14 4),
    (0x0620A08D, .iminN32Vs 8 0x14 4),
    (0x0620A08E, .imaxN32Vs 8 0x14 4)] = true := by decide

/-- Words written out from the encodings of R116, R117, R118, R119, R120. -/
theorem test_words_3 : reads [
    (0x0620A08F, .iaddsI32Vs 8 0x14 4),
    (0x06200090, .movs 8 4),
    (0x0620A091, .imacs 8 0x14 4),
    (0x0420A09C, .iaddi 8 0x14 0x9C),
    (0x0420A19C, .andi 8 0x14 0x9C),
    (0x0420A29C, .ori 8 0x14 0x9C),
    (0x0420A39C, .xori 8 0x14 0x9C),
    (0x0420A403, .shli 8 0x14 3),
    (0x0420A503, .shri 8 0x14 3),
    (0x0420A603, .sari 8 0x14 3),
    (0x0420079C, .movi 8 0x9C),
    (0x08444142, .setp 1 1 8 0x14 2),
    (0x0A0A7800, .pand 1 2 3 1 1),
    (0x0A4A7800, .por 1 2 3 1 1),
    (0x0A8A7800, .pxor 1 2 3 1 1),
    (0x0ACA1000, .pmov 1 2 1)] = true := by decide

/-- Words written out from the encodings of R120, R121, R132. -/
theorem test_words_4 : reads [
    (0x0B080080, .pfromm 1 1),
    (0x0C20A249, .sel 8 0x14 0x24 1 1),
    (0x0E20A240, .fadd 8 0x14 0x24),
    (0x0E20A241, .fsub 8 0x14 0x24),
    (0x0E20A242, .fmul 8 0x14 0x24),
    (0x0E20A243, .fmin 8 0x14 0x24),
    (0x0E20A244, .fmax 8 0x14 0x24),
    (0x0E20A245, .ffma 8 0x14 0x24),
    (0x0E20A246, .hadd2 8 0x14 0x24),
    (0x0E20A247, .hmul2 8 0x14 0x24),
    (0x0E20A248, .hfma2 8 0x14 0x24),
    (0x0E20A249, .badd2 8 0x14 0x24),
    (0x0E20A24A, .bmul2 8 0x14 0x24),
    (0x0E20A24B, .bfma2 8 0x14 0x24),
    (0x0E20A24C, .hmin2 8 0x14 0x24),
    (0x0E20A24D, .hmax2 8 0x14 0x24)] = true := by decide

/-- Words written out from the encodings of R134, R135. -/
theorem test_words_5 : reads [
    (0x1020A080, .fadds 8 0x14 4),
    (0x1020A081, .fsubs 8 0x14 4),
    (0x1020A082, .fmuls 8 0x14 4),
    (0x1020A083, .ffmas 8 0x14 4),
    (0x1020A084, .fmins 8 0x14 4),
    (0x1020A085, .fmaxs 8 0x14 4),
    (0x1020A086, .hfma2s 8 0x14 4),
    (0x1020A087, .bfma2s 8 0x14 4),
    (0x1220A004, .cvtF32I32 8 0x14 1),
    (0x1220A014, .cvtF32N32 8 0x14 1),
    (0x1220A026, .cvtI32F32 8 0x14 1 1),
    (0x1220A036, .cvtN32F32 8 0x14 1 1),
    (0x1220A046, .cvtF16F32 8 0x14 1 1),
    (0x1220A050, .cvtF32F16 8 0x14),
    (0x1220A066, .cvtBf16F32 8 0x14 1 1),
    (0x1220A070, .cvtF32Bf16 8 0x14)] = true := by decide

/-- Words written out from the encodings of R135, R137. -/
theorem test_words_6 : reads [
    (0x1220A082, .cvtDm8F32 8 0x14 1),
    (0x1220A094, .cvtF32Dm8 8 0x14 1),
    (0x1220A0A6, .cvtE4m3F32 8 0x14 1 1),
    (0x1220A0B0, .cvtF32E4m3 8 0x14),
    (0x1220A0C6, .cvtE5m2F32 8 0x14 1 1),
    (0x1220A0D0, .cvtF32E5m2 8 0x14),
    (0x1220A0E0, .fabs 8 0x14),
    (0x1220A0F0, .fneg 8 0x14),
    (0x1220A100, .popc 8 0x14),
    (0x1220A110, .clz 8 0x14),
    (0x1220A120, .brev 8 0x14),
    (0x1220A130, .sx8 8 0x14),
    (0x1220A140, .sx16 8 0x14),
    (0x1220A150, .zx8 8 0x14),
    (0x1220A160, .zx16 8 0x14),
    (0x1420A000, .rcp 8 0x14)] = true := by decide

/-- Words written out from the encodings of R109, R122, R123, R137, R169. -/
theorem test_words_7 : reads [
    (0x1420A001, .rsq 8 0x14),
    (0x1420A002, .sqrt 8 0x14),
    (0x1420A003, .exp2 8 0x14),
    (0x1420A004, .log2 8 0x14),
    (0x1420A005, .sinrv 8 0x14),
    (0x1420A006, .cosrv 8 0x14),
    (0x1420A007, .tanh 8 0x14),
    (0x1620A000, .mov 8 0x14),
    (0x16004044, .rfal 8 4),
    (0x1610408A, .rlane 4 8 0xA),
    (0x162000C0, .laneid 8),
    (0x16200100, .tid 8),
    (0x16200144, .rdtsr 8 4),
    (0x16004184, .wrtsr 8 4),
    (0x1820A240, .shfl 8 0x14 0x24),
    (0x1820A241, .shflup 8 0x14 0x24)] = true := by decide

/-- Words written out from the encodings of R115, R140, R169, R170, R171. -/
theorem test_words_8 : reads [
    (0x1820A242, .shfldn 8 0x14 0x24),
    (0x1820A243, .shflx 8 0x14 0x24),
    (0x18041004, .vany 1 2),
    (0x18041005, .vall 1 2),
    (0x18100806, .ballot 4 1),
    (0x1820A007, .redaddI32 8 0x14),
    (0x1820A008, .redaddF32 8 0x14),
    (0x1820A009, .redmaxF32 8 0x14),
    (0x1820A00A, .redminF32 8 0x14),
    (0x1820A00B, .scanaddI32 8 0x14),
    (0x1820A00C, .scanaddF32 8 0x14),
    (0x1A20A240, .rread 8 0x14 0x24),
    (0x1A20A241, .rwrite 8 0x14 0x24),
    (0x1C20A0C0, .rand 8 0x14 3),
    (0x1C20A0C1, .randf 8 0x14 3),
    (0x1C304142, .rand4 3 8 5)] = true := by decide

/-- Words written out from the encodings of R124. -/
theorem test_words_9 : reads [
    (0x20214B00, .sadd 4 0xA 0x16),
    (0x20214B01, .ssub 4 0xA 0x16),
    (0x20214B02, .smul 4 0xA 0x16),
    (0x20214B03, .smulhI32 4 0xA 0x16),
    (0x20214B04, .smulhN32 4 0xA 0x16),
    (0x20214B05, .sand 4 0xA 0x16),
    (0x20214B06, .sor 4 0xA 0x16),
    (0x20214B07, .sxor 4 0xA 0x16),
    (0x20214B08, .sshl 4 0xA 0x16),
    (0x20214B09, .sshr 4 0xA 0x16),
    (0x20214B0A, .ssar 4 0xA 0x16),
    (0x20214B0B, .sminI32 4 0xA 0x16),
    (0x20214B0C, .smaxI32 4 0xA 0x16),
    (0x20214B0D, .sminN32 4 0xA 0x16),
    (0x20214B0E, .smaxN32 4 0xA 0x16),
    (0x2021400F, .smov 4 0xA)] = true := by decide

/-- Words written out from the encodings of R124, R125, R126, R127, R128, R164. -/
theorem test_words_10 : reads [
    (0x20314910, .sadd64 3 5 9),
    (0x20314911, .ssub64 3 5 9),
    (0x20314212, .sshl64 3 5 4),
    (0x20314213, .sshr64 3 5 4),
    (0x20308514, .smulw 3 4 0xA),
    (0x22215ABC, .saddi 4 0xA 0x1ABC),
    (0x24254321, .slui 4 0x54321),
    (0x2C315ABC, .saddi64 3 5 0x1ABC),
    (0x26444288, .scmp 1 1 4 0xA 2),
    (0x280A7800, .qand 1 2 3 1 1),
    (0x284A7800, .qor 1 2 3 1 1),
    (0x288A7800, .qxor 1 2 3 1 1),
    (0x28CA1000, .qmov 1 2 1),
    (0x2A100200, .ssrr 4 8),
    (0x2B100C80, .ssrw 4 0x32),
    (0x30010000, .join 1)] = true := by decide

/-- Words written out from the encodings of R151, R152, R154, R155, R164, R166. -/
theorem test_words_11 : reads [
    (0x30110000, .leave 1),
    (0x30210000, .waitm 1),
    (0x30310180, .mset 1 3),
    (0x30410180, .mget 1 3),
    (0x30512000, .mand 1 2),
    (0x30612000, .mor 1 2),
    (0x30712000, .mandn 1 2),
    (0x30810100, .mpopc 1 4),
    (0x30900180, .mself 3),
    (0x41FFFFF7, .bra 0x1FFFFF7),
    (0x433F0F0F, .brp 1 1 0x1F0F0F),
    (0x453F0F0F, .brq 1 1 0x1F0F0F),
    (0x47FFFFF7, .call 0x1FFFFF7),
    (0x48004000, .callr 4),
    (0x48104000, .jmpr 4),
    (0x48200000, .ret)] = true := by decide

/-- Words written out from the encodings of R156, R158, R161, R198, R200, R202, R208, R218, R219. -/
theorem test_words_12 : reads [
    (0x48300000, .exit),
    (0x48400000, .reformG),
    (0x48480000, .reformT),
    (0x48500000, .yield),
    (0x50206285, .ld 8 3 0x14 1 1),
    (0x52206285, .st 8 3 0x14 1 1),
    (0x54206282, .atom 8 3 0x14 1 0),
    (0x56206282, .red 8 3 0x14 1 0),
    (0x5C040000, .fenceAcq 1),
    (0x5C240000, .fenceRel 1),
    (0x5C440000, .fenceAr 1),
    (0x5C640000, .drainNt 1),
    (0x5C840000, .aliasfence 1),
    (0x5E006100, .prefetch 3 8),
    (0x5E406100, .wbl 3 8),
    (0x5E806100, .invl 3 8)] = true := by decide

/-- Words written out from the encodings of R250, R251, R252, R253, R260, R261, R262, R266, R267, R273, R274, R276, R278. -/
theorem test_words_13 : reads [
    (0x60020C00, .tchain 4 3),
    (0x60200C00, .tagwaitAll 3),
    (0x60400C00, .tagwaitAny 3),
    (0x60620C00, .tagfirst 4 3),
    (0x60800C00, .tagclr 3),
    (0x60A21000, .qpop 8 1),
    (0x60C00800, .tcancel 4),
    (0x62040000, .oclaim 4),
    (0x62440000, .orelease 4),
    (0x62800000, .ofence),
    (0x643254A8, .mma 3 1 5 9 2 1),
    (0x66040000, .mwait 1),
    (0x66246000, .mdrain 1 3),
    (0x66440000, .mzero 1),
    (0x66646000, .mload 1 3),
    (0x66844000, .cvset 1 4)] = true := by decide

/-- Words written out from the encodings of R286, R287, R292, R304, R305, R306, R316, R323, R369. -/
theorem test_words_14 : reads [
    (0x70088014, .arrive 1 4 0xA),
    (0x7048852C, .waitb 1 4 0xA 0x16),
    (0x70888014, .sync 1 4 0xA),
    (0x70C8852C, .arrivex 1 4 0xA 0x16),
    (0x72000000, .tkwait),
    (0x72400000, .tkpass),
    (0x72800000, .tkdone),
    (0x74020000, .ensure 4),
    (0x74200000, .elseby),
    (0x74400000, .elseerror),
    (0x74600000, .accept),
    (0x74800000, .reject),
    (0x74A20000, .convjoin 4),
    (0x74C00000, .convleave),
    (0x74E20000, .rbstat 4),
    (0x76021400, .fork 4 0xA)] = true := by decide

/-- Words written out from the encodings of R324, R325, R326, R340, R341, R364, R399. -/
theorem test_words_15 : reads [
    (0x76200800, .wdone 4),
    (0x76421400, .choose 4 0xA),
    (0x76600000, .wabort),
    (0x76830800, .wstat 3 4),
    (0x78100000, .migrate 1),
    (0x78401234, .eqpt 0x1234),
    (0x78806100, .klaunch 3 4),
    (0x7C00009C, .trap 0x9C),
    (0x7C200000, .rtt),
    (0x7C406280, .icinv 3 5),
    (0x7C600000, .bkpt)] = true := by decide

/-! ## Field checks: an ill-formed term for each, refused by name -/

/-- An ill-formed term for each field check, and a well-formed one beside it. -/
theorem test_ill_formed_terms : [
    (Instr.sadd 63 1 2, some FieldError.literalDest), (.saddi 4 63 1, some .literalSource), (.sadd64 31 2 4, some .badPair),
    (.ballot 5 1, some .badPair), (.ld 3 4 127 3 0, some .misalignedVector), (.setp 1 0 4 6 6, some .badCompare),
    (.scmp 1 2 4 6 0, some .badCompare), (.join 12, some .badMask), (.rdtsr 4 17, some .badThreadRegister),
    (.wrtsr 4 0, some .badThreadRegister), (.ssrr 4 7, some .badSpecialRegister), (.ssrw 4 0, some .badSpecialRegister),
    (.ld 4 4 127 7 0, some .badAccess), (.atom 4 4 127 0 1, some .badAccess), (.fenceAcq 5, some .badScope), (.sync 5 0 4, some .badScope),
    (.sync 0 16 4, some .badBarrier), (.mma 8 0 0 1 0 0, some .badShape), (.mma 0 1 0 1 0 0, some .badShape), (.migrate 3, some .badKind),
    (.ensure 63, some .literalSource), (.sadd 62 63 2, none), (.sync 0 15 4, none), (.mma 0 2 0 1 0 0, none)].all
      (fun p => p.1.fieldError == p.2 && p.1.wf == p.2.isNone) = true := by decide

/-- Words that are no instruction (R33, R43, R46, R47; 02_encoding Table 9). -/
theorem test_rejected_words : [
    ((0x80000000#32 : Word), DecodeError.nopBits), (0x1E000000, .reservedMajor), (0x2E000000, .unassignedMajor),
    (0xFFFFFFFF, .neverMajor), (0x0600001F, .noSuchWord), (0x5C020000, .noSuchWord), (0x5C140000, .field .badScope),
    (0x21F80000, .field .literalDest)].all
      (fun p => decide ((match decodeWord p.1 with
        | .error e => some e
        | .ok _ => none) = some p.2)) = true := by decide

/-! ## States that meet the hypotheses of the statements -/

/-- The tables of a loaded machine: virtual address 0 at 0x50000, readable, writable and executable (R180, R181). -/
def pageMem : List Host.Cell :=
  [(0x10000, 1), (0x10002, 2), (0x20000, 1), (0x20002, 3), (0x30000, 1), (0x30002, 4), (0x40000, 15), (0x40002, 5), (0x40006, 16)]

theorem test_tables : programTables [] = pageMem := by decide

/-- The machine loaded with a word, at the issue of that word by its one thread. -/
def atWord (w : Word) : State :=
  { State.reset.loadWord 0 with
    mem := pageMem, cur := { Issue.none with team := 2, squad := 3, members := [(0, 0)], pc := 4, next := 8, first := 4, word := w } }

/-- The team of `atWord`. -/
def team0 : Team := programTeam 0 0 0 4

/-- The thread, the group and the squad of `team0`. -/
def thread0 : Thread := newThread 0 0 4
def group0 : Group := programGroup 4
def squad0 : Squad :=
  { key := 3, members := [(0, 0)], wait := none, t0 := 0, tlast := 0, packet := none, line := [], pass := [], held := [],
    popWait := none, since := [], holds := false, parted := false, join := none }

/-- `atWord` with its team changed. -/
def withTeam (w : Word) (f : Team → Team) : State := { atWord w with teams := [f team0] }

/-- The loaded machine with the arguments of a step. -/
def withArg (l : List Nat) : State := { State.reset.loadWord 0 with mem := pageMem, arg := l }

/-- The one team, context and launch of a loaded machine stand where the keys of `atWord` say. -/
theorem test_loaded : (atWord 0).team? 2 = some team0 ∧ (atWord 0).ctx? 0 = some programContext ∧ team0.group? 0 = some group0
    ∧ team0.thread? 0 0 = some thread0 ∧ team0.squad? 3 = some squad0 ∧ (atWord 0).image? 0 = some (programImage 0)
    ∧ (atWord 0).launch? 1 = some (programLaunch 1 0) := ⟨rfl, rfl, rfl, rfl, rfl, rfl, rfl⟩


/-- A result that is not an error is some value. -/
theorem ok_of {ε α : Type} {e : Except ε α} (h : e.isOk = true) : ∃ a, e = .ok a := by
  cases e with
  | ok a => exact ⟨a, rfl⟩
  | error _ => cases h

theorem some_of {α : Type} {o : Option α} (h : o.isSome = true) : ∃ a, o = some a := Option.isSome_iff_exists.mp h

theorem meets_DecodeEncode : (Instr.iadd 4 5 6).wf = true ∧ encode true (.iadd 4 5 6) = some 0x82102860#32
    ∧ Instr.nop.wf = true ∧ encode true .nop = some 0x80000000#32 := by decide

theorem meets_EncodeDecode : decodeWord 0x5020A128#32 = .ok (false, .ld 8 5 9 2 0) := rfl

/-- A due input, whose meaning gives a next state. -/
theorem meets_StepPerformsEvents :
    let s : State := { State.reset with agenda := [{ step := .powerLimitSet, arg := [2000] }] }
    (∃ s1, s.nextEvent = some ({ step := .powerLimitSet, arg := [2000] }, [])
      ∧ exec .powerLimitSet { s with cur := Issue.none, arg := [2000], agenda := [] } = .next s1)
    ∧ ∀ b, let s : State := { State.reset.loadWord 0 with run := [], part := { programPart Part.reset with supply := b } }
      s.nextEvent = none ∧ s.nextIssue = none := ⟨⟨_, rfl, rfl⟩, by decide⟩

/-- A squad that has begun its packet, at the second of its words. -/
def begunState : State :=
  { withTeam 0 fun t => t.modSquad 3 fun q => { q with packet := some 0, line := [0x00FFF000, 0x02102860, 0, 0] } with now := 9 }

theorem meets_StepRunsDecoded : ∃ t q us,
    begunState.nextEvent = none ∧ begunState.part.supply = true ∧ begunState.nextIssue = some (2, 3)
    ∧ begunState.team? 2 = some t ∧ t.squad? 3 = some q ∧ t.begun q = true ∧ us = issueUnit t.kind (t.squadPc q) q.line
    ∧ us.map (fun u => (decodeWord u.word).toOption.map Prod.snd) = [some (.iadd 4 5 6)] ∧ begunState.beyond t (.iadd 4 5 6) = none
    ∧ illegalIn t.kind (.iadd 4 5 6) = false ∧ begunState.parksHere t q q.line = false
    ∧ ∀ u ∈ us, begunState.etrapOf t q.line u.pc = false :=
  ⟨_, _, _, by decide, rfl, by decide, rfl, rfl, by decide, rfl, by decide, by decide, rfl, by decide, by decide⟩

theorem meets_PacketFetched : ∃ t q p pa,
    let s := withArg [2, 3]
    s.team? 2 = some t ∧ t.squad? 3 = some q ∧ t.kind = .dcore ∧ t.begun q = false ∧ s.canIssue t q = true
    ∧ s.fetchAt t (t.squadPc q) = .ok (p, pa) ∧ (∀ va, s.heldWord t va = none)
    ∧ packetError (s.fetched t (t.squadPc q) pa) = none ∧ s.parksHere t q (s.fetched t (t.squadPc q) pa) = false :=
  ⟨team0, squad0, _, 0x50000, rfl, rfl, rfl, by decide, by decide, rfl, fun _ => rfl, by decide, by decide⟩

theorem meets_ConstantRegisters : scalarDest (.sadd 63 1 2) = some 63 ∧ scalarDest (.sync 0 1 63) = some 63 := by decide

/-- The thread of `atWord` executes. -/
theorem meets_Executes (w : Word) : (atWord w).Executes team0 team0 0 0 := ⟨rfl, rfl, List.mem_cons_self, rfl, rfl⟩

theorem meets_ExecutesGroup (w : Word) : (atWord w).ExecutesGroup team0 team0 0 := ⟨rfl, rfl, List.mem_cons_self, rfl, rfl⟩

theorem meets_IntegerWords : (atWord 0).members ≠ [] ∧ ∀ m ∈ (atWord 0).members, ∀ i ∈ [Instr.iadd 4 5 6, .sari 4 5 31, .pand 0 1 2 1 0,
    .rwrite 3 127 4, .setp 1 6 4 6 5], ((atWord 0).laneResult team0 m.1 m.2 i).isSome = true := by decide

theorem meets_ScalarWords : ∀ i ∈ [Instr.sadd 0 63 2, .sadd64 30 2 4, .scmp 1 6 4 6 5, .mset 11 3, .join 0, .qmov 0 1 1],
    ((atWord 0).groupResult team0 team0 0 i).isSome = true := by decide

theorem meets_FloatWords : ∀ m ∈ (atWord 0).members, ∀ i ∈ [Instr.fadd 4 5 6, .hfma2s 4 5 6, .cvtI32F32 4 5 3 1, .setp 1 2 4 5 7],
    ((atWord 0).floatResult team0 m.1 m.2 i).any (fun r => !takesFpx ((atWord 0).fpctlOf team0 m.1 m.2) r.2.2) = true := by decide

/-- A signalling NaN under TI: the word takes `FPX`; and a relative number at the kernel's `.vregs`, 128 here. -/
theorem meets_TrappingOperands :
    (∃ t lat ws fl, let s := withTeam 0 fun t => t.modThread 0 0 fun x => { x with fpctl := 0x10, v := [(5, 0x7F800001)] }
      s.Executes t t 0 0 ∧ s.members = [(0, 0)] ∧ s.floatResult t 0 0 (.fadd 4 5 6) = some (lat, ws, fl)
        ∧ takesFpx (s.fpctlOf t 0 0) fl = true)
    ∧ (∃ t, let s := withTeam 0 fun t => t.modThread 0 0 fun x => { x with v := [(6, 1)] }
      s.Executes t t 0 0 ∧ s.vregs t ≤ (127 : BitVec 7).toNat + (s.rdV t 0 0 6).toNat) :=
  ⟨⟨_, _, _, _, ⟨rfl, rfl, by decide, rfl, rfl⟩, rfl, rfl, by decide⟩, ⟨_, ⟨rfl, rfl, by decide, rfl, rfl⟩, by decide⟩⟩

theorem meets_MinMaxOperands : fmtF16 ∈ registerFmts ∧ flushed fmtF16 true 0x8001 = 0x8000 ∧ isNan (decodeFp fmtF16 0x7C01) = true
    ∧ isNan (decodeFp fmtF16 0x8000) = false ∧ isZero (decodeFp fmtF16 0x8000) = true ∧ isZero (decodeFp fmtF16 0) = true := by decide

/-- 1 + 1 is 2, a sum of finite operands that is not zero. -/
theorem meets_ExactThenRounded : decodeFp fmtF32 0x3F800000 = .num false (2 ^ 23) (-23)
    ∧ (Val.num false 2 0).exact = (Val.num false (2 ^ 23) (-23)).exact + (Val.num false (2 ^ 23) (-23)).exact
    ∧ fpFtz 0 = false ∧ opAdd fmtF32 0 0x3F800000 0x3F800000 0 = roundTo fmtF32 0 false false 2 0 :=
  ⟨by decide, by norm_num [Val.exact], by decide, by decide⟩

theorem meets_Rounding : fmtBf16 ∈ registerFmts ∧ 3 ∈ [1, 2, 3] ∧ (roundTo fmtBf16 3 false false 1 1000).1 = 0x7F80
    ∧ (roundTo fmtBf16 1 false true 257 (-300)).1 = 0x8000 := by decide

theorem meets_Producers : (∀ m ∈ (atWord 0).members, ∀ i ∈ [Instr.rcp 4 5, .rand4 31 5 31, .rdtsr 4 16, .rread 4 127 5],
      ((atWord 0).producerResult team0 m.1 m.2 i).any (fun r => !takesFpx ((atWord 0).fpctlOf team0 m.1 m.2) r.2) = true)
    ∧ (∀ g ∈ (atWord 0).curGids, ∀ i ∈ [Instr.rfal 5 4, .rlane 63 5 0], ((atWord 0).scalarProducer team0 g i).isSome = true)
    ∧ (atWord 0).curGids ≠ [] := by decide

/-- Results due of the three kinds. -/
theorem meets_ResultsWritten : ∀ w ∈ [OpKind.vres [(0, 0, 127, 9)] 0, .sres 0 62 9, .tsr [(0, 0, orFlagsIndex, 3)]],
    let o : Op := { key := 9, team := 2, toks := [], due := 0, iss := Issue.none, what := w }
    let s : State := { withArg [9] with ops := [o] }
    s.arg = [o.key] ∧ s.op? o.key = some o ∧ o.what.isResult = true ∧ o.due ≤ s.now ∧ (s.team? o.team).isSome = true := by decide

theorem meets_SpecialRegisters : (∀ r ∈ [0x008, 0x009, 0x010, 0x012, 0x118], (atWord 0).srWindow team0 0 ((srTaken r).headD r) = none)
    ∧ (atWord 0).srWindow team0 0 0x213 = none
    ∧ (Instr.wrtsr 4 15).wf = true ∧ (Instr.ssrw 4 0x32).wf = true := by decide

/-- Its one group executes, and no chunk holds it back. -/
theorem meets_InGroup : (atWord 0).InGroup team0 0 := ⟨rfl, rfl, by decide, rfl, ⟨by decide, by decide⟩⟩

/-- `team0` with what its squad's word has waited for. -/
def passedTeam (got : List (Nat × Nat × Nat)) : Team := team0.modSquad 3 fun q => { q with pass := [(4, got)] }

theorem meets_passed (got : List (Nat × Nat × Nat)) : (withTeam 0 fun _ => passedTeam got).passed = some got
    ∧ (withTeam 0 fun _ => passedTeam got).InGroup (passedTeam got) 0 :=
  ⟨rfl, ⟨rfl, rfl, rfl, rfl, ⟨fun _ _ => rfl, fun _ _ => rfl⟩⟩⟩

theorem meets_CollectiveWords : (collectiveDest (.shflx 4 5 6)).isSome = true ∧ (collectiveDest (.vall 1 2)).isSome = true
    ∧ (atWord 0).passed = none ∧ (withTeam 0 fun _ => passedTeam [(0, 0, 1)]).passed = some [(0, 0, 1)]
    ∧ (RegId.p 0 0 1).discards = false := by decide

theorem meets_CollectiveResults :
    let ps : List Part1 := [{ lane := 0, x := 7, n := 1, p := true }, { lane := 31, x := 9, n := 0xFFFFFFFF, p := false }]
    (ps.map Part1.lane).Pairwise (· < ·) ∧ (∀ p ∈ ps, p.lane < 32) ∧ (Instr.ballot 60 7).wf = true
      ∧ encode false (.ballot 60 7) = some 0x18F03806#32 ∧ [0, 63].Nodup ∧ (atWord 0).team? team0.key = some team0 := by decide

/-- `team0` with a handler, and its private memory in the loaded page. -/
def trapTeam : Team := team0.modGroup 0 fun g => { g with tvec := 0x104 }
def trapState (f : Team → Team) : State :=
  { withTeam 0 (fun _ => f trapTeam) with launches := [{ programLaunch 1 0 with privBase := 0x8000, privSize := 256 }] }

theorem meets_MayTrap : ∃ gr th sp, (trapState id).MayTrap trapTeam 0 0 gr th 0x104 sp ∧ (trapState id).members = [(0, 0)] :=
  have ⟨sp, h⟩ := ok_of (e := (trapState id).privRange trapTeam 0 .store 0 64) (by decide)
  ⟨_, _, sp, ⟨rfl, rfl, ⟨_, rfl, rfl⟩, rfl, rfl, by decide, rfl, rfl, h⟩, by decide⟩

/-- A load at address 2 of four bytes; a store there after `TKDONE`, on a page of DS 1 of a deterministic context. -/
def oddTeam (done : Bool) : Team :=
  (trapTeam.modThread 0 0 fun x => { x with v := [(9, 2)] }).modGroup 0 fun g => { g with tkdone := done }
def oddState (done : Bool) : State :=
  { trapState fun _ => oddTeam done with ctxs := [{ programContext with det := done }], mem := memWrite 0x40001 [if done then 1 else 0] pageMem }

theorem meets_misaligned : ∀ d ∈ [false, true], ∃ gr th sp, (oddState d).MayTrap (oddTeam d) 0 0 gr th 0x104 sp
    ∧ (oddState d).readTeam = some (oddTeam d) ∧ (oddState d).members = [(0, 0)] ∧ (oddState d).Unchunked ∧ (oddState d).before = none
    ∧ accessOf (.st 8 0 9 2 0) = some (0, 9, 4) ∧ misaligned ((oddState d).addressOf (oddTeam d) 0 0 0 9) 4 = true
    ∧ (oddState d).dsDoneFault (oddTeam d) (0, 0, (oddState d).addressOf (oddTeam d) 0 0 0 9, AFault.of cMisalign) = d := by
  intro d h
  have ⟨sp, hs⟩ := ok_of (e := (oddState d).privRange (oddTeam d) 0 .store 0 64)
    (by revert h; revert d; decide)
  simp only [List.mem_cons, List.not_mem_nil, or_false] at h
  rcases h with rfl | rfl <;>
    exact ⟨_, _, sp, ⟨rfl, rfl, ⟨_, rfl, rfl⟩, rfl, rfl, by decide, rfl, rfl, hs⟩, rfl, by decide, ⟨by decide, by decide⟩, rfl, rfl, by decide,
      by decide⟩

/-- In its handler, with an epc that may be resumed at slot 2 and one that may not. -/
def handlerTeam (pc : DWord) : Team := trapTeam.modThread 0 0 fun x => { x with handler := true, epcd := pc }

theorem meets_TrapReturn : ∃ sp th, (trapState fun _ => handlerTeam 0xC).curTeam = some (handlerTeam 0xC)
    ∧ (trapState fun _ => handlerTeam 0xC).members = [(0, 0)] ∧ (handlerTeam 0xC).thread? 0 0 = some th ∧ th.handler = true
    ∧ (trapState fun _ => handlerTeam 0xC).privRange (handlerTeam 0xC) th.tid .load th.tframe.toNat 64 = .ok sp :=
  have ⟨sp, h⟩ := ok_of (e := (trapState fun _ => handlerTeam 0xC).privRange (handlerTeam 0xC) 0 .load 0 64) (by decide)
  ⟨sp, { thread0 with handler := true, epcd := 0xC }, rfl, rfl, rfl, rfl, h⟩

theorem meets_Branches : (atWord 0).members ≠ []
    ∧ (∀ m ∈ (atWord 0).members, (atWord 0).branchOf team0 m.1 m.2 (.bra 4) = some (some 0x14)) ∧ targetOk team0 0x14 = true
    ∧ (∀ m ∈ (atWord 0).members, (atWord 0).branchOf team0 m.1 m.2 (.brp 1 0 4) = some none)
    ∧ (atWord 0).branchOf team0 0 0 (.jmpr 0) = some (some 0) ∧ (atWord 0).callOf team0 0 0 (.call 1) = some 8
    ∧ targetOk team0 0 = false ∧ targetOk team0 8 = false := by decide

/-- Return stacks of 7, 8 and 9 entries: a push within the core, a push that spills, a pop that refills. -/
def deepTeam (n : Nat) : Team := trapTeam.modThread 0 0 fun x => { x with depth := n, stack := List.replicate (min n 8) 0x24 }

theorem meets_CallsAndReturns : (∀ n ∈ [0, 7, 8, 9], ∃ x, (trapState fun _ => deepTeam n).curTeam = some (deepTeam n)
      ∧ (deepTeam n).thread? 0 0 = some x ∧ x.depth = n ∧ (0 < n → targetOk (deepTeam n) (x.stack.headD 0) = true))
    ∧ ((trapState fun _ => deepTeam 8).privRange (deepTeam 8) 0 .store 64 8).isOk = true
    ∧ ((trapState fun _ => deepTeam 9).privRange (deepTeam 9) 0 .load 64 8).isOk = true
    ∧ (atWord 0).callOf team0 0 0 (.call 4) = some 0x14 ∧ targetOk team0 0x14 = true := by
  refine ⟨fun n h => ⟨_, rfl, rfl, rfl, ?_⟩, by decide, by decide, by decide, by decide⟩
  simp only [List.mem_cons, List.not_mem_nil, or_false] at h
  rcases h with rfl | rfl | rfl | rfl <;> decide

/-- The page of private memory under a move, and none: frames and spilled entries wait for it, or do not (R191). -/
theorem meets_privateMoves :
    let moving := fun (t : Team) => ({ trapState fun _ => t with moves := [⟨0, 0, 3, some 0x80000, []⟩] } : State)
    let x := { thread0 with handler := true, epcd := 0xC }
    (moving (handlerTeam 0xC)).privMoves (handlerTeam 0xC) x false 0 64 = true
    ∧ (trapState fun _ => handlerTeam 0xC).privMoves (handlerTeam 0xC) x false 0 64 = false
    ∧ (moving (deepTeam 8)).stackMoves (deepTeam 8) [(0, 0)] true = true ∧ (moving (deepTeam 9)).stackMoves (deepTeam 9) [(0, 0)] false = true
    ∧ (trapState fun _ => deepTeam 8).stackMoves (deepTeam 8) [(0, 0)] true = false
    ∧ (trapState fun _ => deepTeam 9).stackMoves (deepTeam 9) [(0, 0)] false = false
    ∧ (moving (deepTeam 8)).cur.cleared = false
    ∧ (moving trapTeam).entryWaits trapTeam 0 0 = true ∧ (trapState id).entryWaits trapTeam 0 0 = false := by decide

/-- A tray for the thread, none yet, and none free; two threads, of which one exits; an open level. -/
theorem meets_GroupWords :
    let y : Tray := { num := 0, pc := 4, group := some 0, held := [], yielded := [], aged := false }
    ((withTeam 0 fun t => { t with trays := [y] }).curTeam.bind fun t => t.trays.find? fun y => y.pc == 4 && y.group == some 0) = some y
    ∧ (atWord 0).freeTray team0 = some 0
    ∧ (∃ c : Conv, (withTeam 0 fun t => { t with convs := [{ n := 7, mask := 1, round := none }] }).curTeam.bind (fun t => t.conv? 7) = some c)
    ∧ (∃ t, let s := withTeam 0 fun t => { t.modGroup 0 (fun g => { g with threads := g.threads ++ [newThread 0 1 4] }) with convs := [] }
      s.curTeam = some t ∧ t.levels = [] ∧ s.lastOfTeam t = false ∧ s.Unchunked ∧ s.bars = [] ∧ t.convs = [] ∧ s.members ≠ []) :=
  ⟨by decide, by decide, ⟨_, rfl⟩, ⟨_, rfl, rfl, by decide, ⟨by decide, by decide⟩, rfl, rfl, by decide⟩⟩

theorem meets_resumes : (trapState id).resumeOk trapTeam 0x10 = false ∧ (trapState id).resumeOk trapTeam 0xE = false := by decide

theorem meets_resumes_packet : (trapState id).resumeOk trapTeam 0xC = true := by rfl

theorem pair_of {α β : Type} {p : α × List β} {q : α → Prop} (h : p.2 = [] ∧ q p.1) : ∃ ls, p = (ls, []) ∧ q ls :=
  ⟨p.1, Prod.ext rfl h.1, h.2⟩

theorem meets_Loads : (Instr.ld 8 0 9 2 1).wf = true ∧ (atWord 0).readTeam = some team0 ∧ (atWord 0).curTeam = some team0
    ∧ team0.key = (atWord 0).cur.team ∧ (atWord 0).ctxOf team0 = some programContext ∧ (atWord 0).groupsHeld = false
    ∧ NoChainWrites (atWord 0) ∧ (atWord 0).writes = [] ∧ team0.levels = [] ∧ team0.view = none
    ∧ (∃ ls, (atWord 0).laneAccesses .load 0 9 (widthBytes 2) = (ls, []) ∧ ls ≠ [] ∧ (atWord 0).loadWaits team0 ls = false
        ∧ ∀ l ∈ ls, (team0.thread? l.gid l.lane).isSome = true ∧ l.isPod = false)
    ∧ ∀ g ∈ (atWord 0).curGids, (atWord 0).storesPending 2 g = false :=
  ⟨by decide, rfl, rfl, rfl, rfl, by decide, by simp only [NoChainWrites]; decide, rfl, rfl, rfl, pair_of (by decide), by decide⟩

theorem meets_Unchunked : (atWord 0).Unchunked := ⟨by decide, by decide⟩

theorem meets_Stores : (Instr.st 8 0 9 2 1).wf = true
    ∧ ∃ ls, (atWord 0).laneAccesses .store 0 9 (widthBytes 2) = (ls, []) ∧ ls ≠ [] ∧ (atWord 0).dsDone team0 ls = []
        ∧ (atWord 0).dsWaits team0 false false ls = false
        ∧ ∀ l ∈ ls, (atWord 0).routeOf team0 l = .here ∧ (atWord 0).clusterForbidden team0 l = false
          ∧ l.isIo = false ∧ (atWord 0).moveWaits team0 true ((atWord 0).lanePlaces team0 ls) = false
          ∧ (∀ o ∈ (atWord 0).ops, o.iss.round ≠ (atWord 0).cur.round)
          ∧ ∀ m ∈ ls, ¬ l.lane < m.lane :=
  ⟨by decide, pair_of (by decide)⟩

theorem meets_Atomics : (Instr.atom 8 0 9 1 0).wf = true
    ∧ ∃ ls, (atWord 0).laneAccesses .atomic 0 9 (atomicWidth 0) = (ls, []) ∧ ls ≠ [] ∧ (atWord 0).dsDone team0 ls = []
        ∧ (atWord 0).dsWaits team0 true true ls = false ∧ (atWord 0).dsWaits team0 false true ls = false
        ∧ ∀ l ∈ ls, (atWord 0).routeOf team0 l = .here ∧ l.isPod = false ∧ (atWord 0).clusterForbidden team0 l = false
          ∧ (team0.thread? l.gid l.lane).isSome = true ∧ (atWord 0).moveWaits team0 true ((atWord 0).lanePlaces team0 ls) = false :=
  ⟨by decide, pair_of (by decide)⟩

/-- `atWord` with one operation in flight, whose event comes. -/
def opOf (k : OpKind) : Op := { key := 100, team := 2, toks := [], due := 0, iss := Issue.none, what := k }
def opState (k : OpKind) : State := { atWord 0 with arg := [100], ops := [opOf k] }

/-- A chunk of the group, with one line and one grain read. -/
def chunk0 (st : LamState) : Lam :=
  { key := 50, owner := .chunk, st := st, ctx := 0, team := 2, gid := 0, core := 0, parent := none,
    lines := [{ pa := 0x50008, byte := 5, seq := 1, grain := 0x50000, ord := 1, ds := false, nt := none }], rsig := [0x50000], wsig := [0x50000], strong := false, deps := [],
    checkpoint := some group0, stood := [], packets := 4096, lastIssue := 0, squashes := 0, fourth := none, fixed := false }

def agent0 : Agent := { team := 2, gid := 0, lane := 0 }

/-- A place in a global page of RELEASE or other ordering, and a byte stored there. -/
def globalSpot (pa : Nat) (io : Bool) : Spot := { loc := .mem pa, grain := pa / 32 * 32, ord := 0, io := io, ds := false }
def byteTo (x : Spot) : StoreByte := { who := agent0, at_ := x, byte := 7, direct := x.io }

/-- A store of a byte to each place L1 accepts at once; a byte of a global page with the group's chunk open. -/
theorem meets_StoresAccepted :
    (∀ x ∈ [plainSpot (.scratch 2 0), plainSpot (.priv 2 0x50000), globalSpot 0x50000 true],
      let o := opOf (.store [byteTo x] false)
      let s := opState (.store [byteTo x] false)
      s.arg = [100] ∧ s.op? 100 = some o ∧ s.team? 2 = some team0 ∧ team0.levels = [] ∧ s.storeReady o [byteTo x] = true
        ∧ NoChainWrites s ∧ s.lams = [] ∧ s.waiting = [] ∧ s.toks = [] ∧ (byteTo x).direct = x.io)
    ∧ let w := byteTo (globalSpot 0x50001 false)
      let o := opOf (.store [w] false)
      let s : State := { opState (.store [w] false) with lams := [chunk0 .open], keys := 200 }
      s.groupChunks 2 0 = [chunk0 .open] ∧ s.storeReady o [w] = true ∧ w.direct = false ∧ (chunk0 .open).key < o.key
        ∧ s.splitsFor (chunk0 .open) w.at_.grain = false ∧ (chunk0 .open).core = team0.core ∧ (chunk0 .open).parent = team0.base
        ∧ (s.lams.map Lam.key).Nodup ∧ (∀ x ∈ s.lams, ∀ y ∈ x.lines, y.seq < s.keys) ∧ team0.base = none
        ∧ NoChainWrites s ∧ s.writes = [] := by
  unfold NoChainWrites
  refine ⟨?_, by decide⟩
  simp only [List.mem_cons, List.not_mem_nil, or_false]
  rintro x (rfl | rfl | rfl) <;> decide

theorem meets_room : (chunk0 .open).crowded = false := by simp [Lam.crowded, chunk0]

theorem meets_AtomicsPerformed :
    let locs : List Spot := [globalSpot 0x50000 false, globalSpot 0x50001 false, plainSpot (.scratch 2 0)]
    let lanes : List AtomLane := [{ gid := 0, lane := 0, x := 5, cmp := 0, lost := [] }]
    let k := OpKind.atomic locs 0 false (some 8) lanes
    (opState k).op? 100 = some (opOf k) ∧ (opState k).atomicReady (opOf k) locs lanes = true ∧ (opState k).held = []
      ∧ (opState k).waiting = [] ∧ team0.levels = [] ∧ team0.view = none
      ∧ NoChainWrites (opState k) ∧ (locs.map fun p => p.loc).Nodup ∧ (team0.thread? 0 0).isSome = true
      ∧ (lanes.map fun y => (y.gid, y.lane)).Nodup := by
  unfold NoChainWrites
  decide

/-- Fence words; cache control; a fence whose condition is met, one behind a store, and one behind a chunk. -/
theorem meets_Fences : fenceWord (.fenceRel 3) = some (1, 3)
    ∧ (∀ g ∈ (atWord 0).curGids, (atWord 0).storesPending 2 g = false) ∧ ((atWord 0).lams.map Lam.key).Nodup
    ∧ (((atWord 0).cctlLanes 0 9).2 = []) ∧ (atWord 0).passed = none ∧ (atWord 0).members ≠ []
    ∧ (let k := OpKind.fence 1 0 0 [0] [];
      (opState k).op? 100 = some (opOf k) ∧ (opState k).fenceMet (opOf k) = true)
    ∧ (let k := OpKind.icinv 0 64 0 [0] [];
      (opState k).op? 100 = some (opOf k) ∧ (opState k).fenceMet (opOf k) = true)
    ∧ (let x := { opOf (.store [byteTo (plainSpot (.scratch 2 0))] false) with key := 99 };
      x ∈ [x, opOf (.fence 1 3 0 [0] [50])] ∧ x.key < 100 ∧ x.team = 2 ∧ agent0.gid = 0 ∧ agent0.lane ∈ [0]
        ∧ (byteTo (plainSpot (.scratch 2 0))).at_.loc ≠ .priv 0 0)
    ∧ (chunk0 .requested).key ∈ [50] := by decide

/-- `WBL` and `INVL` at a page under a move, and at one that is not. -/
theorem meets_cctl_moves :
    let s : State := { atWord 0 with moves := [⟨0, 0, 3, some 0x80000, []⟩] }
    (atWord 0).cur.cleared = false ∧ s.moveWaits team0 true (s.lanePlaces team0 (s.cctlLanes 0 9).1) = true
      ∧ (atWord 0).moveWaits team0 true ((atWord 0).lanePlaces team0 ((atWord 0).cctlLanes 0 9).1) = false := by decide

/-- An `INVL` whose lanes reach a LOOSE page. -/
theorem meets_invl :
    let s : State := { atWord 0 with mem := memWrite 0x40000 [0x2F] pageMem }
    (s.cctlLanes 0 9).2 = [] ∧ ∀ l ∈ (s.cctlLanes 0 9).1, l.isGlobal = true ∧ ∀ x ∈ l.spots, x.ord = 2 := by decide

/-- A write on its way to the seven other dies. -/
def flight0 (strong : Option Nat) (key : Nat) (acks : List Nat) : Flight :=
  { key := key, lam := 50, ctx := 0, team := 2, core := 0, die := 0, grains := [0x50000],
    lines := [{ pa := 0x50008, byte := 5, seq := 1, grain := 0x50000, ord := 1, ds := false, nt := none }], acks := acks,
    strong := strong, since := 0, fourth := none }

theorem meets_ChunkLimits :
    (let s : State := { atWord 0 with arg := [50], lams := [chunk0 .open] };
      s.lam? 50 = some (chunk0 .open) ∧ s.nameless (chunk0 .open) = false)
    ∧ (let s : State := { atWord 0 with arg := [60, 1], flights := [flight0 none 60 [0]] };
      s.flights.find? (fun g => g.key == 60) = some (flight0 none 60 [0]) ∧ (s.flights.map Flight.key).Nodup
)
    ∧ let s : State := { atWord 0 with arg := [60, 1], flights := [flight0 (some 1) 59 [0], flight0 (some 2) 60 [0]] };
      s.flights.find? (fun g => g.key == 60) = some (flight0 (some 2) 60 [0]) ∧ 1 ∉ (flight0 (some 1) 59 [0]).acks
        ∧ (s.flights.map Flight.key).Nodup := by decide

/-- The signature reaches die 1 after its delay, as the second of the dies and as the last. -/
theorem meets_applies (acks : List Nat) (h : acks ∈ [[0], [0, 2, 3, 4, 5, 6, 7]]) :
    let f := flight0 none 60 acks
    let s : State := { atWord 0 with arg := [60, 1], flights := [f], now := Config.freeDelay 60 1 }
    s.appliesNow f 1 = true ∧ (∀ x ∈ s.lams, sigsMeet f.grains x.rsig = false) ∧ (f.left = [1] ↔ acks.length = 7) := by
  simp only [List.mem_cons, List.not_mem_nil, or_false] at h
  rcases h with rfl | rfl <;> refine ⟨?_, fun _ h => (List.not_mem_nil h).elim, by decide⟩ <;>
    simp [State.appliesNow, flight0, Flight.left, allDies]

theorem meets_ChunkCommit :
    (let s : State := { atWord 0 with arg := [50], lams := [chunk0 .requested] };
      s.lam? 50 = some (chunk0 .requested) ∧ s.grantable (chunk0 .requested) = true ∧ (chunk0 .requested).parent = none)
    ∧ let s : State := { atWord 0 with arg := [0], lams := [chunk0 .open], gathered := [(0, [0x50000])] };
      dieOf (chunk0 .open).core = 0 ∧ (chunk0 .open).squashes < 4
        ∧ sigsMeet ((s.gathered.filter fun e => e.1 == 0).flatMap fun e => e.2) (chunk0 .open).rsig = true
        ∧ (chunk0 .open).checkpoint = some group0 ∧ s.team? (chunk0 .open).team = some team0
        ∧ team0.group? group0.gid = some group0 := by decide

/-- `team0` with scalar registers. -/
def regTeam (l : Sparse 32) : Team := team0.modGroup 0 fun g => { g with s := l }

/-- A chain of handle 0 at an entry, and a team whose scratchpad begins with some bytes. -/
def chain0 (off : Nat) (st : ChainState) : Chain :=
  { key := 60, h := 0, st := st, head := 0, off := off, u := [0, 0, 0, 0], w := [0, 0, 0, 0], it := [0, 0, 0, 0],
    loops := [[], [], [], []], toks := [], gid := 0, word := 0, pcs := (0, 0), level := 0, due := 0, wrote := [] }
def bytesTeam (bs : List Byte) : Team := { team0 with scratch := bs.zipIdx.map fun p => (p.2, p.1) }
def slot0 : Slot := { name := 3, claim := 9, phys := 5, bytes := [], clean := true, origin := 0, releasing := false, fills := [] }
def shape0 : Shape :=
  { base := 0xFFFFF00000000400, base2 := 0, fmt := 9, tgt := 15, swz := 0, rows := 1, cols := 4, pad := 0, ext := [4, 1, 1, 1],
    rowstride := 4, stride2 := 4, stride3 := 4, rsv := false }
def copy0 (slot : Option Nat) (dst : Nat) : Copy :=
  { key := 70, h := 0, off := 0, tag := 5, slot := slot, src := shape0, dst := { shape0 with base := dst }, xs := [0, 0, 0, 0],
    xd := [0, 0, 0, 0], faults := [], due := 0, stage := 0, got := [], spoil := [], slotSpoil := [] }

theorem meets_ChainWords :
    ((atWord 0).atomsPending = false ∧ (opState (.atomic [] 0 false none [{ gid := 0, lane := 0, x := 0, cmp := 0, lost := [] }])).atomsPending = true
        ∧ (atWord 0).cur.cleared = false)
    ∧ (let free := fun (t : Team) => (List.range 16).find? fun h => (t.chain? h).isNone
      let s := withTeam 0 fun _ => regTeam [(3, 0xFFFFF000)]
      free (regTeam []) = some 0 ∧ (s.rdS2 (regTeam [(3, 0xFFFFF000)]) 0 1).toNat % 32 = 0
        ∧ inScratch (s.rdS2 (regTeam [(3, 0xFFFFF000)]) 0 1).toNat = true ∧ s.scratchSize (regTeam []) = 65536
        ∧ (s.rdS2 (regTeam [(2, 4)]) 0 1).toNat % 32 ≠ 0
        ∧ free { team0 with chains := (List.range 16).map fun h => { chain0 0 .running with h := h } } = none)
    ∧ (let t := { team0 with chains := [chain0 0 .running], copies := [copy0 none 0] }
      t.chain? 0 = some (chain0 0 .running) ∧ t.chainCopies 0 ≠ [] ∧ team0.chainCopies 0 = [])
    ∧ (atWord 0).members = [(0, 0)] ∧ (team0.thread? 0 0).isSome = true
    ∧ ({ group0 with queue := [{ queue := 1, seq := 0, words := [] }] }.entries 1).find? (fun (x : QEntry) => x.seq == 0) ≠ none
    ∧ (group0.entries 1).find? (fun (x : QEntry) => x.seq == 0) = none := by decide

/-- A tag mask that holds, one that does not, and the empty one; slots. -/
theorem meets_TagAndSlotWords :
    (let t := regTeam [(2, 3)]
      let s := withTeam 0 fun _ => t
      s.tagMask t (s.rdS2 t 0 1) = 3 ∧ s.tagMask t (s.rdS2 t 0 2) = 0 ∧ t.tags &&& 3 ≠ 3 ∧ s.passed = none
        ∧ (3 : DWord).getLsbD 0 = true ∧ ({ t with tags := 1 }.tags &&& 3 : DWord).getLsbD 0 = true)
    ∧ (let t := { team0 with slots := [slot0] }
      t.slot? 3 = some slot0 ∧ t.slotBusy 3 = false ∧ { t with copies := [copy0 (some 3) 0] }.slotBusy 3 = true
        ∧ (∀ y ∈ t.slots, y.releasing = true → t.slotBusy y.name = true) ∧ (t.squad? 3).isSome = true
        ∧ ∀ y ∈ t.slots, y.phys = slot0.phys → y = slot0)
    ∧ (∀ n ∈ [0, 1], (([{ core := 0, phys := 5, ctx := n, bytes := [(0, 7)], clean := true, origin := 0 }] : List FreeSlot).find? fun f =>
        f.core == team0.core && f.phys == 5).map (fun f => f.ctx == team0.ctx) = some (n == 0))
    ∧ (opState (.store [byteTo (plainSpot (.scratch 2 0))] false)).scratchPending = true ∧ (atWord 0).scratchPending = false := by decide

theorem meets_TileWords :
    (let c : Conv := { n := 7, mask := 1, round := none }
      let t := { team0 with slots := [slot0, { slot0 with name := 2 }], convs := [c] }
      let s := withTeam 0 fun _ => t
      let op := TileOp.mma 0 0 2 3 true
      s.slotFault t op = false ∧ (withTeam 0 id).slotFault team0 op = true
        ∧ t.conv? 7 = some c ∧ s.arrayRoom t.core = true ∧ (0, 0) ∈ t.signingSet c.mask (s.gptOf t)
        ∧ (∀ m ∈ t.signingSet c.mask (s.gptOf t), m = (0, 0)) ∧ (0, 0) ∉ t.signingSet 2 (s.gptOf t) ∧ s.passed = none)
    ∧ (let t := team0.modGroup 0 fun g => { g with threads := [newThread 0 0 4, newThread 0 1 4] }
      ∃ m ∈ t.signingSet 1 1, m ≠ (0, 0))
    ∧ (atWord 0).accCount team0 = 2 ∧ (atWord 0).tileWaits team0 0 = [] := by decide

/-- A descriptor in the team's scratchpad, one that passes its checks and one that does not. -/
theorem meets_descriptors :
    let t := regTeam [(3, 0xFFFFF000)]
    let s := withTeam 0 fun _ => t
    let d : Desc := { addr := 0xFFFFF00000000000, stride := 512, type := 0, rm := 0, flags := 0, rsv := 0, rowsc := 0, colsc := 0 }
    (s.rdS2 t 0 1).toNat = 0xFFFFF00000000000 ∧ (s.turned.reach t programContext 0 .load 0xFFFFF00000000000 32).isOk = true
      ∧ windowOf 0xFFFFF00000000000 = .scratch 0
      ∧ s.descCode t false 0 d = none ∧ s.descCode t true 0 d = none ∧ s.descCode t false 0 { d with type := 5 } = some 16 := by decide

/-- An operation on a tile that is outstanding for `MWAIT`, or completes. -/
def mop0 (op : TileOp) : MatOp :=
  { key := 80, seq := 80, op := op, toks := [], start := none, gid := 0, iss := Issue.none, faults := [], due := 0, clash := false,
    signers := [], read := [], level := 0, stage := 0, got := [] }
def acc0 : Acc := { n := 0, elems := [], int := false, last := none, joined := [] }
def mopState (op : TileOp) (start : Option Nat) (arg : Nat) : State :=
  { withTeam 0 (fun t => { t with mops := [{ mop0 op with start := start }], accs := [acc0] }) with
    arg := [arg] }

theorem meets_tileWaits : ∃ t, (mopState (.mzero 0) none 0).team? 2 = some t ∧ (mopState (.mzero 0) none 0).tileWaits t 0 ≠ [] :=
  ⟨_, rfl, by decide⟩

/-- Chain entries and shape records as they stand in a scratchpad (R235, R240 to R244). -/
def zeros (n : Nat) : List Byte := List.replicate n 0
def recordBytes (hi tgt : Byte) : List Byte :=
  [0, hi, 0, 0, 0, 0xF0, 0xFF, 0xFF] ++ zeros 8 ++ [9, tgt, 0, 0, 1, 0, 4, 0] ++ zeros 8
    ++ [4, 0, 0, 0, 1, 0, 0, 0, 1, 0, 0, 0, 1, 0, 0, 0, 4, 0, 0, 0, 4, 0, 0, 0, 4, 0, 0, 0] ++ zeros 4
def entryTeam (bs : List Byte) : Team := { bytesTeam bs with chains := [chain0 0 .running], slots := [slot0] }
def entryState (bs : List Byte) : State := { withTeam 0 (fun _ => entryTeam bs) with arg := [2, 0] }

theorem meets_COPY : ∀ p ∈ [(([1, 5, 0, 3, 64] ++ zeros 59 ++ recordBytes 4 0 : List Byte), true),
      ([1, 5, 1, 0, 64, 0, 0, 0, 128] ++ zeros 55 ++ recordBytes 4 15 ++ recordBytes 8 15, false)],
    let s := entryState p.1
    let t := entryTeam p.1
    let e := t.scratchBytes 0 32
    let f := fieldOf e
    t.chain? 0 = some (chain0 0 .running) ∧ f 0 1 = 1 ∧ (t.chainCopies 0).length < 4 ∧ (f 2 1 == 0) = p.2
      ∧ s.copyCode t e = none ∧ (readShape (t.scratchBytes (f 4 4) 64)).code false p.2 0 0 = none
      ∧ (p.2 = false → (readShape (t.scratchBytes (f 8 4) 64)).code true false 0 (resultFmt (readShape (t.scratchBytes (f 4 4) 64))) = none) := by
  decide

/-- An entry past the scratchpad; one of no kind; a COPY of a tag beyond the file, and one of a record with a zero extent. -/
theorem meets_entry_errors :
    (entryState []).scratchSize (entryTeam []) < 65536 + 32 ∧ fieldOf ((entryTeam [6]).scratchBytes 0 32) 0 1 = 6
    ∧ (let bs : List Byte := [1, 64, 0, 3, 64] ++ zeros 27
      (entryState bs).copyCode (entryTeam bs) ((entryTeam bs).scratchBytes 0 32) = some 2)
    ∧ (readShape (zeros 64)).code false true 0 0 = some 5 := by decide

/-- LOOP before and at its last turn, IFTAG, SETTAG of both senses, END. -/
theorem meets_entries :
    (∀ n ∈ [(1 : Byte), 2], let f := fieldOf ((entryTeam (zeros 32 ++ [2, 3, 1, 0, n] ++ zeros 27)).scratchBytes 32 32)
      f 0 1 = 2 ∧ f 24 8 = 0 ∧ f 1 1 ≤ 3 ∧ f 2 2 ≠ 0 ∧ f 4 4 ≠ 0 ∧ (chain0 32 .running).head + 32 * f 2 2 ≤ (chain0 32 .running).off
        ∧ (0 + 1 < f 4 4 ↔ n = 2) ∧ (chain0 32 .running).loops.getD (f 1 1) [] = [])
    ∧ (let e := (entryTeam ([3, 63, 1, 0, 2] ++ zeros 27)).scratchBytes 0 32
      let f := fieldOf e
      f 0 1 = 3 ∧ f 1 1 < 64 ∧ f 1 1 < (entryState []).tagCount (entryTeam []) ∧ f 2 1 ≤ 1 ∧ f 3 1 = 0 ∧ leNat (e.drop 6) = 0)
    ∧ (∀ n ∈ [(0 : Byte), 1], let e := (entryTeam ([5, 63, n] ++ zeros 29)).scratchBytes 0 32
      let f := fieldOf e
      f 0 1 = 5 ∧ f 1 1 < 64 ∧ f 2 1 = n.toNat ∧ leNat (e.drop 3) = 0 ∧ (entryTeam []).tagsSet.1 ≠ (entryState []).now)
    ∧ leNat ((entryTeam (zeros 32)).scratchBytes 0 32) = 0 ∧ (entryTeam (zeros 32)).chainCopies 0 = [] := by decide

theorem meets_QFEED :
    let t := entryTeam ([4, 3, 0, 0, 32] ++ zeros 27)
    let s := entryState ([4, 3, 0, 0, 32] ++ zeros 27)
    let e := t.scratchBytes 0 32
    let f := fieldOf e
    let full : Group := { group0 with queue := (List.range 8).map fun n => { queue := 3, seq := n, words := [] } }
    s.launchOf t = some (programLaunch 1 0) ∧ f 0 1 = 4 ∧ f 1 1 = 3 ∧ f 2 1 < (programLaunch 1 0).gpt ∧ f 3 1 = 0 ∧ leNat (e.drop 16) = 0
      ∧ (f 4 4 : Int) + (((chain0 0 .running).u.zip (i16s e 8)).map fun p => p.1 * p.2).sum = 32 ∧ s.scratchSize t = 65536
      ∧ { t with groups := [] }.group? 0 = none ∧ (full.entries 3).length = 8
      ∧ t.group? 0 = some group0 ∧ (group0.entries 3).length < 8 ∧ group0.threads ≠ []
      ∧ (∀ x ∈ group0.threads, group0.poppedOf x.lane 3 ≤ group0.pushed.getD 3 0) := by decide

/-- A copy into a slot and one into the team's scratchpad, without faults; one from a page that is not there. -/
def copyState (cp : Copy) : State :=
  { withTeam 0 (fun _ => { entryTeam (zeros 2048) with copies := [cp] }) with arg := [2, cp.key] }
def copyTeam (cp : Copy) : Team := { entryTeam (zeros 2048) with copies := [cp] }
def copyFaults (cp : Copy) : List (Nat × AFault) :=
  let s0 := (copyState cp).noteCluster 2 (cp.srcVas ++ cp.dstVas)
  s0.tileFaults (copyTeam cp) .load (fun _ => false) cp.srcVas
    ++ s0.tileFaults (copyTeam cp) .store ((copyState cp).wholeSector cp.dstVas) cp.dstVas

theorem meets_CopyCompletes :
    (∀ cp ∈ [copy0 none 0xFFFFF00000000800, { copy0 (some 3) 0 with src := { shape0 with tgt := 0 } }],
      let s := copyState cp
      let t := copyTeam cp
      s.team? 2 = some t ∧ t.copies = [cp] ∧ t.chain? cp.h = some (chain0 0 .running) ∧ cp.tag < s.tagCount t ∧ copyFaults cp = []
        ∧ cp.stage = 0 ∧ s.podPending 2 (.copy cp.h cp.key) = false ∧ t.levels = [] ∧ cp.spoil = [] ∧ cp.slotSpoil = []
        ∧ ∀ va ∈ cp.srcVas ++ cp.dstVas, inPod va = false)
    ∧ (copyTeam (copy0 (some 3) 0)).slot? 3 = some slot0
    ∧ (let cp := { copy0 (some 3) 0 with src := { shape0 with tgt := 0 } }
      (((copyState cp).slotWrites (copyTeam cp) 0 cp).map (·.1)).Nodup)
    ∧ (let cp := copy0 none 0xFFFFF00000000800
      let ws := (copyState cp).recordWrites (copyTeam cp) 0 cp (fun _ => false)
      ws.length = 4 ∧ (∀ w ∈ ws, w.1.loc ∈ [.scratch 2 0x800, .scratch 2 0x801, .scratch 2 0x802, .scratch 2 0x803])
        ∧ ∀ va ∈ cp.srcVas, ∀ w ∈ ws, ((copyState cp).tileSpot (copyTeam cp) .load false va).toOption.map Spot.loc ≠ some w.1.loc) := by
  decide

theorem meets_copy_faults :
    let cp := { copy0 none 0xFFFFF00000000800 with src := { shape0 with base := 0x10000 } }
    copyFaults cp ≠ [] ∧ (∀ f ∈ copyFaults cp, f.2.cause = cPagefault ∨ f.2.cause = cProt)
      ∧ (copyState cp).recordsFull 0 = false ∧ (chain0 0 .running).st = .running := by decide

/-- Every address of the team's own scratchpad is reached. -/
theorem scratch_reached {s : State} {t : Team} {c : Context} (hc : s.ctxOf t = some c) (hz : s.scratchSize t = 65536) (acc : Access)
    (va : Nat) (h0 : 0xFFFFF00000000000 ≤ va) (h1 : va < 0xFFFFF00000010000) : ∃ sp, s.tileSpot t acc false va = .ok sp := by
  refine ⟨plainSpot (.scratch t.key (va % 2 ^ 40)), ?_⟩
  have hw : windowOf va = .scratch (va % 2 ^ 40) := by
    rw [windowOf, if_neg (by omega), if_pos (by omega)]
  have hr : s.reachBy [.ahead t.core] t c 0 acc va 1 = .ok [plainSpot (.scratch t.key (va % 2 ^ 40))] := by
    simp only [State.reachBy, hw, hz]
    rw [if_neg (by omega)]
    rfl
  simp only [State.tileSpot, hc, hr]
  rfl

/-- A descriptor of a whole tile in the team's scratchpad. -/
def desc0 (type : Nat) : Desc :=
  { addr := 0xFFFFF00000000000, stride := 512, type := type, rm := 0, flags := 0, rsv := 0, rowsc := 0, colsc := 0 }

theorem mem_upFrom {a x n : Nat} (h : x ∈ upFrom a n) : a ≤ x ∧ x < a + n := by
  simp only [upFrom, List.mem_map, List.mem_range] at h
  omega

theorem desc0_vas (s : State) (t : Team) (c : Context) (hc : s.ctxOf t = some c) (hz : s.scratchSize t = 65536) (acc : Access) :
    s.tileFaults t acc (fun _ => false) (desc0 0).vas = [] := by
  simp only [State.tileFaults, List.filterMap_eq_nil_iff, Desc.vas, List.mem_flatMap, List.mem_map]
  rintro va ⟨e, he, a, ha, rfl⟩
  simp only [Desc.elems, List.mem_flatMap, List.mem_map, List.mem_range] at he
  obtain ⟨i, hi, j, hj, rfl⟩ := he
  have hi : i < 128 := hi
  have hj : j < 128 := hj
  have ha := mem_upFrom ha
  simp only [Desc.elemVa, desc0, Desc.size] at ha
  obtain ⟨sp, h⟩ := scratch_reached hc hz acc (a % 2 ^ 64) (by omega) (by omega)
  rw [h]

theorem desc0_local : ∀ va ∈ (desc0 0).vas, inPod va = false := by
  simp only [Desc.vas, List.mem_flatMap, List.mem_map]
  rintro va ⟨e, he, a, ha, rfl⟩
  simp only [Desc.elems, List.mem_flatMap, List.mem_map, List.mem_range] at he
  obtain ⟨i, hi, j, hj, rfl⟩ := he
  have hi : i < 128 := hi
  have hj : j < 128 := hj
  have ha := mem_upFrom ha
  simp only [Desc.elemVa, desc0, Desc.size] at ha
  have hw : windowOf (a % 2 ^ 64) = .scratch (a % 2 ^ 64 % 2 ^ 40) := by
    rw [windowOf, if_neg (by omega), if_pos (by omega)]
  simp only [inPod, hw]

theorem meets_matrixOpStart :
    let s := mopState (.mma 0 0 2 3 true) none 0
    let m := { mop0 (.mma 0 0 2 3 true) with start := none }
    ∃ t, s.team? 2 = some t ∧ s.arrayBusy 0 = false ∧ m ∈ t.mops ∧ s.arrayQueue 0 = [(2, m)] ∧ (t.mops.map MatOp.key).Nodup
      ∧ m.due ≤ s.now :=
  ⟨_, rfl, by decide, by decide, by decide, by decide, by decide⟩

/-- An `MMA` that has started, an `MZERO` and an `MLOAD` from the scratchpad, on a tile. -/
theorem meets_matrixOpComplete : ∀ op ∈ [TileOp.mma 0 0 2 3 true, .mzero 0, .mload 0 (desc0 0)],
    let s := mopState op (some 0) 80
    ∃ t m x, s.matOp? 80 = some (t, m) ∧ s.team? t.key = some t ∧ m.key = 80 ∧ t.levels = [] ∧ m.clash = false ∧ (t.accs.map Acc.n).Nodup
      ∧ x ∈ t.accs ∧ m.op = op ∧ m.start.isSome = true ∧ t.matBefore m = false ∧ x.n ∈ m.op.tiles ∧ m.faults = [] := by
  intro op h
  simp only [List.mem_cons, List.not_mem_nil, or_false] at h
  rcases h with rfl | rfl | rfl <;> exact ⟨_, _, acc0, rfl, rfl, rfl, rfl, rfl, by decide, by decide, rfl, rfl, by decide, by decide, rfl⟩

theorem meets_MatrixPerformed (op : TileOp) (acc : Access) : ∃ t, (mopState op none 80).team? 2 = some t
    ∧ (mopState op none 80).scratchSize t = 65536 ∧ (mopState op none 80).checks = []
    ∧ (mopState op none 80).tileFaults t acc (fun _ => false) (desc0 0).vas = []
    ∧ (mopState op none 80).podPending 2 (.mop 80) = false ∧ (mop0 op).stage = 0 ∧ ∀ va ∈ (desc0 0).vas, inPod va = false :=
  ⟨_, rfl, rfl, rfl, desc0_vas _ _ programContext rfl rfl acc, rfl, rfl, desc0_local⟩

theorem meets_drain : inScratch (desc0 0).addr = true ∧ (desc0 0).addr % 2 ^ 40 + ((desc0 0).dims.1 - 1) * (desc0 0).stride
      + (desc0 0).dims.2 * (desc0 0).size ≤ 65536 ∧ (desc0 0).dims.2 * (desc0 0).size ≤ (desc0 0).stride := by decide

/-- `atWord` with its context changed. -/
def withCtx (f : Context → Context) (g : Team → Team) : State := { withTeam 0 g with ctxs := [f programContext] }

/-- A team barrier that one more arrival completes, one of which a phase is complete, and a pod barrier. -/
def bar0 (o : BarOwner) (sc id : Nat) : Bar :=
  { key := 90, owner := o, scope := sc, id := id, phase := 7, expected := none, coming := [], arrived := [], fences := [], complete := [], results := [],
    seen := [] }
def release0 : Release := { phase := 6, team := 2, gid := 0, fences := [], due := 1 }
def podCtx (home : Nat) (c : Context) : Context := { c with podbar := [(5, home, 3)] }

theorem meets_BarrierArrivals :
    (let s : State := { withTeam 0 (fun _ => regTeam [(2, 1), (3, 0x80000000)]) with bars := [bar0 (.team 2) 0 9] };
      let t := regTeam [(2, 1), (3, 0x80000000)]
      s.barOwner t 0 9 = some (.team 2, 9) ∧ (s.bars.find? fun x => x.owner == .team 2 && x.scope == 0 && x.id == 9) = some (bar0 (.team 2) 0 9)
        ∧ (s.bars.map Bar.key).Nodup ∧ (bar0 (.team 2) 0 9).tokenDone 7 = false ∧ s.barLive (.team 2) = some [(2, 0, 0)] ∧ s.passed = none
        ∧ (s.rdS t 0 2).toNat = 1 ∧ (s.rdS t 0 3).toNat = 2 ^ 31 ∧ (s.rdS t 0 0).toNat = 0)
    ∧ { (atWord 0).part with accepted := 0 }.accepted.getLsbD 5 = false
    ∧ (let s : State := { withCtx (podCtx 0) id with bars := [bar0 (.pod 0 3) 4 0] };
      s.barOwner team0 4 5 = some (.pod 0 3, 0) ∧ s.part.moduleNum = 0 ∧ s.part.accepted.getLsbD 5 = true
        ∧ s.barDet (bar0 (.pod 0 3) 4 0) = false ∧ s.team? (2 ^ 64 + 1) = none) := by decide

/-- An arrival that is counted and closes the phase, as the one live thread's or by its count, and one that does not. -/
theorem meets_counted : ∀ c ∈ [none, some 1, some 2],
    let a : Arrival := { who := (2, 0, 0), count := c, fences := [] }
    let b := { bar0 (.team 2) 0 9 with coming := [a] }
    let w : Wait := { on := .arrive 90, since := 0, iss := Issue.none, got := [] }
    let t := { team0 with squads := [{ squad0 with wait := some w }] }
    let s : State := { withTeam 0 (fun _ => t) with bars := [b] }
    s.bars.filter (fun b => !b.coming.isEmpty) = [b] ∧ (s.bars.map Bar.key).Nodup ∧ s.team? 2 = some t ∧ t.thread? 0 0 = some thread0
      ∧ a.who ∉ b.arrived ∧ b.expected = none ∧ s.barLive b.owner = some [a.who] ∧ [a.who].all (b.arrived ++ [a.who]).contains = true
      ∧ (c = some 2 ↔ b.arrived.length + 1 < c.getD 0) ∧ { squad0 with wait := some w } ∈ t.squads ∧ a.who.2 ∈ squad0.members := by
  intro c h
  simp only [List.mem_cons, List.not_mem_nil, or_false] at h
  rcases h with rfl | rfl | rfl <;> exact ⟨by decide, by decide, rfl, rfl, by decide, rfl, by decide, by decide, by decide,
    List.mem_cons_self, by decide⟩

theorem meets_BarriersAndTokens :
    (let b := { bar0 (.team 2) 0 9 with complete := [release0] };
      b.tokenDone 5 = true ∧ b.tokenDone 6 = false ∧ { b with complete := [] }.tokenDone 6 = true ∧ release0.due ≤ (atWord 0).now
        ∧ ¬ (atWord 0).now < release0.due ∧ (atWord 0).now < { release0 with due := 2 }.due)
    ∧ (atWord 0).barOwner team0 2 9 = some (.die 1 0, 9) ∧ (9, 0) ∈ { team0 with voids := [(9, 0)] }.voids
    ∧ (podCtx 0 programContext).podBar? 5 = some (0, 3) ∧ (0 = (atWord 0).part.moduleNum) ∧ (1 ≠ (atWord 0).part.moduleNum)
    ∧ [(2, 0, 0)] ≠ ([] : List (Nat × Nat × Nat)) := by decide

/-- A deterministic context, whose team's group holds the token, and is alone or below another that qualifies. -/
def detCtx (c : Context) : Context := { c with det := true }
theorem meets_tokens :
    (withCtx detCtx id).isDet team0 = true ∧ (atWord 0).isDet team0 = false
    ∧ { team0 with token := some 0 }.qualified 0 = [0]
    ∧ { team0 with groups := [group0, { group0 with gid := 1 }] }.qualified 0 = [0, 1]
    ∧ (withCtx detCtx fun t => { t with token := some 0 }).passed = none := by decide

/-- An open level whose routine ends at the word at issue. -/
def level0 (st : LevelState) (next : Nat) : Level :=
  { depth := 1, st := st, ensure := 0x24, lit := 0x10, routine := 0, retries := 0, limit := 100, start := 0, testing := [], snap := 95, lam := 96,
    logged := [], journal := [], touched := [], outLen := 0, seenFrom := 0, nextRoutine := next, mark := 0 }
def blockImage : Image := { programImage 0 with blocks := [{ dpc := 0x24, lpc := 0x24, ends := [(4, 4), (8, 8)] }] }
def blockTeam (l : Level) : Team := { team0 with levels := [l] }
def blockState (l : Level) : State :=
  { withTeam 0 (fun _ => blockTeam l) with images := [blockImage], snaps := [{ key := 95, team := team0, bars := [] }], arg := [2] }

theorem meets_BlockWords :
    (∀ n ∈ [0, 1], (atWord 0).feature n = true ∧ { atWord 0 with part := { (atWord 0).part with accepted := 0 } }.feature n = false)
    ∧ (let l := level0 .running 0
      let s := blockState l
      s.endPc (blockTeam l) l l.routine = some s.cur.pc ∧ targetOk (blockTeam l) (s.testPc (blockTeam l) l) = true
        ∧ s.endPc (blockTeam l) { l with routine := 1 } 1 ≠ some s.cur.pc)
    ∧ (∀ m ∈ (atWord 0).members, m ∈ { level0 .running 0 with testing := [(0, 0)] }.testing)
    ∧ (List.replicate 8 (level0 .running 0)).length ≥ 8
    ∧ (let l : Latch := { word := 1, lit := 0, val := 0, d := 0, arrived := [] }
      l.word ≠ (atWord 0).cur.word)
    ∧ (atWord 0).teams.filter (fun u => u.ctx == 0 && u.conv == some 0 && u.key != 2) = [] := by decide

/-- A level past its limit; levels that restore with a routine left and without; one that commits. -/
theorem meets_BlockEvents :
    (let l := level0 .running 0
      let s : State := { blockState l with now := 200 };
      s.expired (blockTeam l) = some l ∧ (blockState l).expired (blockTeam l) = none)
    ∧ (∀ n ∈ [1, 2], let l := level0 .restoring n
      let s := blockState l
      (blockTeam l).restoring = some l ∧ s.restoreSet (blockTeam l) l = [blockTeam l] ∧ (blockTeam l).workEnded l = true
        ∧ (s.snaps.find? fun x => x.key == l.snap) = some { key := 95, team := team0, bars := [] }
        ∧ (s.noRoutine (blockTeam l) l = (n == 2)) ∧ s.lamsFree 0 1 = true ∧ programContext.recording = true)
    ∧ 1 < { level0 .restoring 2 with depth := 2 }.depth
    ∧ (blockState (level0 .committing 0)).levelOut (blockTeam (level0 .committing 0)) (level0 .committing 0) = true
    ∧ (∀ o ∈ (blockState (level0 .committing 0)).ops, o.key < 100)
    ∧ (let s : State := { blockState (level0 .committing 0) with flights := [{ flight0 none 60 [0] with key := 0 }] };
      ∃ f ∈ s.flights, f.key < { level0 .committing 0 with mark := 9 }.mark ∧ f.team = 2)
    ∧ (blockTeam (level0 .committing 0)).outbox = [] := by decide

/-- No chunk has commit priority, and no outside write waits. -/
theorem meets_OpenOutside : (atWord 0).OpenOutside ∧ (blockState (level0 .committing 0)).OpenOutside :=
  ⟨⟨by decide, rfl⟩, ⟨by decide, rfl⟩⟩

/-- A parent that holds the results of its rivals, and a rival of it. -/
def fork0 (st : RivalState) (holding : Bool) : ForkRes :=
  { rivals := [{ num := 0, team := 2, st := st, cause := 0, score := 5 }, { num := 1, team := 21, st := .done, cause := 0, score := 6 }],
    holding := holding, snap := 0, d := 9, seenFrom := 0, chosen := none, mark := 0 }
def rival0 : Team := { team0 with parent := some 20, world := 1 }
def parent0 (st : RivalState) (holding : Bool) : Team := { team0 with key := 20, st := .suspended, fork := some (fork0 st holding) }
def worldState (u : Team) (st : RivalState) (holding : Bool) (arg : List Nat) : State :=
  { withTeam 0 (fun _ => u) with teams := [u, parent0 st holding], arg := arg }

theorem meets_WorldWords :
    (let t := regTeam [(2, 2), (3, 8), (4, 9), (5, 1), (6, 0xFFFFFFFF)]
      let s := withTeam 0 fun _ => t
      (s.rdS t 0 2).toNat = 2 ∧ (s.rdS t 0 3).toNat = 8 ∧ 8 < (s.rdS t 0 4).toNat ∧ (s.rdS t 0 5).toNat < 2
        ∧ (s.rdS t 0 6).toNat = 0xFFFFFFFF ∧ s.clusterSize t ≤ 1 ∧ s.passed = none ∧ t.forkLatch = none ∧ t.worldDepth = 0)
    ∧ (fork0 .done true).holding = true ∧ (fork0 .done true).rivals.find? (fun r => r.num == 1) ≠ none
    ∧ rival0.worldDepth ≠ 0
    ∧ (let s := worldState rival0 .running false []
      s.team? 20 = some (parent0 .running false) ∧ (parent0 .running false).fork = some (fork0 .running false)
        ∧ ((fork0 .running false).rivals.filter fun x => x.team == rival0.key).map Rival.st = [.running]) := by decide

/-- A team whose thread waits at `FORK`, below the deepest world and in it; rivals that end; a rival placed; a parent that resumes. -/
def latch0 : Latch := { word := 0, lit := 0, val := 2, d := 9, arrived := [(0, 0)] }
def forkTeam (depth : Nat) : Team :=
  { team0 with forkLatch := some latch0, world := BitVec.ofNat 32 depth,
               squads := [{ squad0 with wait := some { on := .fork, since := 0, iss := Issue.none, got := [] } }] }

theorem meets_ForkAndRivals :
    (∀ d ∈ [0, 3, 4], (forkTeam d).allWait (fun w => w == .fork) = true ∧ (forkTeam d).worldDepth = d)
    ∧ (Team.allWait { team0 with forkLatch := some latch0 } fun w => w == WaitOn.fork) = false
    ∧ (let s : State := { withTeam 0 (fun _ => forkTeam 0) with arg := [2], keys := 30 };
      s.lamsFree (dieOf (forkTeam 0).core) 2 = true ∧ s.quiet (forkTeam 0) = true ∧ s.settledFork (forkTeam 0) 9 = true
        ∧ (∀ x ∈ s.teams, x.key < s.keys) ∧ ((forkTeam 0).groups.map Group.gid).Nodup)
    ∧ (let t := { rival0 with groups := [{ group0 with threads := [] }], wdone := [(0, 0, 7), (0, 1, 8)] }
      let s := worldState t .running false [2]
      (∀ g ∈ t.groups, g.threads = []) ∧ (∀ x ∈ t.wdone, threadLe (0, 0) (x.1, x.2.1) = true)
        ∧ (t.wdone.map fun x => (x.1, x.2.1)).Nodup ∧ s.quiet t = true)
    ∧ (let p : Team := parent0 .done false
      let s : State := { worldState rival0 .done false [20] with teams := [p] };
      (∀ r ∈ (fork0 .done false).rivals, r.st = .done ∨ r.st = .aborted) ∧ (s.coreFor p p.kind).isSome = true)
    ∧ (∃ r ∈ (fork0 .running false).rivals, r.st ≠ .done ∧ r.st ≠ .aborted) := by decide

theorem meets_rivals :
    (let t := { rival0 with st := .saved }
      let s : State := { worldState t .waiting false [2, 0] with teams := [t, parent0 .waiting false] };
      s.coreFits 0 (s.needs t) = true ∧ (s.contextCores programContext t.kind).contains 0 = true
        ∧ (s.nextWaiting t).map (·.team) = some 2)
    ∧ (worldState rival0 .running false [2]).now < rival0.placedAt + 200 * Config.cyclesPerUs := by decide

theorem meets_shareOver :
    let s : State := { worldState rival0 .waiting false [2] with
      teams := [rival0, { rival0 with key := 21 }, parent0 .waiting false], now := 10000000, ctxs := [{ programContext with quads := 0 }] };
    let u := { parent0 .waiting false with fork := some { fork0 .waiting false with rivals := [{ num := 1, team := 21, st := .waiting, cause := 0, score := 0 }] } }
    { s with teams := [rival0, { rival0 with key := 21 }, u] }.shareOver rival0 = true := by decide

/-- A tray with a thread filed at cycle 0; a thread whose trap waits, with an empty register and without; a parked lane. -/
def tray0 : Tray := { num := 4, pc := 4, group := none, held := [(0, 0, 0)], yielded := [], aged := false }
def window0 : Window := { reg := .v 0 0 5, old := 0, ready := none }
def waitTeam (ws : List Window) : Team :=
  { trapTeam.modThread 0 0 fun x => { x with trap := some { cause := 16, tval := 9, word := 7, pc := 4, event := 0 } } with windows := ws }
def pend0 : PendRec := { key := 77, idx := some 3, record := plainRecord 0, blocked := .lanes 2 0 [0] }

theorem meets_TraysAndHandlers :
    (let t := { team0 with trays := [tray0] }
      let s : State := { withTeam 0 (fun _ => t) with arg := [0, 0], run := [], now := 70000 };
      (t.trays.map Tray.num).Nodup ∧ tray0.oldest + s.ageLimit t ≤ s.now ∧ (atWord 0).now < tray0.oldest + (atWord 0).ageLimit { t with trayage := 2 }
        ∧ (s.trayChoice 0 0).map (·.1.2) = some tray0 ∧ (s.drawable 0 t tray0 true).held ≠ [] ∧ tray0.held.Nodup)
    ∧ (waitTeam []).levels = [] ∧ ((waitTeam []).groups.map Group.gid).Nodup
    ∧ (∀ h ∈ (waitTeam []).groups, ∀ z ∈ h.threads, z.trap.isSome = true → h.gid = 0)
    ∧ (trapState fun _ => waitTeam [window0]).entryWaits (waitTeam [window0]) 0 0 = true
    ∧ (trapState fun _ => waitTeam []).entryWaits (waitTeam []) 0 0 = false
    ∧ (atWord 0).handlerPc (waitTeam []) 0x104 = some 0x104
    ∧ ((waitTeam []).group? 0).map ((trapState fun _ => waitTeam []).tvecNow (waitTeam [])) = some 0x104
    ∧ (let t := team0.modThread 0 0 fun x => { x with park := some (.fault 77) }
      let c := { programContext with pending := [pend0] }
      (c.pending.find? fun p => p.idx == some 3) = some pend0 ∧ (∀ p ∈ c.pending, p.idx ≠ some 4)
        ∧ (t.thread? 0 0).map Thread.park = some (some (.fault 77))) := by decide

theorem meets_handlerEntry : ∃ sp, (trapState fun _ => waitTeam []).privRange (waitTeam []) 0 .store 0 64 = .ok sp :=
  ok_of (by decide)

/-- A D-core team that may move to an L-core, one that may not; a queue of kernels and its packet. -/
def klaunchQueue : Queue :=
  { num := 5, st := .active, base := 0, log2 := 4, prio := 0, kernels := true, quantum := 0, read := 0, write := 0, packets := [],
    deficit := 0, eff := 0, waited := 0 }
def lateState (f : Part → Part) : State := { atWord 0 with part := f (atWord 0).part }

theorem meets_PlacementWords :
    team0.kind = .dcore ∧ { team0 with kind := .lcore }.kind = .lcore
    ∧ (atWord 0).feature 3 = true ∧ (lateState fun p => { p with accepted := 0 }).feature 3 = false
    ∧ (atWord 0).requestRefusal team0 .lcore = none
    ∧ { atWord 0 with images := [{ programImage 0 with opslots := 5 }] }.requestRefusal team0 .lcore = some 3
    ∧ { programContext with queues := [klaunchQueue] }.klaunchOk 5 = true
    ∧ ((atWord 0).turned.reach team0 programContext 0 .load 0 64).isOk = true
    ∧ (blockTeam (level0 .running 0)).defers = true ∧ (blockTeam (level0 .running 0)).outboxRoom = true
    ∧ (atWord 0).moveWaits team0 false ((atWord 0).placesOf team0 0 0 0 64) = false
    ∧ { atWord 0 with moves := [⟨0, 0, 3, some 0x80000, []⟩] }.moveWaits team0 false ((atWord 0).placesOf team0 0 0 0 64) = true
    ∧ (atWord 0).cur.cleared = false ∧ team0.turn = false ∧ { team0 with turn := true }.turn = true := by decide

/-- A team parked at an equivalence point with a request for the other kind. -/
def point0 : EqRec := { id := 6, depth := 0, dpc := 4, lpc := 0, vec := [(3, 7)], pred := [], scal := [], rsv := 0 }
def movingTeam (chains : List Chain) : Team :=
  { team0.modThread 0 0 fun x => { x with park := some (.point 6) } with migr := some { target := .lcore, since := 0, gid := 0, lanes := 1, word := 0, pcs := (0, 0) }, chains := chains }
def movingState (chains : List Chain) : State :=
  { withTeam 0 (fun _ => movingTeam chains) with images := [{ programImage 0 with equiv := [point0] }], arg := [2, 48] }

theorem meets_Migrations :
    (movingTeam []).allParked = true ∧ (movingTeam []).mops = []
    ∧ (movingState []).parkedRefusal (movingTeam []) .lcore = none
    ∧ (movingState [chain0 0 .running]).parkedRefusal (movingTeam [chain0 0 .running]) .lcore = some 7
    ∧ (movingState []).saveReady (movingTeam []) = true ∧ (movingState []).coreOk (movingTeam []) .lcore 48 = true ∧ kindOf 48 = .lcore
    ∧ (∀ g ∈ (movingTeam []).groups, ∀ x ∈ g.threads, x.depth ≤ 8 ∧ (movingState []).parkedAt (movingTeam []) x = some point0)
    ∧ ((point0.vec.map (mapPair .lcore)).map (·.2)).Nodup
    ∧ (atWord 0).clusterSize team0 ≤ 1 ∧ (atWord 0).now < team0.placedAt + 2000 * Config.cyclesPerUs
    ∧ team0.placedAt + 2000 * Config.cyclesPerUs ≤ 5200000
    ∧ ((atWord 0).saveTeam team0).coreOk team0 .dcore 1 = true ∧ 1 ≠ team0.core ∧ kindOf 1 = .dcore
    ∧ (opState .cctl).saveReady team0 = false := by decide

/-- A queue of the driver, with a packet in its list; a context with it, and the arguments of a step. -/
def queue0 (st : QueueState) (ps : List Packet) : Queue := { klaunchQueue with st := st, base := 0x1000, kernels := false, packets := ps }
def packet0 (st : PacketState) (bs : List Byte) : Packet := { idx := 0, bytes := bs, st := st, launch := none, since := 0, fault := none, stamp := none }
def queueState (q : Queue) (arg : List Nat) : State := { withCtx (fun c => { c with queues := [q] }) id with arg := arg }
def queueCtx (q : Queue) : Context := { programContext with queues := [q] }
def reached (s : State) (c : Context) (acc : Access) (va n : Nat) : Option (List Nat) := (s.cpReach c acc va n).toOption.map fun l => l.map (·.1)

/-- Doorbells that go forward, pass READ by more than the ring, and move back; descriptors that are on, off and bad. -/
theorem meets_QueueIndices :
    (let q := { queue0 .empty [] with read := 0xFFFFFFFF, write := 0xFFFFFFFF };
      (queueState q [0, 5, 15]).ctx? 0 = some (queueCtx q) ∧ (queueCtx q).queue? 5 = some q
        ∧ (15 - q.read).toNat = 2 ^ q.log2 ∧ (16 - q.read).toNat = 2 ^ q.log2 + 1 ∧ q.free = 16 ∧ (15 - q.write).toNat = 16
        ∧ q.free < (0xFFFFFFFE - q.write).toNat)
    ∧ klaunchQueue.kernels = true
    ∧ (∀ b ∈ [(1 : Byte), 0], let s : State := { queueState (queue0 .empty []) [0, 5] with mem := memWrite 160 [0, 16, 0, 0, 0, 0, 0, 0, 4, 3, b] pageMem };
      let d := s.queueDesc (queueCtx (queue0 .empty [])) 5
      queueBad d = false ∧ queueOn d = (b == 1))
    ∧ queueBad (zeros 32) = true ∧ queueBad ([0, 16, 0, 0, 0, 0, 0, 0, 4, 9, 1] ++ zeros 21) = true
    ∧ queueOn ([0, 16, 0, 0, 0, 0, 0, 0, 4, 9, 1] ++ zeros 21) = true
    ∧ (packet0 .taken ([5] ++ zeros 63)).kind = 5
    ∧ (let q := { queue0 .active [] with write := 1 }
      let s := queueState q [0, 5]
      (queueCtx q).takes = true ∧ q.canTake = true ∧ (queue0 .empty []).canTake = false
        ∧ reached s (queueCtx q) .load 0x1000 64 = some (upFrom 0x51000 64)
        ∧ s.packetBad (queueCtx q) (packet0 .taken (zeros 64)) = none ∧ s.packetBad (queueCtx q) (packet0 .taken ([7] ++ zeros 63)) = some 0)
    ∧ (let q := queue0 .blocked [packet0 .started ([2] ++ zeros 63), { packet0 .taken ([1] ++ zeros 63) with idx := 1 }]
      (∃ x ∈ q.before 1, x.holding = true) ∧ (q.packets.find? fun x => x.idx == 1).isSome = true) := by decide

/-- A packet of each kind that may start; started packets of the kinds that wait. -/
theorem meets_starting : ∀ k ∈ [(0 : Byte), 1, 2, 3, 4, 5, 6],
    let p := packet0 .taken ([k] ++ zeros 63)
    (queueState (queue0 .active [p]) [0, 5, 0]).starting k.toNat = some (queueCtx (queue0 .active [p]), queue0 .active [p], p) := by decide

theorem meets_started : ∀ k ∈ [(2 : Byte), 4, 6],
    let p := packet0 .started ([k] ++ zeros 63)
    (queueState (queue0 .active [p]) [0, 5, 0]).startedPacket k.toNat = some (queueCtx (queue0 .active [p]), queue0 .active [p], p) := by decide

theorem meets_PacketEffects :
    ((queueState (queue0 .active []) []).launchImage 0 (packet0 .taken ([1] ++ zeros 63))).isSome = true
    ∧ (let p := packet0 .started ([2, 0, 0, 0, 1, 0, 0, 0, 0, 1] ++ zeros 6 ++ [1] ++ zeros 47)
      let s : State := { queueState (queue0 .active [p]) [] with now := 1800 };
      (s.signalAt (queueCtx (queue0 .active [p])) p).toOption = some 0 ∧ 0 < p.field 16 8 ∧ s.sigExpired p = true
        ∧ (queueState (queue0 .active [p]) []).sigExpired p = false)
    ∧ (let q := queue0 .active []
      let s := queueState q []
      (∀ x ∈ s.teams, x.copies = []) ∧ reached s (queueCtx q) .atomic 0x100 8 = some (upFrom 0x50100 8)
        ∧ reached s (queueCtx q) .store 0x110 16 = some (upFrom 0x50110 16) ∧ reached s (queueCtx q) .load 0x120 4 = some (upFrom 0x50120 4)
        ∧ reached s (queueCtx q) .store 0x130 4 = some (upFrom 0x50130 4) ∧ (queueCtx q).qtable + 32 * q.num + 24 ≤ 0x50100)
    ∧ (let k := OpKind.klaunch 5 (zeros 64) none (0, 0)
      let q := { klaunchQueue with base := 0x1000 }
      let s : State := { opState k with ctxs := [queueCtx q] };
      s.op? 100 = some (opOf k) ∧ s.deliverable (opOf k) = true ∧ { s with ctxs := [queueCtx { q with st := .halted }] }.deliverable (opOf k) = false
        ∧ reached s (queueCtx q) .store 0x1000 64 = some (upFrom 0x51000 64)) := by decide

/-- A launch with a team to start on a core that is granted; a group that may retire and one whose flags are not idle. -/
def grantState : State :=
  { atWord 0 with
    teams := [], run := [], launches := [{ programLaunch 1 0 with started := 0, st := .queued }],
    ctxs := [{ programContext with savesize := 2 ^ 40, queues := [{ klaunchQueue with num := 0, quantum := 4 }] }], arg := [0] }

/-- No chunk with priority and no waiting write stands before the writes of these states. -/
theorem meets_outside (q : Queue) (l : List Nat) (k : OpKind) :
    (queueState q l).OpenOutside ∧ { opState k with ctxs := [queueCtx q] }.OpenOutside ∧ { atWord 0 with teams := [] }.OpenOutside
      ∧ { withCtx detCtx id with arg := [2] }.OpenOutside :=
  ⟨⟨fun _ h => (List.not_mem_nil h).elim, rfl⟩, ⟨fun _ h => (List.not_mem_nil h).elim, rfl⟩, ⟨by decide, rfl⟩, ⟨by decide, rfl⟩⟩

theorem meets_LaunchLife :
    (grantState.coreChoice 0).map (fun r => (r.1.key, r.2.1)) = some (1, (none, [0]))
    ∧ grantState.image? 0 = some (programImage 0) ∧ (grantState.preload programContext 0 (programLaunch 1 0) (programImage 0)).isOk = true
    ∧ grantState.freeSlots (programLaunch 1 0) 1 = [0]
    ∧ (let g := { group0 with st := .draining, threads := [] }
      (atWord 0).canRetire team0 g = true ∧ (atWord 0).canRetire team0 group0 = false ∧ (atWord 0).delivering 2 = false)
    ∧ (let l := { programLaunch 1 0 with st := .ending }
      let s : State := { atWord 0 with teams := [], launches := [l] };
      s.launchOver l = true ∧ s.launchOver (programLaunch 1 0) = false ∧ programContext.recording = true
        ∧ reached s programContext .atomic 0x100 8 = some (upFrom 0x50100 8))
    ∧ (withCtx detCtx id).turnReady team0 = true ∧ (atWord 0).turnReady team0 = false ∧ team0.groups ≠ [] := by decide

/-- A context of another tenant whose launch waits, all hardware slots being taken, while the first tenant's team holds a core; a
reclaim; a stopped team; a saved one. -/
def reclaimState : State :=
  { atWord 0 with
    ctxs := { programContext with num := 1, tkey := 1, savesize := 2 ^ 40, quads := 1, resident := false, st := .ready }
      :: programContext :: (upFrom 2 15).map fun n => { programContext with num := n },
    launches := [programLaunch 1 0, { programLaunch 5 0 with ctx := 1, started := 0, st := .queued }],
    tenants := [{ key := 0, weight := 1, vtime := 1, cursor := [] }, { key := 1, weight := 1, vtime := 0, cursor := [] }], arg := [0, 1] }
def reclaim0 : Reclaim := { ctx := 0, cores := [0], tend := 0, sent := false }

theorem meets_Preemption :
    reclaimState.victims.map (fun r => (r.1.key, r.2.1.key, r.2.2.map fun x => (x.1.num, x.2))) = some (5, 1, [(0, [0])])
    ∧ min 1 (reclaimState.wanted { programLaunch 5 0 with ctx := 1, started := 0, st := .queued }) = 1
    ∧ reclaimState.reclaimSet 0 1 [0] = [0] ∧ reclaimState.reclaimSet 0 0 [0] = []
    ∧ (let s : State := { atWord 0 with reclaims := [reclaim0], arg := [0] };
      s.reclaims.find? (fun r => r.cores.contains 0 && s.stopDue r) = some reclaim0)
    ∧ (atWord 0).canSave { team0 with st := .stopping } = true ∧ (atWord 0).canSave team0 = false
    ∧ (let s : State := { withTeam 0 (fun t => { t with st := .saved }) with arg := [2, 0], ctxs := grantState.ctxs };
      (s.coreChoice 0).map (fun r => (r.1.key, r.2.1)) = some (1, (some 2, [0])) ∧ s.clusterSize team0 ≤ 1)
    ∧ (queueState klaunchQueue [0, 5]).ctx? 0 = some (queueCtx klaunchQueue) := by decide

/-- A context descriptor that breaks no rule. -/
def descBytes : List Byte :=
  [0, 0, 0, 255, 0, 0, 0, 0, 1, 0, 0, 0, 1, 0, 0, 0, 0, 0, 1] ++ zeros 42 ++ [1, 0, 0] ++ zeros 16 ++ [1] ++ zeros 47
def descState : State := { atWord 0 with mem := memWrite ((atWord 0).part.ctxTable + 128) descBytes pageMem, arg := [1] }

theorem meets_ContextLife :
    descState.ctxDesc 1 = descBytes ∧ descState.descError descBytes = none ∧ (descState.descError (zeros 128)).isSome = true
    ∧ descState.ctx? 1 = none ∧ descState.part.up = true ∧ (lateState fun p => { p with needsReset := true }).part.up = false
    ∧ descState.part.acceptedWritten = true ∧ programContext.terminable = true ∧ { programContext with st := .terminated }.terminable = false
    ∧ programContext.heldCount = 0 ∧ descState.part.anyEnabled = true
    ∧ (let w : Wait := { on := .token, since := 0, iss := Issue.none, got := [] }
      let s : State := { withTeam 0 (fun t => { t with squads := [{ squad0 with wait := some w }] }) with now := 1800001, arg := [0] };
      (s.firstTimeout programContext).isSome = true ∧ 1 ≤ programContext.room ∧ { s with now := 1800000 }.firstTimeout programContext = none)
    ∧ { programContext with raised := [[({ plainRecord cBartimeout with fatal := true }, none)]] }.watchdogFired = true := by
  decide

/-- The leaf of the loaded page, of device and of unified memory; a move that may end, and one whose home does not fit. -/
def leafState (b : Byte) : State := { atWord 0 with mem := memWrite 0x40001 [b] pageMem }
def move0 (dst : Option Nat) (revoking : List Nat) : Move := { ctx := 0, va := 0, level := 3, dst := dst, revoking := revoking }

theorem meets_PageEvents :
    (∀ b ∈ [(0 : Byte), 8], ((leafState b).leafOf 0 0).map (fun x => (x.1, x.2.1, x.2.2.testBit 11, x.2.2.testBit 59)) = some (0x40000, 3, b == 8, false))
    ∧ ((leafState 0).leafOf 0 5).map (fun x => (pageBase 5 x.2.1, leafPa x.2.2, pageSize x.2.1)) = some (0, 0x50000, 65536)
    ∧ ((leafState 0).walk 0x10000 5).isOk = true ∧ ((leafState 0).walk 0x10000 0x10000).isOk = false := by decide

theorem meets_moves :
    (∀ d ∈ [none, some 0x80000], (leafState 0).moveReady (move0 d []) = true ∧ (leafState 0).moveReady (move0 d [0]) = false
      ∧ { leafState 0 with moves := [move0 d []] }.moves.find? (fun m => m.ctx == 0 && m.va == pageBase 5 3) = some (move0 d []))
    ∧ (let s : State := { leafState 0 with moves := [move0 (some 0x80000) []] };
      (s.moves.find? fun m => m.ctx == 0 && m.dst.isSome && pageBase 5 m.level == m.va) = some (move0 (some 0x80000) [])
        ∧ s.moving 0 5 = true ∧ (leafState 0).moving 0 5 = false)
    ∧ { leafState 0 with badEcc := [0x50000 / 32] }.pageBad 0x50000 65536 = true
    ∧ (leafState 0).homeFits 0x80000 3 = true ∧ (leafState 0).homeFits 0x80001 3 = false
    ∧ (leafState 0).pageBad 0x50000 65536 = false ∧ Memory.wf (leafState 0).mem = true
    ∧ 0x40000 + 8 ≤ 0x80000
    ∧ (memNat 0x40000 8 (memWrite 0x40007 [8] pageMem)).testBit 59 = true
    ∧ { programContext with sdbusy := true, sdwait := [1] }.sdwait = 1 :: [] ∧ programContext.sdbusy = false
    ∧ 5 + 65531 ≤ pageBase 5 3 + pageSize 3 := by decide

theorem meets_HostAccesses :
    (atWord 0).deviceRange 0x50000 32 = true ∧ (atWord 0).deviceRange 0x50000 0 = false ∧ (atWord 0).deviceRange (2 ^ 49) 8 = false
    ∧ (∃ x ∈ partSectors 0x50008 8, { atWord 0 with checks := [(0x50008 / 32, 1)] }.checkBad x = true)
    ∧ (∀ x ∈ partSectors 0x50008 8, (atWord 0).checkBad x = false) ∧ partSectors 0x50000 32 = []
    ∧ (let o := { opOf .cctl with iss := { Issue.none with vas := [(0, 0, 8)] } }
      let s : State := { opState .cctl with mem := memWrite 0x40006 [18] pageMem };
      s.hostLanes o = [(0, 0, 8)] ∧ (opState .cctl).hostLanes o = []) := by decide

/-- An image of one packet and one L-stream word, and one that breaks a rule. -/
def image1 : Image := { programImage 0 with st := .loading, kaddr := 0x1000, dwords := [0x00FFF000, 0, 0, 0], lwords := [0], lbase := 0x100 }

theorem meets_KernelImages :
    (let s : State := { atWord 0 with images := [image1], arg := [0] };
      s.image? 0 = some image1 ∧ (s.images.map Image.key).Nodup ∧ { image1 with dwords := [] }.chosen s.part.stepping.toNat = none
        ∧ parseEquiv 0 0 0 [] = some [] ∧ parseEquiv 0 0 1 [1] = none ∧ (image1.chosen s.part.stepping.toNat).map (fun i => i.avoiding s.part.errata s.part.stepping.toNat) = some image1
        ∧ s.refusal programContext image1 = none ∧ (s.refusal programContext { image1 with vregs := 7 }).isSome = true
        ∧ (image1.fixed s.part.gradeA).relocs = [] ∧ s.sectionPas programContext 0 4 = some [0x50000, 0x50004, 0x50008, 0x5000C]
        ∧ (s.putSection programContext 0 image1.dwords).sectionPas programContext 0x100 1 = some [0x50100]
        ∧ (((s.putSection programContext 0 image1.dwords).putSection programContext 0x100 image1.lwords).walk 0x10000 0x1000).toOption.map
            (fun p => p.base + 0x1000 % 2 ^ p.bits) = some 0x51000)
    ∧ (atWord 0).imageBusy 0 = true ∧ { atWord 0 with launches := [] }.imageBusy 0 = false
    ∧ programContext.terminable = true ∧ programContext.st ≠ .faulted := by decide

/-- Links in each state; a flit with a bad check, out of sequence, and one of each message. -/
def withPart (f : Part → Part) : State := { atWord 0 with part := f (atWord 0).part }
def link0 (st : LinkState) (n : Nat) : Link := { num := n, st := st, attempts := 2, quarantines := [], rate := 0, enabled := true }
def flit0 (m : Option PodMsg) : Flit :=
  { port := 3, kind := 1, cls := 0, seq := 0, ack := 0, ret := [1, 0], checks := true, msg := m }

theorem meets_LinksAndFlits :
    (∀ n ∈ [3, 17], ∀ st ∈ [LinkState.down, .training, .up],
      (withPart fun p => { p with links := [link0 st n] }).link? n = some (link0 st n))
    ∧ isBoundary 17 = true ∧ isBoundary 26 = true ∧ isBoundary 27 = false ∧ isBoundary 16 = false ∧ programContext.resident = true
    ∧ (let s := withPart fun p => { p with rx := [flit0 none] };
      s.part.rx.find? (fun x => x.port == 3) = some (flit0 none)
        ∧ (s.part.ports.find? fun x => x.num == 3).map (fun p => (p.expect, p.num)) = some (0, 3))
    ∧ (let k := OpKind.remote [(0, 0, 8)] 0xFFFFFC0000000000 4 .load;
      (opState k).op? 100 = some (opOf k) ∧ (opOf k).toks = [] ∧ (opState k).team? 2 = some team0 ∧ (team0.thread? 0 0).isSome = true
        ∧ podRegs 0x5020A128 .load 0 7 = [7]) := by decide

def channel0 (held : Nat) (kind : Nat) : Channel :=
  { kind := kind, num := 2, cls := 0, total := 16, held := held, occupied := 3, returning := 0, mismatch := some 0 }
def remote0 (act : RemoteAct) : RemoteReq := { module := 1, sctx := 0, tag := 4, rctx := 0, va := 0x100, width := 4, act := act }

theorem meets_ProoferAndRemote :
    (let s := withPart fun p => { p with channels := [channel0 13 1, channel0 12 1, channel0 12 3], links := [link0 .up 3] };
      s.audited (channel0 13 1) = true ∧ 13 + 3 + 0 = (channel0 13 1).total ∧ s.audited (channel0 12 1) = true
        ∧ 12 + 3 + 0 ≠ (channel0 12 1).total ∧ (channel0 12 1).link = some 3 ∧ s.link? 3 = some (link0 .up 3)
        ∧ (channel0 12 3).link = none ∧ s.audited (channel0 12 3) = true ∧ s.now < 0 + oneSecond
        ∧ (withPart fun p => { p with links := [link0 .down 3] }).audited (channel0 12 1) = false)
    ∧ (∀ act ∈ [RemoteAct.load, .store 5, .atom 0 true false [(1, 0)]], let s := withPart fun p => { p with remote := [remote0 act], grants := [(1, 0, 0)] };
      s.part.remote[0]? = some (remote0 act) ∧ ((1, 0, 0) ∈ s.part.grants)
        ∧ reached s programContext (remote0 act).acc 0x100 4 = some (upFrom 0x50100 4))
    ∧ (1, 0, 0) ∉ (atWord 0).part.grants
    ∧ ((atWord 0).cpReach programContext .load 0x10000 4).isOk = false := by decide

theorem meets_Management :
    (∃ e, { Part.reset with env := e }.env.rails = false) ∧ Part.reset.env.rails = true ∧ Part.reset.supply = true
    ∧ Part.reset.boot ≠ .step 1 ∧ Part.reset.env.rom = true ∧ (Part.reset.accept 0).isSome = true ∧ (Part.reset.accept 1).isSome = true
    ∧ Part.reset.env.procs = true ∧ (∀ b < 10, Part.reset.env.trained (17 + b) = .up) ∧ Part.reset.env.hbm = true
    ∧ Part.reset.env.trained 0 ≠ .down ∧ (atWord 0).ctx? 0 = some programContext :=
  ⟨⟨{ Part.reset.env with rails := false }, rfl⟩, by decide⟩

/-- An edge that agrees, before and after the two seconds; cores of both kinds, with a team that may move and without. -/
theorem meets_PowerAndTime :
    (atWord 0).timeOfDay = (0, 0) ∧ ¬ (atWord 0).part.lastPps + 2 * oneSecond ≤ (atWord 0).now
    ∧ { atWord 0 with now := 2 * oneSecond }.part.lastPps + 2 * oneSecond ≤ 2 * oneSecond
    ∧ kindOf 48 = .lcore ∧ kindOf 0 = .dcore ∧ (atWord 0).movableTeam 0 = false
    ∧ { atWord 0 with now := 5200000 }.movableTeam 0 = true ∧ 10 < (atWord 0).clockOf 48 ∧ ¬ (atWord 0).clockOf 48 < 100
    ∧ (withPart fun p => { p with clocks := [(48, 90)] }).clockOf 48 < 100
    ∧ (atWord 0).part.cpStandby = false ∧ (atWord 0).part.mpStandby = false := by decide

/-- A step from a memory in its form. -/
theorem meets_StepKeepsMemory : Memory.wf { State.reset with agenda := [{ step := .powerLimitSet, arg := [2000] }] }.mem = true
    ∧ ∃ s', step { State.reset with agenda := [{ step := .powerLimitSet, arg := [2000] }] } = .next s' := ⟨rfl, _, rfl⟩

/-! ## One step of some words, with results that the spec works out -/

/-- A vector register of the one thread after a word, from some register values. -/
def vAfter (i : Instr) (v : Sparse 32) (n : Nat) : Option Nat :=
  match exec i (withTeam 0 fun t => t.modThread 0 0 fun x => { x with v := v }) with
  | .next s => (s.team? 2).map fun u => (u.peek (.v 0 0 n)).toNat
  | _ => none

/-- The sum of -1 and 2, into a register that is also a source (R74); the high word of -2^31 times itself; 2^31 - 1 and 1 saturate
(R75). -/
theorem test_integer_sums : vAfter (.iadd 5 5 6) [(5, 0xFFFFFFFF), (6, 2)] 5 = some 1
    ∧ vAfter (.imulhI32 4 5 5) [(5, 0x80000000)] 4 = some 0x40000000
    ∧ vAfter (.iaddsI32 4 5 6) [(5, 0x7FFFFFFF), (6, 1)] 4 = some 0x7FFFFFFF := by decide

/-- 1.5 + 2.25 is 3.75; the minimum of a NaN and 1.0 is 1.0 (R79); 381.0 in f16 is 0x5DF4 and 285.0 is 0x5C74 (R430); 2^31 saturates
(R90). -/
theorem test_floats : vAfter (.fadd 4 5 6) [(5, 0x3FC00000), (6, 0x40100000)] 4 = some 0x40700000
    ∧ vAfter (.fmin 4 5 6) [(5, 0x7FC00000), (6, 0x3F800000)] 4 = some 0x3F800000
    ∧ vAfter (.cvtF16F32 4 5 0 0) [(5, 0x43BE8000)] 4 = some 0x5DF4 ∧ vAfter (.cvtF32F16 4 5) [(5, 0x5C74)] 4 = some 0x438E8000
    ∧ vAfter (.cvtI32F32 4 5 0 1) [(5, 0x4F000000)] 4 = some 0x7FFFFFFF := by decide

/-- The examples of R87 and R89. -/
theorem test_dm8 : vAfter (.cvtF32Dm8 4 5 0) [(5, 0xDA)] 4 = some 0xC2848000
    ∧ [(0x40400000, 0x67), (0x40470000, 0x68), (0x411DC000, 0x50), (0xC8435000, 0xC1)].all
        (fun p => vAfter (.cvtDm8F32 4 5 0) [(5, p.1)] 4 == some p.2) = true := by decide

end Sys2Proof.Machine
end

/-! Encoding: every word is tiled by the fixed bits of its row and the fields of its instruction. -/

namespace Sys2Proof.Encoding

/-- Bits lo to lo + n - 1 of a word, as a number. -/
def slice (w lo n : Nat) : Nat := w / 2 ^ lo % 2 ^ n

theorem slice_lt (w lo n : Nat) : slice w lo n < 2 ^ n := Nat.mod_lt _ (by positivity)

theorem fld_eq_iff {w lo n : Nat} {x : BitVec n} : fld w lo n = x ↔ slice w lo n = x.toNat := by
  rw [BitVec.toNat_eq, fld, BitVec.toNat_ofNat, slice]

@[simp] theorem toNat_fld (w lo n : Nat) : (fld w lo n).toNat = slice w lo n := (fld_eq_iff.mp rfl).symm

theorem holds_iff {r : OpRow} {w : Nat} : r.holds w = true ↔ ∀ f ∈ r.fixed, slice w f.1 f.2.1 = f.2.2 := by
  simp [OpRow.holds, slice, List.all_eq_true]

/-! ## Words in pieces -/

/-- A piece of a word: its low bit, its width and its value. -/
abbrev Piece := Nat × Nat × Nat

/-- The number that a list of pieces makes. -/
def total (ps : List Piece) : Nat := (ps.map fun p => p.2.2 * 2 ^ p.1).sum

/-- Where a piece stands: its low bit and its width. -/
def place (p : Piece) : Nat × Nat := (p.1, p.2.1)

/-- Places that stand one upon the other from bit l to bit 30. -/
def stacked : Nat → List (Nat × Nat) → Bool
  | l, [] => l == 31
  | l, p :: ps => p.1 == l && stacked (l + p.2) ps

/-- Places that cover bits 30:0, each bit once. -/
def tiles (ps : List (Nat × Nat)) : Bool := stacked 0 (ps.insertionSort fun p q => p.1 ≤ q.1)

theorem stacked_le {l : Nat} {ps : List (Nat × Nat)} (h : stacked l ps = true) : l ≤ 31 := by
  induction ps generalizing l with
  | nil => simp_all [stacked]
  | cons p ps ih =>
    simp only [stacked, Bool.and_eq_true] at h
    exact (Nat.le_add_right _ _).trans (ih h.2)

/-- All stacked pieces stand at or above the lowest. -/
theorem dvd_total {l : Nat} {ps : List Piece} (h : stacked l (ps.map place) = true) : 2 ^ l ∣ total ps := by
  induction ps generalizing l with
  | nil => exact dvd_zero _
  | cons p ps ih =>
    simp only [List.map_cons, stacked, place, Bool.and_eq_true, beq_iff_eq] at h
    rw [total, List.map_cons, List.sum_cons, h.1]
    exact dvd_add (dvd_mul_left _ _) ((pow_dvd_pow 2 (Nat.le_add_right _ _)).trans (ih h.2))

/-- Stacked pieces stay below bit 31. -/
theorem stacked_total_le {l : Nat} {ps : List Piece} (h : stacked l (ps.map place) = true) (hv : ∀ p ∈ ps, p.2.2 < 2 ^ p.2.1) :
    total ps + 2 ^ l ≤ 2 ^ 31 := by
  induction ps generalizing l with
  | nil =>
    simp only [List.map_nil, stacked, beq_iff_eq] at h
    simp [total, h]
  | cons p ps ih =>
    obtain ⟨lo, n, v⟩ := p
    simp only [List.map_cons, stacked, place, Bool.and_eq_true, beq_iff_eq] at h
    obtain ⟨rfl, h⟩ := h
    obtain ⟨hv1, hv⟩ := List.forall_mem_cons.mp hv
    calc total ((lo, n, v) :: ps) + 2 ^ lo = total ps + (v + 1) * 2 ^ lo := by simp only [total, List.map_cons, List.sum_cons]; ring
      _ ≤ total ps + 2 ^ n * 2 ^ lo := by gcongr; exact hv1
      _ = total ps + 2 ^ (lo + n) := by rw [pow_add, Nat.mul_comm]
      _ ≤ 2 ^ 31 := ih h hv

/-- The bits of a word from bit l on, split at bit l + n. -/
theorem upper_split (w l n : Nat) (h : l + n ≤ 31) :
    w % 2 ^ 31 / 2 ^ l * 2 ^ l = slice w l n * 2 ^ l + w % 2 ^ 31 / 2 ^ (l + n) * 2 ^ (l + n) := by
  obtain ⟨k, hk⟩ : ∃ k, 31 = l + n + k := ⟨31 - (l + n), by omega⟩
  have hs : slice w l n = w % 2 ^ 31 / 2 ^ l % 2 ^ n := by
    rw [slice, hk, Nat.add_assoc, pow_add 2 l, Nat.mod_mul_right_div_self, pow_add 2 n, Nat.mod_mul_right_mod]
  rw [hs, pow_add, ← Nat.div_div_eq_div_mul, Nat.mul_comm (2 ^ l) (2 ^ n), ← Nat.mul_assoc, ← Nat.add_mul, Nat.mod_add_div']

theorem stacked_total_iff (w : Nat) {l : Nat} {ps : List Piece} (h : stacked l (ps.map place) = true)
    (hv : ∀ p ∈ ps, p.2.2 < 2 ^ p.2.1) :
    total ps = w % 2 ^ 31 / 2 ^ l * 2 ^ l ↔ ∀ p ∈ ps, slice w p.1 p.2.1 = p.2.2 := by
  induction ps generalizing l with
  | nil =>
    simp only [List.map_nil, stacked, beq_iff_eq] at h
    simp [total, h]
  | cons p ps ih =>
    obtain ⟨lo, n, v⟩ := p
    simp only [List.map_cons, stacked, place, Bool.and_eq_true, beq_iff_eq] at h
    obtain ⟨rfl, h⟩ := h
    obtain ⟨hv1, hv⟩ := List.forall_mem_cons.mp hv
    obtain ⟨c, hc⟩ := dvd_total h
    have hs := slice_lt w lo n
    have hsplit := upper_split w lo n (stacked_le h)
    have hsum : total ((lo, n, v) :: ps) = v * 2 ^ lo + total ps := rfl
    rw [List.forall_mem_cons, ← ih h hv, hsum, hsplit]
    constructor
    · intro e
      rw [hc, pow_add] at e ⊢
      generalize w % 2 ^ 31 / (2 ^ lo * 2 ^ n) = q at e ⊢
      have e : v + 2 ^ n * c = slice w lo n + 2 ^ n * q :=
        Nat.eq_of_mul_eq_mul_right (Nat.two_pow_pos lo) (by linear_combination e)
      have hq := congrArg (· % 2 ^ n) e
      simp only [Nat.add_mul_mod_self_left, Nat.mod_eq_of_lt hv1, Nat.mod_eq_of_lt hs] at hq
      refine ⟨hq.symm, ?_⟩
      have : 2 ^ n * c = 2 ^ n * q := by omega
      linear_combination (2 ^ lo) * this
    · rintro ⟨e1, e2⟩
      rw [e1, e2]

/-- Pieces that tile a word are stacked when sorted. -/
theorem exists_stacked {ps : List Piece} (h : tiles (ps.map place) = true) :
    ∃ qs : List Piece, qs.Perm ps ∧ total qs = total ps ∧ stacked 0 (qs.map place) = true := by
  have hp := List.perm_insertionSort (fun p q : Piece => p.1 ≤ q.1) ps
  have hm := List.map_insertionSort (fun p q : Piece => p.1 ≤ q.1) (fun p q : Nat × Nat => p.1 ≤ q.1) place ps fun _ _ _ _ => Iff.rfl
  rw [tiles, ← hm] at h
  exact ⟨_, hp, (hp.map _).sum_eq, h⟩

theorem total_lt {ps : List Piece} (h : tiles (ps.map place) = true) (hv : ∀ p ∈ ps, p.2.2 < 2 ^ p.2.1) : total ps < 2 ^ 31 := by
  obtain ⟨qs, hp, hs, hq⟩ := exists_stacked h
  exact hs ▸ stacked_total_le hq fun p hm => hv p (hp.mem_iff.mp hm)

/-- Pieces that tile a word make it exactly when it holds each of them. -/
theorem total_iff (w : Nat) {ps : List Piece} (h : tiles (ps.map place) = true) (hv : ∀ p ∈ ps, p.2.2 < 2 ^ p.2.1) :
    total ps = w % 2 ^ 31 ↔ ∀ p ∈ ps, slice w p.1 p.2.1 = p.2.2 := by
  obtain ⟨qs, hp, hs, hq⟩ := exists_stacked h
  have ht := stacked_total_iff w hq fun p hm => hv p (hp.mem_iff.mp hm)
  rw [hs] at ht
  simpa [hp.mem_iff] using ht

/-! ## Rows -/

/-- The pieces that a row of a major fixes: the major opcode and the row's fixed bits (R30, R43). -/
def fixedPieces (op : Nat) (fixed : List Piece) : List Piece := (25, 6, op) :: fixed

/-- A row's fixed bits and the fields of its instruction, given by their places, cover the word, and the encoder's fixed bits are
the row's. -/
def laidOut (op : Nat) (fixed : List Piece) (base : Nat) (fields : List (Nat × Nat)) : Bool :=
  tiles ((fixedPieces op fixed).map place ++ fields) && total (fixedPieces op fixed) == base
    && (fixedPieces op fixed).all fun p => p.2.2 < 2 ^ p.2.1

theorem enc_eq (base : Nat) (fields : List Piece) : enc base (fields.map fun f => (f.2.2, f.1)) = base + total fields := by
  induction fields generalizing base with
  | nil => rfl
  | cons f fs ih => exact (ih _).trans (Nat.add_assoc _ _ _)

/-- The encoder's word has no C bit, and a word is the encoder's exactly when it has the row's fixed bits and holds the fields. -/
theorem enc_eq_iff {op base : Nat} {fixed fields : List Piece} {make : Nat → Instr}
    (h : laidOut op fixed base (fields.map place) = true) (hv : ∀ f ∈ fields, f.2.2 < 2 ^ f.2.1) :
    enc base (fields.map fun f => (f.2.2, f.1)) < 2 ^ 31 ∧ ∀ w, enc base (fields.map fun f => (f.2.2, f.1)) = w % 2 ^ 31 ↔
      (slice w 25 6 = op ∧ OpRow.holds ⟨fixed, make⟩ w = true) ∧ ∀ f ∈ fields, slice w f.1 f.2.1 = f.2.2 := by
  simp only [laidOut, Bool.and_eq_true, beq_iff_eq, List.all_eq_true, decide_eq_true_eq] at h
  obtain ⟨⟨ht, hb⟩, hf⟩ := h
  rw [← List.map_append] at ht
  have hsum : total (fixedPieces op fixed ++ fields) = base + total fields := by rw [← hb]; simp [total]
  have hval : ∀ p ∈ fixedPieces op fixed ++ fields, p.2.2 < 2 ^ p.2.1 := fun p hp => (List.mem_append.mp hp).elim (hf p) (hv p)
  rw [enc_eq, ← hsum]
  refine ⟨total_lt ht hval, fun w => ?_⟩
  rw [total_iff w ht hval, holds_iff, List.forall_mem_append, fixedPieces, List.forall_mem_cons]

/-- A row and an instruction of its kind: where the row's fixed bits stand, the word is that of the instruction read from it; and the
instruction is read from its word. -/
structure Faithful (op : Nat) (r : OpRow) (i : Instr) : Prop where
  encodes (w : Nat) : slice w 25 6 = op → r.holds w = true → encodeBody (r.make w) = some (w % 2 ^ 31)
  decodes (w : Nat) : encodeBody i = some (w % 2 ^ 31) → slice w 25 6 = op ∧ r.holds w = true ∧ r.make w = i
  bounded (n : Nat) : encodeBody i = some n → n < 2 ^ 31

/-- A row whose instruction C is made of fields that it reads from the word (R43): it is faithful when the encoder puts the same
fields in the same places. -/
theorem Faithful.of_fields {op base : Nat} {fixed : List Piece} {α : Type} (C : α → Instr) (rd : Nat → α) (fields : α → List Piece)
    (he : ∀ a, encodeBody (C a) = some (enc base ((fields a).map fun f => (f.2.2, f.1))))
    (hl : ∀ a, laidOut op fixed base ((fields a).map place) = true) (hv : ∀ a, ∀ f ∈ fields a, f.2.2 < 2 ^ f.2.1)
    (hrd : ∀ w a, (∀ f ∈ fields a, slice w f.1 f.2.1 = f.2.2) ↔ rd w = a) (a : α) :
    Faithful op ⟨fixed, fun w => C (rd w)⟩ (C a) := by
  have key := fun a => (enc_eq_iff (make := fun w => C (rd w)) (hl a) (hv a)).2
  refine ⟨fun w hop hr => ?_, fun w hw => ?_, fun n hn => ?_⟩
  · rw [he, (key _ w).mpr ⟨⟨hop, hr⟩, (hrd w _).mpr rfl⟩]
  · obtain ⟨⟨hop, hr⟩, h⟩ := (key a w).mp (Option.some.inj ((he a).symm.trans hw))
    exact ⟨hop, hr, congrArg C ((hrd w a).mp h)⟩
  · exact Option.some.inj ((he a).symm.trans hn) ▸ (enc_eq_iff (make := fun w => C (rd w)) (hl a) (hv a)).1

section
variable {op base l1 l2 l3 l4 l5 l6 n1 n2 n3 n4 n5 n6 : Nat} {fixed : List Piece}

theorem Faithful.of0 {i : Instr} (he : encodeBody i = some (enc base [])) (hl : laidOut op fixed base [] = true) :
    Faithful op ⟨fixed, fun _ => i⟩ i :=
  of_fields (fun _ : Unit => i) (fun _ => ()) (fun _ => []) (fun _ => he) (fun _ => hl) (by simp) (by simp) ()

theorem Faithful.of1 {C : BitVec n1 → Instr} (x : BitVec n1)
    (he : ∀ x, encodeBody (C x) = some (enc base [(x.toNat, l1)]))
    (hl : laidOut op fixed base [(l1, n1)] = true) :
    Faithful op ⟨fixed, fun w => C (fld w l1 n1)⟩ (C x) :=
  of_fields (fun a : BitVec n1 => C a) (fun w => (fld w l1 n1))
    (fun a => [(l1, n1, a.toNat)]) (fun _ => he _) (fun _ => hl)
    (by simp only [List.forall_mem_cons]; simp [BitVec.isLt])
    (by simp only [List.forall_mem_cons]; simp [fld_eq_iff]) (x)

theorem Faithful.of2 {C : BitVec n1 → BitVec n2 → Instr} (x : BitVec n1) (y : BitVec n2)
    (he : ∀ x y, encodeBody (C x y) = some (enc base [(x.toNat, l1), (y.toNat, l2)]))
    (hl : laidOut op fixed base [(l1, n1), (l2, n2)] = true) :
    Faithful op ⟨fixed, fun w => C (fld w l1 n1) (fld w l2 n2)⟩ (C x y) :=
  of_fields (fun a : BitVec n1 × BitVec n2 => C a.1 a.2) (fun w => (fld w l1 n1, fld w l2 n2))
    (fun a => [(l1, n1, a.1.toNat), (l2, n2, a.2.toNat)]) (fun _ => he _ _) (fun _ => hl)
    (by simp only [List.forall_mem_cons]; simp [BitVec.isLt])
    (by simp only [List.forall_mem_cons]; simp [fld_eq_iff, Prod.ext_iff]) (x, y)

theorem Faithful.of3 {C : BitVec n1 → BitVec n2 → BitVec n3 → Instr} (x : BitVec n1) (y : BitVec n2) (z : BitVec n3)
    (he : ∀ x y z, encodeBody (C x y z) = some (enc base [(x.toNat, l1), (y.toNat, l2), (z.toNat, l3)]))
    (hl : laidOut op fixed base [(l1, n1), (l2, n2), (l3, n3)] = true) :
    Faithful op ⟨fixed, fun w => C (fld w l1 n1) (fld w l2 n2) (fld w l3 n3)⟩ (C x y z) :=
  of_fields (fun a : BitVec n1 × BitVec n2 × BitVec n3 => C a.1 a.2.1 a.2.2) (fun w => (fld w l1 n1, fld w l2 n2, fld w l3 n3))
    (fun a => [(l1, n1, a.1.toNat), (l2, n2, a.2.1.toNat), (l3, n3, a.2.2.toNat)]) (fun _ => he _ _ _) (fun _ => hl)
    (by simp only [List.forall_mem_cons]; simp [BitVec.isLt])
    (by simp only [List.forall_mem_cons]; simp [fld_eq_iff, Prod.ext_iff]) (x, y, z)

theorem Faithful.of4 {C : BitVec n1 → BitVec n2 → BitVec n3 → BitVec n4 → Instr} (x : BitVec n1) (y : BitVec n2) (z : BitVec n3) (p : BitVec n4)
    (he : ∀ x y z p, encodeBody (C x y z p) = some (enc base [(x.toNat, l1), (y.toNat, l2), (z.toNat, l3), (p.toNat, l4)]))
    (hl : laidOut op fixed base [(l1, n1), (l2, n2), (l3, n3), (l4, n4)] = true) :
    Faithful op ⟨fixed, fun w => C (fld w l1 n1) (fld w l2 n2) (fld w l3 n3) (fld w l4 n4)⟩ (C x y z p) :=
  of_fields (fun a : BitVec n1 × BitVec n2 × BitVec n3 × BitVec n4 => C a.1 a.2.1 a.2.2.1 a.2.2.2) (fun w => (fld w l1 n1, fld w l2 n2, fld w l3 n3, fld w l4 n4))
    (fun a => [(l1, n1, a.1.toNat), (l2, n2, a.2.1.toNat), (l3, n3, a.2.2.1.toNat), (l4, n4, a.2.2.2.toNat)]) (fun _ => he _ _ _ _) (fun _ => hl)
    (by simp only [List.forall_mem_cons]; simp [BitVec.isLt])
    (by simp only [List.forall_mem_cons]; simp [fld_eq_iff, Prod.ext_iff]) (x, y, z, p)

theorem Faithful.of5 {C : BitVec n1 → BitVec n2 → BitVec n3 → BitVec n4 → BitVec n5 → Instr} (x : BitVec n1) (y : BitVec n2) (z : BitVec n3) (p : BitVec n4) (q : BitVec n5)
    (he : ∀ x y z p q, encodeBody (C x y z p q) = some (enc base [(x.toNat, l1), (y.toNat, l2), (z.toNat, l3), (p.toNat, l4), (q.toNat, l5)]))
    (hl : laidOut op fixed base [(l1, n1), (l2, n2), (l3, n3), (l4, n4), (l5, n5)] = true) :
    Faithful op ⟨fixed, fun w => C (fld w l1 n1) (fld w l2 n2) (fld w l3 n3) (fld w l4 n4) (fld w l5 n5)⟩ (C x y z p q) :=
  of_fields (fun a : BitVec n1 × BitVec n2 × BitVec n3 × BitVec n4 × BitVec n5 => C a.1 a.2.1 a.2.2.1 a.2.2.2.1 a.2.2.2.2) (fun w => (fld w l1 n1, fld w l2 n2, fld w l3 n3, fld w l4 n4, fld w l5 n5))
    (fun a => [(l1, n1, a.1.toNat), (l2, n2, a.2.1.toNat), (l3, n3, a.2.2.1.toNat), (l4, n4, a.2.2.2.1.toNat), (l5, n5, a.2.2.2.2.toNat)]) (fun _ => he _ _ _ _ _) (fun _ => hl)
    (by simp only [List.forall_mem_cons]; simp [BitVec.isLt])
    (by simp only [List.forall_mem_cons]; simp [fld_eq_iff, Prod.ext_iff]) (x, y, z, p, q)

theorem Faithful.of6 {C : BitVec n1 → BitVec n2 → BitVec n3 → BitVec n4 → BitVec n5 → BitVec n6 → Instr} (x : BitVec n1) (y : BitVec n2) (z : BitVec n3) (p : BitVec n4) (q : BitVec n5) (r : BitVec n6)
    (he : ∀ x y z p q r, encodeBody (C x y z p q r) = some (enc base [(x.toNat, l1), (y.toNat, l2), (z.toNat, l3), (p.toNat, l4), (q.toNat, l5), (r.toNat, l6)]))
    (hl : laidOut op fixed base [(l1, n1), (l2, n2), (l3, n3), (l4, n4), (l5, n5), (l6, n6)] = true) :
    Faithful op ⟨fixed, fun w => C (fld w l1 n1) (fld w l2 n2) (fld w l3 n3) (fld w l4 n4) (fld w l5 n5) (fld w l6 n6)⟩ (C x y z p q r) :=
  of_fields (fun a : BitVec n1 × BitVec n2 × BitVec n3 × BitVec n4 × BitVec n5 × BitVec n6 => C a.1 a.2.1 a.2.2.1 a.2.2.2.1 a.2.2.2.2.1 a.2.2.2.2.2) (fun w => (fld w l1 n1, fld w l2 n2, fld w l3 n3, fld w l4 n4, fld w l5 n5, fld w l6 n6))
    (fun a => [(l1, n1, a.1.toNat), (l2, n2, a.2.1.toNat), (l3, n3, a.2.2.1.toNat), (l4, n4, a.2.2.2.1.toNat), (l5, n5, a.2.2.2.2.1.toNat), (l6, n6, a.2.2.2.2.2.toNat)]) (fun _ => he _ _ _ _ _ _) (fun _ => hl)
    (by simp only [List.forall_mem_cons]; simp [BitVec.isLt])
    (by simp only [List.forall_mem_cons]; simp [fld_eq_iff, Prod.ext_iff]) (x, y, z, p, q, r)

/-- The first row of a major whose instruction is made by the same constructor. -/
def rowLike (op : Nat) (i : Instr) : Option OpRow := (rowsOf op).find? fun r => (r.make 0).ctorIdx == i.ctorIdx

/-- An instruction has a faithful row. -/
def HasRow (i : Instr) : Prop := ∃ op, ∃ r ∈ rowsOf op, Faithful op r i

theorem HasRow.of0 {i : Instr} (he : encodeBody i = some (enc base []))
    (hm : rowLike (base / 2 ^ 25) i = some ⟨fixed, fun _ => i⟩) (hl : laidOut (base / 2 ^ 25) fixed base [] = true) : HasRow i :=
  ⟨_, _, List.mem_of_find?_eq_some hm, .of0 he hl⟩

theorem HasRow.of1 {C : BitVec n1 → Instr} {x}
    (he : ∀ x, encodeBody (C x) = some (enc base [(x.toNat, l1)]))
    (hm : rowLike (base / 2 ^ 25) (C x) = some ⟨fixed, fun w => C (fld w l1 n1)⟩)
    (hl : laidOut (base / 2 ^ 25) fixed base [(l1, n1)] = true) : HasRow (C x) :=
  ⟨_, _, List.mem_of_find?_eq_some hm, .of1 x he hl⟩

theorem HasRow.of2 {C : BitVec n1 → BitVec n2 → Instr} {x y}
    (he : ∀ x y, encodeBody (C x y) = some (enc base [(x.toNat, l1), (y.toNat, l2)]))
    (hm : rowLike (base / 2 ^ 25) (C x y) = some ⟨fixed, fun w => C (fld w l1 n1) (fld w l2 n2)⟩)
    (hl : laidOut (base / 2 ^ 25) fixed base [(l1, n1), (l2, n2)] = true) : HasRow (C x y) :=
  ⟨_, _, List.mem_of_find?_eq_some hm, .of2 x y he hl⟩

theorem HasRow.of3 {C : BitVec n1 → BitVec n2 → BitVec n3 → Instr} {x y z}
    (he : ∀ x y z, encodeBody (C x y z) = some (enc base [(x.toNat, l1), (y.toNat, l2), (z.toNat, l3)]))
    (hm : rowLike (base / 2 ^ 25) (C x y z) = some ⟨fixed, fun w => C (fld w l1 n1) (fld w l2 n2) (fld w l3 n3)⟩)
    (hl : laidOut (base / 2 ^ 25) fixed base [(l1, n1), (l2, n2), (l3, n3)] = true) : HasRow (C x y z) :=
  ⟨_, _, List.mem_of_find?_eq_some hm, .of3 x y z he hl⟩

theorem HasRow.of4 {C : BitVec n1 → BitVec n2 → BitVec n3 → BitVec n4 → Instr} {x y z p}
    (he : ∀ x y z p, encodeBody (C x y z p) = some (enc base [(x.toNat, l1), (y.toNat, l2), (z.toNat, l3), (p.toNat, l4)]))
    (hm : rowLike (base / 2 ^ 25) (C x y z p) = some ⟨fixed, fun w => C (fld w l1 n1) (fld w l2 n2) (fld w l3 n3) (fld w l4 n4)⟩)
    (hl : laidOut (base / 2 ^ 25) fixed base [(l1, n1), (l2, n2), (l3, n3), (l4, n4)] = true) : HasRow (C x y z p) :=
  ⟨_, _, List.mem_of_find?_eq_some hm, .of4 x y z p he hl⟩

theorem HasRow.of5 {C : BitVec n1 → BitVec n2 → BitVec n3 → BitVec n4 → BitVec n5 → Instr} {x y z p q}
    (he : ∀ x y z p q, encodeBody (C x y z p q) = some (enc base [(x.toNat, l1), (y.toNat, l2), (z.toNat, l3), (p.toNat, l4), (q.toNat, l5)]))
    (hm : rowLike (base / 2 ^ 25) (C x y z p q) = some ⟨fixed, fun w => C (fld w l1 n1) (fld w l2 n2) (fld w l3 n3) (fld w l4 n4) (fld w l5 n5)⟩)
    (hl : laidOut (base / 2 ^ 25) fixed base [(l1, n1), (l2, n2), (l3, n3), (l4, n4), (l5, n5)] = true) : HasRow (C x y z p q) :=
  ⟨_, _, List.mem_of_find?_eq_some hm, .of5 x y z p q he hl⟩

theorem HasRow.of6 {C : BitVec n1 → BitVec n2 → BitVec n3 → BitVec n4 → BitVec n5 → BitVec n6 → Instr} {x y z p q r}
    (he : ∀ x y z p q r, encodeBody (C x y z p q r) = some (enc base [(x.toNat, l1), (y.toNat, l2), (z.toNat, l3), (p.toNat, l4), (q.toNat, l5), (r.toNat, l6)]))
    (hm : rowLike (base / 2 ^ 25) (C x y z p q r) = some ⟨fixed, fun w => C (fld w l1 n1) (fld w l2 n2) (fld w l3 n3) (fld w l4 n4) (fld w l5 n5) (fld w l6 n6)⟩)
    (hl : laidOut (base / 2 ^ 25) fixed base [(l1, n1), (l2, n2), (l3, n3), (l4, n4), (l5, n5), (l6, n6)] = true) : HasRow (C x y z p q r) :=
  ⟨_, _, List.mem_of_find?_eq_some hm, .of6 x y z p q r he hl⟩

end

theorem rows_faithful (op : Nat) : ∀ r ∈ rowsOf op, ∃ i, Faithful op r i := by
  unfold rowsOf
  split
  all_goals repeat' refine List.forall_mem_cons.mpr ⟨?_, ?_⟩
  any_goals exact List.forall_mem_nil _
  any_goals exact ⟨_, .of3 0 0 0 (fun _ _ _ => rfl) (by decide +kernel)⟩
  any_goals exact ⟨_, .of2 0 0 (fun _ _ => rfl) (by decide +kernel)⟩
  any_goals exact ⟨_, .of1 0 (fun _ => rfl) (by decide +kernel)⟩
  any_goals exact ⟨_, .of0 rfl (by decide +kernel)⟩
  any_goals exact ⟨_, .of4 0 0 0 0 (fun _ _ _ _ => rfl) (by decide +kernel)⟩
  any_goals exact ⟨_, .of5 0 0 0 0 0 (fun _ _ _ _ _ => rfl) (by decide +kernel)⟩
  any_goals exact ⟨_, .of6 0 0 0 0 0 0 (fun _ _ _ _ _ _ => rfl) (by decide +kernel)⟩

/-- Every instruction with an encoding has a faithful row, but for `NOP`, which has none; grouped by the number of fields. -/
theorem hasRow_of_encodeBody {i : Instr} {n : Nat} (h : encodeBody i = some n) (hn : i ≠ .nop) : HasRow i := by
  cases i
  case nop => exact absurd rfl hn
  case ret | exit | reformG | reformT | yield | ofence | tkwait | tkpass | tkdone | elseby | elseerror | accept | reject |
      convleave | wabort | rtt | bkpt =>
    exact .of0 rfl rfl (by decide +kernel)
  case laneid | tid | join | leave | waitm | mself | bra | call | callr | jmpr | fenceAcq | fenceRel | fenceAr | drainNt |
      aliasfence | tagwaitAll | tagwaitAny | tagclr | tcancel | oclaim | orelease | mwait | mzero | ensure | convjoin | rbstat
      | wdone | migrate | eqpt | trap =>
    exact .of1 (fun _ => rfl) rfl (by decide +kernel)
  case movs | movi | pfromm | cvtF32F16 | cvtF32Bf16 | cvtF32E4m3 | cvtF32E5m2 | fabs | fneg | popc | clz | brev | sx8 |
      sx16 | zx8 | zx16 | rcp | rsq | sqrt | exp2 | log2 | sinrv | cosrv | tanh | mov | rfal | rdtsr | wrtsr | vany | vall |
      ballot | redaddI32 | redaddF32 | redmaxF32 | redminF32 | scanaddI32 | scanaddF32 | smov | slui | ssrr | ssrw | mset |
      mget | mand | mor | mandn | mpopc | prefetch | wbl | invl | tchain | tagfirst | qpop | mdrain | mload | cvset | fork |
      choose | wstat | klaunch | icinv =>
    exact .of2 (fun _ _ => rfl) rfl (by decide +kernel)
  case iadd | isub | imul | imulhI32 | imulhN32 | and | or | xor | shl | shr | sar | iminI32 | imaxI32 | iminN32 | imaxN32 |
      iaddsI32 | iaddVs | isubVs | imulVs | imulhI32Vs | imulhN32Vs | andVs | orVs | xorVs | shlVs | shrVs | sarVs | iminI32Vs
      | imaxI32Vs | iminN32Vs | imaxN32Vs | iaddsI32Vs | imacs | iaddi | andi | ori | xori | shli | shri | sari | pmov | fadd
      | fsub | fmul | fmin | fmax | ffma | hadd2 | hmul2 | hfma2 | badd2 | bmul2 | bfma2 | hmin2 | hmax2 | fadds | fsubs |
      fmuls | ffmas | fmins | fmaxs | hfma2s | bfma2s | cvtF32I32 | cvtF32N32 | cvtDm8F32 | cvtF32Dm8 | rlane | shfl | shflup
      | shfldn | shflx | rread | rwrite | rand | randf | rand4 | sadd | ssub | smul | smulhI32 | smulhN32 | sand | sor | sxor
      | sshl | sshr | ssar | sminI32 | smaxI32 | sminN32 | smaxN32 | sadd64 | ssub64 | sshl64 | sshr64 | smulw | saddi |
      saddi64 | qmov | brp | brq | arrive | sync =>
    exact .of3 (fun _ _ _ => rfl) rfl (by decide +kernel)
  case cvtI32F32 | cvtN32F32 | cvtF16F32 | cvtBf16F32 | cvtE4m3F32 | cvtE5m2F32 | waitb | arrivex =>
    exact .of4 (fun _ _ _ _ => rfl) rfl (by decide +kernel)
  case setp | pand | por | pxor | sel | scmp | qand | qor | qxor | ld | st | atom | red =>
    exact .of5 (fun _ _ _ _ _ => rfl) rfl (by decide +kernel)
  case mma =>
    exact .of6 (fun _ _ _ _ _ _ => rfl) rfl (by decide +kernel)
  all_goals cases h

/-- Two rows fix some bit differently. -/
def clash (r r' : OpRow) : Bool := r.fixed.any fun f => r'.fixed.any fun g => (List.range 25).any fun b =>
  f.1 ≤ b && b < f.1 + f.2.1 && g.1 ≤ b && b < g.1 + g.2.1 && f.2.2.testBit (b - f.1) != g.2.2.testBit (b - g.1)

theorem testBit_slice {w lo n b : Nat} (h1 : lo ≤ b) (h2 : b < lo + n) : (slice w lo n).testBit (b - lo) = w.testBit b := by
  rw [slice, Nat.testBit_mod_two_pow, Nat.testBit_div_two_pow, decide_eq_true (by omega), Bool.true_and, Nat.sub_add_cancel h1]

/-- No word has the fixed bits of two rows that clash. -/
theorem not_holds_of_clash {r r' : OpRow} (h : clash r r' = true) {w : Nat} (hr : r.holds w = true) : r'.holds w = false := by
  by_contra hr'
  rw [Bool.not_eq_false, holds_iff] at hr'
  rw [holds_iff] at hr
  simp only [clash, List.any_eq_true, Bool.and_eq_true, decide_eq_true_eq, bne_iff_ne, ne_eq] at h
  obtain ⟨f, hf, g, hg, b, -, ⟨⟨⟨hf1, hf2⟩, hg1⟩, hg2⟩, hne⟩ := h
  rw [← hr f hf, ← hr' g hg, testBit_slice hf1 hf2, testBit_slice hg1 hg2] at hne
  exact hne rfl

theorem rows_clash : ∀ op < 64, (rowsOf op).Pairwise fun r r' => clash r r' = true := by decide +kernel

theorem find?_holds {rs : List OpRow} (hp : rs.Pairwise fun r r' => clash r r' = true) {r : OpRow} (hr : r ∈ rs) {w : Nat}
    (h : r.holds w = true) : rs.find? (fun r => r.holds w) = some r := by
  induction rs with
  | nil => cases hr
  | cons a rs ih =>
    rw [List.pairwise_cons] at hp
    rcases List.mem_cons.mp hr with rfl | hr
    · simp [h]
    · have ha : a.holds w = false := by
        by_contra ha
        rw [Bool.not_eq_false] at ha
        simp [not_holds_of_clash (hp.1 r hr) ha] at h
      simp [ha, ih hp.2 hr]

/-! ## The body of a word -/

theorem decodeBody_of_nop {w : Nat} (h : w % 2 ^ 31 = 0) : decodeBody w = .ok .nop := by
  have h1 : w / 2 ^ 25 % 2 ^ 6 = 0 := by omega
  have h2 : w % 2 ^ 25 = 0 := by omega
  simp only [decodeBody, h1, h2, if_true]

/-- A row that holds a word decodes it. -/
theorem decodeBody_of_row {w : Nat} {r : OpRow} (hr : r ∈ rowsOf (slice w 25 6)) (h : r.holds w = true) :
    decodeBody w = .ok (r.make w) := by
  have hf := find?_holds (rows_clash _ (slice_lt w 25 6)) hr h
  have h0 : slice w 25 6 ≠ 0 := fun e => by rw [e] at hr; cases hr
  have hF : slice w 25 6 ≠ 0x0F := fun e => by rw [e] at hr; cases hr
  have hN : slice w 25 6 ≠ 0x3F := fun e => by rw [e] at hr; cases hr
  simp only [slice] at hr hf h0 hF hN
  simp only [decodeBody, h0, hF, hN, if_false]
  split
  · next e => rw [e] at hr; cases hr
  · simp only [hf]

/-- What a word can decode to: `NOP`, or the instruction of a row that holds it. -/
theorem decodeBody_cases {w : Nat} {i : Instr} (h : decodeBody w = .ok i) :
    (w % 2 ^ 31 = 0 ∧ i = .nop) ∨ ∃ r ∈ rowsOf (slice w 25 6), r.holds w = true ∧ i = r.make w := by
  unfold decodeBody at h
  simp only at h
  split at h
  · split at h
    · cases h
      left
      refine ⟨?_, rfl⟩
      omega
    · cases h
  · split at h
    · cases h
    · split at h
      · cases h
      · split at h
        · cases h
        · split at h
          · next r hr =>
            cases h
            exact .inr ⟨r, List.mem_of_find?_eq_some hr, List.find?_some (p := fun r : OpRow => r.holds w) hr, rfl⟩
          · cases h

/-- The word of an instruction, with any C bit, decodes to the instruction (R43). -/
theorem decodeBody_of_encodeBody {i : Instr} {w : Nat} (h : encodeBody i = some (w % 2 ^ 31)) : decodeBody w = .ok i := by
  by_cases hn : i = .nop
  · subst hn
    exact decodeBody_of_nop (Option.some.inj h).symm
  · obtain ⟨op, r, hr, hf⟩ := hasRow_of_encodeBody h hn
    obtain ⟨rfl, hh, rfl⟩ := hf.decodes w h
    exact decodeBody_of_row hr hh

/-- An instruction read from a word has that word, without its C bit (R43). -/
theorem encodeBody_of_decodeBody {i : Instr} {w : Nat} (h : decodeBody w = .ok i) : encodeBody i = some (w % 2 ^ 31) := by
  rcases decodeBody_cases h with ⟨h0, rfl⟩ | ⟨r, hr, hh, rfl⟩
  · rw [h0]; rfl
  · obtain ⟨i, hf⟩ := rows_faithful _ r hr
    exact hf.encodes w rfl hh

theorem encodeBody_lt {i : Instr} {n : Nat} (h : encodeBody i = some n) : n < 2 ^ 31 := by
  by_cases hn : i = .nop
  · subst hn
    exact Option.some.inj h ▸ Nat.two_pow_pos 31
  · obtain ⟨op, r, hr, hf⟩ := hasRow_of_encodeBody h hn
    exact hf.bounded n h

/-! ## Words -/

/-- What decodes: a body without field errors, and of `NOP` the zero word alone (R33, R46). -/
theorem decodeWord_ok_iff {w : Word} {c : Bool} {i : Instr} :
    decodeWord w = .ok (c, i) ↔ decodeBody w.toNat = .ok i ∧ i.wf = true ∧ c = w.msb ∧ (i = .nop → w = 0) := by
  unfold decodeWord Instr.wf
  cases decodeBody w.toNat with
  | error e => simp
  | ok j =>
    simp only [Except.ok.injEq]
    split
    · next h => simp only [reduceCtorEq, false_iff]; rintro ⟨rfl, -, -, hw⟩; exact h.2 (hw h.1)
    · next h =>
      cases hj : j.fieldError with
      | some e => simp only [reduceCtorEq, false_iff]; rintro ⟨rfl, hf, -⟩; simp [hj] at hf
      | none =>
        simp only [Except.ok.injEq, Prod.mk.injEq]
        constructor
        · rintro ⟨rfl, rfl⟩; exact ⟨rfl, by simp [hj], rfl, fun e => by_contra fun hw => h ⟨e, hw⟩⟩
        · rintro ⟨rfl, -, rfl, -⟩; exact ⟨rfl, rfl⟩

/-- The C bit of a word and its body (R30, R32). -/
theorem encode_eq_some_iff {c : Bool} {i : Instr} {w : Word} :
    encode c i = some w ↔ encodeBody i = some (w.toNat % 2 ^ 31) ∧ w.msb = c := by
  have hw := w.isLt
  have hmsb : w.msb = decide (2 ^ 31 ≤ w.toNat) := by rw [BitVec.msb_eq_decide]
  rw [encode, Option.map_eq_some_iff, hmsb]
  constructor
  · rintro ⟨n, hn, rfl⟩
    have hlt := encodeBody_lt hn
    rw [hn, Option.some.injEq, BitVec.toNat_ofNat]
    cases c <;> simp only [Bool.false_eq_true, if_true, if_false, decide_eq_false_iff_not, decide_eq_true_eq] <;> omega
  · rintro ⟨h, rfl⟩
    refine ⟨_, h, BitVec.eq_of_toNat_eq ?_⟩
    rw [BitVec.toNat_ofNat]
    split
    · next h => rw [decide_eq_true_eq] at h; omega
    · next h => rw [decide_eq_true_eq] at h; omega

/-- Settles O1: the encoder's word has the fixed bits of a row and the instruction's fields, which no other row of its major
decodes. -/
theorem decodeEncode : Obligations.DecodeEncode := by
  unfold Obligations.DecodeEncode
  intro c i w hwf he
  obtain ⟨hb, rfl⟩ := encode_eq_some_iff.mp he
  have hd := decodeBody_of_encodeBody hb
  split
  · next h =>
    obtain ⟨rfl, hc⟩ := h
    have hw : w ≠ 0 := fun e => by subst e; exact absurd hc (by decide)
    rw [decodeWord, hd]
    exact if_pos ⟨rfl, hw⟩
  · next h =>
    refine decodeWord_ok_iff.mpr ⟨hd, hwf, rfl, fun hi => ?_⟩
    subst hi
    have h0 : w.toNat % 2 ^ 31 = 0 := (Option.some.inj hb).symm
    have hm : w.msb = false := by simpa using h
    rw [BitVec.msb_eq_false_iff_two_mul_lt] at hm
    refine BitVec.eq_of_toNat_eq ?_
    change w.toNat = 0
    omega

/-- Settles O2: the fixed bits of the row that decodes a word and the fields it reads make up the whole word. -/
theorem encodeDecode : Obligations.EncodeDecode := by
  unfold Obligations.EncodeDecode
  intro w c i h
  obtain ⟨hd, hwf, rfl, -⟩ := decodeWord_ok_iff.mp h
  exact ⟨hwf, encode_eq_some_iff.mpr ⟨encodeBody_of_decodeBody hd, rfl⟩⟩

/-- Settles O3, word by word. -/
theorem decodedWords : Obligations.DecodedWords := ⟨rfl, rfl, rfl, rfl, rfl, rfl, rfl, rfl, rfl, rfl⟩

end Sys2Proof.Encoding

/-! Words performed for each executing thread that write one register: what they leave, where no thread traps. -/

namespace Sys2Proof.Machine

/-- A write of a vector word in thread l of group g: a vector register, or a predicate. -/
def LaneWrite (g l : Nat) (w : RegId × DWord) : Prop :=
  (∃ (n : Nat) (x : Word), w = (.v g l n, x.setWidth 64)) ∨ ∃ (n : Nat) (b : Bool), n < 8 ∧ w = (.p g l n, if b then 1 else 0)

theorem LaneWrite.v (g l n : Nat) (x : Word) : LaneWrite g l (.v g l n, x.setWidth 64) := .inl ⟨n, x, rfl⟩

theorem LaneWrite.p (g l : Nat) (n : BitVec 3) (b : Bool) : LaneWrite g l (.p g l n.toNat, if b then 1 else 0) :=
  .inr ⟨n.toNat, b, n.isLt, rfl⟩

theorem LaneWrite.plain {g l : Nat} {w : RegId × DWord} (h : LaneWrite g l w) (hd : w.1.discards = false) : w.1.plain = true := by
  rcases h with ⟨n, x, rfl⟩ | ⟨n, b, hn, rfl⟩
  · rfl
  · cases n with
    | zero => cases hd
    | succ n => simp [RegId.plain, hn]

theorem LaneWrite.good {g l : Nat} {w : RegId × DWord} (h : LaneWrite g l w) : goodWrite w := by
  cases hd : w.1.discards
  · exact .inl (h.plain hd)
  · exact .inr hd

theorem LaneWrite.trim {g l : Nat} {w : RegId × DWord} (h : LaneWrite g l w) : w.1.trim w.2 = w.2 := by
  rcases h with ⟨n, x, rfl⟩ | ⟨n, b, hn, rfl⟩
  · simp [RegId.trim]
  · cases b <;> rfl

theorem LaneWrite.hasReg {g l : Nat} {w : RegId × DWord} (h : LaneWrite g l w) {u : Team} (hu : (u.thread? g l).isSome = true) :
    u.hasReg w.1 = true := by
  rcases h with ⟨n, x, rfl⟩ | ⟨n, b, hn, rfl⟩ <;> exact hu

/-- A register belongs to one thread. -/
theorem LaneWrite.thread_eq {g l g' l' : Nat} {w w' : RegId × DWord} (h : LaneWrite g l w) (h' : LaneWrite g' l' w') (e : w.1 = w'.1) :
    g = g' ∧ l = l' := by
  rcases h with ⟨n, x, rfl⟩ | ⟨n, b, hn, rfl⟩ <;> rcases h' with ⟨n', x', rfl⟩ | ⟨n', b', hn', rfl⟩ <;> simp_all

/-- `f` writes one register in each executing thread and traps in none. -/
def WritesOne (s : State) (t : Team) (f : Team → Nat → Thread → LaneOut) : Prop :=
  ∀ g l th, (g, l) ∈ s.members → t.thread? g l = some th → ∃ w fl, LaneWrite g l w ∧ f t g th = { trap := none, regs := [w], fl := fl }

/-- The state after the register writes of a word performed for each thread. -/
def State.laneWritten (s : State) (lat : Nat) (f : Team → Nat → Thread → LaneOut) : State :=
  s.modTeam s.cur.team fun t => ((s.laneOuts f).flatMap fun o => o.2.2.regs).foldl (Team.write s.now lat) t

/-- The flags that a word performed for each thread raises, as a late effect on fpflags (R130). -/
def State.laneLate (s : State) (f : Team → Nat → Thread → LaneOut) : List (Nat × Nat × Nat × Word) :=
  (s.laneOuts f).filterMap fun o => if o.2.2.fl = 0 then none else some (o.1, o.2.1, orFlagsIndex, o.2.2.fl)

section
variable {s : State} {t u : Team} {f : Team → Nat → Thread → LaneOut} (ht : s.readTeam = some t) (hf : WritesOne s t f)
include ht hf

/-- Where no thread traps, such a word writes registers and puts its flags in flight. -/
theorem laneWord_eq_of_writesOne (lat : Nat) : laneWord lat f s = if (s.laneLate f).isEmpty then s.laneWritten lat f
    else (s.laneWritten lat f).newOp s.cur.team [] lat (.tsr (s.laneLate f)) := by
  have h : ∀ o ∈ s.laneOuts f, o.2.2.trap = none := fun o ho => by
    obtain ⟨g, l, th, hm, hth, rfl⟩ := (laneOuts_mem ht f o).mp ho
    obtain ⟨w, fl, -, e⟩ := hf g l th hm hth
    rw [e]
  have hgood : ((s.laneOuts f).filter fun o => o.2.2.trap.isNone) = s.laneOuts f := by
    rw [List.filter_eq_self]; intro o ho; simp [h o ho]
  have hbad : ((s.laneOuts f).filterMap fun o => o.2.2.trap.map fun tr => (o.1, o.2.1, tr.1, tr.2)) = [] := by
    rw [List.filterMap_eq_nil_iff]; intro o ho; simp [h o ho]
  have hnow : ((s.laneOuts f).filterMap fun o => if o.2.2.trap.isSome then some (o.1, o.2.1, o.2.2.fl) else none) = [] := by
    rw [List.filterMap_eq_nil_iff]; intro o ho; simp [h o ho]
  unfold laneWord
  simp only [hgood, hbad, hnow, Team.orFlags_nil, State.takeTraps_nil, State.modTeam_cur, State.modTeam_id, State.laneWritten,
    State.laneLate]
  rfl

theorem laneOuts_writes {w : RegId × DWord} (hw : w ∈ (s.laneOuts f).flatMap fun o => o.2.2.regs) :
    ∃ g l th fl, (g, l) ∈ s.members ∧ t.thread? g l = some th ∧ LaneWrite g l w ∧ f t g th = { trap := none, regs := [w], fl := fl } := by
  obtain ⟨o, ho, hw⟩ := List.mem_flatMap.mp hw
  obtain ⟨g, l, th, hm, hth, rfl⟩ := (laneOuts_mem ht f o).mp ho
  obtain ⟨w', fl, hlw, e⟩ := hf g l th hm hth
  simp only [e, List.mem_singleton] at hw
  subst hw
  exact ⟨g, l, th, fl, hm, hth, hlw, e⟩

/-- Each executing thread's register holds its value. -/
theorem laneWritten_lands {lat : Nat} (hu : s.curTeam = some u) (hlat : lat ≠ 0) {g l : Nat} {th : Thread} {w : RegId × DWord} {fl : Word}
    (he : s.Executes t u g l) (hth : t.thread? g l = some th) (hw : f t g th = { trap := none, regs := [w], fl := fl })
    (hd : w.1.discards = false) : Lands s (s.laneWritten lat f) w.1 lat w.2 := by
  have hlw : LaneWrite g l w := by
    obtain ⟨w', fl', h, e⟩ := hf g l th he.member hth
    rw [hw, LaneOut.mk.injEq] at e
    obtain ⟨-, e, -⟩ := e
    rw [List.singleton_inj.mp e]
    exact h
  refine writes_lands s u lat _ hu (fun y hy => ?_) w.1 w.2 (hlw.plain hd) (hlw.hasReg he.now) hlat ?_ (fun y hy e => ?_) hlw.trim
  · obtain ⟨_, _, _, _, -, -, h, -⟩ := laneOuts_writes ht hf hy
    exact h.good
  · exact List.mem_flatMap.mpr ⟨_, (laneOuts_mem ht f _).mpr ⟨g, l, th, he.member, hth, rfl⟩, by simp [hw]⟩
  · obtain ⟨g', l', th', fl', -, hth', h, hy'⟩ := laneOuts_writes ht hf hy
    obtain ⟨rfl, rfl⟩ := h.thread_eq hlw e
    rw [hth, Option.some.injEq] at hth'
    subst hth'
    rw [hw, LaneOut.mk.injEq] at hy'
    obtain ⟨-, hy', -⟩ := hy'
    rw [List.singleton_inj.mp hy']

/-- Nothing but the registers written changes. -/
theorem laneWritten_only (lat : Nat) {dest : RegId → Prop}
    (hdest : ∀ g l th w fl, (g, l) ∈ s.members → t.thread? g l = some th → f t g th = { trap := none, regs := [w], fl := fl } →
      w.1.discards = false → dest w.1) : OnlyRegs s (s.laneWritten lat f) dest := by
  refine writes_only s lat _ (fun y hy => ?_) dest fun w hw => ?_
  · obtain ⟨_, _, _, _, -, -, h, -⟩ := laneOuts_writes ht hf hy
    exact h.good
  · obtain ⟨g, l, th, fl, hm, hth, -, e⟩ := laneOuts_writes ht hf hw
    cases hd : w.1.discards
    · exact .inr (hdest g l th w fl hm hth e hd)
    · exact .inl rfl

omit hf in
theorem laneLate_mem {g l : Nat} {th : Thread} {fl : Word} {w : RegId × DWord} (hm : (g, l) ∈ s.members) (hth : t.thread? g l = some th)
    (hw : f t g th = { trap := none, regs := [w], fl := fl }) (hfl : fl ≠ 0) : (g, l, orFlagsIndex, fl) ∈ s.laneLate f := by
  refine List.mem_filterMap.mpr ⟨_, (laneOuts_mem ht f _).mpr ⟨g, l, th, hm, hth, rfl⟩, ?_⟩
  simpa [hw] using hfl

end

/-- A result with one write, without it where it is discarded (R105). -/
theorem mem_drop0_singleton {w y : RegId × DWord} : y ∈ drop0 [w] ↔ y = w ∧ w.1.discards = false := by
  simp only [drop0, List.mem_filter, List.mem_singleton]
  constructor
  · rintro ⟨rfl, h⟩; simpa using h
  · rintro ⟨rfl, h⟩; simpa using h

theorem drop0_v (g l n : Nat) (x : DWord) : drop0 [(.v g l n, x)] = [(.v g l n, x)] := rfl

/-- A predicate is `p0` or keeps its write (R105). -/
theorem drop0_p (g l : Nat) (n : BitVec 3) (x : DWord) : drop0 [(.p g l n.toNat, x)] = if n = 0 then [] else [(.p g l n.toNat, x)] := by
  by_cases h : n = 0
  · subst h; rfl
  · rw [if_neg h]
    cases hm : n.toNat with
    | zero => exact absurd (BitVec.eq_of_toNat_eq hm) h
    | succ m => rfl

end Sys2Proof.Machine

/-! O8: the vector integer, compare, predicate, select, move and bit words (R115 to R122, R135). -/

namespace Sys2Proof.Machine

/-! ## The functions of the words -/

/-- The model's function for each function of R116. -/
def AluOp.model : AluOp → Word → Word → Word
  | .add => aluAdd
  | .sub => aluSub
  | .mul => aluMul
  | .mulhS => aluMulhS
  | .mulhU => aluMulhU
  | .and => aluAnd
  | .or => aluOr
  | .xor => aluXor
  | .shl => aluShl
  | .shr => aluShr
  | .sar => aluSar
  | .minS => aluMinS
  | .maxS => aluMaxS
  | .minU => aluMinU
  | .maxU => aluMaxU
  | .addSat => aluAddSat

theorem AluOp.model_eq (f : AluOp) : f.model = f.result := by
  funext x y
  cases f with
  | add => exact aluAdd_result x y
  | sub => exact aluSub_result x y
  | mul => exact aluMul_result x y
  | shl => exact aluShl_result x y
  | shr => exact aluShr_result x y
  | sar => exact aluSar_result x y
  | mulhS | mulhU | and | or | xor | minS | maxS | minU | maxU | addSat => rfl

theorem condInt_eq_compare (k : BitVec 4) (x y : Int) : condInt k.toNat x y = compare k x y := by
  unfold condInt compare
  split <;> simp_all [beq_eq_decide, bne_eq]

theorem getLsbD_foldl_bits (p : Nat → Bool) (n : Nat) :
    ∀ j, ((List.range n).foldl (fun acc i => 2 * acc + (if p i then 1 else 0)) 0).testBit j = (decide (j < n) && p (n - 1 - j)) := by
  induction n with
  | zero => simp
  | succ n ih =>
    intro j
    rw [List.range_succ, List.foldl_append, List.foldl_cons, List.foldl_nil]
    generalize (List.range n).foldl (fun acc i => 2 * acc + (if p i then 1 else 0)) 0 = a at ih ⊢
    cases j with
    | zero => cases h : p n <;> simp [h]
    | succ j =>
      have : (2 * a + if p n then 1 else 0) / 2 = a := by split <;> omega
      rw [Nat.testBit_succ, this, ih]
      simp [show n - (j + 1) = n - 1 - j by omega]

theorem bitReverse_eq (x : Word) : bitReverse x = x.reverse := by
  apply BitVec.eq_of_getLsbD_eq
  intro i hi
  rw [bitReverse, BitVec.getLsbD_ofNat, getLsbD_foldl_bits, BitVec.getLsbD_reverse, BitVec.getMsbD]
  simp [hi]

theorem leadingZeros_eq (x : Word) : leadingZeros x = BitVec.ofNat 32 (32 - (if x = 0 then 0 else Nat.log2 x.toNat + 1)) := by
  unfold leadingZeros
  split
  · rfl
  · rw [show 32 - (Nat.log2 x.toNat + 1) = 31 - Nat.log2 x.toNat by omega]

theorem and_abs (x : Word) : x &&& 0x7FFFFFFF#32 = BitVec.ofNat 32 (x.toNat % 2 ^ 31) := by
  apply BitVec.eq_of_toNat_eq
  rw [BitVec.toNat_and, BitVec.toNat_ofNat, BitVec.toNat_ofNat, show 0x7FFFFFFF % 2 ^ 32 = 2 ^ 31 - 1 from rfl,
    Nat.and_two_pow_sub_one_eq_mod]
  omega

theorem mac_eq (x y z : Word) : x + y * z = BitVec.ofNat 32 (x.toNat + y.toNat * z.toNat) := by
  rw [BitVec.ofNat_add, BitVec.ofNat_mul, BitVec.ofNat_toNat, BitVec.ofNat_toNat, BitVec.ofNat_toNat, BitVec.setWidth_eq,
    BitVec.setWidth_eq, BitVec.setWidth_eq]

theorem setWidth_setWidth_eq (n : Nat) (x : Word) : (x.setWidth n).setWidth 32 = BitVec.ofNat 32 (x.toNat % 2 ^ n) := by
  apply BitVec.eq_of_toNat_eq
  rw [BitVec.toNat_setWidth, BitVec.toNat_setWidth, BitVec.toNat_ofNat]

/-! ## The words -/

/-- A word of R116 and R118 applies its function of Table 5 in each thread, and the spec gives that result. -/
theorem vectorAlu_word {i : Instr} {f : AluOp} {d a : Nat} {b : AluSrc} (h : vectorAlu i = some (f, d, a, b)) (s : State) :
    exec i s = .next (laneWord f.vectorLatency
        (fun t g th => .v g th.lane d (f.model (s.rdV t g th.lane a) (s.srcValue t g th.lane b))) s)
      ∧ ∀ t g l, s.laneResult t g l i
        = some (f.vectorLatency, [(.v g l d, (f.result (s.rdV t g l a) (s.srcValue t g l b)).setWidth 64)]) := by
  cases i
  all_goals cases h
  all_goals exact ⟨rfl, fun _ _ _ => rfl⟩

/-- What O8 says of a word. -/
def IntegerWordDone (i : Instr) (s : State) (t u : Team) : Prop :=
  ∃ s', exec i s = .next s'
    ∧ (∀ g l, s.Executes t u g l → ∃ lat ws, s.laneResult t g l i = some (lat, ws) ∧ ∀ w ∈ ws, Lands s s' w.1 lat w.2)
    ∧ OnlyRegs s s' fun r => ∃ g l lat ws x, (g, l) ∈ s.members ∧ s.laneResult t g l i = some (lat, ws) ∧ (r, x) ∈ ws

section
variable {i : Instr} {s : State} {t u : Team} {lat : Nat} (hlat : lat ≠ 0) (ht : s.readTeam = some t) (hu : s.curTeam = some u)
include hlat ht hu

/-- A word that writes one register in each thread, as the spec says. -/
theorem integerWordDone_of_writes {f : Team → Nat → Thread → LaneOut} (hexec : exec i s = .next (laneWord lat f s))
    (hf : ∀ g l th, (g, l) ∈ s.members → t.thread? g l = some th →
      ∃ w, LaneWrite g l w ∧ f t g th = .ok [w] ∧ s.laneResult t g l i = some (lat, drop0 [w])) : IntegerWordDone i s t u := by
  have hone : WritesOne s t f := fun g l th hm hth => by
    obtain ⟨w, hw, e, -⟩ := hf g l th hm hth
    exact ⟨w, 0, hw, e⟩
  have hlate : s.laneLate f = [] := by
    refine List.filterMap_eq_nil_iff.mpr fun o ho => ?_
    obtain ⟨g, l, th, hm, hth, rfl⟩ := (laneOuts_mem ht f o).mp ho
    obtain ⟨w, -, e, -⟩ := hf g l th hm hth
    simp [e, LaneOut.ok]
  refine ⟨_, hexec, ?_⟩
  rw [laneWord_eq_of_writesOne ht hone, hlate]
  refine ⟨fun g l he => ?_, laneWritten_only ht hone lat fun g l th w fl hm hth hw hd => ?_⟩
  · obtain ⟨th, hth⟩ := Option.isSome_iff_exists.mp he.before
    obtain ⟨w, -, e, hr⟩ := hf g l th he.member hth
    refine ⟨lat, _, hr, fun y hy => ?_⟩
    obtain ⟨rfl, hd⟩ := mem_drop0_singleton.mp hy
    exact laneWritten_lands ht hone hu hlat he hth e hd
  · obtain ⟨y, -, e, hr⟩ := hf g l th hm hth
    rw [e, LaneOut.ok, LaneOut.mk.injEq, List.singleton_inj] at hw
    obtain ⟨-, rfl, -⟩ := hw
    exact ⟨g, l, lat, _, y.2, hm, hr, mem_drop0_singleton.mpr ⟨rfl, hd⟩⟩

/-- A word with a vector result. -/
theorem integerWordDone_of_v {d : Nat} {x : Team → Nat → Thread → Word}
    (hexec : exec i s = .next (laneWord lat (fun t g th => .v g th.lane d (x t g th)) s))
    (hx : ∀ g l th, t.thread? g l = some th → th.lane = l →
      s.laneResult t g l i = some (lat, [(.v g l d, (x t g th).setWidth 64)])) : IntegerWordDone i s t u := by
  refine integerWordDone_of_writes hlat ht hu hexec fun g l th _ hth => ?_
  exact ⟨_, .v g l d (x t g th), by rw [thread_lane hth]; rfl, hx g l th hth (thread_lane hth)⟩

/-- A word with a predicate result. -/
theorem integerWordDone_of_p {d : BitVec 3} {b : Team → Nat → Thread → Bool}
    (hexec : exec i s = .next (laneWord lat (fun t g th => .ok [(.p g th.lane d.toNat, if b t g th then 1 else 0)]) s))
    (hb : ∀ g l th, t.thread? g l = some th → th.lane = l → s.laneResult t g l i = some (lat, predResult g l d (b t g th))) :
    IntegerWordDone i s t u := by
  refine integerWordDone_of_writes hlat ht hu hexec fun g l th _ hth => ?_
  refine ⟨_, .p g l d (b t g th), by rw [thread_lane hth], ?_⟩
  rw [drop0_p]
  exact hb g l th hth (thread_lane hth)

end

theorem AluOp.vectorLatency_ne_zero (f : AluOp) : f.vectorLatency ≠ 0 := by cases f <;> decide

/-- `SETP` of integers (R119). -/
theorem integerWordDone_setp {s : State} {t u : Team} (ht : s.readTeam = some t) (hu : s.curTeam = some u) {q : BitVec 3} {ty : BitVec 4}
    {a b : BitVec 7} {k : BitVec 4} (hi : isLaneWord (.setp q ty a b k) = true) (hwf : (Instr.setp q ty a b k).wf = true) :
    IntegerWordDone (.setp q ty a b k) s t u := by
  have hty : ty = 0#4 ∨ ty = 1#4 ∨ ty = 5#4 ∨ ty = 6#4 := by
    have hlt : ty.toNat < 7 := by
      by_contra h
      simp [Instr.wf, Instr.fieldError, FieldError.unless, h] at hwf
    simp only [isLaneWord, Bool.not_eq_true', Bool.and_eq_false_iff, decide_eq_false_iff_not] at hi
    simp only [BitVec.toNat_eq, BitVec.toNat_ofNat]
    omega
  have h4 : (4 : Nat) ≠ 0 := by decide
  rcases hty with rfl | rfl | rfl | rfl
  all_goals exact integerWordDone_of_p h4 ht hu rfl fun g l th _ hl => by subst hl; simp only [condInt_eq_compare]; rfl

/-- `RWRITE` where its index lies below `.vregs` (R115). -/
theorem integerWordDone_rwrite {s : State} {t u : Team} (ht : s.readTeam = some t) (hu : s.curTeam = some u) {d a b : BitVec 7}
    (hr : ∀ m ∈ s.members, a.toNat + (s.rdV t m.1 m.2 b.toNat).toNat < s.vregs t) : IntegerWordDone (.rwrite d a b) s t u := by
  refine integerWordDone_of_writes (by decide : (4 : Nat) ≠ 0) ht hu rfl fun g l th hm hth => ?_
  have hn : a.toNat + (s.rdV t g l b.toNat).toNat < s.vregs t := hr (g, l) hm
  refine ⟨_, .v g l (a.toNat + (s.rdV t g l b.toNat).toNat) (s.rdV t g l d.toNat), ?_, ?_⟩
  · rw [thread_lane hth, if_neg (Nat.not_le.mpr hn)]
    rfl
  · exact if_pos hn

/-- Settles O8: each word writes one register in each thread, with the value of the spec. -/
theorem integerWords : Obligations.IntegerWords := by
  unfold Obligations.IntegerWords
  intro i s t u hi hwf ht hu hr
  change IntegerWordDone i s t u
  cases hv : vectorAlu i with
  | some x =>
    obtain ⟨hexec, hres⟩ := vectorAlu_word hv s
    refine integerWordDone_of_v x.1.vectorLatency_ne_zero ht hu hexec fun g l th _ hl => ?_
    rw [hres, AluOp.model_eq, hl]
  | none =>
    have h4 : (4 : Nat) ≠ 0 := by decide
    have h6 : (6 : Nat) ≠ 0 := by decide
    cases i
    case movs | mov | laneid => exact integerWordDone_of_v h4 ht hu rfl fun g l th _ hl => by subst hl; rfl
    case movi => exact integerWordDone_of_v h4 ht hu rfl fun g l th _ hl => rfl
    case tid => exact integerWordDone_of_v h4 ht hu rfl fun g l th hth _ => by simp [State.laneResult, hth]
    case sel => exact integerWordDone_of_v h4 ht hu rfl fun g l th _ hl => by subst hl; rfl
    case imacs => exact integerWordDone_of_v h6 ht hu rfl fun g l th _ hl => by subst hl; simp only [mac_eq]; rfl
    case fabs => exact integerWordDone_of_v h6 ht hu rfl fun g l th _ hl => by subst hl; simp only [and_abs]; rfl
    case fneg => exact integerWordDone_of_v h6 ht hu rfl fun g l th _ hl => by subst hl; rfl
    case popc => exact integerWordDone_of_v h6 ht hu rfl fun g l th _ hl => by subst hl; rfl
    case clz => exact integerWordDone_of_v h6 ht hu rfl fun g l th _ hl => by subst hl; simp only [leadingZeros_eq]; rfl
    case brev => exact integerWordDone_of_v h6 ht hu rfl fun g l th _ hl => by subst hl; simp only [bitReverse_eq]; rfl
    case sx8 | sx16 => exact integerWordDone_of_v h6 ht hu rfl fun g l th _ hl => by subst hl; rfl
    case zx8 | zx16 => exact integerWordDone_of_v h6 ht hu rfl fun g l th _ hl => by subst hl; simp only [setWidth_setWidth_eq]; rfl
    case pand | por | pxor => exact integerWordDone_of_p h4 ht hu rfl fun g l th _ hl => by subst hl; rfl
    case pmov | pfromm => exact integerWordDone_of_p h4 ht hu rfl fun g l th _ hl => by subst hl; rfl
    case setp => exact integerWordDone_setp ht hu hi hwf
    case rwrite d a b => exact integerWordDone_rwrite ht hu (hr d a b rfl)
    any_goals cases hv
    all_goals cases hi

end Sys2Proof.Machine

/-! O10: float words and conversions (R119, R130 to R136). -/

namespace Sys2Proof.Machine

/-! ## Codes of 32 bits -/

theorem ite_lt_of_lt {p : Prop} [Decidable p] {x y n : Nat} (hx : x < n) (hy : y < n) : (if p then x else y) < n := by
  split <;> assumption

theorem fst_ite_lt {α : Type} {p : Prop} [Decidable p] {x y : Nat × α} {n : Nat} (hx : x.1 < n) (hy : y.1 < n) :
    (if p then x else y).1 < n := by split <;> assumption

/-- A format whose codes have at most 32 bits. -/
structure Fmt.Fits (f : Fmt) : Prop where
  width : f.mb + f.eb ≤ 31
  fin : f.maxFin < 2 ^ 31
  inf : ∀ i, f.inf = some i → i < 2 ^ 31
  nan : ∀ i, f.nan = some i → i < 2 ^ 31

theorem fmtF32_fits : fmtF32.Fits := ⟨by decide, by decide, by decide, by decide⟩
theorem fmtF16_fits : fmtF16.Fits := ⟨by decide, by decide, by decide, by decide⟩
theorem fmtBf16_fits : fmtBf16.Fits := ⟨by decide, by decide, by decide, by decide⟩
theorem fmtE4m3_fits : fmtE4m3.Fits := ⟨by decide, by decide, by decide, by decide⟩
theorem fmtE5m2_fits : fmtE5m2.Fits := ⟨by decide, by decide, by decide, by decide⟩

section
variable {f : Fmt} (hf : f.Fits)
include hf

theorem signOf_le (neg : Bool) : signOf f neg ≤ 2 ^ 31 := by
  unfold signOf
  split
  · exact Nat.pow_le_pow_right (by decide) hf.width
  · exact Nat.zero_le _

/-- What a value that does not overflow rounds to, or a code of its format for overflow. -/
theorem overflow_lt {c : Nat} (neg : Bool) (h : c < 2 ^ 31) : signOf f neg + c < 2 ^ 32 := by
  have hs := signOf_le hf neg
  omega

theorem roundTo_lt (rm : Nat) (sat neg : Bool) (m : Nat) (e : Int) : (roundTo f rm sat neg m e).1 < 2 ^ 32 := by
  by_cases hm : m = 0
  · unfold roundTo
    rw [if_pos hm]
    exact (signOf_le hf neg).trans_lt (by decide)
  · unfold roundTo
    rw [if_neg hm]
    simp only
    generalize (if (roundAt _ _ _ _ _).1 < 2 ^ f.mb then _ else _) = mag
    by_cases hmag : mag ≤ f.maxFin
    · rw [if_pos hmag]
      exact overflow_lt hf neg (hmag.trans_lt hf.fin)
    · rw [if_neg hmag]
      cases hi : f.inf with
      | some c => exact overflow_lt hf neg (ite_lt_of_lt (hf.inf c hi) hf.fin)
      | none =>
        cases hn : f.nan with
        | some c => cases sat; exacts [(hf.nan c hn).trans (by decide), overflow_lt hf neg hf.fin]
        | none => exact overflow_lt hf neg hf.fin

theorem cvtFp_lt (rm : Nat) (sat : Bool) (v : Val) : (cvtFp f rm sat v).1 < 2 ^ 32 := by
  have hnan : canonNan f < 2 ^ 32 := by
    unfold canonNan
    cases h : f.nan with
    | none => decide
    | some c => exact (hf.nan c h).trans (by decide)
  cases v with
  | nan s => exact hnan
  | inf n =>
    rw [cvtFp]
    cases hi : f.inf with
    | some c => exact overflow_lt hf n (ite_lt_of_lt hf.fin (hf.inf c hi))
    | none => cases sat; exacts [hnan, overflow_lt hf n hf.fin]
  | num n m e => exact roundTo_lt hf rm sat n m e

end

theorem cvtToInt_lt (signed : Bool) (rm : Nat) (sat : Bool) (v : Val) : (cvtToInt signed rm sat v).1 < 2 ^ 32 := by
  have hw : ∀ x, wrapTo 32 x < 2 ^ 32 := fun x => by unfold wrapTo; omega
  cases v with
  | nan s => cases sat <;> cases signed <;> simp [cvtToInt]
  | inf n => cases sat <;> cases signed <;> cases n <;> simp [cvtToInt]
  | num n m e =>
    have hbad : (cvtToInt signed rm sat (.inf n)).1 < 2 ^ 32 := by cases sat <;> cases signed <;> cases n <;> simp [cvtToInt]
    exact fst_ite_lt hbad (fst_ite_lt (hw _) hbad)

theorem foldl_dm8Better_lt (m : Nat) (e : Int) {n : Nat} (l : List Nat) (b : Nat) (hb : b < n) (hl : ∀ c ∈ l, c < n) :
    l.foldl (fun b c => if dm8Better m e c b then c else b) b < n := by
  induction l generalizing b with
  | nil => exact hb
  | cons c l ih =>
    refine ih _ ?_ fun x hx => hl x (by simp [hx])
    by_cases h : dm8Better m e c b = true
    · simpa only [if_pos h] using hl c (by simp)
    · simpa only [if_neg h] using hb

theorem encodeDm8_lt (v : Val) : (encodeDm8 v).1 < 2 ^ 32 := by
  cases v with
  | nan s => simp [encodeDm8]
  | inf n => cases n <;> simp [encodeDm8]
  | num n m e =>
    have hcodes : ∀ c ∈ dm8Codes, c < 128 := fun c hc =>
      List.mem_range.mp (List.mem_of_mem_drop (List.mem_of_mem_filter hc))
    have h := foldl_dm8Better_lt m e dm8Codes 1 (by decide : 1 < 128) hcodes
    have hs : (if n then 0x80 else 0) ≤ 0x80 := by cases n <;> decide
    refine fst_ite_lt ?_ (fst_ite_lt ?_ (fst_ite_lt ?_ ?_))
    · simp only; omega
    · simp only; omega
    · simp only; split_ifs <;> omega
    · simp only; omega

/-- Every conversion gives a code of at most 32 bits. -/
theorem convertWord_lt {i : Instr} {f : Nat → Nat × Word} {d a : BitVec 7} (h : convertWord i = some (f, d, a)) (x : Nat) :
    (f x).1 < 2 ^ 32 := by
  cases i
  all_goals cases h
  case cvtF32I32 | cvtF32N32 => exact roundTo_lt fmtF32_fits _ _ _ _ _
  case cvtI32F32 | cvtN32F32 => exact cvtToInt_lt _ _ _ _
  case cvtF16F32 => exact cvtFp_lt fmtF16_fits _ _ _
  case cvtBf16F32 => exact cvtFp_lt fmtBf16_fits _ _ _
  case cvtE4m3F32 => exact cvtFp_lt fmtE4m3_fits _ _ _
  case cvtE5m2F32 => exact cvtFp_lt fmtE5m2_fits _ _ _
  case cvtDm8F32 => exact encodeDm8_lt _
  case cvtF32F16 | cvtF32Bf16 | cvtF32E4m3 | cvtF32E5m2 | cvtF32Dm8 => exact cvtFp_lt fmtF32_fits _ _ _

theorem sval_toNat (x : Word) : sval 32 x.toNat = (BitVec.ofNat 32 x.toNat).toInt := by
  rw [BitVec.ofNat_toNat, BitVec.setWidth_eq, BitVec.toInt_eq_toNat_cond]
  have := x.isLt
  simp only [sval, Nat.mod_eq_of_lt this]
  split <;> split <;> omega

theorem ofNat_eq_setWidth {n : Nat} (h : n < 2 ^ 32) : BitVec.ofNat 64 n = (BitVec.ofNat 32 n).setWidth 64 := by
  apply BitVec.eq_of_toNat_eq
  rw [BitVec.toNat_setWidth, BitVec.toNat_ofNat, BitVec.toNat_ofNat]
  omega

/-! ## The words -/

/-- A float word applies its operation in each thread, and the spec gives that result (R132, R134). -/
theorem floatWord_word {i : Instr} {f : Word → Word → Word → Word → Word × Word} {d a : BitVec 7} {b : AluSrc}
    (h : floatWord i = some (f, d, a, b)) (s : State) :
    exec i s = .next (laneWord 6 (fun t g th =>
        let r := f (s.fpctlOf t g th.lane) (s.rdV t g th.lane a.toNat) (s.srcValue t g th.lane b) (s.rdV t g th.lane d.toNat)
        .fp (s.fpctlOf t g th.lane) [(.v g th.lane d.toNat, r.1.setWidth 64)] r.2) s)
      ∧ ∀ t g l,
        let r := f (s.fpctlOf t g l) (s.rdV t g l a.toNat) (s.srcValue t g l b) (s.rdV t g l d.toNat)
        s.floatResult t g l i = some (6, [(.v g l d.toNat, r.1.setWidth 64)], r.2) := by
  cases i
  all_goals cases h
  all_goals exact ⟨rfl, fun _ _ _ => rfl⟩

/-- A conversion applies its function in each thread, and the spec gives that result (R136). -/
theorem convertWord_word {i : Instr} {f : Nat → Nat × Word} {d a : BitVec 7} (h : convertWord i = some (f, d, a)) (s : State) :
    exec i s = .next (laneWord 6 (fun t g th =>
        let r := f (s.rdV t g th.lane a.toNat).toNat
        .fp (s.fpctlOf t g th.lane) [(.v g th.lane d.toNat, BitVec.ofNat 64 r.1)] r.2) s)
      ∧ ∀ t g l,
        let r := f (s.rdV t g l a.toNat).toNat
        s.floatResult t g l i = some (6, [(.v g l d.toNat, BitVec.ofNat 64 r.1)], r.2) := by
  cases i
  all_goals cases h
  case cvtF32I32 => exact ⟨by simp only [← sval_toNat]; rfl, fun _ _ _ => rfl⟩
  all_goals exact ⟨rfl, fun _ _ _ => rfl⟩

/-- What O10 says of a word. -/
def FloatWordDone (i : Instr) (s : State) (t u : Team) : Prop :=
  ∃ s', exec i s = .next s'
    ∧ (∀ g l, s.Executes t u g l → ∃ lat ws fl, s.floatResult t g l i = some (lat, ws, fl)
        ∧ (∀ w ∈ ws, Lands s s' w.1 lat w.2)
        ∧ (fl ≠ 0 → ∃ o ∈ s'.ops, o.team = s.cur.team ∧ o.due = s.now + lat
            ∧ ∃ late, o.what = .tsr late ∧ (g, l, orFlagsIndex, fl) ∈ late))
    ∧ OnlyRegs s (s'.withOps s) fun r => ∃ g l lat ws fl x, (g, l) ∈ s.members
        ∧ s.floatResult t g l i = some (lat, ws, fl) ∧ (r, x) ∈ ws

/-- A word that writes one register in each thread and raises flags, as the spec says, where none takes `FPX`. -/
theorem floatWordDone_of_writes {i : Instr} {s : State} {t u : Team} {lat : Nat} (hlat : lat ≠ 0) (ht : s.readTeam = some t)
    (hu : s.curTeam = some u) (hx : ∀ g l r, (g, l) ∈ s.members → s.floatResult t g l i = some r → takesFpx (s.fpctlOf t g l) r.2.2 = false)
    {f : Team → Nat → Thread → LaneOut} (hexec : exec i s = .next (laneWord lat f s))
    (hf : ∀ g l th, t.thread? g l = some th → th.lane = l → ∃ w fl, LaneWrite g l w ∧ f t g th = .fp (s.fpctlOf t g l) [w] fl
      ∧ s.floatResult t g l i = some (lat, drop0 [w], fl)) : FloatWordDone i s t u := by
  have hf' : ∀ g l th, (g, l) ∈ s.members → t.thread? g l = some th → ∃ w fl, LaneWrite g l w
      ∧ f t g th = { trap := none, regs := [w], fl := fl } ∧ s.floatResult t g l i = some (lat, drop0 [w], fl) := by
    intro g l th hm hth
    obtain ⟨w, fl, hw, e, hr⟩ := hf g l th hth (thread_lane hth)
    exact ⟨w, fl, hw, by rw [e, LaneOut.fp, hx g l _ hm hr]; rfl, hr⟩
  have hone : WritesOne s t f := fun g l th hm hth => by
    obtain ⟨w, fl, hw, e, -⟩ := hf' g l th hm hth
    exact ⟨w, fl, hw, e⟩
  have hteams : (laneWord lat f s).teams = (s.laneWritten lat f).teams := by
    rw [laneWord_eq_of_writesOne ht hone]; split <;> rfl
  refine ⟨_, hexec, fun g l he => ?_, ?_⟩
  · obtain ⟨th, hth⟩ := Option.isSome_iff_exists.mp he.before
    obtain ⟨w, fl, -, e, hr⟩ := hf' g l th he.member hth
    refine ⟨lat, _, fl, hr, fun y hy => ?_, fun hfl => ?_⟩
    · obtain ⟨rfl, hd⟩ := mem_drop0_singleton.mp hy
      have h := laneWritten_lands ht hone hu hlat he hth e hd
      simpa only [Lands, State.reg, State.team?, hteams] using h
    · have hl := laneLate_mem ht he.member hth e hfl
      rw [laneWord_eq_of_writesOne ht hone, if_neg (by intro h; rw [List.isEmpty_iff.mp h] at hl; cases hl)]
      exact ⟨_, List.mem_append_right _ (List.mem_singleton.mpr rfl), rfl, rfl, _, rfl, hl⟩
  · have hops : (laneWord lat f s).withOps s = s.laneWritten lat f := by
      rw [laneWord_eq_of_writesOne ht hone]; split <;> rfl
    rw [hops]
    refine laneWritten_only ht hone lat fun g l th w fl hm hth hw hd => ?_
    obtain ⟨y, fl', -, e, hr⟩ := hf' g l th hm hth
    rw [e, LaneOut.mk.injEq, List.singleton_inj] at hw
    obtain ⟨-, rfl, -⟩ := hw
    exact ⟨g, l, lat, _, fl', y.2, hm, hr, mem_drop0_singleton.mpr ⟨rfl, hd⟩⟩

/-- Settles O10: each word writes one register in each thread and raises flags, with the values of the spec. -/
theorem floatWords : Obligations.FloatWords := by
  unfold Obligations.FloatWords
  intro i s t u hi hwf ht hu hx
  change FloatWordDone i s t u
  have h4 : (4 : Nat) ≠ 0 := by decide
  have h6 : (6 : Nat) ≠ 0 := by decide
  cases hw : floatWord i with
  | some x =>
    obtain ⟨hexec, hres⟩ := floatWord_word hw s
    refine floatWordDone_of_writes h6 ht hu hx hexec fun g l th _ hl => ?_
    subst hl
    exact ⟨_, _, .v _ _ _ _, rfl, hres t g th.lane⟩
  | none =>
    cases hc : convertWord i with
    | some x =>
      obtain ⟨hexec, hres⟩ := convertWord_word hc s
      refine floatWordDone_of_writes h6 ht hu hx hexec fun g l th _ hl => ?_
      subst hl
      refine ⟨_, _, ?_, rfl, hres t g th.lane⟩
      rw [ofNat_eq_setWidth (convertWord_lt hc _)]
      exact .v _ _ _ _
    | none =>
      cases i
      case setp q ty a b k =>
        have hty : ty = 2#4 ∨ ty = 3#4 ∨ ty = 4#4 := by
          simp only [isFloatWord, Bool.and_eq_true, decide_eq_true_eq] at hi
          simp only [BitVec.toNat_eq, BitVec.toNat_ofNat]
          omega
        rcases hty with rfl | rfl | rfl
        all_goals
          refine floatWordDone_of_writes h4 ht hu hx rfl fun g l th _ hl => ?_
          subst hl
          exact ⟨_, _, .p g th.lane q _, rfl, by rw [drop0_p]; rfl⟩
      any_goals cases hw
      any_goals cases hc
      all_goals cases hi

end Sys2Proof.Machine

/-! O9: scalar, uniform-predicate and mask words (R124 to R127, R164, R165). -/

namespace Sys2Proof.Machine

/-! ## A change of one team's registers -/

/-- A change of a team that keeps its shape and every register outside `dest` changes nothing else in the state. -/
theorem onlyRegs_modTeam (s : State) (f : Team → Team) {dest : RegId → Prop} (hkey : ∀ t, (f t).key = t.key)
    (hshape : ∀ u, s.team? s.cur.team = some u → u.SameShape (f u))
    (hregs : ∀ u, s.team? s.cur.team = some u → ∀ r, ¬ dest r → (f u).peek r = u.peek r) :
    OnlyRegs s (s.modTeam s.cur.team f) dest := by
  have hf := State.team?_modTeam s s.cur.team f hkey
  have hne : ∀ k, k ≠ s.cur.team → (s.modTeam s.cur.team f).team? k = s.team? k := fun k hk => State.team?_modTeam_ne s f hk hkey
  have hall : ∀ k, ((s.modTeam s.cur.team f).team? k).map Team.outside = (s.team? k).map Team.outside := fun k => by
    by_cases hk : k = s.cur.team
    · subst hk
      rw [hf]
      cases hu : s.team? s.cur.team with
      | none => rfl
      | some u => simp [(hshape u hu).outside]
    · rw [hne k hk]
  refine ⟨rfl, hne, hall _, fun r hr => ?_, fun u u' g h h' => ?_, fun u u' g l h h' => ?_, fun k u u' loc h h' => ?_⟩
  · unfold State.reg
    rw [hf]
    cases hu : s.team? s.cur.team with
    | none => rfl
    | some u => exact hregs u hu r hr
  · rw [hf, h, Option.map_some, Option.some.injEq] at h'
    subst h'
    exact (hshape u h).groups g
  · rw [hf, h, Option.map_some, Option.some.injEq] at h'
    subst h'
    exact (hshape u h).threads g l
  · have := hall k
    rw [h, h', Option.map_some, Option.map_some, Option.some.injEq] at this
    exact Team.outside_locByte (s := s) (s' := s.modTeam s.cur.team f) rfl hall this loc

/-- The register of the changed team that a later word reads. -/
theorem lands_modTeam {s : State} {u : Team} (f : Team → Team) (hkey : ∀ t, (f t).key = t.key) (hu : s.curTeam = some u) {r : RegId}
    {lat : Nat} {x : DWord} (hp : (f u).peek r = x) (hw : ∃ w ∈ (f u).windows, w.reg = r ∧ w.ready = some (s.now + lat)) :
    Lands s (s.modTeam s.cur.team f) r lat x := by
  have hf := State.team?_modTeam s s.cur.team f hkey
  rw [show s.team? s.cur.team = some u from hu] at hf
  exact ⟨by rw [State.reg, hf]; exact hp, _, hf, hw⟩

/-! ## Groups -/

theorem group?_gid {t : Team} {g : Nat} {gr : Group} (h : t.group? g = some gr) : gr.gid = g := by
  have := List.find?_some h
  simpa using this

theorem nodup_uniq {α : Type} [BEq α] [LawfulBEq α] (l : List α) : (uniq l).Nodup := by
  have key : ∀ (xs acc : List α), acc.Nodup → (xs.foldl (fun acc x => if acc.contains x then acc else acc ++ [x]) acc).Nodup := by
    intro xs
    induction xs with
    | nil => exact fun acc h => h
    | cons x xs ih =>
      intro acc h
      refine ih _ ?_
      by_cases hc : acc.contains x = true
      · simpa only [if_pos hc] using h
      · simp only [if_neg hc]
        rw [List.contains_iff_mem] at hc
        exact List.nodup_append.mpr ⟨h, by simp, fun a ha b hb => by rw [List.mem_singleton.mp hb]; rintro rfl; exact hc ha⟩
  exact key l [] List.nodup_nil

/-! ## Words performed for each group -/

/-- What O9 says of a word. -/
def ScalarWordDone (i : Instr) (s : State) (t u : Team) : Prop :=
  ∃ s', exec i s = .next s'
    ∧ (∀ g, s.ExecutesGroup t u g → ∃ lat ws, s.groupResult t u g i = some (lat, ws) ∧ ∀ w ∈ ws, Lands s s' w.1 lat w.2)
    ∧ OnlyRegs s s' fun r => ∃ g lat ws x, g ∈ s.curGids ∧ s.groupResult t u g i = some (lat, ws) ∧ (r, x) ∈ ws

/-- A write of a scalar word in group g. -/
def GroupWrite (g : Nat) (w : RegId × DWord) : Prop :=
  (∃ (n : Nat) (x : Word), w = (.s g n, x.setWidth 64)) ∨ ∃ (n : Nat) (b : Bool), n < 8 ∧ w = (.q g n, if b then 1 else 0)

theorem GroupWrite.plain {g : Nat} {w : RegId × DWord} (h : GroupWrite g w) (hd : w.1.discards = false) : w.1.plain = true := by
  rcases h with ⟨n, x, rfl⟩ | ⟨n, b, hn, rfl⟩
  · cases n with
    | zero => cases hd
    | succ n => simp [RegId.plain]
  · cases n with
    | zero => cases hd
    | succ n => simp [RegId.plain, hn]

theorem GroupWrite.trim {g : Nat} {w : RegId × DWord} (h : GroupWrite g w) : w.1.trim w.2 = w.2 := by
  rcases h with ⟨n, x, rfl⟩ | ⟨n, b, hn, rfl⟩
  · simp [RegId.trim]
  · cases b <;> rfl

theorem GroupWrite.hasReg {g : Nat} {w : RegId × DWord} (h : GroupWrite g w) {u : Team} (hu : (u.group? g).isSome = true) :
    u.hasReg w.1 = true := by
  rcases h with ⟨n, x, rfl⟩ | ⟨n, b, hn, rfl⟩ <;> exact hu

/-- A register belongs to one group. -/
theorem GroupWrite.group_eq {g g' : Nat} {w w' : RegId × DWord} (h : GroupWrite g w) (h' : GroupWrite g' w') (e : w.1 = w'.1) :
    g = g' := by
  rcases h with ⟨n, x, rfl⟩ | ⟨n, b, hn, rfl⟩ <;> rcases h' with ⟨n', x', rfl⟩ | ⟨n', b', hn', rfl⟩ <;> simp_all

theorem drop0_s (g n : Nat) (x : Word) : drop0 [(.s g n, x.setWidth 64)] = scalarResult g n x := by
  cases n <;> rfl

/-- A uniform predicate is `q0` or keeps its write (R105). -/
theorem drop0_q (g : Nat) (n : BitVec 3) (x : DWord) : drop0 [(.q g n.toNat, x)] = if n = 0 then [] else [(.q g n.toNat, x)] := by
  by_cases h : n = 0
  · subst h; rfl
  · rw [if_neg h]
    cases hm : n.toNat with
    | zero => exact absurd (BitVec.eq_of_toNat_eq hm) h
    | succ m => rfl

theorem drop0_pairWrites (g : Nat) (k : BitVec 5) (x : DWord) : drop0 (pairWrites g k.toNat x) = pairResult g k x := by
  unfold pairWrites pairResult
  by_cases h : k = 0
  · subst h; rfl
  · have hk : k.toNat ≠ 0 := fun e => h (BitVec.eq_of_toNat_eq e)
    have hlo : (x.setWidth 32).setWidth 64 = BitVec.ofNat 64 (x.toNat % 2 ^ 32) := by
      apply BitVec.eq_of_toNat_eq
      rw [BitVec.toNat_setWidth, BitVec.toNat_setWidth, BitVec.toNat_ofNat]
    have hhi : x >>> 32 = BitVec.ofNat 64 (x.toNat / 2 ^ 32) := by
      apply BitVec.eq_of_toNat_eq
      rw [BitVec.toNat_ushiftRight, BitVec.toNat_ofNat, Nat.shiftRight_eq_div_pow]
      omega
    rw [if_neg hk, if_neg h, hlo, hhi]
    simp [drop0, RegId.discards, hk]

theorem groupWrite_of_mem_pairWrites {g k : Nat} {x : DWord} {w : RegId × DWord} (h : w ∈ pairWrites g k x) : GroupWrite g w := by
  unfold pairWrites at h
  split at h
  · cases h
  · simp only [List.mem_cons, List.not_mem_nil, or_false] at h
    rcases h with rfl | rfl
    · exact .inl ⟨_, _, rfl⟩
    · exact .inl ⟨_, (x >>> 32).setWidth 32, by
        refine Prod.ext rfl (BitVec.eq_of_toNat_eq ?_)
        rw [BitVec.toNat_setWidth, BitVec.toNat_setWidth, BitVec.toNat_ushiftRight, Nat.shiftRight_eq_div_pow]
        omega⟩

theorem pairWrites_uniq {g k : Nat} {x : DWord} {w w' : RegId × DWord} (h : w ∈ pairWrites g k x) (h' : w' ∈ pairWrites g k x)
    (e : w.1 = w'.1) : w.2 = w'.2 := by
  unfold pairWrites at h h'
  split at h
  · cases h
  · next hk =>
    rw [if_neg hk] at h'
    simp only [List.mem_cons, List.not_mem_nil, or_false] at h h'
    rcases h with rfl | rfl <;> rcases h' with rfl | rfl <;> simp at e ⊢

section
variable {i : Instr} {s : State} {t u : Team} {lat : Nat} (hlat : lat ≠ 0) (ht : s.readTeam = some t) (hu : s.curTeam = some u)
include hlat ht hu

/-- A word that writes, in each group, what the spec says. -/
theorem scalarWordDone_of_writes {f : Team → Group → List Nat → List (RegId × DWord)} (ws : Nat → List (RegId × DWord))
    (hexec : exec i s = .next (groupWord lat f s)) (hf : ∀ g gr, t.group? g = some gr → gr.gid = g → f t gr (s.lanesOf g) = ws g)
    (hw : ∀ g, ∀ w ∈ ws g, GroupWrite g w) (huniq : ∀ g, ∀ w ∈ ws g, ∀ w' ∈ ws g, w.1 = w'.1 → w.2 = w'.2)
    (hres : ∀ g, s.groupResult t u g i = some (lat, drop0 (ws g))) : ScalarWordDone i s t u := by
  have hsub : ∀ {g w}, w ∈ drop0 (ws g) → w ∈ ws g ∧ w.1.discards = false := fun h => by simpa [drop0] using h
  obtain ⟨h1, h2⟩ := group_result s t u lat f (fun g => drop0 (ws g)) hlat ht hu
    (fun g gr hgr => by rw [hf g gr hgr (group?_gid hgr)])
    (fun g w h => ⟨(hw g w (hsub h).1).plain (hsub h).2, (hw g w (hsub h).1).trim, fun _ hv => (hw g w (hsub h).1).hasReg hv⟩)
    (fun g g' w h w' h' e => by
      obtain rfl := (hw g w (hsub h).1).group_eq (hw g' w' (hsub h').1) e
      exact huniq g w (hsub h).1 w' (hsub h').1 e)
  refine ⟨_, hexec, fun g he => ⟨lat, _, hres g, h1 g he⟩, ?_⟩
  have he : (fun r => ∃ g x, g ∈ s.curGids ∧ (r, x) ∈ drop0 (ws g))
      = fun r => ∃ g l ws x, g ∈ s.curGids ∧ s.groupResult t u g i = some (l, ws) ∧ (r, x) ∈ ws := by
    funext r
    refine propext ⟨fun ⟨g, x, hg, h⟩ => ⟨g, lat, _, x, hg, hres g, h⟩, fun ⟨g, l, ws', x, hg, hr, h⟩ => ⟨g, x, hg, ?_⟩⟩
    rw [hres g, Option.some.injEq, Prod.mk.injEq] at hr
    rw [hr.2]
    exact h
  exact he ▸ h2

/-- A word with one scalar result. -/
theorem scalarWordDone_of_s {d : Nat} {x : Team → Group → List Nat → Word}
    (hexec : exec i s = .next (groupWord lat (fun t g lanes => sWrite g.gid d (x t g lanes)) s)) (y : Nat → Word)
    (hx : ∀ g gr, t.group? g = some gr → gr.gid = g → x t gr (s.lanesOf g) = y g)
    (hres : ∀ g, s.groupResult t u g i = some (lat, scalarResult g d (y g))) : ScalarWordDone i s t u := by
  refine scalarWordDone_of_writes hlat ht hu (fun g => [(.s g d, (y g).setWidth 64)]) hexec (fun g gr hgr hg => ?_)
    (fun g w hw => ?_) (fun g w hw w' hw' _ => ?_) fun g => ?_
  · rw [hx g gr hgr hg, hg]; rfl
  · rw [List.mem_singleton] at hw; subst hw; exact .inl ⟨d, y g, rfl⟩
  · rw [List.mem_singleton.mp hw, List.mem_singleton.mp hw']
  · rw [hres, drop0_s]

/-- A word with a pair result. -/
theorem scalarWordDone_of_pair {k : BitVec 5} {x : Team → Group → List Nat → DWord}
    (hexec : exec i s = .next (groupWord lat (fun t g lanes => pairWrites g.gid k.toNat (x t g lanes)) s)) (y : Nat → DWord)
    (hx : ∀ g gr, t.group? g = some gr → gr.gid = g → x t gr (s.lanesOf g) = y g)
    (hres : ∀ g, s.groupResult t u g i = some (lat, pairResult g k (y g))) : ScalarWordDone i s t u := by
  refine scalarWordDone_of_writes hlat ht hu (fun g => pairWrites g k.toNat (y g)) hexec (fun g gr hgr hg => ?_)
    (fun g w hw => groupWrite_of_mem_pairWrites hw) (fun g w hw w' hw' e => pairWrites_uniq hw hw' e) fun g => ?_
  · rw [hx g gr hgr hg, hg]
  · rw [hres, drop0_pairWrites]

/-- A word with a uniform predicate result. -/
theorem scalarWordDone_of_q {q : BitVec 3} {b : Team → Group → List Nat → Bool}
    (hexec : exec i s = .next (groupWord lat (fun t g lanes => [(.q g.gid q.toNat, if b t g lanes then 1 else 0)]) s)) (y : Nat → Bool)
    (hb : ∀ g gr, t.group? g = some gr → gr.gid = g → b t gr (s.lanesOf g) = y g)
    (hres : ∀ g, s.groupResult t u g i = some (lat, uniResult g q (y g))) : ScalarWordDone i s t u := by
  refine scalarWordDone_of_writes hlat ht hu (fun g => [(.q g q.toNat, if y g then 1 else 0)]) hexec (fun g gr hgr hg => ?_)
    (fun g w hw => ?_) (fun g w hw w' hw' _ => ?_) fun g => ?_
  · rw [hb g gr hgr hg, hg]
  · rw [List.mem_singleton] at hw; subst hw; exact .inr ⟨q.toNat, y g, q.isLt, rfl⟩
  · rw [List.mem_singleton.mp hw, List.mem_singleton.mp hw']
  · rw [hres, drop0_q]; rfl

end

/-! ## Words that write a mask (R164, R165) -/

/-- A change of one mask of a group, noted for the words issued in the same cycle: what `JOIN`, `LEAVE` and the whole-mask writes
do. -/
structure MaskStep (now m : Nat) (v : Team → Nat → DWord) (F : Team → Nat → Team) : Prop where
  step : ∀ u g, ∃ x : MaskLog, x.gid = g ∧ x.m = m ∧ x.cycle = now ∧ F u g = (Team.write now Config.latSC u (.m g m, v u g)).noteMask x
  value : ∀ u u' g, u'.peek (.m g m) = u.peek (.m g m) → u'.maskNow now g m = u.maskNow now g m → v u' g = v u g

theorem maskNow_fields (t : Team) (now g m : Nat) :
    (t.maskNow now g m).gid = g ∧ (t.maskNow now g m).m = m ∧ (t.maskNow now g m).cycle = now := by
  unfold Team.maskNow
  cases h : t.maskLog.find? fun x => x.gid == g && x.m == m && x.cycle == now with
  | none => exact ⟨rfl, rfl, rfl⟩
  | some x => simpa [and_assoc] using List.find?_some h

theorem maskStep_maskBits (now m : Nat) (set clr : Nat → DWord) :
    MaskStep now m (fun u g => (u.peek (.m g m) ||| set g) &&& ~~~(clr g)) fun u g => u.maskBits now g m (set g) (clr g) := by
  refine ⟨fun u g => ?_, fun u u' g h _ => by rw [h]⟩
  obtain ⟨h1, h2, h3⟩ := maskNow_fields u now g m
  refine ⟨{ u.maskNow now g m with
    set := ((u.maskNow now g m).set ||| set g) &&& ~~~(clr g), clr := ((u.maskNow now g m).clr ||| clr g) &&& ~~~(set g) },
    h1, h2, h3, rfl⟩

/-- The value that a whole-mask write leaves (R165). -/
def wholeValue (now fresh m : Nat) (x : Nat → DWord) (u : Team) (g : Nat) : DWord :=
  let c := u.maskNow now g m
  let y := match c.whole with
    | some old => if Config.freeBit fresh (regCode (.m g m)) then x g else old
    | none => x g
  (y ||| c.set) &&& ~~~c.clr

theorem maskStep_maskWhole (now fresh m : Nat) (x : Nat → DWord) :
    MaskStep now m (wholeValue now fresh m x) fun u g => u.maskWhole now fresh g m (x g) := by
  refine ⟨fun u g => ?_, fun u u' g _ h => by rw [wholeValue, wholeValue, h]⟩
  obtain ⟨h1, h2, h3⟩ := maskNow_fields u now g m
  refine ⟨{ u.maskNow now g m with whole := some _ }, h1, h2, h3, rfl⟩

theorem wholeValue_of_none {now fresh m : Nat} {x : Nat → DWord} {u : Team} {g : Nat} (h : (u.maskNow now g m).whole = none) :
    wholeValue now fresh m x u g = (x g ||| (u.maskNow now g m).set) &&& ~~~(u.maskNow now g m).clr := by
  rw [wholeValue, h]

/-- Where no whole-mask write is noted for this cycle, none is found. -/
theorem maskNow_whole {u : Team} {now : Nat} (h : ∀ x ∈ u.maskLog, x.cycle = now → x.whole = none) (g m : Nat) :
    (u.maskNow now g m).whole = none := by
  unfold Team.maskNow
  cases hf : u.maskLog.find? fun x => x.gid == g && x.m == m && x.cycle == now with
  | none => rfl
  | some x =>
    have hx := List.find?_some hf
    simp only [Bool.and_eq_true, beq_iff_eq] at hx
    exact h x (List.mem_of_find?_eq_some hf) hx.2

theorem peek_noteMask (t : Team) (x : MaskLog) (r : RegId) : (t.noteMask x).peek r = t.peek r := by cases r <;> rfl

theorem noteMask_shape (t : Team) (x : MaskLog) : t.SameShape (t.noteMask x) := ⟨rfl, fun _ => rfl, fun _ _ => rfl⟩

/-- A note on the mask of one group does not touch another group's. -/
theorem maskNow_noteMask_ne (t : Team) {x : MaskLog} {now g m : Nat} (hx : x.cycle = now) (hg : x.gid ≠ g) :
    (t.noteMask x).maskNow now g m = t.maskNow now g m := by
  unfold Team.maskNow Team.noteMask
  simp only
  rw [List.find?_cons_of_neg (by simp [hg]), List.find?_filter]
  congr 2
  funext y
  rw [Bool.eq_iff_iff]
  simp only [Bool.and_eq_true, Bool.not_eq_true', Bool.and_eq_false_iff, beq_iff_eq, beq_eq_false_iff_ne, decide_eq_true_eq]
  constructor
  · exact fun h => h.2
  · rintro ⟨⟨rfl, h2⟩, h3⟩
    exact ⟨⟨h3.trans hx.symm, .inl fun e => hg e.symm⟩, ⟨rfl, h2⟩, h3⟩

section
variable {now m : Nat} {v : Team → Nat → DWord} {F : Team → Nat → Team} (hF : MaskStep now m v F)
include hF

theorem MaskStep.shape (u : Team) (g : Nat) : u.SameShape (F u g) := by
  obtain ⟨x, -, -, -, e⟩ := hF.step u g
  rw [e]
  exact (Team.write_shape now Config.latSC u (.m g m, v u g) (.inl rfl)).trans (noteMask_shape _ x)

theorem MaskStep.peek_ne (u : Team) {g : Nat} {r : RegId} (hr : r ≠ .m g m) : (F u g).peek r = u.peek r := by
  obtain ⟨x, -, -, -, e⟩ := hF.step u g
  rw [e, peek_noteMask, Team.peek_write_of_ne (.inl rfl) hr]

theorem MaskStep.peek_self {u : Team} {g : Nat} (hg : (u.group? g).isSome = true) : (F u g).peek (.m g m) = v u g := by
  obtain ⟨x, -, -, -, e⟩ := hF.step u g
  rw [e, peek_noteMask, Team.peek_write rfl, Team.peek_poke_self u (.m g m) (v u g) rfl hg]
  rfl

theorem MaskStep.window (u : Team) (g : Nat) : ∃ w ∈ (F u g).windows, w.reg = .m g m ∧ w.ready = some (now + Config.latSC) := by
  obtain ⟨x, -, -, -, e⟩ := hF.step u g
  rw [e]
  exact Team.foldl_write_window now Config.latSC [(.m g m, v u g)] u _ _ rfl (by decide) (List.mem_singleton.mpr rfl)

theorem MaskStep.windows_mono {u : Team} {g : Nat} {w : Window} (hw : w ∈ u.windows) : w ∈ (F u g).windows := by
  obtain ⟨x, -, -, -, e⟩ := hF.step u g
  rw [e]
  exact Team.foldl_write_windows_mono now Config.latSC [(.m g m, v u g)] u w hw

/-- A step on one group does not change what a step on another group writes. -/
theorem MaskStep.value_ne (u : Team) {g g' : Nat} (hg : g ≠ g') : v (F u g) g' = v u g' := by
  refine hF.value u (F u g) g' (hF.peek_ne u fun e => hg (RegId.m.inj e).1.symm) ?_
  obtain ⟨x, hxg, -, hxc, e⟩ := hF.step u g
  rw [e, maskNow_noteMask_ne _ hxc (hxg ▸ hg)]
  rfl

end

/-- The step of a group that a team has. -/
def maskStepIf (t : Team) (F : Team → Nat → Team) (u : Team) (g : Nat) : Team := if (t.group? g).isSome then F u g else u

/-- The steps of the groups in a list that a team has. -/
def maskSteps (t : Team) (F : Team → Nat → Team) (gids : List Nat) (u : Team) : Team := gids.foldl (maskStepIf t F) u

section
variable {now m : Nat} {v : Team → Nat → DWord} {F : Team → Nat → Team} (hF : MaskStep now m v F) (t : Team)
include hF

theorem maskSteps_shape (gids : List Nat) (u : Team) : u.SameShape (maskSteps t F gids u) := by
  induction gids generalizing u with
  | nil => exact .refl u
  | cons g gids ih =>
    refine Team.SameShape.trans ?_ (ih _)
    unfold maskStepIf
    split
    · exact hF.shape u g
    · exact .refl u

theorem maskSteps_peek_ne (gids : List Nat) (u : Team) {r : RegId} (hr : ∀ g ∈ gids, (t.group? g).isSome = true → r ≠ .m g m) :
    (maskSteps t F gids u).peek r = u.peek r := by
  induction gids generalizing u with
  | nil => rfl
  | cons g gids ih =>
    refine (ih _ fun g' hg' => hr g' (List.mem_cons_of_mem g hg')).trans ?_
    unfold maskStepIf
    split
    · next h => exact hF.peek_ne u (hr g List.mem_cons_self h)
    · rfl

theorem maskSteps_windows_mono (gids : List Nat) {u : Team} {w : Window} (hw : w ∈ u.windows) : w ∈ (maskSteps t F gids u).windows := by
  induction gids generalizing u with
  | nil => exact hw
  | cons g gids ih =>
    refine ih ?_
    unfold maskStepIf
    split
    · exact hF.windows_mono hw
    · exact hw

/-- Each group's mask holds the value of its step. -/
theorem maskSteps_lands {gids : List Nat} (hn : gids.Nodup) {u : Team} {g : Nat} (hg : g ∈ gids) (hb : (t.group? g).isSome = true)
    (hu : (u.group? g).isSome = true) : (maskSteps t F gids u).peek (.m g m) = v u g
      ∧ ∃ w ∈ (maskSteps t F gids u).windows, w.reg = .m g m ∧ w.ready = some (now + Config.latSC) := by
  induction gids generalizing u with
  | nil => cases hg
  | cons g' gids ih =>
    obtain ⟨hg', hn⟩ := List.nodup_cons.mp hn
    rcases List.mem_cons.mp hg with rfl | hg
    · have e : maskSteps t F (g :: gids) u = maskSteps t F gids (F u g) := by
        rw [maskSteps, List.foldl_cons, maskStepIf, if_pos hb, maskSteps]
      rw [e]
      obtain ⟨w, hw, h⟩ := hF.window u g
      refine ⟨?_, w, maskSteps_windows_mono hF t gids hw, h⟩
      rw [maskSteps_peek_ne hF t gids _ fun g'' hg'' _ e => hg' (by rwa [(RegId.m.inj e).1]), hF.peek_self hu]
    · have hne : g' ≠ g := fun e => hg' (e ▸ hg)
      have e : maskSteps t F (g' :: gids) u = maskSteps t F gids (maskStepIf t F u g') := rfl
      rw [e, maskStepIf]
      split
      · rw [← hF.value_ne u hne]
        exact ih hn hg (((hF.shape u g').hasReg (.m g m)).trans hu)
      · exact ih hn hg hu

end

/-- A word that writes one mask in each group, as the spec says. -/
theorem scalarWordDone_of_mask {i : Instr} {s : State} {t u : Team} (ht : s.readTeam = some t) (hu : s.curTeam = some u) {m : Nat}
    {v : Team → Nat → DWord} {F : Team → Nat → Team} (hF : MaskStep s.now m v F) {f : Team → Group → List Nat → Team → Team}
    (hexec : exec i s = .next (maskWord f s))
    (hf : ∀ g gr, t.group? g = some gr → gr.gid = g → ∀ u, f t gr (s.lanesOf g) u = F u g)
    (hres : ∀ g, s.groupResult t u g i = some (Config.latSC, [(.m g m, v u g)])) : ScalarWordDone i s t u := by
  have hw : maskWord f s = s.modTeam s.cur.team (maskSteps t F s.curGids) := by
    unfold maskWord maskSteps
    rw [ht]
    simp only
    congr 1
    funext u
    congr 1
    funext u' g
    unfold maskStepIf
    cases hgr : t.group? g with
    | none => rfl
    | some gr => exact hf g gr hgr (group?_gid hgr) u'
  have hkey : ∀ u, (maskSteps t F s.curGids u).key = u.key := fun u => by
    have h := congrArg Team.key (maskSteps_shape hF t s.curGids u).outside
    exact h
  refine ⟨_, hexec, fun g he => ⟨_, _, hres g, fun w hwm => ?_⟩, ?_⟩
  · rw [List.mem_singleton.mp hwm, hw]
    obtain ⟨hp, hwin⟩ := maskSteps_lands hF t (nodup_uniq _) he.member he.before he.now
    exact lands_modTeam _ hkey hu hp hwin
  · rw [hw]
    refine onlyRegs_modTeam s _ hkey (fun u _ => maskSteps_shape hF t s.curGids u) fun u' _ r hr => ?_
    refine maskSteps_peek_ne hF t s.curGids u' fun g hg _ e => hr ?_
    exact ⟨g, _, _, v u g, hg, hres g, by rw [e]; exact List.mem_singleton.mpr rfl⟩

/-- A whole-mask write, where no other has been made in this cycle. -/
theorem scalarWordDone_of_whole {i : Instr} {s : State} {t u : Team} (ht : s.readTeam = some t) (hu : s.curTeam = some u)
    (hlog : ∀ x ∈ u.maskLog, x.cycle = s.now → x.whole = none) {m : Nat} (x : Nat → DWord) {f : Team → Group → List Nat → Team → Team}
    (hexec : exec i s = .next (maskWord f s))
    (hf : ∀ g gr, t.group? g = some gr → gr.gid = g → ∀ u, f t gr (s.lanesOf g) u = u.maskWhole s.now s.fresh g m (x g))
    (hres : ∀ g, s.groupResult t u g i
      = some (Config.latSC, [(.m g m, (x g ||| (u.maskNow s.now g m).set) &&& ~~~(u.maskNow s.now g m).clr)])) :
    ScalarWordDone i s t u :=
  scalarWordDone_of_mask ht hu (maskStep_maskWhole s.now s.fresh m x) hexec hf fun g => by
    rw [hres, wholeValue_of_none (maskNow_whole hlog g m)]

/-! ## The values of the words -/

theorem add_signExtend {n k : Nat} (x : BitVec n) (i : BitVec k) : x + i.signExtend n = BitVec.ofInt n (x.toNat + i.toInt) := by
  rw [BitVec.ofInt_add, BitVec.ofInt_natCast, BitVec.ofNat_toNat, BitVec.setWidth_eq, BitVec.signExtend]

theorem add_ofNat {n : Nat} (x y : BitVec n) : x + y = BitVec.ofNat n (x.toNat + y.toNat) := by
  rw [BitVec.ofNat_add, BitVec.ofNat_toNat, BitVec.ofNat_toNat, BitVec.setWidth_eq, BitVec.setWidth_eq]

theorem sub_ofInt {n : Nat} (x y : BitVec n) : x - y = BitVec.ofInt n (x.toNat - y.toNat) := by
  rw [Int.sub_eq_add_neg, BitVec.ofInt_add, BitVec.ofInt_neg, BitVec.ofInt_natCast, BitVec.ofInt_natCast, BitVec.ofNat_toNat,
    BitVec.ofNat_toNat, BitVec.setWidth_eq, BitVec.setWidth_eq, BitVec.sub_eq_add_neg]

theorem shl_ofNat {n : Nat} (x : BitVec n) (k : Nat) : x <<< k = BitVec.ofNat n (x.toNat * 2 ^ k) := by
  apply BitVec.eq_of_toNat_eq
  rw [BitVec.toNat_shiftLeft, BitVec.toNat_ofNat, Nat.shiftLeft_eq]

theorem shr_ofNat {n : Nat} (x : BitVec n) (k : Nat) : x >>> k = BitVec.ofNat n (x.toNat / 2 ^ k) := by
  apply BitVec.eq_of_toNat_eq
  rw [BitVec.toNat_ushiftRight, BitVec.toNat_ofNat, Nat.shiftRight_eq_div_pow,
    Nat.mod_eq_of_lt (Nat.lt_of_le_of_lt (Nat.div_le_self _ _) x.isLt)]

theorem mul_ofNat (x y : Word) : x.setWidth 64 * y.setWidth 64 = BitVec.ofNat 64 (x.toNat * y.toNat) := by
  rw [BitVec.ofNat_mul, BitVec.ofNat_toNat, BitVec.ofNat_toNat]

theorem slui_eq (x : BitVec 19) : x.setWidth 32 <<< 13 = BitVec.ofNat 32 (x.toNat * 2 ^ 13) := by
  rw [shl_ofNat, BitVec.toNat_setWidth, Nat.mod_eq_of_lt (by omega)]

theorem uniSrc_eq (s : State) (t : Team) (g : Nat) (n : BitVec 3) (neg : BitVec 1) :
    s.uniSrc t g n neg = (s.rdQ t g n.toNat ^^ (neg == 1)) := by
  rw [State.uniSrc, Bool.bne_eq_xor]; rfl

theorem maskBits_eq (s : State) (t : Team) (x : DWord) :
    s.maskBits t x = if s.narrow t then BitVec.ofNat 64 (x.toNat % 2 ^ 32) else x := by
  unfold State.maskBits
  split
  · apply BitVec.eq_of_toNat_eq
    rw [BitVec.toNat_and, BitVec.toNat_ofNat, BitVec.toNat_ofNat, show 0xFFFFFFFF % 2 ^ 64 = 2 ^ 32 - 1 from rfl,
      Nat.and_two_pow_sub_one_eq_mod]
    omega
  · rfl

/-! ## The words -/

/-- A word of R124 that has a function of Table 5 applies it in each group, and the spec gives that result. -/
theorem scalarAlu_word {i : Instr} {f : AluOp} {d a b : Nat} (h : scalarAlu i = some (f, d, a, b)) (s : State) :
    exec i s = .next (groupWord f.scalarLatency (fun t g _ => sWrite g.gid d (f.model (s.rdS t g.gid a) (s.rdS t g.gid b))) s)
      ∧ ∀ t u g, s.groupResult t u g i
        = some (f.scalarLatency, scalarResult g d (f.result (s.rdS t g a) (s.rdS t g b))) := by
  cases i
  all_goals cases h
  all_goals exact ⟨rfl, fun _ _ _ => rfl⟩

theorem AluOp.scalarLatency_ne_zero (f : AluOp) : f.scalarLatency ≠ 0 := by cases f <;> decide

/-- The compares of `SCMP` with a type of integers (R126). -/
theorem scalarWordDone_scmp {s : State} {t u : Team} (ht : s.readTeam = some t) (hu : s.curTeam = some u) {q : BitVec 3} {ty : BitVec 4}
    {a b : BitVec 6} {k : BitVec 4} (hwf : (Instr.scmp q ty a b k).wf = true) : ScalarWordDone (.scmp q ty a b k) s t u := by
  have hty : ty = 0#4 ∨ ty = 1#4 ∨ ty = 5#4 ∨ ty = 6#4 := by
    by_contra h
    obtain ⟨h0, h1, h5, h6⟩ : ty ≠ 0#4 ∧ ty ≠ 1#4 ∧ ty ≠ 5#4 ∧ ty ≠ 6#4 := by simpa only [not_or] using h
    simp [Instr.wf, Instr.fieldError, FieldError.unless, h0, h1, h5, h6] at hwf
  have h2 : (2 : Nat) ≠ 0 := by decide
  rcases hty with rfl | rfl | rfl | rfl
  all_goals exact scalarWordDone_of_q h2 ht hu rfl _ (fun g gr _ hg => by simp only [condInt_eq_compare, hg]; rfl) fun g => rfl

/-- Settles O9: each word writes in each group the value of the spec. -/
theorem scalarWords : Obligations.ScalarWords := by
  unfold Obligations.ScalarWords
  intro i s t u hi hwf ht hu hlog
  change ScalarWordDone i s t u
  cases hv : scalarAlu i with
  | some x =>
    obtain ⟨hexec, hres⟩ := scalarAlu_word hv s
    exact scalarWordDone_of_s x.1.scalarLatency_ne_zero ht hu hexec _ (fun g gr _ hg => by rw [AluOp.model_eq, hg]) fun g => hres t u g
  | none =>
    have h2 : (2 : Nat) ≠ 0 := by decide
    have h4 : (4 : Nat) ≠ 0 := by decide
    cases i
    case smov => exact scalarWordDone_of_s h2 ht hu rfl _ (fun g gr _ hg => by rw [hg]) fun g => rfl
    case saddi => exact scalarWordDone_of_s h2 ht hu rfl _ (fun g gr _ hg => by rw [hg, add_signExtend]) fun g => rfl
    case slui => exact scalarWordDone_of_s h2 ht hu rfl _ (fun g gr _ hg => slui_eq _) fun g => rfl
    case mpopc => exact scalarWordDone_of_s h2 ht hu rfl _ (fun g gr _ hg => by rw [hg]) fun g => rfl
    case sadd64 => exact scalarWordDone_of_pair h2 ht hu rfl _ (fun g gr _ hg => by rw [hg, add_ofNat]) fun g => rfl
    case ssub64 => exact scalarWordDone_of_pair h2 ht hu rfl _ (fun g gr _ hg => by rw [hg, sub_ofInt]) fun g => rfl
    case sshl64 => exact scalarWordDone_of_pair h2 ht hu rfl _ (fun g gr _ hg => by rw [hg, shl_ofNat]) fun g => rfl
    case sshr64 => exact scalarWordDone_of_pair h2 ht hu rfl _ (fun g gr _ hg => by rw [hg, shr_ofNat]) fun g => rfl
    case smulw => exact scalarWordDone_of_pair h4 ht hu rfl _ (fun g gr _ hg => by rw [hg, mul_ofNat]) fun g => rfl
    case saddi64 => exact scalarWordDone_of_pair h2 ht hu rfl _ (fun g gr _ hg => by rw [hg, add_signExtend]) fun g => rfl
    case mget => exact scalarWordDone_of_pair h2 ht hu rfl _ (fun g gr _ hg => by rw [hg]) fun g => rfl
    case mself => exact scalarWordDone_of_pair h2 ht hu rfl _ (fun g gr _ hg => rfl) fun g => rfl
    case qand | qor => exact scalarWordDone_of_q h2 ht hu rfl _ (fun g gr _ hg => by simp only [uniSrc_eq, hg]) fun g => rfl
    case qxor => exact scalarWordDone_of_q h2 ht hu rfl _ (fun g gr _ hg => by simp only [uniSrc_eq, hg, Bool.bne_eq_xor]) fun g => rfl
    case qmov => exact scalarWordDone_of_q h2 ht hu rfl _ (fun g gr _ hg => by rw [uniSrc_eq, hg]) fun g => rfl
    case scmp => exact scalarWordDone_scmp ht hu hwf
    case join m =>
      exact scalarWordDone_of_mask ht hu (maskStep_maskBits s.now m.toNat (fun g => laneMask (s.lanesOf g)) fun _ => 0) rfl
        (fun g gr _ hg u => by rw [hg]) fun g => by
          rw [show ∀ x : DWord, x &&& ~~~(0 : DWord) = x from fun x => BitVec.and_allOnes]; rfl
    case leave m =>
      exact scalarWordDone_of_mask ht hu (maskStep_maskBits s.now m.toNat (fun _ => 0) fun g => laneMask (s.lanesOf g)) rfl
        (fun g gr _ hg u => by rw [hg]) fun g => by
          rw [show ∀ x : DWord, x ||| 0 = x from fun _ => BitVec.or_zero]; rfl
    case mset m k =>
      exact scalarWordDone_of_whole ht hu hlog (fun g => s.maskBits t (s.rdS2 t g k.toNat)) rfl (fun g gr _ hg u => by rw [hg])
        fun g => by rw [maskBits_eq]; rfl
    case mand m k =>
      exact scalarWordDone_of_whole ht hu hlog (fun g => s.rdM t g m.toNat &&& s.rdM t g k.toNat) rfl
        (fun g gr _ hg u => by rw [hg]) fun g => rfl
    case mor m k =>
      exact scalarWordDone_of_whole ht hu hlog (fun g => s.rdM t g m.toNat ||| s.rdM t g k.toNat) rfl
        (fun g gr _ hg u => by rw [hg]) fun g => rfl
    case mandn m k =>
      exact scalarWordDone_of_whole ht hu hlog (fun g => s.rdM t g m.toNat &&& ~~~(s.rdM t g k.toNat)) rfl
        (fun g gr _ hg u => by rw [hg]) fun g => rfl
    any_goals cases hv
    all_goals cases hi

end Sys2Proof.Machine

/-! O18: the collective words and `WAITM` (R166 to R171). -/

namespace Sys2Proof.Machine

/-- A word that changes nothing. -/
theorem onlyRegs_refl (s : State) (dest : RegId → Prop) : OnlyRegs s s dest := by
  have h := onlyRegs_modTeam s (fun t => t) (dest := dest) (fun _ => rfl) (fun u _ => .refl u) fun _ _ _ _ => rfl
  rwa [State.modTeam_id] at h

/-- The destinations of a collective word: one register in each thread, a vector register or a predicate. -/
structure LaneDest (dest : Nat → Nat → RegId) : Prop where
  good : ∀ g l x, goodWrite (dest g l, x)
  inj : ∀ g l g' l', dest g l = dest g' l' → g = g' ∧ l = l'
  has : ∀ (u : Team) (g l : Nat), (u.thread? g l).isSome = true → u.hasReg (dest g l) = true

theorem laneDest_v (d : Nat) : LaneDest fun g l => .v g l d :=
  ⟨fun _ _ _ => .inl rfl, fun _ _ _ _ h => ⟨(RegId.v.inj h).1, (RegId.v.inj h).2.1⟩, fun _ _ _ h => h⟩

theorem laneDest_p (d : BitVec 3) : LaneDest fun g l => .p g l d.toNat := by
  refine ⟨fun g l x => ?_, fun _ _ _ _ h => ⟨(RegId.p.inj h).1, (RegId.p.inj h).2.1⟩, fun _ _ _ h => h⟩
  have hd := d.isLt
  cases h : d.toNat with
  | zero => exact .inr rfl
  | succ n => exact .inl (by simp [RegId.plain]; omega)

/-- The writes of a collective word that its threads come back to with what they have received (R167). -/
def State.collWrites (s : State) (dest : Nat → Nat → RegId) (got : List (Nat × Nat × Nat)) : List (RegId × DWord) :=
  (got.filter fun r => s.members.contains (r.1, r.2.1)).map fun r => (dest r.1 r.2.1, BitVec.ofNat 64 r.2.2)

theorem mem_collWrites {s : State} {dest : Nat → Nat → RegId} {got : List (Nat × Nat × Nat)} {w : RegId × DWord} :
    w ∈ s.collWrites dest got ↔ ∃ g l x, (g, l, x) ∈ got ∧ (g, l) ∈ s.members ∧ w = (dest g l, BitVec.ofNat 64 x) := by
  simp only [State.collWrites, List.mem_map, List.mem_filter, List.contains_iff_mem, Prod.exists]
  constructor
  · rintro ⟨g, l, x, ⟨h1, h2⟩, rfl⟩; exact ⟨g, l, x, h1, h2, rfl⟩
  · rintro ⟨g, l, x, h1, h2, rfl⟩; exact ⟨g, l, x, ⟨h1, h2⟩, rfl⟩

/-- The state after those writes. -/
def State.collWritten (s : State) (dest : Nat → Nat → RegId) (got : List (Nat × Nat × Nat)) : State :=
  s.modTeam s.cur.team fun t => (s.collWrites dest got).foldl (Team.write s.now Config.latColl) t

/-- What a collective word with a destination in each thread does. -/
theorem exec_collective {i : Instr} {dest : Nat → Nat → RegId} (h : collectiveDest i = some dest) (s : State) :
    exec i s = .next (match s.passed with
      | none => s.waitOn .collective
      | some got => s.collWritten dest got) := by
  cases i
  all_goals cases h
  all_goals rfl

theorem laneDest_of_collective {i : Instr} {dest : Nat → Nat → RegId} (h : collectiveDest i = some dest) : LaneDest dest := by
  cases i
  case vany d _ | vall d _ => cases h; exact laneDest_p d
  all_goals cases h
  all_goals exact laneDest_v _

/-- A value that a collective hands out fits its destination. -/
theorem collective_trim {i : Instr} {dest : Nat → Nat → RegId} (h : collectiveDest i = some dest) {x : Nat} (hx : x < 2 ^ 32)
    (hv : ∀ d a, i = .vany d a ∨ i = .vall d a → x < 2) (g l : Nat) : (dest g l).trim (BitVec.ofNat 64 x) = BitVec.ofNat 64 x := by
  have hvote : x < 2 → (if BitVec.ofNat 64 x != 0 then (1 : DWord) else 0) = BitVec.ofNat 64 x := fun h => by
    interval_cases x <;> rfl
  have hvec : ((BitVec.ofNat 64 x).setWidth 32).setWidth 64 = BitVec.ofNat 64 x := by
    apply BitVec.eq_of_toNat_eq
    simp only [BitVec.toNat_setWidth, BitVec.toNat_ofNat]
    omega
  cases i
  case vany d a => cases h; exact hvote (hv d a (.inl rfl))
  case vall d a => cases h; exact hvote (hv d a (.inr rfl))
  all_goals cases h
  all_goals exact hvec

section
variable {s : State} {u : Team} {dest : Nat → Nat → RegId} (hdest : LaneDest dest) (got : List (Nat × Nat × Nat))
include hdest

theorem collWrites_good {w : RegId × DWord} (hw : w ∈ s.collWrites dest got) : goodWrite w := by
  obtain ⟨g, l, x, -, -, rfl⟩ := mem_collWrites.mp hw
  exact hdest.good g l _

/-- A thread's destination holds what the thread has received. -/
theorem collWritten_lands (hu : s.curTeam = some u) {g l x : Nat} (hm : (g, l) ∈ s.members) (hth : (u.thread? g l).isSome = true)
    (hgot : (g, l, x) ∈ got) (huniq : ∀ y, (g, l, y) ∈ got → y = x) (hd : (dest g l).discards = false)
    (htrim : (dest g l).trim (BitVec.ofNat 64 x) = BitVec.ofNat 64 x) :
    Lands s (s.collWritten dest got) (dest g l) Config.latColl (BitVec.ofNat 64 x) := by
  have hplain : (dest g l).plain = true := (hdest.good g l 0).resolve_right fun h => by
    rw [hd] at h
    cases h
  refine writes_lands s u Config.latColl _ hu (fun w hw => collWrites_good hdest got hw) _ _ hplain (hdest.has u g l hth) (by decide)
    (mem_collWrites.mpr ⟨g, l, x, hgot, hm, rfl⟩) (fun w hw e => ?_) htrim
  obtain ⟨g', l', y, hy, -, rfl⟩ := mem_collWrites.mp hw
  obtain ⟨rfl, rfl⟩ := hdest.inj g' l' g l e
  rw [huniq y hy]

theorem collWritten_only : OnlyRegs s (s.collWritten dest got) fun r => ∃ g l, (g, l) ∈ s.members ∧ r = dest g l := by
  refine writes_only s Config.latColl _ (fun w hw => collWrites_good hdest got hw) _ fun w hw => .inr ?_
  obtain ⟨g, l, x, -, hm, rfl⟩ := mem_collWrites.mp hw
  exact ⟨g, l, hm, rfl⟩

end

/-- Settles O18: a collective word waits, and then writes what each thread has received. -/
theorem collectiveWords : Obligations.CollectiveWords := by
  unfold Obligations.CollectiveWords
  refine ⟨fun i s u hu hi => ?_, fun m s => ⟨fun hp => ?_, fun hp => ?_⟩⟩
  · rcases hi with hi | ⟨d, a, rfl⟩
    · obtain ⟨dest, hdest⟩ := Option.isSome_iff_exists.mp hi
      have hl := laneDest_of_collective hdest
      refine ⟨fun hp => by rw [exec_collective hdest, hp], fun got hp => ?_⟩
      refine ⟨s.collWritten dest got, by rw [exec_collective hdest, hp], fun d a e => ?_, fun dest' g l x he hm hth hgot huniq hx hv hd => ?_, ?_⟩
      · subst e
        cases hdest
      · obtain rfl : dest = dest' := Option.some.inj (hdest.symm.trans he)
        exact collWritten_lands hl got hu hm hth hgot huniq hd (collective_trim hdest hx hv g l)
      · have e : (fun r => ∃ g l, (g, l) ∈ s.members ∧ r = dest g l)
            = fun r => ∃ dest g l, collectiveDest i = some dest ∧ (g, l) ∈ s.members ∧ r = dest g l := by
          funext r
          simp [hdest]
        exact e ▸ collWritten_only hl got
    · refine ⟨fun hp => ?_, fun got hp => ⟨s, ?_, fun _ _ _ => rfl, fun dest g l x he => (nomatch he), onlyRegs_refl s _⟩⟩
      · change execBallot d a s = _
        rw [execBallot, hp]
      · change execBallot d a s = _
        rw [execBallot, hp]
  · change execWaitm m s = _
    rw [execWaitm, hp]
  · obtain ⟨got, hp⟩ := Option.isSome_iff_exists.mp hp
    change execWaitm m s = _
    rw [execWaitm, hp]

end Sys2Proof.Machine

/-! O16: results that are due (R49, R107, R130). -/

namespace Sys2Proof.Machine

/-! ## What the bookkeeping of an operation leaves -/

/-- A group without its completion flags. -/
def Group.noFlags (g : Group) : Group := { g with flags := [] }

/-- Two teams with the same registers and the same windows: the groups agree up to their completion flags. -/
structure Team.SameRegisters (u u' : Team) : Prop where
  windows : u'.windows = u.windows
  groups : ∀ g, (u'.group? g).map Group.noFlags = (u.group? g).map Group.noFlags

theorem Team.SameRegisters.refl (u : Team) : u.SameRegisters u := ⟨rfl, fun _ => rfl⟩

theorem Team.SameRegisters.trans {u v w : Team} (h : u.SameRegisters v) (h' : v.SameRegisters w) : u.SameRegisters w :=
  ⟨h'.windows.trans h.windows, fun g => (h'.groups g).trans (h.groups g)⟩

theorem Team.SameRegisters.thread {u u' : Team} (h : u.SameRegisters u') (g l : Nat) : u'.thread? g l = u.thread? g l := by
  have e : ∀ t : Team, t.thread? g l = ((t.group? g).map Group.noFlags).bind fun x => x.thread? l := fun t => by
    rw [Team.thread?, Option.bind_map]; rfl
  rw [e, e, h.groups]

theorem Team.SameRegisters.peek_v {u u' : Team} (h : u.SameRegisters u') (g l n : Nat) : u'.peek (.v g l n) = u.peek (.v g l n) := by
  rw [Team.peek, Team.peek, h.thread]

theorem Team.SameRegisters.peek_s {u u' : Team} (h : u.SameRegisters u') (g n : Nat) : u'.peek (.s g n) = u.peek (.s g n) := by
  have hg := h.groups g
  cases h1 : u.group? g with
  | none => simp_all [Team.peek]
  | some x =>
    cases h2 : u'.group? g with
    | none => simp_all
    | some y =>
      rw [h1, h2, Option.map_some, Option.map_some, Option.some.injEq] at hg
      have hs : y.noFlags.s = x.noFlags.s := by rw [hg]
      change y.s = x.s at hs
      simp [Team.peek, h1, h2, hs]

theorem Team.SameRegisters.isEmpty {u u' : Team} (h : u.SameRegisters u') (r : RegId) : u'.isEmpty r = u.isEmpty r := by
  rw [Team.isEmpty, Team.isEmpty, h.windows]

/-- Two states with the same memory and the same operations, whose teams have the same registers. -/
structure State.SameRegisters (s s' : State) : Prop where
  mem : s'.mem = s.mem
  ops : s'.ops = s.ops
  team : ∀ k u, s.team? k = some u → ∃ u', s'.team? k = some u' ∧ u.SameRegisters u'

theorem State.SameRegisters.refl (s : State) : s.SameRegisters s := ⟨rfl, rfl, fun _ u h => ⟨u, h, .refl u⟩⟩

theorem State.SameRegisters.trans {s s' s'' : State} (h : s.SameRegisters s') (h' : s'.SameRegisters s'') : s.SameRegisters s'' := by
  refine ⟨h'.mem.trans h.mem, h'.ops.trans h.ops, fun k u hu => ?_⟩
  obtain ⟨v, hv, huv⟩ := h.team k u hu
  obtain ⟨w, hw, hvw⟩ := h'.team k v hv
  exact ⟨w, hw, huv.trans hvw⟩

/-- States that differ neither in teams nor in memory nor in operations. -/
theorem State.SameRegisters.of_eq {s s' : State} (hm : s'.mem = s.mem) (ho : s'.ops = s.ops) (ht : s'.teams = s.teams) :
    s.SameRegisters s' :=
  ⟨hm, ho, fun k u h => ⟨u, by rw [State.team?, ht]; exact h, .refl u⟩⟩

theorem State.SameRegisters.foldl {α : Type} (f : State → α → State) (hf : ∀ (s : State) x, s.SameRegisters (f s x)) (xs : List α) (s : State) :
    s.SameRegisters (xs.foldl f s) := by
  induction xs generalizing s with
  | nil => exact .refl s
  | cons x xs ih => exact (hf s x).trans (ih _)

/-- A change of a team that keeps its registers. -/
theorem State.SameRegisters.modTeam (s : State) (k : Nat) (f : Team → Team) (hkey : ∀ t, (f t).key = t.key)
    (hf : ∀ t : Team, t.SameRegisters (f t)) : s.SameRegisters (s.modTeam k f) := by
  refine ⟨rfl, rfl, fun j u hu => ?_⟩
  by_cases h : j = k
  · subst h
    exact ⟨f u, by rw [State.team?_modTeam s j f hkey, hu]; rfl, hf u⟩
  · exact ⟨u, by rw [State.team?_modTeam_ne s f h hkey]; exact hu, .refl u⟩

/-! ## Completion flags (R25) -/

theorem Group.flagDec_gid (g : Group) (f : Nat) : (g.flagDec f).gid = g.gid := by
  unfold flagDec
  split <;> rfl

theorem Group.flagDec_noFlags (g : Group) (f : Nat) : (g.flagDec f).noFlags = g.noFlags := by
  unfold flagDec
  split <;> rfl

theorem flagDec_sameRegisters (t : Team) (g f : Nat) : t.SameRegisters (t.modGroup g fun x => x.flagDec f) := by
  refine ⟨rfl, fun j => ?_⟩
  by_cases h : j = g
  · subst h
    rw [Team.group?_modGroup t j (fun x => x.flagDec f) fun x => x.flagDec_gid f]
    cases t.group? j with
    | none => rfl
    | some x => simp [Group.flagDec_noFlags]
  · rw [Team.group?_modGroup_ne t (fun x => x.flagDec f) h fun x => x.flagDec_gid f]

theorem tokDone_sameRegisters (s : State) (k : Nat) : s.SameRegisters (s.tokDone k) := by
  unfold State.tokDone
  split
  · exact .refl s
  · next t _ =>
    split
    · exact (State.SameRegisters.modTeam s t.team (fun u => u.modGroup t.gid fun g => g.flagDec t.flag) (fun _ => rfl)
        fun u => flagDec_sameRegisters u t.gid t.flag).trans (.of_eq rfl rfl rfl)
    · exact .of_eq rfl rfl rfl

theorem toksDone_sameRegisters (s : State) (ks : List Nat) : s.SameRegisters (s.toksDone ks) :=
  .foldl State.tokDone tokDone_sameRegisters ks s

/-- What is left of a completed operation: nothing in flight, and the registers as they were. -/
theorem finishOp_done (s : State) (o : Op) : (s.dropOp o.key).SameRegisters (s.finishOp o) ∧ (s.finishOp o).op? o.key = none := by
  have h := toksDone_sameRegisters (s.dropOp o.key) o.toks
  refine ⟨h, ?_⟩
  change ((s.dropOp o.key).toksDone o.toks).ops.find? _ = none
  rw [h.ops, List.find?_eq_none]
  intro x hx
  have hne := (List.mem_filter.mp hx).2
  simpa using hne

/-! ## The register log (R307) -/

theorem privNoted_sameRegisters (s : State) (team : Nat) (gs : List Nat) : s.SameRegisters (s.privNoted team gs) := by
  unfold State.privNoted
  split
  · exact .refl s
  · next t _ =>
    have hnote : ∀ s' : State, s'.SameRegisters (if t.fork.any fun f => f.holding then
        { s'.newKey.2 with external := s'.newKey.2.external ++ (uniq gs).map fun g => (g, s'.newKey.1) } else s') := fun s' => by
      split
      · exact .of_eq rfl rfl rfl
      · exact .refl s'
    refine State.SameRegisters.trans ?_ (hnote _)
    split <;> exact .of_eq rfl rfl rfl

theorem putPriv_sameRegisters (s : State) (team : Nat) (sp : List Spot) (bs : List Byte) : s.SameRegisters (s.putPriv team sp bs) := by
  unfold State.putPriv
  refine State.SameRegisters.trans ?_ (privNoted_sameRegisters _ _ _)
  exact .modTeam s team _ (fun _ => rfl) fun _ => ⟨rfl, fun _ => rfl⟩

theorem spillLog_sameRegisters (s : State) (team g l first last : Nat) : s.SameRegisters (s.spillLog team g l first last) := by
  unfold State.spillLog
  split
  · exact .refl s
  · split
    · exact .refl s
    · refine .foldl _ (fun s n => ?_) _ s
      split
      · exact putPriv_sameRegisters _ _ _ _
      · exact .refl s

theorem failRoutine_sameRegisters (s : State) (team code : Nat) : s.SameRegisters (s.failRoutine team code) := by
  unfold State.failRoutine
  cases s.team? team with
  | none => exact .refl s
  | some t =>
    refine State.SameRegisters.modTeam s team _ (fun u => ?_) fun u => ?_
    · split <;> rfl
    · split
      · exact ⟨rfl, fun _ => rfl⟩
      · exact .refl u

theorem modLevel_sameRegisters (s : State) (team : Nat) (f : Level → Level) : s.SameRegisters (s.modLevel team f) := by
  refine State.SameRegisters.modTeam s team _ (fun u => ?_) fun u => ?_
  · split <;> rfl
  · split
    · exact ⟨rfl, fun _ => rfl⟩
    · exact .refl u

theorem logWrites_sameRegisters (s : State) (team : Nat) (ws : List (Nat × Nat × RegId)) : s.SameRegisters (s.logWrites team ws) := by
  unfold State.logWrites
  split
  · exact .refl s
  · split
    · exact .refl s
    · split
      · exact .refl s
      · dsimp only
        split
        · exact modLevel_sameRegisters s team _
        · have hspill : ∀ (f k : Nat × Nat → Nat) (ms : List (Nat × Nat)) (s : State),
              s.SameRegisters (ms.foldl (fun s m => s.spillLog team m.1 m.2 (f m) (k m)) s) := fun f k =>
            .foldl _ fun s m => spillLog_sameRegisters s team m.1 m.2 (f m) (k m)
          split
          · exact (modLevel_sameRegisters s team _).trans ((hspill _ _ _ _).trans (failRoutine_sameRegisters _ _ _))
          · exact (modLevel_sameRegisters s team _).trans (hspill _ _ _ _)

/-! ## The effects of a result -/

theorem foldl_team_key {α : Type} {f : Team → α → Team} (hf : ∀ t x, (f t x).key = t.key) (xs : List α) (t : Team) :
    (xs.foldl f t).key = t.key := by
  induction xs generalizing t with
  | nil => rfl
  | cons x xs ih => rw [List.foldl_cons, ih, hf]

/-- A full/empty producer leaves no empty mark on the registers it writes. -/
theorem foldl_fill_windows (ws : List (RegId × DWord)) (t : Team) {w : Window} (h : w ∈ (ws.foldl Team.fill t).windows) :
    w ∈ t.windows ∧ ∀ x ∈ ws, ¬ (w.reg = x.1 ∧ w.ready.isNone = true) := by
  induction ws generalizing t with
  | nil => exact ⟨h, fun _ h => nomatch h⟩
  | cons y ws ih =>
    obtain ⟨h1, h2⟩ := ih _ h
    obtain ⟨hw, hy⟩ := List.mem_filter.mp h1
    refine ⟨hw, fun x hx => ?_⟩
    rcases List.mem_cons.mp hx with rfl | hx
    · rintro ⟨h3, h4⟩
      simp [h3, h4] at hy
    · exact h2 x hx

theorem foldl_fill_isEmpty {ws : List (RegId × DWord)} {r : RegId} {x : DWord} (h : (r, x) ∈ ws) (t : Team) :
    (ws.foldl Team.fill t).isEmpty r = false := by
  rw [Team.isEmpty, List.any_eq_false]
  intro w hw
  have := (foldl_fill_windows ws t hw).2 _ h
  simpa using this

theorem peek_fill (t : Team) (w : RegId × DWord) (r : RegId) : (t.fill w).peek r = (t.poke w.1 w.2).peek r := Team.peek_windows _ _ _

theorem fill_shape (t : Team) {w : RegId × DWord} (hw : w.1.plain = true) : t.SameShape (t.fill w) := by
  obtain ⟨h1, h2, h3⟩ := Team.poke_shape t w.1 w.2 hw
  exact ⟨h1, h2, h3⟩

/-- A register that a list of producers does not name keeps its value. -/
theorem foldl_fill_other {ws : List (RegId × DWord)} (hp : ∀ w ∈ ws, w.1.plain = true) {r : RegId} (hr : ∀ w ∈ ws, w.1 ≠ r) (t : Team) :
    (ws.foldl Team.fill t).peek r = t.peek r := by
  induction ws generalizing t with
  | nil => rfl
  | cons w ws ih =>
    rw [List.foldl_cons, ih (fun x hx => hp x (List.mem_cons_of_mem w hx)) (fun x hx => hr x (List.mem_cons_of_mem w hx)), peek_fill,
      Team.peek_poke_of_ne t w.1 r w.2 (hp w List.mem_cons_self) (hr w List.mem_cons_self).symm]

/-- A register that a list of producers gives one value holds it. -/
theorem foldl_fill_self {ws : List (RegId × DWord)} (hp : ∀ w ∈ ws, w.1.plain = true) {r : RegId} {x : DWord} (hmem : (r, x) ∈ ws)
    (huniq : ∀ w ∈ ws, w.1 = r → w.2 = x) {t : Team} (ht : t.hasReg r = true) : (ws.foldl Team.fill t).peek r = r.trim x := by
  induction ws generalizing t with
  | nil => cases hmem
  | cons w ws ih =>
    have hp' : ∀ y ∈ ws, y.1.plain = true := fun y hy => hp y (List.mem_cons_of_mem w hy)
    have hu' : ∀ y ∈ ws, y.1 = r → y.2 = x := fun y hy => huniq y (List.mem_cons_of_mem w hy)
    by_cases hlater : (r, x) ∈ ws
    · exact ih hp' hlater hu' (by rw [(fill_shape t (hp w List.mem_cons_self)).hasReg, ht])
    · obtain rfl : (r, x) = w := (List.mem_cons.mp hmem).resolve_right hlater
      have hne : ∀ y ∈ ws, y.1 ≠ r := by
        rintro ⟨_, z⟩ hy rfl
        exact hlater (hu' _ hy rfl ▸ hy)
      rw [List.foldl_cons, foldl_fill_other hp' hne, peek_fill]
      exact Team.peek_poke_self t r x (hp _ List.mem_cons_self) ht

/-- Raising flags changes neither vector registers nor windows. -/
theorem orFlags_keeps (fs : List (Nat × Nat × Word)) (t : Team) :
    (t.orFlags fs).windows = t.windows ∧ ∀ g l n, (t.orFlags fs).peek (.v g l n) = t.peek (.v g l n) := by
  induction fs generalizing t with
  | nil => exact ⟨rfl, fun _ _ _ => rfl⟩
  | cons f fs ih =>
    have hstep : ∀ u : Team, u = (if f.2.2 = 0 then t else t.modThread f.1 f.2.1 fun x => { x with fpflags := x.fpflags ||| f.2.2 }) →
        u.windows = t.windows ∧ ∀ g l n, u.peek (.v g l n) = t.peek (.v g l n) := by
      rintro u rfl
      split
      · exact ⟨rfl, fun _ _ _ => rfl⟩
      · refine ⟨rfl, fun g l n => Team.peek_modThread t _ _ _ _ (fun _ => rfl) (fun _ _ _ => rfl) (fun _ _ _ => rfl) fun k h => ?_⟩
        cases h
    obtain ⟨h1, h2⟩ := ih (if f.2.2 = 0 then t else t.modThread f.1 f.2.1 fun x => { x with fpflags := x.fpflags ||| f.2.2 })
    obtain ⟨h3, h4⟩ := hstep _ rfl
    exact ⟨h1.trans h3, fun g l n => (h2 g l n).trans (h4 g l n)⟩

/-- A thread with flags raised (R130). -/
def Thread.raise (fl : Word) (x : Thread) : Thread := { x with fpflags := x.fpflags ||| fl }

theorem and_or_of_and {a b fl : Word} (h : a &&& fl = fl) : (a ||| b) &&& fl = fl := by
  rw [← h]
  ext i
  simp
  tauto

/-- A late effect that raises flags keeps those already raised, and raises its own. -/
theorem lateTsr_flags {w : Nat × Nat × Nat × Word} (hw : w.2.2.1 = orFlagsIndex) (t : Team) {g l : Nat} {x : Thread}
    (hx : t.thread? g l = some x) : ∃ x', (t.lateTsr w).thread? g l = some x' ∧ (∀ fl, x.fpflags &&& fl = fl → x'.fpflags &&& fl = fl)
      ∧ ((w.1, w.2.1) = (g, l) → x'.fpflags &&& w.2.2.2 = w.2.2.2) := by
  have e : t.lateTsr w = t.modThread w.1 w.2.1 (Thread.raise w.2.2.2) := by
    unfold Team.lateTsr
    simp only [if_pos hw]
    rfl
  rw [e]
  by_cases h : (g, l) = (w.1, w.2.1)
  · cases h
    refine ⟨x.raise w.2.2.2, by rw [Team.thread?_modThread t _ _ (Thread.raise w.2.2.2) fun _ => rfl, hx]; rfl, fun fl h => and_or_of_and h, fun _ => ?_⟩
    rw [Thread.raise, BitVec.or_comm]
    exact and_or_of_and BitVec.and_self
  · exact ⟨x, by rw [Team.thread?_modThread_ne t (Thread.raise w.2.2.2) h fun _ => rfl, hx], fun _ h => h, fun e => absurd e.symm h⟩

theorem foldl_lateTsr_flags {late : List (Nat × Nat × Nat × Word)} (hl : ∀ w ∈ late, w.2.2.1 = orFlagsIndex) (t : Team) {g l : Nat}
    {x : Thread} (hx : t.thread? g l = some x) : ∃ x', (late.foldl Team.lateTsr t).thread? g l = some x'
      ∧ (∀ fl, x.fpflags &&& fl = fl → x'.fpflags &&& fl = fl)
      ∧ ∀ fl, (g, l, orFlagsIndex, fl) ∈ late → x'.fpflags &&& fl = fl := by
  induction late generalizing t x with
  | nil => exact ⟨x, hx, fun _ h => h, fun _ h => nomatch h⟩
  | cons w late ih =>
    obtain ⟨y, hy, hkeep, hraise⟩ := lateTsr_flags (hl w List.mem_cons_self) t hx
    obtain ⟨x', hx', hkeep', hraise'⟩ := ih (fun v hv => hl v (List.mem_cons_of_mem w hv)) _ hy
    refine ⟨x', hx', fun fl h => hkeep' fl (hkeep fl h), fun fl h => ?_⟩
    rcases List.mem_cons.mp h with rfl | h
    · exact hkeep' fl (hraise rfl)
    · exact hraise' fl h

/-! ## RESULT_WRITEBACK -/

/-- What O16 says of the team whose operation has completed. -/
structure ResultWritten (o : Op) (u u' : Team) : Prop where
  vres : ∀ ws g l n x, o.what = .vres ws 0 → (u.thread? g l).isSome = true → (g, l, n, x) ∈ ws → (∀ y, (g, l, n, y) ∈ ws → y = x) →
    u'.peek (.v g l n) = x.setWidth 64 ∧ u'.isEmpty (.v g l n) = false
  sres : ∀ g n x, o.what = .sres g n x → n ≠ 0 → (u.group? g).isSome = true →
    u'.peek (.s g n) = x.setWidth 64 ∧ u'.isEmpty (.s g n) = false
  tsr : ∀ late g l x fl, o.what = .tsr late → (∀ w ∈ late, w.2.2.1 = orFlagsIndex) → (g, l, orFlagsIndex, fl) ∈ late →
    u.thread? g l = some x → ∃ x', u'.thread? g l = some x' ∧ x'.fpflags &&& fl = fl

theorem ResultWritten.of_same {o : Op} {u v v' : Team} (h : ResultWritten o u v) (e : v.SameRegisters v') : ResultWritten o u v' := by
  refine ⟨fun ws g l n x h1 h2 h3 h4 => ?_, fun g n x h1 h2 h3 => ?_, fun late g l x fl h1 h2 h3 h4 => ?_⟩
  · rw [e.peek_v, e.isEmpty]
    exact h.vres ws g l n x h1 h2 h3 h4
  · rw [e.peek_s, e.isEmpty]
    exact h.sres g n x h1 h2 h3
  · rw [e.thread]
    exact h.tsr late g l x fl h1 h2 h3 h4

/-- The registers of a vector result. -/
def vresWrites (ws : List (Nat × Nat × Nat × Word)) : List (RegId × DWord) := ws.map fun w => (.v w.1 w.2.1 w.2.2.1, w.2.2.2.setWidth 64)

theorem mem_vresWrites {ws : List (Nat × Nat × Nat × Word)} {w : RegId × DWord} :
    w ∈ vresWrites ws ↔ ∃ g l n x, (g, l, n, x) ∈ ws ∧ w = (.v g l n, x.setWidth 64) := by
  simp only [vresWrites, List.mem_map, Prod.exists]
  constructor <;> rintro ⟨g, l, n, x, h, rfl⟩ <;> exact ⟨g, l, n, x, h, rfl⟩

/-- The team with a vector result written. -/
def Team.vresWritten (t : Team) (ws : List (Nat × Nat × Nat × Word)) (fl : Word) : Team :=
  ((vresWrites ws).foldl Team.fill t).orFlags (ws.map fun w => (w.1, w.2.1, fl))

theorem vresWritten_key (t : Team) (ws : List (Nat × Nat × Nat × Word)) (fl : Word) : (t.vresWritten ws fl).key = t.key := by
  rw [Team.vresWritten, Team.orFlags, foldl_team_key fun t f => ?_, foldl_team_key (f := Team.fill) fun t w => Team.poke_key t _ _]
  split <;> rfl

theorem vresWritten_self {ws : List (Nat × Nat × Nat × Word)} {fl : Word} {u : Team} {g l n : Nat} {x : Word}
    (hu : (u.thread? g l).isSome = true) (hmem : (g, l, n, x) ∈ ws) (huniq : ∀ y, (g, l, n, y) ∈ ws → y = x) :
    (u.vresWritten ws fl).peek (.v g l n) = x.setWidth 64 ∧ (u.vresWritten ws fl).isEmpty (.v g l n) = false := by
  obtain ⟨hwin, hpeek⟩ := orFlags_keeps (ws.map fun w => (w.1, w.2.1, fl)) ((vresWrites ws).foldl Team.fill u)
  have hm : ((.v g l n, x.setWidth 64) : RegId × DWord) ∈ vresWrites ws := mem_vresWrites.mpr ⟨g, l, n, x, hmem, rfl⟩
  refine ⟨?_, ?_⟩
  · rw [Team.vresWritten, hpeek, foldl_fill_self (x := x.setWidth 64) (fun w hw => ?_) hm (fun w hw e => ?_) hu]
    · simp [RegId.trim]
    · obtain ⟨g', l', n', x', -, rfl⟩ := mem_vresWrites.mp hw
      rfl
    · obtain ⟨g', l', n', x', h, rfl⟩ := mem_vresWrites.mp hw
      obtain ⟨rfl, rfl, rfl⟩ := RegId.v.inj e
      rw [huniq x' h]
  · rw [Team.isEmpty, Team.vresWritten, hwin]
    exact foldl_fill_isEmpty hm u

/-- What the write of a result leaves. -/
theorem writeResult_written {s : State} {o : Op} {u : Team} (hu : s.team? o.team = some u) :
    ∃ u', (s.writeResult o).team? o.team = some u' ∧ (s.writeResult o).mem = s.mem ∧ ResultWritten o u u' := by
  cases hw : o.what
  case vres ws fl =>
    have e : s.writeResult o = s.modTeam o.team fun t => t.vresWritten ws fl := by
      simp only [State.writeResult, hw, Team.vresWritten, vresWrites, List.foldl_map]
    refine ⟨u.vresWritten ws fl, ?_, by rw [e]; rfl, ?_⟩
    · rw [e, State.team?_modTeam s o.team _ fun t => vresWritten_key t ws fl, hu]
      rfl
    · refine ⟨fun ws' g l n x h => ?_, fun g n x h => ?_, fun late g l x fl h => ?_⟩
      · cases hw.symm.trans h
        exact vresWritten_self
      all_goals cases hw.symm.trans h
  case sres g n x =>
    have e : s.writeResult o = s.modTeam o.team fun t => t.fill (.s g n, x.setWidth 64) := by simp only [State.writeResult, hw]
    refine ⟨u.fill (.s g n, x.setWidth 64), ?_, by rw [e]; rfl, ?_⟩
    · rw [e, State.team?_modTeam s o.team (fun t => t.fill (.s g n, x.setWidth 64)) fun t => Team.poke_key t _ _, hu]
      rfl
    · refine ⟨fun ws' g l n x h => ?_, fun g n x h hn hg => ?_, fun late g l x fl h => ?_⟩
      · cases hw.symm.trans h
      · cases hw.symm.trans h
        refine ⟨?_, foldl_fill_isEmpty (ws := [(.s g n, x.setWidth 64)]) (List.mem_singleton.mpr rfl) u⟩
        rw [peek_fill, Team.peek_poke_self u (.s g n) _ (by simpa [RegId.plain] using hn) hg]
        simp [RegId.trim]
      · cases hw.symm.trans h
  case tsr late =>
    have hl := logWrites_sameRegisters (s.modTeam o.team fun t => late.foldl Team.lateTsr t) o.team
      (late.map fun w => (w.1, w.2.1, RegId.t w.1 w.2.1 (if w.2.2.1 = orFlagsIndex then 6 else w.2.2.1)))
    have ht : (s.modTeam o.team fun t => late.foldl Team.lateTsr t).team? o.team = some (late.foldl Team.lateTsr u) := by
      rw [State.team?_modTeam s o.team (fun t => late.foldl Team.lateTsr t) fun t => foldl_team_key (f := Team.lateTsr)
        (fun _ _ => rfl) late t, hu]
      rfl
    obtain ⟨u', hu', hsame⟩ := hl.team o.team _ ht
    have e : s.writeResult o = (s.modTeam o.team fun t => late.foldl Team.lateTsr t).logWrites o.team
        (late.map fun w => (w.1, w.2.1, RegId.t w.1 w.2.1 (if w.2.2.1 = orFlagsIndex then 6 else w.2.2.1))) := by
      simp only [State.writeResult, hw]
    refine ⟨u', by rw [e]; exact hu', by rw [e, hl.mem]; rfl, ResultWritten.of_same ⟨fun ws g l n x h => ?_, fun g n x h => ?_,
      fun late' g l x fl h hall hmem hx => ?_⟩ hsame⟩
    · cases hw.symm.trans h
    · cases hw.symm.trans h
    · cases hw.symm.trans h
      obtain ⟨x', hx', -, hraise⟩ := foldl_lateTsr_flags hall u hx
      exact ⟨x', hx', hraise fl hmem⟩
  all_goals
    have e : s.writeResult o = s := by simp only [State.writeResult, hw]
    rw [e]
    exact ⟨u, hu, rfl, fun _ _ _ _ _ h => (nomatch hw.symm.trans h), fun _ _ _ h => (nomatch hw.symm.trans h),
      fun _ _ _ _ _ h => (nomatch hw.symm.trans h)⟩

/-- Settles O16: the result is written, and then the operation completes, which keeps the registers. -/
theorem resultsWritten : Obligations.ResultsWritten := by
  unfold Obligations.ResultsWritten
  intro s o u harg hop hres hdue hu
  obtain ⟨v, hv, hmem, hw⟩ := writeResult_written hu
  obtain ⟨hsame, hnone⟩ := finishOp_done (s.writeResult o) o
  obtain ⟨u', hu', huv⟩ := hsame.team o.team v hv
  have hexec : exec .resultWriteback s = .next ((s.writeResult o).finishOp o) := by
    change execResultWriteback s = _
    simp [execResultWriteback, harg, hop, hres, Op.due?, hdue]
  obtain ⟨h1, h2, h3⟩ := hw.of_same huv
  exact ⟨_, u', hexec, hu', hnone, hsame.mem.trans hmem, h1, h2, h3⟩

end Sys2Proof.Machine

/-! O21: a call whose spill waits for the move of a page does not raise `BADTARGET` (R154, R191). -/

namespace Sys2Proof.Machine

/-- A team of one thread that holds 8 entries on its return stack: the next call spills the oldest to its spill area (R113). -/
def fullStackTeam : Team :=
  (programTeam 0 0 0 4).modThread 0 0 fun x => { x with depth := 8, stack := List.replicate 8 0x24 }

/-- Its thread at a word at address 4, while the page of its spill area moves (R191). -/
def spillMovesState : State :=
  { State.reset with
    teams := [fullStackTeam], moves := [{ ctx := 0, va := 0, level := 3, dst := some 0, revoking := [] }],
    cur := { Issue.none with team := 2, squad := 3, members := [(0, 0)], pc := 4, next := 8, first := 4 } }

/-- Does a step leave the word at issue to be issued again? -/
def retries : Host.Outcome State Fault Refusal → Bool
  | .next s => s.cur.retry
  | _ => false

/-- The call to address 8, which no transfer may reach, waits for the move. -/
theorem retries_call : retries (exec (.call 1) spillMovesState) = true := by decide

/-- The trap is taken at once. -/
theorem not_retries_takeTraps : retries (.next (spillMovesState.takeTraps [(0, 0, cBadtarget, 8)])) = false := by decide

/-- Refutes O21: in `spillMovesState` the call to the forbidden address 8 waits for the move of the page its spill goes to (R191),
where the second clause says that it traps. -/
theorem not_branches : ¬ Obligations.Branches := by
  unfold Obligations.Branches
  rintro ⟨-, h⟩
  have hexec := h (.call 1) spillMovesState fullStackTeam fullStackTeam 0 0 8 rfl rfl (by decide) (by decide) (.inr (by decide))
  have hcall := retries_call
  rw [hexec, not_retries_takeTraps] at hcall
  cases hcall

end Sys2Proof.Machine

/-! O4 and O5: a step performs the event that is due, and else the decoded words of the squad that issues (R23, R32, R37, R44,
R150). -/

namespace Sys2Proof.Machine

/-- Settles O4: by the branches of `step` and `State.perform`. -/
theorem stepPerformsEvents : Obligations.StepPerformsEvents := by
  unfold Obligations.StepPerformsEvents
  refine ⟨fun s s1 e rest hev hexec => ?_, fun s hev hiss => ?_⟩
  · simp only [step, hev, State.perform, hexec]
  · simp only [step, hev, hiss, Bool.not_eq_true']
    cases s.part.supply <;> rfl

/-! ## The words of a unit -/

/-- A unit whose words decode and name no register beyond the kernel's is run as decoded. -/
theorem unitItems_eq {s : State} {t : Team} {us : List UnitWord} {is : List Instr}
    (hdec : us.map (fun u => (decodeWord u.word).toOption.map Prod.snd) = is.map some)
    (hok : ∀ i ∈ is, s.beyond t i = none ∧ illegalIn t.kind i = false) :
    s.unitItems t us = (us.zip is).map fun x => .run x.1 x.2 := by
  induction us generalizing is with
  | nil => rfl
  | cons u us ih =>
    cases is with
    | nil => cases hdec
    | cons i is =>
      obtain ⟨hu, hdec⟩ := List.cons.inj hdec
      obtain ⟨hbey, hill⟩ := hok i List.mem_cons_self
      have hus := ih hdec fun j hj => hok j (List.mem_cons_of_mem i hj)
      cases hd : decodeWord u.word with
      | error e => simp [hd, Except.toOption] at hu
      | ok x =>
        have hx : x.2 = i := by simpa [hd, Except.toOption] using hu
        have h1 : s.unitItems t (u :: us) = .run u i :: s.unitItems t us := by
          simp [State.unitItems, hd, hx, hill, hbey]
        rw [h1, hus]
        rfl

theorem instrsOf_run {us : List UnitWord} {is : List Instr} (h : us.length = is.length) :
    instrsOf ((us.zip is).map fun x => .run x.1 x.2) = is := by
  rw [instrsOf, List.filterMap_map]
  exact (List.filterMap_eq_map ▸ List.map_snd_zip (by omega) : (us.zip is).filterMap (fun x => some x.2) = is)

theorem badItem_run (l : List (UnitWord × Instr)) : badItem (l.map fun x => .run x.1 x.2) = none := by
  simp [badItem, List.filterMap_map]

/-- A unit of which no word is bad and no thread reads an empty register under ETRAP takes no trap. -/
theorem unitTraps_run {s : State} {t : Team} {q : Squad} {l : List (UnitWord × Instr)} {ms : List (Nat × Nat)}
    (hms : q.issuing (instrsOf (l.map fun x => .run x.1 x.2)) = ms)
    (h : ∀ x ∈ l, s.etrapOf t q.line x.1.pc = true → ∀ m ∈ ms, s.emptySource t x.2 ms m = none) :
    s.unitTraps t q (l.map fun x => .run x.1 x.2) = s := by
  have hhits : (l.flatMap fun x => if s.etrapOf t q.line x.1.pc then
      ms.filterMap fun m => (s.emptySource t x.2 ms m).map fun n => (x.1.word, m, n) else []) = [] := by
    rw [List.flatMap_eq_nil_iff]
    intro x hx
    split
    · next he =>
      rw [List.filterMap_eq_nil_iff]
      intro m hm
      rw [h x hx he m hm]
      rfl
    · rfl
  unfold State.unitTraps
  rw [badItem_run]
  simp only [hms, List.flatMap_map, hhits]
  rfl

/-- A fold that adds one element for each it passes. -/
theorem map_foldl_adds {α β γ σ : Type} {F : List β × σ → α → List β × σ} {f : β → γ} {g : α → γ}
    (hF : ∀ p x, ∃ w s, F p x = (p.1 ++ [w], s) ∧ f w = g x) (xs : List α) (s : σ) : (xs.foldl F ([], s)).1.map f = xs.map g := by
  have key : ∀ p : List β × σ, (xs.foldl F p).1.map f = p.1.map f ++ xs.map g := by
    induction xs with
    | nil => exact fun p => (List.append_nil _).symm
    | cons x xs ih =>
      intro p
      obtain ⟨w, s', hw, hf⟩ := hF p x
      rw [List.foldl_cons, ih, hw, List.map_append, List.map_singleton, hf, List.append_assoc]
      rfl
  exact key ([], s)

/-- What a word about to be performed says of itself and of the threads that issue it. -/
def Performed.says (w : Performed) : (DWord × Word × Word × Instr) × Nat × Nat × List (Nat × Nat) :=
  ((w.iss.pc, w.iss.word, w.iss.lit, w.instr), w.iss.team, w.iss.squad, w.iss.members)

theorem unitWords_says (s : State) (t : Team) (q : Squad) (ms : List (Nat × Nat)) (l : List (UnitWord × Instr)) :
    (s.unitWords t q ms (l.map fun x => .run x.1 x.2)).1.map Performed.says
      = l.map fun x => ((x.1.pc, x.1.word, x.1.lit, x.2), t.key, q.key, ms) := by
  unfold State.unitWords
  simp only [List.filterMap_map, Function.comp_def, Prod.mk.eta, List.filterMap_some]
  refine map_foldl_adds ?_ l s
  exact fun p x => ⟨_, _, rfl, rfl⟩

/-- What the words of an opened unit say. -/
theorem openUnit_says {s : State} {t : Team} {q : Squad} {l : List (UnitWord × Instr)} {ms : List (Nat × Nat)}
    (hms : q.issuing (instrsOf (l.map fun x => .run x.1 x.2)) = ms) :
    (s.openUnit t q (l.map fun x => .run x.1 x.2)).1.map Performed.says
      = l.map fun x => ((x.1.pc, x.1.word, x.1.lit, x.2), t.key, q.key, ms) := by
  unfold State.openUnit
  simp only [hms]
  rw [List.map_map]
  exact unitWords_says _ t q ms l

/-! ## Sub-squads (R150) -/

/-- The threads of a squad in one group. -/
def Squad.inGroup (q : Squad) (g : Nat) : List (Nat × Nat) := q.members.filter fun m => m.1 == g

theorem mem_uniq {α : Type} [BEq α] [LawfulBEq α] {x : α} {l : List α} (h : x ∈ uniq l) : x ∈ l := by
  have key : ∀ xs acc : List α, x ∈ xs.foldl (fun acc y => if acc.contains y then acc else acc ++ [y]) acc → x ∈ acc ∨ x ∈ xs := by
    intro xs
    induction xs with
    | nil => exact fun acc h => .inl h
    | cons y ys ih =>
      intro acc h
      rcases ih _ h with h | h
      · change x ∈ if acc.contains y then acc else acc ++ [y] at h
        split at h
        · exact .inl h
        · rcases List.mem_append.mp h with h | h
          · exact .inl h
          · exact .inr (List.mem_cons.mpr (.inl (List.mem_singleton.mp h)))
      · exact .inr (List.mem_cons_of_mem y h)
  exact (key l [] h).resolve_left (by simp)

theorem gidsOf_inGroup (q : Squad) (g : Nat) : (gidsOf (q.inGroup g)).length ≤ 1 := by
  have hall : ∀ x ∈ gidsOf (q.inGroup g), x = g := fun x hx => by
    obtain ⟨m, hm, rfl⟩ := List.mem_map.mp (mem_uniq hx)
    simpa using (List.mem_filter.mp hm).2
  have hn : (gidsOf (q.inGroup g)).Nodup := nodup_uniq _
  match hl : gidsOf (q.inGroup g) with
  | [] | [_] => simp
  | a :: b :: l =>
    rw [hl] at hall hn
    have hne : a ≠ b := fun e => (List.nodup_cons.mp hn).1 (e ▸ List.mem_cons_self)
    exact absurd ((hall a (by simp)).trans (hall b (by simp)).symm) hne

theorem squad?_modSquad (t : Team) (k : Nat) (f : Squad → Squad) (h : ∀ x, (f x).key = x.key) :
    (t.modSquad k f).squad? k = (t.squad? k).map f :=
  find?_updIf _ f t.squads fun x hx => by simpa [h x] using hx

/-- A squad with some key and threads stands in a team. -/
def State.Stands (s : State) (team sq : Nat) (ms : List (Nat × Nat)) : Prop :=
  ∃ t q, s.team? team = some t ∧ t.squad? sq = some q ∧ t.key = team ∧ q.key = sq ∧ q.members = ms

theorem stands_foldl {α : Type} {team sq : Nat} {ms : List (Nat × Nat)} {F : State → α → State}
    (hF : ∀ s x, State.Stands s team sq ms → State.Stands (F s x) team sq ms) (xs : List α) {s : State} (h : s.Stands team sq ms) :
    (xs.foldl F s).Stands team sq ms := by
  induction xs generalizing s with
  | nil => exact h
  | cons x xs ih => exact ih (hF s x h)

/-- A squad found stands on where squads are added behind it. -/
theorem stands_modTeam_append {s : State} {team sq : Nat} {ms : List (Nat × Nat)} (h : s.Stands team sq ms) (qs : List Squad) :
    (s.modTeam team fun t => { t with squads := t.squads ++ qs }).Stands team sq ms := by
  obtain ⟨t, q, ht, hq, htk, hqk, hm⟩ := h
  refine ⟨{ t with squads := t.squads ++ qs }, q, ?_, ?_, htk, hqk, hm⟩
  · rw [State.team?_modTeam s team (fun t => { t with squads := t.squads ++ qs }) fun _ => rfl, ht]
    rfl
  · change (t.squads ++ qs).find? _ = some q
    rw [List.find?_append]
    change (t.squad? sq).or _ = _
    rw [hq]
    rfl

theorem team?_modSquad {s : State} {t : Team} (ht : s.team? t.key = some t) (k : Nat) (f : Squad → Squad) :
    (s.modTeam t.key fun t => t.modSquad k f).team? t.key = some (t.modSquad k f) := by
  rw [State.team?_modTeam s t.key (fun t => t.modSquad k f) fun _ => rfl, ht]
  rfl

theorem stands_modSquad {s : State} {t : Team} {q : Squad} (ht : s.team? t.key = some t) (hq : t.squad? q.key = some q)
    (f : Squad → Squad) (hf : ∀ x, (f x).key = x.key) :
    (s.modTeam t.key fun t => t.modSquad q.key f).Stands t.key q.key (f q).members := by
  refine ⟨t.modSquad q.key f, f q, team?_modSquad ht q.key f, ?_, rfl, hf q, rfl⟩
  rw [squad?_modSquad t q.key f hf, hq]
  rfl

/-- The first sub-squad stands in the squad's place, with its threads of the lowest group. -/
theorem partSquad_stands {s : State} {t : Team} {q : Squad} (ht : s.team? t.key = some t) (hq : t.squad? q.key = some q)
    (hg : gidsOf q.members ≠ []) : (s.partSquad t q).Stands t.key q.key (q.inGroup ((gidsOf q.members).headD 0)) := by
  obtain ⟨g, gs, hgs⟩ := List.exists_cons_of_ne_nil hg
  unfold State.partSquad
  simp only [hgs]
  refine stands_foldl (fun s h hs => ?_) gs ?_
  · exact stands_modTeam_append (s := s.newKey.2) hs _
  · exact stands_modSquad (s := s.newKey.2) ht hq _ fun _ => rfl

/-! ## The beginning of a unit -/

theorem issuing_eq_inGroup {q : Squad} {is : List Instr} (h : q.issuesApart is = true) :
    q.issuing is = q.inGroup ((gidsOf q.members).headD 0) := if_pos h

/-- Threads of one group issue together. -/
theorem issuing_of_length {q : Squad} {is : List Instr} (h : (gidsOf q.members).length ≤ 1) : q.issuing is = q.members := by
  refine if_neg ?_
  simp [Squad.issuesApart, Nat.not_lt.mpr h]

theorem members_ne_nil_of_canIssue {s : State} {t : Team} {q : Squad} (h : s.canIssue t q = true) : q.members ≠ [] := by
  intro e
  simp [State.canIssue, State.squadFree, e] at h

theorem uniq_ne_nil {α : Type} [BEq α] [LawfulBEq α] {l : List α} (h : l ≠ []) : uniq l ≠ [] := by
  have key : ∀ xs acc : List α, acc ≠ [] → xs.foldl (fun acc y => if acc.contains y then acc else acc ++ [y]) acc ≠ [] := by
    intro xs
    induction xs with
    | nil => exact fun acc h => h
    | cons y ys ih =>
      intro acc h
      refine ih _ ?_
      change (if acc.contains y then acc else acc ++ [y]) ≠ []
      split
      · exact h
      · simp
  cases l with
  | nil => exact absurd rfl h
  | cons x l => exact key l [x] (by simp)

theorem gidsOf_ne_nil {ms : List (Nat × Nat)} (h : ms ≠ []) : gidsOf ms ≠ [] := uniq_ne_nil (by simpa using h)

theorem inGroup_head_ne_nil {q : Squad} (h : q.members ≠ []) : q.inGroup ((gidsOf q.members).headD 0) ≠ [] := by
  obtain ⟨g, gs, hgs⟩ := List.exists_cons_of_ne_nil (gidsOf_ne_nil h)
  have hg : g ∈ gidsOf q.members := hgs ▸ List.mem_cons_self
  obtain ⟨m, hm, rfl⟩ := List.mem_map.mp (mem_uniq hg)
  rw [hgs]
  exact List.ne_nil_of_mem (List.mem_filter.mpr ⟨hm, by simp⟩)

theorem issuing_ne_nil {q : Squad} (h : q.members ≠ []) (is : List Instr) : q.issuing is ≠ [] := by
  unfold Squad.issuing
  split
  · exact inGroup_head_ne_nil h
  · exact h

theorem issuing_subset {q : Squad} {is : List Instr} {m : Nat × Nat} (h : m ∈ q.issuing is) : m ∈ q.members := by
  unfold Squad.issuing at h
  split at h
  · exact (List.mem_filter.mp h).1
  · exact h

/-- The threads that issue a unit make a squad that issues it together. -/
theorem issuing_idem {q q' : Squad} {is : List Instr} (h : q'.members = q.issuing is) : q'.issuing is = q.issuing is := by
  cases ha : q.issuesApart is
  · have hm : q'.members = q.members := h.trans (if_neg (by simp [ha]))
    unfold Squad.issuing Squad.issuesApart
    rw [hm]
  · rw [issuing_eq_inGroup ha] at h ⊢
    rw [issuing_of_length (by rw [h]; exact gidsOf_inGroup q _), h]

/-- The words of a unit that begins say what was decoded, for the threads that issue it. -/
theorem beginUnit_says {s : State} {t : Team} {q : Squad} {us : List UnitWord} {is : List Instr}
    (ht : s.team? t.key = some t) (hq : t.squad? q.key = some q) (hbegun : t.begun q = true) (hpark : s.parksHere t q q.line = false)
    (hne : q.members ≠ [])
    (hitems : s.unitItems t (issueUnit t.kind (t.squadPc q) q.line) = (us.zip is).map fun x => .run x.1 x.2)
    (his : instrsOf ((us.zip is).map fun x => .run x.1 x.2) = is)
    (htraps : s.unitTraps t q ((us.zip is).map fun x => .run x.1 x.2) = s) :
    (s.beginUnit t.key q.key).1.map Performed.says
      = (us.zip is).map fun x => ((x.1.pc, x.1.word, x.1.lit, x.2), t.key, q.key, q.issuing is) := by
  have hany : q.members.any (q.issuing is).contains = true := by
    obtain ⟨m, l, hm⟩ := List.exists_cons_of_ne_nil (issuing_ne_nil hne is)
    have hmem : m ∈ q.issuing is := hm ▸ List.mem_cons_self
    exact List.any_eq_true.mpr ⟨m, issuing_subset hmem, List.contains_iff_mem.mpr hmem⟩
  have hstands : (if q.issuesApart is then s.partSquad t q else s).Stands t.key q.key (q.issuing is) := by
    split
    · next ha => exact issuing_eq_inGroup ha ▸ partSquad_stands ht hq (gidsOf_ne_nil hne)
    · next ha => exact ⟨t, q, ht, hq, rfl, rfl, (if_neg ha).symm⟩
  unfold State.beginUnit
  simp only [ht, hq, hbegun, hpark, hitems, his, htraps, badItem_run, hany, Option.bind_some, Bool.not_true, Bool.or_false,
    Bool.false_eq_true, if_false, Option.isNone_none, Bool.true_and, Bool.and_true]
  generalize (if q.issuesApart is then s.partSquad t q else s) = s1 at hstands ⊢
  obtain ⟨t1, q1, ht1, hq1, htk, hqk, hm1⟩ := hstands
  have hall : (q1.members.filter (q.issuing is).contains).isEmpty = false := by
    rw [hm1, List.filter_eq_self.mpr fun m hm => List.contains_iff_mem.mpr hm]
    simpa using issuing_ne_nil hne is
  simp only [ht1, hq1, hall, Bool.false_eq_true, if_false]
  rw [openUnit_says (ms := q.issuing is) (by rw [his]; exact issuing_idem hm1), htk, hqk]

/-! ## A unit of one word -/

/-- A unit of one word that is performed and undoes nothing. -/
theorem performUnit_singleton {s0 s1 : State} {w : Performed} (hexec : exec w.instr (s0.forWord w.iss) = .next s1)
    (hretry : s1.cur.retry = false) (hwhole : s1.cur.whole = []) :
    performUnit 64 s0 [w] = .next { s1.afterWord w.instr with
      cur := { (s1.afterWord w.instr).cur with gone := s1.cur.gone, parted := s0.cur.parted || s1.cur.parted } } := by
  have hiss : ({ w.iss with members := w.iss.members.filter fun m => !([] : List (Nat × Nat)).contains m } : Issue) = w.iss := by
    have : w.iss.members.filter (fun m => !([] : List (Nat × Nat)).contains m) = w.iss.members :=
      List.filter_eq_self.mpr fun _ _ => rfl
    rw [this]
  unfold performUnit
  simp only [List.map_cons, List.map_nil, List.headD_cons, runWords, hiss, hexec, hretry, hwhole, List.isEmpty_nil, Bool.not_true,
    Bool.false_eq_true, if_false, Bool.not_false, if_true, Leaving.after, List.nil_append]

/-- Settles O5: the unit's words are those decoded, and a unit of one word is its meaning. -/
theorem stepRunsDecoded : Obligations.StepRunsDecoded := by
  unfold Obligations.StepRunsDecoded
  intro s t q us is hev hsup hiss ht hq hbegun hus hdec hok hpark hempty
  have hlen : us.length = is.length := by simpa using congrArg List.length hdec
  have hcan : s.canIssue t q = true := by
    have := List.find?_some hiss
    simpa only [ht, hq] using this
  have hitems : s.unitItems t (issueUnit t.kind (t.squadPc q) q.line) = (us.zip is).map fun x => .run x.1 x.2 :=
    hus ▸ unitItems_eq hdec hok
  have his := instrsOf_run hlen
  have htraps : s.unitTraps t q ((us.zip is).map fun x => .run x.1 x.2) = s :=
    unitTraps_run (by rw [his]) fun x hx he m hm => by
      obtain ⟨hx1, hx2⟩ := List.of_mem_zip hx
      exact hempty x.1 hx1 he x.2 hx2 m hm
  have hsays := beginUnit_says ht hq hbegun hpark (members_ne_nil_of_canIssue hcan) hitems his htraps
  have hstep : step s = s.issueWords t.key q.key := by
    have hready : s.wordsReady t.key q.key = true := by simp [State.wordsReady, ht, hq, hbegun, hcan, hpark]
    simp [step, hev, hsup, hiss, State.issue, hready]
  generalize hb : s.beginUnit t.key q.key = b at hsays
  refine ⟨b.1, b.2, rfl, ?_, fun w hw => ?_, hstep, fun w s1 hws hexec hretry hwhole => ?_⟩
  · have := congrArg (List.map Prod.fst) hsays
    rw [List.map_map, List.map_map] at this
    exact this
  · have hmem : w.says ∈ b.1.map Performed.says := List.mem_map_of_mem hw
    rw [hsays] at hmem
    obtain ⟨x, -, hx⟩ := List.mem_map.mp hmem
    have howner : (t.key, q.key, q.issuing is) = (w.iss.team, w.iss.squad, w.iss.members) := congrArg Prod.snd hx
    simp only [Prod.mk.injEq] at howner
    obtain ⟨h2, h3, h4⟩ := howner
    exact ⟨h2.symm, h3.symm, h4.symm⟩
  · rw [hstep, State.issueWords, hb]
    simp only [hws, performUnit_singleton hexec hretry hwhole]

end Sys2Proof.Machine

/-! O6: a squad at a new packet fetches it and begins it (R21, R27, R34). -/

namespace Sys2Proof.Machine

/-- Where the core holds none of a packet's words, the fetch finds those of memory. -/
theorem fetched_of_heldWord_none {s : State} {t : Team} {pc : DWord} {pa : Nat} (hk : t.kind = .dcore)
    (hheld : ∀ va, s.heldWord t va = none) :
    s.fetched t pc pa = (List.range 4).map fun n => BitVec.ofNat 32 (memNat (pa + 4 * n) 4 s.mem) := by
  unfold State.fetched
  rw [hk]
  have hnone : ((List.range (fetchBytes .dcore / 4)).map fun i => s.heldWord t (fetchVa .dcore pc + 4 * i)).all
      (fun h => h.isSome) = false := by
    simp [hheld, fetchBytes]
  simp only [hnone, Bool.false_eq_true, if_false]
  rfl

theorem fillTlb_keeps (s : State) (core ctx va : Nat) (p : Page) :
    (s.fillTlb core ctx va p).teams = s.teams ∧ (s.fillTlb core ctx va p).mem = s.mem ∧ (s.fillTlb core ctx va p).now = s.now := by
  unfold State.fillTlb
  generalize laneTlbs core = us
  induction us generalizing s with
  | nil => exact ⟨rfl, rfl, rfl⟩
  | cons u us ih => exact ih (s.putTlb u ctx va p)

/-- What the beginning of a packet leaves. -/
theorem beginPacket_squad {s : State} {t : Team} {q : Squad} (p : Page) (line : List Word) (ht : s.team? t.key = some t)
    (hq : t.squad? q.key = some q) : ∃ u x, (s.beginPacket t q p line).team? t.key = some u ∧ u.squad? q.key = some x
      ∧ x.line = line ∧ x.packet = some (packetOf t.kind (t.squadPc q)) ∧ x.t0 = s.now ∧ (s.beginPacket t q p line).mem = s.mem := by
  let s0 := (s.fillFetch t (t.squadPc q) p (line.take (fetchBytes t.kind / 4))).countPacket t.key (gidsOf q.members)
  obtain ⟨hteams, hmem, hnow⟩ : s0.teams = s.teams ∧ s0.mem = s.mem ∧ s0.now = s.now :=
    fillTlb_keeps { s with icache := _ } t.core t.ctx (fetchVa t.kind (t.squadPc q)) p
  have ht0 : s0.team? t.key = some t := by rw [State.team?, hteams]; exact ht
  let start : Squad → Squad := fun y => { y with packet := some (packetOf t.kind (t.squadPc q)), line := line, t0 := s0.now }
  refine ⟨t.modSquad q.key start, start q, team?_modSquad ht0 q.key start, ?_, rfl, rfl, hnow, hmem⟩
  rw [squad?_modSquad t q.key start fun _ => rfl, hq]
  rfl

/-- Settles O6: by the branches of `execPacketIssue`. -/
theorem packetFetched : Obligations.PacketFetched := by
  unfold Obligations.PacketFetched
  intro s t q p pa harg ht hq hk hbegun hcan hfetch hheld hpacket hpark
  refine ⟨fetched_of_heldWord_none hk hheld, ?_⟩
  obtain ⟨u, x, hu, hx, hline, hpack, ht0, hmem⟩ := beginPacket_squad p (s.fetched t (t.squadPc q) pa) ht hq
  refine ⟨_, u, x, ?_, hu, hx, hline, hpack, ht0, hmem⟩
  have hfl : s.fetchLine t (t.squadPc q) = .ok (p, s.fetched t (t.squadPc q) pa) := by
    unfold State.fetchLine
    rw [hfetch]
    simp only [hk]
  change execPacketIssue s = _
  unfold execPacketIssue
  simp only [harg, ht, hq, hcan, hbegun, hfl, hpacket, hpark, hk, Bool.not_true, Bool.false_eq_true, if_false, if_true, BEq.rfl]

end Sys2Proof.Machine

/-! O45: NOP, EQPT, MIGRATE and KLAUNCH (R33, R340, R341, R364). -/

namespace Sys2Proof.Machine

/-! ## Chunks that end and open (R221) -/

/-- Two states that differ in chunks and in keys only. -/
def ChunksOnly (s s' : State) : Prop := ∃ ls k, s' = { s with lams := ls, keys := k }

theorem ChunksOnly.refl (s : State) : ChunksOnly s s := ⟨_, _, rfl⟩

theorem ChunksOnly.trans {s s' s'' : State} (h : ChunksOnly s s') (h' : ChunksOnly s' s'') : ChunksOnly s s'' := by
  obtain ⟨ls, k, rfl⟩ := h
  obtain ⟨ls', k', rfl⟩ := h'
  exact ⟨ls', k', rfl⟩

theorem withChunk_chunksOnly (s : State) (team g : Nat) : ChunksOnly s (s.withChunk team g) := by
  unfold State.withChunk
  split
  · exact .refl s
  · split
    · split
      · exact ⟨_, _, rfl⟩
      · exact .refl s
    · exact .refl s

theorem endChunk_chunksOnly (s : State) (team g : Nat) : ChunksOnly s (s.endChunk team g) := by
  unfold State.endChunk
  split
  · exact .refl s
  · split <;> exact ⟨_, _, rfl⟩

theorem turned_chunksOnly (s : State) : ChunksOnly s s.turned := by
  have key : ∀ (gs : List Nat) (s' : State), ChunksOnly s' (gs.foldl (fun s g => s.turnChunk s.cur.team g) s') := by
    intro gs
    induction gs with
    | nil => exact .refl
    | cons g gs ih =>
      intro s'
      exact ((endChunk_chunksOnly s' _ g).trans (withChunk_chunksOnly _ _ g)).trans (ih _)
  exact key _ s

theorem openChunk?_of_groupChunks {s : State} {team g : Nat} (h : s.groupChunks team g = []) : s.openChunk? team g = none := by
  refine List.find?_eq_none.mpr fun l hl hc => ?_
  have hno := List.filter_eq_nil_iff.mp h l hl
  simp only [Bool.and_eq_true] at hc hno
  exact hno hc.1

/-- Where no chunk and no store holds it back, an effect that a squash could not undo is performed. -/
theorem endingEffect_of_unchunked {s : State} (h : s.Unchunked) (k : State → State) : s.endingEffect k = k s.turned := by
  have hstores : (s.curGids.any fun g => s.storesPending s.cur.team g) = false := by
    rw [List.any_eq_false]
    intro g hg
    simp [h.stores g hg]
  have hnone : ∀ p : Nat → Bool, (∀ g ∈ s.curGids, p g = false) → s.curGids.filter p = [] := fun p hp =>
    List.filter_eq_nil_iff.mpr fun g hg => by simp [hp g hg]
  have hwait : (s.curGids.any fun g => (s.groupChunks s.cur.team g).any fun l => l.st == .requested && l.squashable) = false := by
    rw [List.any_eq_false]
    intro g hg
    simp [h.chunks g hg]
  unfold State.endingEffect State.turned
  rw [hnone]
  · simp only [hstores, hwait, Bool.and_false, Bool.false_eq_true, if_false, Bool.or_false, List.isEmpty_nil, Bool.not_true]
  · intro g hg
    rw [openChunk?_of_groupChunks (h.chunks g hg)]

/-! ## EQPT (R340, R347) -/

theorem thread?_mapThreads (g : Group) (ms : List (Nat × Nat)) (f : Thread → Thread) (hf : ∀ x, (f x).lane = x.lane) (l : Nat) :
    ({ g with threads := g.threads.map fun x => if ms.contains (g.gid, x.lane) then f x else x } : Group).thread? l
      = if (g.gid, l) ∈ ms then (g.thread? l).map f else g.thread? l := by
  have hlane : ∀ x : Thread, (if ms.contains (g.gid, x.lane) then f x else x).lane = x.lane := fun x => by
    split
    · exact hf x
    · rfl
  unfold Group.thread?
  simp only [List.find?_map, Function.comp_def, hlane]
  cases h : g.threads.find? fun x => x.lane == l with
  | none => simp
  | some x =>
    have hx : x.lane = l := by simpa using List.find?_some h
    by_cases hm : (g.gid, l) ∈ ms <;> simp [hx, hm]

/-- A change of some threads of a team. -/
theorem thread?_modThreads (t : Team) (ms : List (Nat × Nat)) (f : Thread → Thread) (hf : ∀ x, (f x).lane = x.lane) (g l : Nat) :
    (t.modThreads ms fun _ => f).thread? g l = if (g, l) ∈ ms then (t.thread? g l).map f else t.thread? g l := by
  let change_ : Group → Group := fun x => if ms.any fun m => m.1 == x.gid then
    { x with threads := x.threads.map fun y => if ms.contains (x.gid, y.lane) then f y else y } else x
  have hgid : ∀ x, (change_ x).gid = x.gid := fun x => by
    simp only [change_]
    split <;> rfl
  have hgroup : (t.modThreads ms fun _ => f).group? g = (t.group? g).map change_ := by
    change (t.groups.map change_).find? _ = _
    simp only [List.find?_map, Function.comp_def, hgid]
    rfl
  unfold Team.thread?
  rw [hgroup]
  cases hg : t.group? g with
  | none => simp
  | some x =>
    obtain rfl : x.gid = g := group?_gid hg
    simp only [Option.map_some, Option.bind_some, change_]
    by_cases hany : (ms.any fun m => m.1 == x.gid) = true
    · rw [if_pos hany]
      exact thread?_mapThreads x ms f hf l
    · have hm : (x.gid, l) ∉ ms := fun hm => hany (List.any_eq_true.mpr ⟨_, hm, by simp⟩)
      rw [if_neg hany, if_neg hm]

theorem team?_key {s : State} {k : Nat} {t : Team} (h : s.team? k = some t) : t.key = k := by
  simpa using List.find?_some h

/-- The team of the word at issue changed, found by its own key. -/
theorem team?_modCur {s : State} {t : Team} (ht : s.curTeam = some t) (f : Team → Team) (hf : ∀ u, (f u).key = u.key) :
    (s.modTeam t.key f).team? s.cur.team = some (f t) := by
  have hk : t.key = s.cur.team := team?_key ht
  rw [hk, State.team?_modTeam s s.cur.team f hf]
  change s.curTeam.map f = _
  rw [ht]
  rfl

/-- `EQPT` in the L-stream. -/
theorem eqpt_lcore {s : State} {t : Team} (ht : s.curTeam = some t) (hk : t.kind = .lcore) (i : BitVec 16) :
    ∃ s', exec (.eqpt i) s = .next s' ∧ OnlyTeams s s' ∧ TeamIs s' s.cur.team fun u =>
      u.squads = t.squads ∧ (∀ m ∈ s.members, ∀ x, t.thread? m.1 m.2 = some x → u.thread? m.1 m.2 = some { x with point := some i.toNat })
        ∧ ∀ h l, (h, l) ∉ s.members → u.thread? h l = t.thread? h l := by
  let pass : Thread → Thread := fun x => { x with point := some i.toNat }
  refine ⟨s.modTeam t.key fun u => u.modThreads s.members fun _ => pass, ?_, rfl, t.modThreads s.members fun _ => pass, ?_, rfl,
    fun m hm x hx => ?_, fun h l hm => ?_⟩
  · change execEqpt i s = _
    unfold execEqpt
    simp only [ht, hk]
    rfl
  · exact team?_modCur ht (fun u => u.modThreads s.members fun _ => pass) fun _ => rfl
  · rw [thread?_modThreads t s.members pass (fun _ => rfl), if_pos hm, hx]
    rfl
  · rw [thread?_modThreads t s.members pass (fun _ => rfl), if_neg hm]

/-! ## MIGRATE (R341, R342) -/

/-- Two states with the same teams and the same memory. -/
def SameTeams (s s' : State) : Prop := s'.teams = s.teams ∧ s'.mem = s.mem

theorem SameTeams.trans {s s' s'' : State} (h : SameTeams s s') (h' : SameTeams s' s'') : SameTeams s s'' :=
  ⟨h'.1.trans h.1, h'.2.trans h.2⟩

theorem noteRecord_sameTeams (s : State) (cn : Nat) (r : Record) (b : Option Blocked) : SameTeams s (s.noteRecord cn r b).2 := by
  unfold State.noteRecord
  split <;> exact ⟨rfl, rfl⟩

/-- Records change no team and no byte. -/
theorem putRecords_sameTeams (s : State) (cn : Nat) (rs : List (Record × Option Blocked)) : SameTeams s (s.putRecords cn rs) := by
  have hfold : ∀ (rs : List (Record × Option Blocked)) (a : List (Record × Option Nat) × State),
      SameTeams a.2 (rs.foldl (fun (a : List (Record × Option Nat) × State) p =>
        (a.1 ++ [(a.2.noteRecord cn p.1 p.2).1], (a.2.noteRecord cn p.1 p.2).2)) a).2 := by
    intro rs
    induction rs with
    | nil => exact fun a => ⟨rfl, rfl⟩
    | cons p rs ih => exact fun a => (noteRecord_sameTeams a.2 cn p.1 p.2).trans (ih _)
  unfold State.putRecords
  split
  · exact ⟨rfl, rfl⟩
  · split
    · exact ⟨rfl, rfl⟩
    · refine (hfold rs ([], s)).trans ?_
      dsimp only
      split <;> exact ⟨rfl, rfl⟩

/-- The kind of core that `MIGRATE` asks for. -/
def migrateTarget (t : Team) (k : BitVec 2) : Kind := if k = 0 then .lcore else if k = 1 then .dcore else otherKind t.kind

theorem migrateTarget_eq (t : Team) (k : BitVec 2) :
    (if k.toNat = 0 then Kind.lcore else if k.toNat = 1 then .dcore else otherKind t.kind) = migrateTarget t k := by
  have h0 : (k.toNat = 0) = (k = 0) := propext ⟨fun h => BitVec.eq_of_toNat_eq h, fun h => by rw [h]; rfl⟩
  have h1 : (k.toNat = 1) = (k = 1) := propext ⟨fun h => BitVec.eq_of_toNat_eq h, fun h => by rw [h]; rfl⟩
  simp only [h0, h1, migrateTarget]

section
variable {s : State} {t : Team} (g : Nat) (ht : s.team? t.key = some t) (k : BitVec 2)
include ht

/-- A request towards the team's own kind, or beside another, has no effect. -/
theorem migrateGroup_of_idle (h : migrateTarget t k = t.kind ∨ t.migr ≠ none) : s.migrateGroup t.key g k.toNat = s := by
  unfold State.migrateGroup
  simp only [ht, migrateTarget_eq]
  refine if_pos ?_
  rcases h with h | h
  · simp [h]
  · simp [Option.isSome_iff_ne_none.mpr h]

variable (hne : migrateTarget t k ≠ t.kind) (hm : t.migr = none)
include hne hm

/-- A request that can be met is noted. -/
theorem migrateGroup_of_met (h : s.requestRefusal t (migrateTarget t k) = none) :
    s.migrateGroup t.key g k.toNat = s.modTeam t.key fun u => { u with
      migr := some (Migr.mk (migrateTarget t k) s.now g (laneMask (s.lanesOf g)) s.cur.word.toNat (s.migratePcs u g)) } := by
  unfold State.migrateGroup
  simp only [ht, migrateTarget_eq, h, hm]
  rw [if_neg (by simpa using hne)]

/-- A request that cannot be met changes no team. -/
theorem migrateGroup_of_refused {c : Nat} (h : s.requestRefusal t (migrateTarget t k) = some c) :
    SameTeams s (s.migrateGroup t.key g k.toNat) := by
  unfold State.migrateGroup
  simp only [ht, migrateTarget_eq, h, hm]
  rw [if_neg (by simpa using hne)]
  split
  · exact ⟨rfl, rfl⟩
  · exact putRecords_sameTeams _ _ _

end

/-- `MIGRATE` with the feature, outside blocks and rivals. -/
theorem exec_migrate {s : State} {t : Team} {g : Nat} (h : s.InGroup t g) (hf : s.feature 3 = true) (hl : t.levels = [])
    (hp : t.parent = none) (k : BitVec 2) : exec (.migrate k) s = .next (s.turned.migrateGroup t.key g k.toNat) := by
  obtain ⟨ls, n, hs⟩ := turned_chunksOnly s
  have hgids : s.turned.curGids = [g] := by rw [hs]; exact h.gids
  change execMigrate k s = _
  unfold execMigrate State.outsideOnly
  simp only [h.writes, hf, hl, hp, endingEffect_of_unchunked h.free, hgids, List.foldl_cons, List.foldl_nil, Bool.not_true,
    Bool.false_eq_true, if_false, List.isEmpty_nil, Option.isSome_none]

/-- What O45 says of `NOP`, `EQPT` and `MIGRATE`. -/
theorem placementWords_group {s : State} {t : Team} {g : Nat} (h : s.InGroup t g) :
    exec .nop s = .next s
    ∧ (∀ i : BitVec 16, (t.kind = .dcore → exec (.eqpt i) s = .next (s.trapAll cIllop 0))
      ∧ (t.kind = .lcore → ∃ s', exec (.eqpt i) s = .next s' ∧ OnlyTeams s s' ∧ TeamIs s' s.cur.team fun u =>
          u.squads = t.squads ∧ (∀ m ∈ s.members, ∀ x, t.thread? m.1 m.2 = some x → u.thread? m.1 m.2 = some { x with point := some i.toNat })
            ∧ ∀ h l, (h, l) ∉ s.members → u.thread? h l = t.thread? h l))
    ∧ ∀ k : BitVec 2,
      (s.feature 3 = false → exec (.migrate k) s = .next s)
      ∧ (s.feature 3 = true → t.levels ≠ [] → exec (.migrate k) s = .next (s.failRoutine t.key 11))
      ∧ (s.feature 3 = true → t.levels = [] → t.parent = none →
        (migrateTarget t k = t.kind ∨ t.migr ≠ none → ∃ s', exec (.migrate k) s = .next s' ∧ s'.mem = s.mem ∧ s'.teams = s.teams)
        ∧ (migrateTarget t k ≠ t.kind → t.migr = none → s.turned.requestRefusal t (migrateTarget t k) = none →
          ∃ s', exec (.migrate k) s = .next s' ∧ s'.mem = s.mem
            ∧ TeamIs s' s.cur.team fun u => u = { t with migr := some (Migr.mk (migrateTarget t k) s.now g (laneMask (s.lanesOf g))
              s.cur.word.toNat (s.migratePcs t g)) })
        ∧ ∀ code, migrateTarget t k ≠ t.kind → t.migr = none → s.turned.requestRefusal t (migrateTarget t k) = some code →
          ∃ s', exec (.migrate k) s = .next s' ∧ TeamIs s' s.cur.team fun u => u = t) := by
  have hkey : t.key = s.cur.team := team?_key h.writes
  have hteam : s.team? t.key = some t := hkey ▸ h.writes
  refine ⟨rfl, fun i => ⟨fun hk => ?_, fun hk => eqpt_lcore h.writes hk i⟩, fun k => ⟨fun hf => ?_, fun hf hl => ?_, fun hf hl hp => ?_⟩⟩
  · change execEqpt i s = _
    unfold execEqpt
    simp only [h.writes, hk]
  · change execMigrate k s = _
    unfold execMigrate
    simp only [h.writes, hf]
    rfl
  · change execMigrate k s = _
    unfold execMigrate State.outsideOnly
    simp only [h.writes, hf]
    rw [if_neg (by simp), if_pos (by simpa using hl)]
  · rw [exec_migrate h hf hl hp]
    obtain ⟨ls, n, hs⟩ := turned_chunksOnly s
    have ht : s.turned.team? t.key = some t := by rw [hs]; exact hteam
    refine ⟨fun hidle => ⟨_, rfl, ?_⟩, fun hne hm hr => ⟨_, rfl, ?_⟩, fun c hne hm hr => ⟨_, rfl, t, ?_, rfl⟩⟩
    · rw [migrateGroup_of_idle g ht k hidle, hs]
      exact ⟨rfl, rfl⟩
    · rw [migrateGroup_of_met g ht k hne hm hr, hs]
      refine ⟨rfl, _, ?_, rfl⟩
      exact team?_modCur (s := { s with lams := ls, keys := n }) h.writes _ fun _ => rfl
    · have hst := migrateGroup_of_refused g ht k hne hm hr
      rw [State.team?, hst.1, hs]
      exact h.writes

end Sys2Proof.Machine

/-! O45: KLAUNCH (R364, R365). -/

namespace Sys2Proof.Machine

/-! ## What a squad's wait leaves -/

/-- The team whose squad waits keeps its staging and its outbox. -/
theorem waitOn_keeps (s : State) (on : WaitOn) : (s.waitOn on).mem = s.mem ∧ (s.waitOn on).ops = s.ops
    ∧ ∀ u, s.curTeam = some u → ∃ u', (s.waitOn on).team? s.cur.team = some u' ∧ u'.staged = u.staged ∧ u'.outbox = u.outbox
      ∧ ∀ q, u.squad? s.cur.squad = some q → ∃ q' w, u'.squad? s.cur.squad = some q' ∧ q'.wait = some w ∧ w.on = on := by
  let note : Squad → Squad := fun q => { q with
    wait := some { on := on, since := q.waitsSince s.cur.pc s.now, iss := { s.cur with retry := true }, got := [] } }
  refine ⟨rfl, rfl, fun u hu => ?_⟩
  let back : Team → Team := fun t => t.modThreads s.members fun _ x => { x with pc := s.cur.first }
  have h1 : (s.modTeam s.cur.team back).team? s.cur.team = some (back u) := by
    rw [State.team?_modTeam s s.cur.team back fun _ => rfl]
    exact congrArg (Option.map back) hu
  have h2 : (s.waitOn on).team? s.cur.team = some ((back u).modSquad s.cur.squad note) := by
    refine (State.team?_modTeam { s.modTeam s.cur.team back with cur := { s.cur with retry := true } } s.cur.team
      (fun t => t.modSquad s.cur.squad note) fun _ => rfl).trans ?_
    exact congrArg (Option.map fun t => t.modSquad s.cur.squad note) h1
  refine ⟨_, h2, rfl, rfl, fun q hq => ⟨note q, _, ?_, rfl, rfl⟩⟩
  rw [squad?_modSquad (back u) s.cur.squad note fun _ => rfl]
  exact congrArg (Option.map note) hq

/-! ## The word, past its checks -/

/-- The state in which a fence at `.dev` and the packet of one group are on their way, or the packet held back (R364). -/
def State.klaunched (s : State) (t : Team) (g n : Nat) (packet : List Byte) : State :=
  (s.fenceOps 1 3 false).sendPacket t g n packet

theorem accessFaults_nil (s : State) : s.accessFaults [] = s := by
  unfold State.accessFaults
  simp only [List.map_nil, State.unpass_nil, List.isEmpty_nil, if_true]
  split <;> rfl

theorem noteCluster_cur (s : State) (team : Nat) (vas : List Nat) : (s.noteCluster team vas).cur = s.cur := by
  unfold State.noteCluster
  split <;> rfl

/-- The cluster window noted changes nothing of the team but that mark. -/
theorem noteCluster_team {s : State} {t : Team} (ht : s.curTeam = some t) (vas : List Nat) :
    ∃ b, (s.noteCluster t.key vas).curTeam = some { t with clusterOpen := b } := by
  unfold State.noteCluster
  split
  · exact ⟨true, team?_modCur ht (fun u => { u with clusterOpen := true }) fun _ => rfl⟩
  · exact ⟨t.clusterOpen, ht⟩

theorem members_of_squads {s s' : State} {t t' : Team} (ht : s.curTeam = some t) (ht' : s'.curTeam = some t') (hcur : s'.cur = s.cur)
    (hsq : t'.squads = t.squads) : s'.members = s.members := by
  unfold State.members
  rw [ht, ht', hcur, Option.bind_some, Option.bind_some, Team.squad?, hsq]
  rfl

section
variable {s : State} {t : Team} {g l : Nat} {c : Context} {th : Thread} (k : BitVec 5) (q : BitVec 6) (hin : s.InGroup t g)
  (hm : s.members = [(g, l)]) (hc : s.ctxOf t = some c) (hth : t.thread? g l = some th)
include hin hc

theorem klaunch_passed (hp : (s.passed).isSome = true) : exec (.klaunch k q) s = .next s := by
  change execKlaunch k q s = _
  unfold execKlaunch
  simp only [hin.reads, hc, hp, if_true]

include hm in
theorem klaunch_moves (hp : s.passed = none) (hcl : s.cur.cleared = false)
    (hmv : s.moveWaits t false (s.placesOf t g l (s.rdS2 t g k.toNat).toNat 64) = true) :
    exec (.klaunch k q) s = .next s.retryWord := by
  have hlanes : s.lanesOf g = [l] := by simp [State.lanesOf, hm]
  change execKlaunch k q s = _
  unfold execKlaunch
  simp [hin.reads, hc, hp, hcl, hin.gids, hlanes, State.klaunchArgs, hmv]

include hm hth in
theorem klaunch_sends (hp : s.passed = none) (hmv : s.moveWaits t false (s.placesOf t g l (s.rdS2 t g k.toNat).toNat 64) = false)
    (hq : c.klaunchOk (s.rdS t g q.toNat).toNat = true) (ha : (s.rdS2 t g k.toNat).toNat % 64 = 0) {sp : List Spot}
    (hr : (s.turned.noteCluster t.key [(s.rdS2 t g k.toNat).toNat]).reach t c th.tid .load (s.rdS2 t g k.toNat).toNat 64 = .ok sp) :
    exec (.klaunch k q) s = .next (
      let s1 := s.turned.noteCluster t.key [(s.rdS2 t g k.toNat).toNat]
      let s2 := s1.klaunched t g (s.rdS t g q.toNat).toNat (sp.map fun p => s1.loadByte t { team := t.key, gid := g, lane := l } p)
      if s2.sending then s2.waitOn (.delivery s2.keys) else s2) := by
  obtain ⟨ls, n, hs⟩ := turned_chunksOnly s
  set s0 := s.turned with hs0
  have ht0 : s0.curTeam = some t := by rw [hs]; exact hin.writes
  have hm0 : s0.members = [(g, l)] := by rw [hs]; exact hm
  set s1 := s0.noteCluster t.key [(s.rdS2 t g k.toNat).toNat] with hs1
  obtain ⟨b, ht1⟩ := noteCluster_team ht0 [(s.rdS2 t g k.toNat).toNat]
  have hm1 : s1.members = [(g, l)] := (members_of_squads ht0 ht1 (noteCluster_cur _ _ _) rfl).trans hm0
  have hgids : ∀ x : State, x.members = [(g, l)] → x.curGids = [g] := fun x hx => by simp [State.curGids, hx, uniq]
  have hlanes : ∀ x : State, x.members = [(g, l)] → x.lanesOf g = [l] := fun x hx => by simp [State.lanesOf, hx]
  change execKlaunch k q s = _
  unfold execKlaunch
  have harg : ∀ x, s.klaunchArgs t k q x = ((s.rdS2 t x k.toNat).toNat, (s.rdS t x q.toNat).toNat) := fun _ => rfl
  simp only [hin.reads, hc, hp, harg, endingEffect_of_unchunked hin.free, ← hs0, hgids s hm, hgids s0 hm0, hlanes s hm, List.map_cons,
    List.map_nil, ← hs1, hgids s1 hm1, List.flatMap_cons, List.flatMap_nil, List.append_nil, List.headD_cons, hmv,
    Option.isSome_none, Bool.false_eq_true, if_false, Bool.and_false]
  simp only [hq, ha, List.filter_cons, List.filter_nil, Bool.not_true, Bool.false_eq_true, if_false, decide_true, Bool.and_true, if_true,
    List.flatMap_cons, List.flatMap_nil, List.append_nil, List.filterMap_cons, List.filterMap_nil, hth, hr, ne_eq, not_true,
    decide_false, Bool.and_false, hlanes s1 hm1, List.headD_cons, State.takeTraps_nil, accessFaults_nil, List.foldl_cons, List.foldl_nil]
  rfl

end

/-! ## The packet on its way, staged or held back -/

theorem foldl_tokHold (ks : List Nat) (s : State) : ∃ ts, ks.foldl State.tokHold s = { s with toks := ts } := by
  induction ks generalizing s with
  | nil => exact ⟨_, rfl⟩
  | cons k ks ih => exact ih (s.tokHold k)

/-- An operation put in flight, and nothing else but keys and flag counts. -/
theorem newOp_eq (s : State) (team : Nat) (toks : List Nat) (lat : Nat) (what : OpKind) : ∃ ts k n, s.newOp team toks lat what
    = { s with toks := ts, keys := k, ops := s.ops ++ [{ key := n, team := team, toks := toks, due := s.now + lat, iss := s.cur, what := what }] } := by
  obtain ⟨ts, h⟩ := foldl_tokHold toks s
  unfold State.newOp
  rw [h]
  exact ⟨ts, _, _, rfl⟩

/-- The release of a word performed for one thread. -/
theorem fenceOps_eq {s : State} {g l : Nat} (hm : s.members = [(g, l)]) : ∃ ts k o, s.fenceOps 1 3 false
    = { s with toks := ts, keys := k, ops := s.ops ++ [o] } ∧ o.team = s.cur.team ∧ ∃ lams, o.what = .fence 1 3 g [l] lams := by
  have hg : s.curGids = [g] := by simp [State.curGids, hm, uniq]
  have hl : s.lanesOf g = [l] := by simp [State.lanesOf, hm]
  unfold State.fenceOps
  rw [hg]
  simp only [List.foldl_cons, List.foldl_nil, hl, Bool.false_eq_true, if_false]
  obtain ⟨ts, k, n, h⟩ := newOp_eq s s.cur.team [] 0 (.fence 1 3 g [l] (s.fenceSets 1 s.cur.team g [l]))
  exact ⟨ts, k, _, h, rfl, _, rfl⟩

theorem heldEntry_congr {s s' : State} (hi : s'.images = s.images) (hl : s'.launches = s.launches) (hc : s'.cur = s.cur) (t : Team)
    (g l : Nat) (op : OutOp) : s'.heldEntry t g l op = s.heldEntry t g l op := by
  unfold State.heldEntry State.bothPcs State.imageOf State.launch? State.image?
  rw [hi, hl, hc]

/-- What the wait for the delivery leaves of the team. -/
theorem waitOn_if_keeps (s : State) (on : WaitOn) {u : Team} (hu : s.curTeam = some u) :
    (if s.sending then s.waitOn on else s).mem = s.mem
      ∧ TeamIs (if s.sending then s.waitOn on else s) s.cur.team fun u' => u'.staged = u.staged ∧ u'.outbox = u.outbox := by
  split
  · obtain ⟨hmem, -, hteam⟩ := waitOn_keeps s on
    obtain ⟨u', hu', h1, h2, -⟩ := hteam u hu
    exact ⟨hmem, u', hu', h1, h2⟩
  · exact ⟨rfl, u, hu, rfl, rfl⟩

section
variable {s : State} {t u : Team} {g l n : Nat} {packet : List Byte} (hm : s.members = [(g, l)])
include hm

/-- The packet behind its release, with the entry as the state before the release makes it. -/
theorem klaunched_eq : ∃ ts k fo, (fo.team = s.cur.team ∧ ∃ lams, fo.what = .fence 1 3 g [l] lams)
    ∧ s.klaunched t g n packet =
      let e := s.heldEntry t g l (.klaunch n packet)
      let sf : State := { s with toks := ts, keys := k, ops := s.ops ++ [fo] }
      if t.defers then sf.toOutbox t.key e
      else if s.isDet t && !t.turn then sf.modTeam t.key fun t => { t with staged := t.staged ++ [e] }
      else sf.groupOp g 0 (.klaunch n packet none e.pcs) := by
  obtain ⟨ts, k, fo, h, hfo⟩ := fenceOps_eq hm
  refine ⟨ts, k, fo, hfo, ?_⟩
  have hl : ({ s with toks := ts, keys := k, ops := s.ops ++ [fo] } : State).lanesOf g = [l] := by
    change s.lanesOf g = [l]
    simp [State.lanesOf, hm]
  unfold State.klaunched State.sendPacket
  rw [h, hl, heldEntry_congr (s := s) rfl rfl rfl]
  rfl

/-- Outside blocks and worlds, and of the team whose turn it is in a DET context, the packet goes out behind the release. -/
theorem klaunched_sent (hd : t.defers = false) (hdet : (s.isDet t && !t.turn) = false) : ∃ ts k fo ko,
    s.klaunched t g n packet = { s with toks := ts, keys := k, ops := s.ops ++ [fo] ++ [ko] }
      ∧ (fo.team = s.cur.team ∧ ∃ lams, fo.what = .fence 1 3 g [l] lams)
      ∧ ko.team = s.cur.team ∧ ko.iss = s.cur ∧ ko.what = .klaunch n packet none (s.heldEntry t g l (.klaunch n packet)).pcs := by
  obtain ⟨ts, k, fo, hfo, h⟩ := klaunched_eq (t := t) (n := n) (packet := packet) hm
  simp only [hd, hdet, Bool.false_eq_true, if_false] at h
  obtain ⟨ts', k', n', h'⟩ := newOp_eq { s with toks := ts, keys := k, ops := s.ops ++ [fo] } s.cur.team
    (s.curToks g) 0 (.klaunch n packet none (s.heldEntry t g l (.klaunch n packet)).pcs)
  exact ⟨ts', k', fo, _, h.trans h', hfo, rfl, rfl, rfl⟩

variable (hu : s.curTeam = some u) (hk : t.key = u.key)
include hu hk

/-- In a DET context the packet is staged until the team's turn (R367). -/
theorem klaunched_staged (hd : t.defers = false) (hdet : (s.isDet t && !t.turn) = true) :
    (s.klaunched t g n packet).mem = s.mem ∧ (s.klaunched t g n packet).cur = s.cur
      ∧ (s.klaunched t g n packet).curTeam = some { u with staged := u.staged ++ [s.heldEntry t g l (.klaunch n packet)] } := by
  obtain ⟨ts, k, fo, -, h⟩ := klaunched_eq (t := t) (n := n) (packet := packet) hm
  simp only [hd, hdet, Bool.false_eq_true, if_false, if_true, hk] at h
  rw [h]
  exact ⟨rfl, rfl, team?_modCur (s := { s with toks := ts, keys := k, ops := s.ops ++ [fo] }) hu
    (fun x => { x with staged := x.staged ++ [s.heldEntry t g l (.klaunch n packet)] }) fun _ => rfl⟩

/-- Inside a block or a world the packet goes to the outbox (R315). -/
theorem klaunched_outbox (hd : t.defers = true) (hroom : u.outboxRoom = true) :
    (s.klaunched t g n packet).mem = s.mem ∧ (s.klaunched t g n packet).cur = s.cur
      ∧ (s.klaunched t g n packet).curTeam = some { u with outbox := u.outbox ++ [s.heldEntry t g l (.klaunch n packet)] } := by
  obtain ⟨ts, k, fo, -, h⟩ := klaunched_eq (t := t) (n := n) (packet := packet) hm
  have hteam : ({ s with toks := ts, keys := k, ops := s.ops ++ [fo] } : State).team? u.key = some u := (team?_key hu).symm ▸ hu
  simp only [hd, if_true, hk, State.toOutbox, hteam, hroom] at h
  rw [h]
  exact ⟨rfl, rfl, team?_modCur (s := { s with toks := ts, keys := k, ops := s.ops ++ [fo] }) hu
    (fun x => { x with outbox := x.outbox ++ [s.heldEntry t g l (.klaunch n packet)] }) fun _ => rfl⟩

end

/-! ## The word -/

theorem noteCluster_eq (s : State) (team : Nat) (vas : List Nat) : ∃ ts, s.noteCluster team vas = { s with teams := ts } := by
  unfold State.noteCluster
  split <;> exact ⟨_, rfl⟩

/-- The state in which the packet is read: chunks have turned, and the use of the cluster window is noted. -/
theorem noted_eq (s : State) (team : Nat) (vas : List Nat) :
    ∃ ls k ts, s.turned.noteCluster team vas = { s with lams := ls, keys := k, teams := ts } := by
  obtain ⟨ls, k, h⟩ := turned_chunksOnly s
  obtain ⟨ts, h'⟩ := noteCluster_eq s.turned team vas
  exact ⟨ls, k, ts, by rw [h', h]⟩

theorem noted_team {s : State} {t : Team} (ht : s.curTeam = some t) (vas : List Nat) :
    ∃ b, (s.turned.noteCluster t.key vas).curTeam = some { t with clusterOpen := b } := by
  obtain ⟨ls, k, h⟩ := turned_chunksOnly s
  exact noteCluster_team (by rw [h]; exact ht) vas

theorem sending_of_klaunch {s : State} {o : Op} {n : Nat} {packet : List Byte} {pcs : DWord × DWord} (ho : o ∈ s.ops)
    (hteam : o.team = s.cur.team) (hiss : o.iss = s.cur) (hw : o.what = .klaunch n packet none pcs) : s.sending = true :=
  List.any_eq_true.mpr ⟨o, ho, by simp [hw, hteam, hiss]⟩

/-- A state that differs from one of a word in flags, keys and operations waits for the delivery of its packet. -/
theorem waits_of_waitOn {s s2 : State} {t : Team} {b : Bool} (ht : s.curTeam = some t) (hcur : s2.cur = s.cur)
    (ht2 : s2.curTeam = some { t with clusterOpen := b }) (k : Nat) :
    Waits s (s2.waitOn (.delivery k)) fun w => ∃ o, w = .delivery o := by
  intro u q hu hq
  obtain rfl : t = u := Option.some.inj (ht.symm.trans hu)
  obtain ⟨-, -, hteam⟩ := waitOn_keeps s2 (.delivery k)
  obtain ⟨u', hu', -, -, hsq⟩ := hteam _ ht2
  rw [hcur] at hu' hsq
  obtain ⟨q', w, hq', hw, hon⟩ := hsq q hq
  exact ⟨u', hu', q', w, hq', hw, k, hon⟩

section
variable {s s1 : State} {t : Team} {g l n : Nat} {packet : List Byte} {b : Bool} (hw : s.curTeam = some t)
  (ht1 : s1.curTeam = some { t with clusterOpen := b }) (hm1 : s1.members = [(g, l)]) (hcur : s1.cur = s.cur) (hmem : s1.mem = s.mem)
  (he : s1.heldEntry t g l (.klaunch n packet) = s.heldEntry t g l (.klaunch n packet))
include ht1 hm1 hcur hmem he

include hw in
/-- The packet is on its way, and the squad waits for its delivery. -/
theorem klaunched_sent_effects (hd : t.defers = false) (hdt : (s1.isDet t && !t.turn) = false) {s2 s' : State}
    (h2 : s2 = s1.klaunched t g n packet) (h' : s' = if s2.sending then s2.waitOn (.delivery s2.keys) else s2) : s'.mem = s.mem
      ∧ (InFlight s s' fun o => o = .klaunch n packet none (s.heldEntry t g l (.klaunch n packet)).pcs)
      ∧ (InFlight s s' fun o => ∃ lams, o = .fence 1 3 g [l] lams) ∧ Waits s s' fun w => ∃ o, w = .delivery o := by
  obtain ⟨tk, k', fo, ko, hk, ⟨hfo, lams, hfw⟩, hko, hki, hkw⟩ := klaunched_sent (n := n) (packet := packet) hm1 hd hdt
  rw [hk] at h2
  have hc2 : s2.cur = s.cur := by rw [h2]; exact hcur
  have hops : s2.ops = s1.ops ++ [fo] ++ [ko] := by rw [h2]
  have hsend : s2.sending = true :=
    sending_of_klaunch (by rw [hops]; simp) (by rw [hko, hc2, hcur]) (by rw [hki, hc2, hcur]) hkw
  obtain ⟨hwm, hwo, -⟩ := waitOn_keeps s2 (.delivery s2.keys)
  rw [if_pos hsend] at h'
  rw [h']
  refine ⟨by rw [hwm, h2]; exact hmem, ⟨ko, by rw [hwo, hops]; simp, by rw [hko, hcur], by rw [hkw, he]⟩,
    ⟨fo, by rw [hwo, hops]; simp, by rw [hfo, hcur], lams, hfw⟩, waits_of_waitOn (b := b) hw hc2 ?_ _⟩
  rw [h2]
  exact ht1

/-- The packet is staged. -/
theorem klaunched_staged_effects (hd : t.defers = false) (hdt : (s1.isDet t && !t.turn) = true) {s2 s' : State}
    (h2 : s2 = s1.klaunched t g n packet) (h' : s' = if s2.sending then s2.waitOn (.delivery s2.keys) else s2) :
    s'.mem = s.mem ∧ TeamIs s' s.cur.team fun u => u.staged = t.staged ++ [s.heldEntry t g l (.klaunch n packet)] := by
  obtain ⟨h2m, h2c, h2t⟩ := klaunched_staged (t := t) (n := n) (packet := packet) hm1 ht1 rfl hd hdt
  rw [← h2] at h2m h2c h2t
  obtain ⟨hwm, u', hu', hst, -⟩ := waitOn_if_keeps s2 (.delivery s2.keys) h2t
  rw [← h'] at hwm hu'
  exact ⟨hwm.trans (h2m.trans hmem), u', by rw [← hcur, ← h2c]; exact hu', hst.trans (by rw [he])⟩

/-- The packet is held back in the outbox. -/
theorem klaunched_outbox_effects (hd : t.defers = true) (hroom : t.outboxRoom = true) {s2 s' : State}
    (h2 : s2 = s1.klaunched t g n packet) (h' : s' = if s2.sending then s2.waitOn (.delivery s2.keys) else s2) :
    s'.mem = s.mem ∧ TeamIs s' s.cur.team fun u => u.outbox = t.outbox ++ [s.heldEntry t g l (.klaunch n packet)] := by
  obtain ⟨h2m, h2c, h2t⟩ := klaunched_outbox (t := t) (n := n) (packet := packet) hm1 ht1 rfl hd hroom
  rw [← h2] at h2m h2c h2t
  obtain ⟨hwm, u', hu', -, hout⟩ := waitOn_if_keeps s2 (.delivery s2.keys) h2t
  rw [← h'] at hwm hu'
  exact ⟨hwm.trans (h2m.trans hmem), u', by rw [← hcur, ← h2c]; exact hu', hout.trans (by rw [he])⟩

end

/-- Settles O45: by the words' branches, the chunks of `KLAUNCH`'s group having turned. -/
theorem placementWords : Obligations.PlacementWords := by
  unfold Obligations.PlacementWords
  refine ⟨fun s t g h => placementWords_group h, fun k q s t g l c th sp hin hm hc hth => ?_⟩
  refine ⟨klaunch_passed k q hin hc, klaunch_moves k q hin hm hc, fun hp hmv hq ha hr => ?_⟩
  have hexec := klaunch_sends k q hin hm hc hth hp hmv hq ha hr
  obtain ⟨ls, ks, ts, hs1⟩ := noted_eq s t.key [(s.rdS2 t g k.toNat).toNat]
  obtain ⟨b, ht1⟩ := noted_team hin.writes [(s.rdS2 t g k.toNat).toNat]
  have hcur := congrArg State.cur hs1
  have hmem := congrArg State.mem hs1
  have hdet : (s.turned.noteCluster t.key [(s.rdS2 t g k.toNat).toNat]).isDet t = s.isDet t := by rw [hs1]; rfl
  have hm1 := (members_of_squads hin.writes ht1 hcur rfl).trans hm
  have himages := congrArg State.images hs1
  have hlaunches := congrArg State.launches hs1
  have he := heldEntry_congr (s := s) himages hlaunches hcur t g l
  have hd : t.levels = [] → t.parent = none → t.defers = false := fun h1 h2 => by simp [Team.defers, h1, h2]
  refine ⟨fun hl hpar hturn => ⟨_, hexec, ?_⟩, fun hl hpar hisdet hturn => ⟨_, hexec, ?_⟩, fun hdef hroom => ⟨_, hexec, ?_⟩⟩
  · have hdt : ((s.turned.noteCluster t.key [(s.rdS2 t g k.toNat).toNat]).isDet t && !t.turn) = false := by
      rw [hdet]
      rcases hturn with h | h <;> simp [h]
    exact klaunched_sent_effects hin.writes ht1 hm1 hcur hmem (he _) (hd hl hpar) hdt rfl rfl
  · exact klaunched_staged_effects ht1 hm1 hcur hmem (he _) (hd hl hpar) (by rw [hdet, hisdet, hturn]; rfl) rfl rfl
  · exact klaunched_outbox_effects ht1 hm1 hcur hmem (he _) hdef hroom rfl rfl

end Sys2Proof.Machine

/-! What one byte of an accepted store does outside chunks, and what the end of an operation leaves (R25, R176, R179, R225). -/

namespace Sys2Proof.Machine

/-! ## Completion flags (R25) -/

/-- A team without its groups: what no completion of a flag count touches. -/
def Team.noGroups (t : Team) : Team := { t with groups := [] }

/-- A state whose flag counts may have fallen, nothing else: the teams agree up to their groups. -/
structure State.SameButFlags (s s' : State) : Prop where
  rest : s' = { s with teams := s'.teams, toks := s'.toks }
  team : ∀ k, (s'.team? k).map Team.noGroups = (s.team? k).map Team.noGroups

theorem State.SameButFlags.refl (s : State) : s.SameButFlags s := ⟨rfl, fun _ => rfl⟩

theorem State.SameButFlags.trans {s s' s'' : State} (h : s.SameButFlags s') (h' : s'.SameButFlags s'') : s.SameButFlags s'' := by
  refine ⟨?_, fun k => (h'.team k).trans (h.team k)⟩
  rw [h'.rest, h.rest]

/-- The team that a flag count leaves is the one before, up to its groups. -/
theorem State.SameButFlags.team_eq {s s' : State} (h : s.SameButFlags s') {k : Nat} {t : Team} (ht : s.team? k = some t) :
    ∃ u, s'.team? k = some u ∧ u.noGroups = t.noGroups := by
  have e := h.team k
  rw [ht] at e
  exact Option.map_eq_some_iff.mp e

theorem tokDone_sameButFlags (s : State) (k : Nat) : s.SameButFlags (s.tokDone k) := by
  unfold State.tokDone
  split
  · exact .refl s
  · next t _ =>
    split
    · refine ⟨rfl, fun j => ?_⟩
      let down : Team → Team := fun u => u.modGroup t.gid fun g => g.flagDec t.flag
      by_cases h : j = t.team
      · have e : (s.modTeam t.team down).team? j = (s.team? j).map down := by
          rw [h]
          exact State.team?_modTeam s t.team down fun _ => rfl
        calc ((s.modTeam t.team down).team? j).map Team.noGroups = ((s.team? j).map down).map Team.noGroups := by rw [e]
          _ = (s.team? j).map Team.noGroups := by rw [Option.map_map]; rfl
      · exact congrArg (Option.map Team.noGroups) (State.team?_modTeam_ne s down h fun _ => rfl)
    · exact ⟨rfl, fun _ => rfl⟩

theorem toksDone_sameButFlags (s : State) (ks : List Nat) : s.SameButFlags (s.toksDone ks) := by
  induction ks generalizing s with
  | nil => exact .refl s
  | cons k ks ih => exact (tokDone_sameButFlags s k).trans (ih _)

/-- An operation that completes leaves the rest of the state, but for flag counts and its own place in flight. -/
theorem finishOp_sameButFlags (s : State) (o : Op) : (s.dropOp o.key).SameButFlags (s.finishOp o) := toksDone_sameButFlags _ _

/-- Flag counts of one team leave every other team whole. -/
theorem tokDone_others {s : State} {k n : Nat} (h : ∀ x ∈ s.toks, x.key = k → x.team = n) :
    (∀ j, j ≠ n → (s.tokDone k).team? j = s.team? j)
      ∧ ∀ x ∈ (s.tokDone k).toks, ∃ y ∈ s.toks, y.key = x.key ∧ y.team = x.team := by
  unfold State.tokDone
  split
  · exact ⟨fun _ _ => rfl, fun x hx => ⟨x, hx, rfl, rfl⟩⟩
  · next t ht =>
    have hn : t.team = n := h t (List.mem_of_find?_eq_some ht) (by simpa using List.find?_some ht)
    split
    · refine ⟨fun j hj => ?_, fun x hx => ⟨x, (List.mem_filter.mp hx).1, rfl, rfl⟩⟩
      exact State.team?_modTeam_ne s (fun u => u.modGroup t.gid fun g => g.flagDec t.flag) (hn ▸ hj) fun _ => rfl
    · refine ⟨fun _ _ => rfl, fun x hx => ?_⟩
      obtain ⟨y, hy, rfl⟩ := List.mem_map.mp hx
      exact ⟨y, hy, by split <;> rfl, by split <;> rfl⟩

theorem toksDone_others {n : Nat} (ks : List Nat) (s : State) (h : ∀ x ∈ s.toks, x.key ∈ ks → x.team = n) :
    ∀ j, j ≠ n → (s.toksDone ks).team? j = s.team? j := by
  induction ks generalizing s with
  | nil => exact fun _ _ => rfl
  | cons k ks ih =>
    intro j hj
    obtain ⟨hteam, htoks⟩ := tokDone_others fun x hx (e : x.key = k) => h x hx (e ▸ List.mem_cons_self)
    refine (ih (s.tokDone k) (fun x hx hk => ?_) j hj).trans (hteam j hj)
    obtain ⟨y, hy, hkey, hyx⟩ := htoks x hx
    exact hyx ▸ h y hy (hkey ▸ List.mem_cons_of_mem k hk)

/-! ## A byte written outside chunks (R206, R225) -/

theorem noteName_rest (s : State) (g pa : Nat) : ∃ n w, s.noteName g pa = { s with names := n, shadows := w } := by
  unfold State.noteName
  simp only
  split
  · exact ⟨_, _, rfl⟩
  · exact ⟨_, _, rfl⟩

theorem castShadow_rest (s : State) (core g pa : Nat) : ∃ x w, s.castShadow core g pa = { s with writes := x, shadows := w } := by
  unfold State.castShadow
  simp only
  split
  · exact ⟨_, _, rfl⟩
  · exact ⟨_, _, rfl⟩

/-- With no chunk open and no outside write waiting, an outside write enters memory at once. -/
theorem outsideWrite_enters {s : State} (hl : s.lams = []) (hw : s.waiting = []) (pa : Nat) (b : Byte) (gs : List Nat) :
    s.outsideWrite pa b gs = s.enterByte pa b gs := by
  simp [State.outsideWrite, State.heldBack, hl, hw]

/-- With no chunk open, what is noted of a write to a thread's own memory is its place among the outside writes at most. -/
theorem privNoted_rest {s : State} (hl : s.lams = []) (k : Nat) (gs : List Nat) :
    ∃ x n, s.privNoted k gs = { s with external := x, keys := n } := by
  have hmod : ∀ b f, s.modLam b f = s := fun b f => by
    change { s with lams := updIf _ f s.lams } = s
    rw [hl, updIf_nil, ← hl]
  unfold State.privNoted
  split
  · exact ⟨_, _, rfl⟩
  · next t _ =>
    cases t.base with
    | none =>
      simp only
      split
      · exact ⟨_, _, rfl⟩
      · exact ⟨_, _, rfl⟩
    | some b =>
      simp only [hmod]
      split
      · exact ⟨_, _, rfl⟩
      · exact ⟨_, _, rfl⟩

end Sys2Proof.Machine

/-! O26: an accepted store outside chunks (R25, R176, R179, R225). -/

namespace Sys2Proof.Machine

/-! ## The bytes of one place -/

/-- Memory with a store's byte, where its place is one of memory. -/
def StoreByte.putMem (m : List Host.Cell) (w : StoreByte) : List Host.Cell := match w.at_.loc with
  | .mem pa => memPut pa w.byte m
  | _ => m

/-- A scratchpad with a store's byte, where its place is one of a scratchpad. -/
def StoreByte.putScratch (m : Bytes) (w : StoreByte) : Bytes := match w.at_.loc with
  | .scratch _ off => bput off w.byte m
  | _ => m

/-- A team's per-thread memory with a store's byte, where its place is there. -/
def StoreByte.putPriv (m : Bytes) (w : StoreByte) : Bytes := match w.at_.loc with
  | .priv _ pa => bput pa w.byte m
  | _ => m

/-- Does a store's byte go to team `k`'s own places, or straight to memory? -/
def StoreByte.ownPlace (w : StoreByte) (k : Nat) : Prop := match w.at_.loc with
  | .scratch j _ => j = k
  | .priv j _ => j = k
  | .mem _ => w.direct = true
  | .pod _ _ => False

/-! ## States in which no chunk, no chain and no level holds a store's byte back -/

/-- Team `k` is outside recovery blocks, no chain has written a byte, no chunk is open and no outside write waits. -/
structure State.StoresPlain (s : State) (k : Nat) : Prop where
  team : ∃ t, s.team? k = some t ∧ t.levels = []
  chains : NoChainWrites s
  lams : s.lams = []
  waiting : s.waiting = []

/-- What the bytes of a store of team `k` have changed. -/
structure State.BytesPut (k : Nat) (ws : List StoreByte) (s s' : State) : Prop where
  mem : s'.mem = ws.foldl StoreByte.putMem s.mem
  team : ∀ t, s.team? k = some t → ∃ u, s'.team? k = some u ∧ u.scratch = ws.foldl StoreByte.putScratch t.scratch
    ∧ u.priv = ws.foldl StoreByte.putPriv t.priv
  others : ∀ j, j ≠ k → s'.team? j = s.team? j
  toks : s'.toks = s.toks
  plain : s'.StoresPlain k

theorem State.BytesPut.cons {k : Nat} {w : StoreByte} {ws : List StoreByte} {s s' s'' : State} (h : s.BytesPut k [w] s')
    (h' : s'.BytesPut k ws s'') : s.BytesPut k (w :: ws) s'' := by
  refine ⟨h'.mem.trans (by rw [h.mem]; rfl), fun t ht => ?_, fun j hj => (h'.others j hj).trans (h.others j hj),
    h'.toks.trans h.toks, h'.plain⟩
  obtain ⟨u, hu, husc, hupr⟩ := h.team t ht
  obtain ⟨v, hv, hvsc, hvpr⟩ := h'.team u hu
  exact ⟨v, hv, hvsc.trans (by rw [husc]; rfl), hvpr.trans (by rw [hupr]; rfl)⟩

/-- A change of a team that touches no copy and no chain leaves no chain's byte. -/
theorem NoChainWrites.modTeam {s : State} (h : NoChainWrites s) (k : Nat) (f : Team → Team)
    (hf : ∀ t, (f t).copies = t.copies ∧ (f t).chains = t.chains) : NoChainWrites (s.modTeam k f) := by
  intro x hx
  obtain ⟨t, ht, rfl⟩ := List.mem_map.mp hx
  split
  · rw [(hf t).1, (hf t).2]
    exact h t ht
  · exact h t ht

/-- A change of the storing team's own bytes. -/
theorem State.StoresPlain.modTeam {s : State} {k : Nat} (h : s.StoresPlain k) (f : Team → Team) (hkey : ∀ t, (f t).key = t.key)
    (hlev : ∀ t, (f t).levels = t.levels) (hch : ∀ t, (f t).copies = t.copies ∧ (f t).chains = t.chains) :
    (s.modTeam k f).StoresPlain k := by
  obtain ⟨t, ht, hl⟩ := h.team
  refine ⟨⟨f t, ?_, (hlev t).trans hl⟩, h.chains.modTeam k f hch, h.lams, h.waiting⟩
  rw [State.team?_modTeam s k f hkey, ht]
  rfl

/-! ## One byte -/

section
variable {s : State} {o : Op} {w : StoreByte} (nt : Bool) (chunk : Option Nat)

theorem storeByte_scratch {t : Team} {k off : Nat} (h : NoChainWrites s) (ht : s.team? o.team = some t) (hw : w.at_.loc = .scratch k off) :
    s.storeByte o nt chunk w = s.putScratch o.team k t.levels.length off w.byte := by
  simp only [State.storeByte, State.chainHits_of_noChainWrites h, Bool.false_eq_true, if_false, hw, ht]

theorem storeByte_priv {k a : Nat} (h : NoChainWrites s) (hw : w.at_.loc = .priv k a) :
    s.storeByte o nt chunk w = (s.modTeam k fun t => { t with priv := bput a w.byte t.priv }).privNoted k [w.at_.grain] := by
  simp only [State.storeByte, State.chainHits_of_noChainWrites h, Bool.false_eq_true, if_false, hw]

theorem storeByte_direct {pa : Nat} (h : NoChainWrites s) (hw : w.at_.loc = .mem pa) (hd : w.direct = true) :
    s.storeByte o nt chunk w = s.externalByte (s.opCore o) pa w.byte w.at_.grain := by
  simp only [State.storeByte, State.chainHits_of_noChainWrites h, Bool.false_eq_true, if_false, hw, hd, if_true]

theorem storeByte_chunk {k pa : Nat} (h : NoChainWrites s) (hw : w.at_.loc = .mem pa) (hd : w.direct = false) :
    s.storeByte o nt (some k) w = s.chunkWrite k w.at_ pa w.byte (if nt then some (w.who.gid, w.who.lane) else none) := by
  simp only [State.storeByte, State.chainHits_of_noChainWrites h, Bool.false_eq_true, if_false, hw, hd]

end

/-- Outside recovery blocks a scratchpad byte is written and nothing is journalled (R176, R308). -/
theorem putScratch_outside {s : State} {k : Nat} {t : Team} (ht : s.team? k = some t) (hl : t.levels = []) (n off : Nat) (b : Byte) :
    s.putScratch k k n off b = s.modTeam k fun u => { u with scratch := bput off b u.scratch } := by
  simp only [State.putScratch, ht, hl, List.find?_nil]

/-- With no chunk open and no outside write waiting, an outside byte enters memory at once; teams and flag counts stay. -/
theorem externalByte_enters {s : State} (hl : s.lams = []) (hw : s.waiting = []) (core pa : Nat) (b : Byte) (g : Nat) :
    let s' := s.externalByte core pa b g
    s'.mem = memPut pa b s.mem ∧ s'.teams = s.teams ∧ s'.toks = s.toks ∧ s'.lams = s.lams ∧ s'.waiting = s.waiting := by
  obtain ⟨n, x, hn⟩ := noteName_rest s g pa
  obtain ⟨y, z, hc⟩ := castShadow_rest { s with names := n, shadows := x } core g pa
  simp only [State.externalByte, hn, hc]
  rw [outsideWrite_enters (by exact hl) (by exact hw)]
  exact ⟨rfl, rfl, rfl, rfl, rfl⟩

theorem bytesPut_scratch {s : State} {o : Op} {w : StoreByte} {off : Nat} (h : s.StoresPlain o.team)
    (hw : w.at_.loc = .scratch o.team off) (nt : Bool) (chunk : Option Nat) :
    s.BytesPut o.team [w] (s.storeByte o nt chunk w) := by
  obtain ⟨t, ht, hl⟩ := h.team
  let put : Team → Team := fun u => { u with scratch := bput off w.byte u.scratch }
  have e : s.storeByte o nt chunk w = s.modTeam o.team put :=
    (storeByte_scratch nt chunk h.chains ht hw).trans (putScratch_outside ht hl _ _ _)
  rw [e]
  exact {
    mem := by simp [StoreByte.putMem, hw]
    team := fun u hu => ⟨put u, by rw [State.team?_modTeam s o.team put fun _ => rfl, hu]; rfl,
      by simp [StoreByte.putScratch, hw, put], by simp [StoreByte.putPriv, hw, put]⟩
    others := fun j hj => State.team?_modTeam_ne s put hj fun _ => rfl
    toks := rfl
    plain := h.modTeam put (fun _ => rfl) (fun _ => rfl) fun _ => ⟨rfl, rfl⟩ }

theorem bytesPut_priv {s : State} {o : Op} {w : StoreByte} {a : Nat} (h : s.StoresPlain o.team)
    (hw : w.at_.loc = .priv o.team a) (nt : Bool) (chunk : Option Nat) :
    s.BytesPut o.team [w] (s.storeByte o nt chunk w) := by
  let put : Team → Team := fun u => { u with priv := bput a w.byte u.priv }
  have hp : (s.modTeam o.team put).StoresPlain o.team := h.modTeam put (fun _ => rfl) (fun _ => rfl) fun _ => ⟨rfl, rfl⟩
  obtain ⟨x, n, e⟩ := privNoted_rest hp.lams o.team [w.at_.grain]
  rw [storeByte_priv nt chunk h.chains hw, e]
  exact {
    mem := by simp [StoreByte.putMem, hw]
    team := fun u hu => ⟨put u, by
        change (s.modTeam o.team put).team? o.team = _
        rw [State.team?_modTeam s o.team put fun _ => rfl, hu]
        rfl,
      by simp [StoreByte.putScratch, hw, put], by simp [StoreByte.putPriv, hw, put]⟩
    others := fun j hj => State.team?_modTeam_ne s put hj fun _ => rfl
    toks := rfl
    plain := ⟨hp.team, hp.chains, hp.lams, hp.waiting⟩ }

theorem bytesPut_mem {s : State} {o : Op} {w : StoreByte} {pa : Nat} (h : s.StoresPlain o.team) (hw : w.at_.loc = .mem pa)
    (hd : w.direct = true) (nt : Bool) (chunk : Option Nat) : s.BytesPut o.team [w] (s.storeByte o nt chunk w) := by
  obtain ⟨hmem, hteams, htoks, hlams, hwaiting⟩ := externalByte_enters h.lams h.waiting (s.opCore o) pa w.byte w.at_.grain
  rw [storeByte_direct nt chunk h.chains hw hd]
  have hteam : ∀ j, (s.externalByte (s.opCore o) pa w.byte w.at_.grain).team? j = s.team? j := fun j => by
    rw [State.team?, hteams, State.team?]
  exact {
    mem := by simp [StoreByte.putMem, hw, hmem]
    team := fun u hu => ⟨u, (hteam _).trans hu, by simp [StoreByte.putScratch, hw], by simp [StoreByte.putPriv, hw]⟩
    others := fun j _ => hteam j
    toks := htoks
    plain := ⟨by simpa only [hteam] using h.team, by simpa only [NoChainWrites, hteams] using h.chains,
      hlams.trans h.lams, hwaiting.trans h.waiting⟩ }

/-- One byte of a store goes to its place and nowhere else. -/
theorem storeByte_bytesPut {s : State} {o : Op} {w : StoreByte} (h : s.StoresPlain o.team) (hw : w.ownPlace o.team) (nt : Bool)
    (chunk : Option Nat) : s.BytesPut o.team [w] (s.storeByte o nt chunk w) := by
  unfold StoreByte.ownPlace at hw
  cases hloc : w.at_.loc with
  | scratch j off =>
    rw [hloc] at hw
    exact bytesPut_scratch h (hloc.trans (congrArg (Loc.scratch · off) hw)) nt chunk
  | priv j a =>
    rw [hloc] at hw
    exact bytesPut_priv h (hloc.trans (congrArg (Loc.priv · a) hw)) nt chunk
  | mem pa =>
    rw [hloc] at hw
    exact bytesPut_mem h hloc hw nt chunk
  | pod _ _ =>
    rw [hloc] at hw
    exact hw.elim

/-! ## The whole store -/

theorem foldl_storeByte_bytesPut {o : Op} (nt : Bool) (chunk : Option Nat) (ws : List StoreByte) (hw : ∀ w ∈ ws, w.ownPlace o.team)
    (s : State) (h : s.StoresPlain o.team) : s.BytesPut o.team ws (ws.foldl (fun s w => s.storeByte o nt chunk w) s) := by
  induction ws generalizing s with
  | nil => exact ⟨rfl, fun t ht => ⟨t, ht, rfl, rfl⟩, fun _ _ => rfl, rfl, h⟩
  | cons w ws ih =>
    have h1 := storeByte_bytesPut h (hw w List.mem_cons_self) nt chunk
    exact h1.cons (ih (fun x hx => hw x (List.mem_cons_of_mem w hx)) _ h1.plain)

/-- A store without a provisional byte needs no chunk. -/
theorem acceptStore_own (s : State) {o : Op} {ws : List StoreByte} (nt : Bool) (hw : ∀ w ∈ ws, w.ownPlace o.team) :
    s.acceptStore o ws nt = ws.foldl (fun s w => s.storeByte o nt none w) s := by
  simp only [State.acceptStore]
  rw [List.filter_eq_nil_iff.mpr ?none]
  case none =>
    intro w hm
    have h := hw w hm
    unfold StoreByte.ownPlace at h
    cases hloc : w.at_.loc with
    | mem pa =>
      rw [hloc] at h
      simp only at h
      simp [h]
    | _ => simp

/-- L1 accepts a store that is due. -/
theorem exec_storeAccept {s : State} {o : Op} {ws : List StoreByte} {nt : Bool} (ha : s.arg = [o.key]) (ho : s.op? o.key = some o)
    (hk : o.what = .store ws nt) (hr : s.storeReady o ws = true) :
    exec .storeAccept s = .next ((s.acceptStore o ws nt).finishOp o) := by
  change execStoreAccept s = _
  simp only [execStoreAccept, ha, ho, hk, hr, if_true]

/-- An accepted store outside chunks: its bytes are where they belong, and nothing else has changed. -/
theorem execStoreAccept_own {s : State} {o : Op} {t : Team} {ws : List StoreByte} {nt : Bool} (ha : s.arg = [o.key])
    (ho : s.op? o.key = some o) (hk : o.what = .store ws nt) (hr : s.storeReady o ws = true) (h : s.StoresPlain o.team)
    (ht : s.team? o.team = some t) (htoks : ∀ x ∈ s.toks, x.key ∈ o.toks → x.team = o.team) (hw : ∀ w ∈ ws, w.ownPlace o.team) :
    ∃ s' u, exec .storeAccept s = .next s' ∧ s'.team? o.team = some u ∧ s'.op? o.key = none
      ∧ s'.mem = ws.foldl StoreByte.putMem s.mem ∧ u.scratch = ws.foldl StoreByte.putScratch t.scratch
      ∧ u.priv = ws.foldl StoreByte.putPriv t.priv ∧ ∀ k, k ≠ o.team → s'.team? k = s.team? k := by
  have hput := foldl_storeByte_bytesPut nt none ws hw s h
  rw [← acceptStore_own s nt hw] at hput
  generalize hs1 : s.acceptStore o ws nt = s1 at hput
  obtain ⟨v, hv, hvsc, hvpr⟩ := hput.team t ht
  have hfl := finishOp_sameButFlags s1 o
  obtain ⟨u, hu, huv⟩ := hfl.team_eq (show (s1.dropOp o.key).team? o.team = some v from hv)
  have hother := toksDone_others (n := o.team) o.toks (s1.dropOp o.key) fun x hx => htoks x (hput.toks ▸ hx)
  refine ⟨s1.finishOp o, u, by rw [exec_storeAccept ha ho hk hr, hs1], hu, (finishOp_done s1 o).2, ?_, ?_, ?_, fun k hk => ?_⟩
  · exact (congrArg State.mem hfl.rest).trans hput.mem
  · exact (congrArg Team.scratch huv).trans hvsc
  · exact (congrArg Team.priv huv).trans hvpr
  · exact (hother k hk).trans (hput.others k hk)

end Sys2Proof.Machine

/-! O26: an accepted store into an open chunk (R199, R223, R225). -/

namespace Sys2Proof.Machine

/-! ## The latest line of a byte (R212) -/

/-- One line more in the search for the latest of a byte. -/
def laterLine (g pa : Nat) (b : Option (Line × Nat)) (x : Line × Nat) : Option (Line × Nat) :=
  if x.1.holds g pa then (match b with
    | some y => if y.1.seq ≤ x.1.seq then some x else b
    | none => some x) else b

/-- The lines of some laminae, each with its lamina. -/
def linesOf (ls : List Lam) : List (Line × Nat) := ls.flatMap fun l => l.lines.map fun x => (x, l.key)

theorem latestLine_eq (ls : List Lam) (g pa : Nat) : latestLine ls g pa = (linesOf ls).foldl (laterLine g pa) none := by
  rw [linesOf, List.foldl_flatMap]
  simp only [List.foldl_map]
  rfl

theorem laterLine_later {g pa : Nat} {y z : Line × Nat} (hy : y.1.seq < z.1.seq) : laterLine g pa (some z) y = some z := by
  unfold laterLine
  split
  · exact if_neg (by omega)
  · rfl

theorem laterLine_self {g pa : Nat} {z : Line × Nat} (hz : z.1.holds g pa = true) (b : Option (Line × Nat))
    (hb : ∀ y, b = some y → y.1.seq ≤ z.1.seq) : laterLine g pa b z = some z := by
  unfold laterLine
  rw [if_pos hz]
  cases b with
  | none => rfl
  | some y => exact if_pos (hb y rfl)

theorem laterLine_cases (g pa : Nat) (b : Option (Line × Nat)) (x : Line × Nat) :
    laterLine g pa b x = some x ∨ laterLine g pa b x = b := by
  unfold laterLine
  split
  · split
    · split
      · exact .inl rfl
      · exact .inr rfl
    · exact .inl rfl
  · exact .inr rfl

/-- The line with the highest number among those that hold a byte is the latest one. -/
theorem foldl_laterLine_max {g pa : Nat} {z : Line × Nat} (hz : z.1.holds g pa = true) (xs : List (Line × Nat)) (b : Option (Line × Nat))
    (hxs : ∀ y ∈ xs, y = z ∨ y.1.seq < z.1.seq) (hb : b = some z ∨ z ∈ xs ∧ ∀ y, b = some y → y.1.seq < z.1.seq) :
    xs.foldl (laterLine g pa) b = some z := by
  induction xs generalizing b with
  | nil => exact hb.resolve_right fun h => absurd h.1 List.not_mem_nil
  | cons x xs ih =>
    refine ih _ (fun y hy => hxs y (List.mem_cons_of_mem x hy)) ?_
    by_cases hxz : x = z
    · subst hxz
      refine .inl (laterLine_self hz b fun y hy => ?_)
      rcases hb with h | ⟨_, h⟩
      · rw [h, Option.some.injEq] at hy
        exact hy ▸ le_rfl
      · exact (h y hy).le
    · have hlt := (hxs x List.mem_cons_self).resolve_left hxz
      rcases hb with rfl | ⟨hmem, hlow⟩
      · exact .inl (laterLine_later hlt)
      · refine .inr ⟨(List.mem_cons.mp hmem).resolve_left fun e => hxz e.symm, fun y hy => ?_⟩
        rcases laterLine_cases g pa b x with e | e
        · rw [e, Option.some.injEq] at hy
          exact hy ▸ hlt
        · exact hlow y (e ▸ hy)

/-- Lines that hold another byte do not enter the search. -/
theorem foldl_laterLine_filter (g pa : Nat) (p : Line × Nat → Bool) (xs : List (Line × Nat)) (b : Option (Line × Nat))
    (h : ∀ x ∈ xs, p x = false → x.1.holds g pa = false) :
    (xs.filter p).foldl (laterLine g pa) b = xs.foldl (laterLine g pa) b := by
  induction xs generalizing b with
  | nil => rfl
  | cons x xs ih =>
    have ih' := fun b => ih b fun y hy => h y (List.mem_cons_of_mem x hy)
    cases hp : p x with
    | true => rw [List.filter_cons_of_pos hp, List.foldl_cons, List.foldl_cons, ih']
    | false =>
      have hx : laterLine g pa b x = b := if_neg (ne_true_of_eq_false (h x List.mem_cons_self hp))
      rw [List.filter_cons_of_neg (ne_true_of_eq_false hp), List.foldl_cons, hx, ih']

/-! ## A byte put into a chunk (R223) -/

/-- A line of one place holds no other byte. -/
theorem holds_other {x y : Spot} {pa pa' : Nat} {z : Line} (hx : x.loc = .mem pa) (hy : y.loc = .mem pa') (h : y.same x = false)
    (hz : z.holds x.grain pa = true) : z.holds y.grain pa' = false := by
  simp only [Line.holds, Bool.and_eq_true, beq_iff_eq] at hz
  obtain ⟨hpa, hname⟩ := hz
  simp only [Spot.same, hx, hy, Bool.and_eq_false_iff, beq_eq_false_iff_ne, ne_eq, Loc.mem.injEq] at h
  simp only [Line.holds, Bool.and_eq_false_iff, beq_eq_false_iff_ne, ne_eq]
  by_cases hp : z.pa = pa'
  · refine .inr fun hn => ?_
    rcases h with h | h
    · exact h (hp.symm.trans hpa)
    · refine h ?_
      rw [← hn, hname, hpa.symm.trans hp]
  · exact .inl hp

theorem line_holds {x : Spot} (pa : Nat) (b : Byte) (n : Nat) (nt : Option (Nat × Nat)) : (x.line pa b n nt).holds x.grain pa = true := by
  simp [Line.holds, Spot.line]

section
variable {x y : Spot} {pa pa' : Nat} (hx : x.loc = .mem pa) (hy : y.loc = .mem pa') (hne : y.same x = false)
  (b : Byte) (n : Nat) (nt : Option (Nat × Nat)) (k : Nat)
include hx hy hne

/-- A byte put into one lamina leaves the latest line of every other byte there. -/
theorem foldl_put_other (l : Lam) (best : Option (Line × Nat)) :
    ((l.put (x.line pa b n nt)).lines.map fun z => (z, l.key)).foldl (laterLine y.grain pa') best
      = (l.lines.map fun z => (z, l.key)).foldl (laterLine y.grain pa') best := by
  have hnew : (x.line pa b n nt).holds y.grain pa' = false := holds_other hx hy hne (line_holds pa b n nt)
  have hlines : (l.put (x.line pa b n nt)).lines
      = (l.lines.filter fun z => !z.holds x.grain pa) ++ [x.line pa b n nt] := rfl
  have hmap : ((l.lines.filter fun z => !z.holds x.grain pa).map fun z => (z, l.key))
      = (l.lines.map fun z => (z, l.key)).filter fun z => !z.1.holds x.grain pa := by
    rw [List.filter_map]
    rfl
  rw [hlines, List.map_append, List.foldl_append, hmap, foldl_laterLine_filter]
  · exact if_neg (ne_true_of_eq_false hnew)
  · intro z _ hp
    exact holds_other hx hy hne (by simpa using hp)

/-- A byte put into a chunk leaves the latest line of every other byte. -/
theorem latestLine_put_other (ls : List Lam) :
    latestLine (updIf (fun l => l.key == k) (fun l => l.put (x.line pa b n nt)) ls) y.grain pa' = latestLine ls y.grain pa' := by
  rw [latestLine_eq, latestLine_eq]
  generalize (none : Option (Line × Nat)) = best
  induction ls generalizing best with
  | nil => rfl
  | cons l ls ih =>
    have ih' := fun b' => ih b'
    simp only [linesOf, updIf, List.map_cons, List.flatMap_cons, List.foldl_append] at ih' ⊢
    rw [ih']
    congr 1
    split
    · exact foldl_put_other hx hy hne b n nt l best
    · rfl

end

/-- The byte put into a chunk is the latest of its place: it has the highest number. -/
theorem latestLine_put_self (x : Spot) (pa : Nat) (b : Byte) (n : Nat) (nt : Option (Nat × Nat)) (ls : List Lam) (l : Lam) (hl : l ∈ ls)
    (hseq : ∀ m ∈ ls, ∀ y ∈ m.lines, y.seq < n) :
    latestLine (updIf (fun m => m.key == l.key) (fun m => m.put (x.line pa b n nt)) ls) x.grain pa = some (x.line pa b n nt, l.key) := by
  rw [latestLine_eq]
  refine foldl_laterLine_max (line_holds pa b n nt) _ _ (fun y hy => ?_) (.inr ⟨?_, fun _ h => nomatch h⟩)
  · obtain ⟨m', hm', hy⟩ := List.mem_flatMap.mp hy
    obtain ⟨m, hm, rfl⟩ := List.mem_map.mp hm'
    obtain ⟨z, hz, rfl⟩ := List.mem_map.mp hy
    by_cases hk : (m.key == l.key) = true
    · rw [if_pos hk] at hz ⊢
      rcases List.mem_append.mp hz with hz | hz
      · exact .inr (hseq m hm z (List.mem_filter.mp hz).1)
      · rw [List.mem_singleton.mp hz]
        exact .inl (congrArg (Prod.mk _) (show m.key = l.key by simpa using hk))
    · rw [if_neg hk] at hz
      exact .inr (hseq m hm z hz)
  · refine List.mem_flatMap.mpr ⟨l.put (x.line pa b n nt), List.mem_map.mpr ⟨l, hl, if_pos (beq_self_eq_true _)⟩, ?_⟩
    exact List.mem_map.mpr ⟨_, List.mem_append_right _ List.mem_cons_self, rfl⟩

end Sys2Proof.Machine

/-! O26: what a core reads after a byte has gone into a chunk, and the obligation (R199, R223, R225). -/

namespace Sys2Proof.Machine

/-! ## A state with one byte more in a chunk -/

/-- A state that differs, as far as a read of memory goes, by one byte put into chunk `k`. -/
structure State.ChunkPut (k : Nat) (x : Spot) (pa : Nat) (b : Byte) (nt : Option (Nat × Nat)) (s s' : State) : Prop where
  mem : s'.mem = s.mem
  held : s'.held = s.held
  shadows : s'.shadows = s.shadows
  flights : s'.flights = s.flights
  fresh : s'.fresh = s.fresh
  lams : s'.lams = updIf (fun l => l.key == k) (fun l => l.put (x.line pa b s.keys nt)) s.lams

theorem filter_updIf {α : Type} (p q : α → Bool) (f : α → α) (l : List α) (h : ∀ x, q (f x) = q x) :
    (updIf p f l).filter q = updIf p f (l.filter q) := by
  have he : (q ∘ fun x => if p x then f x else x) = q := funext fun x => by
    simp only [Function.comp_apply]
    split
    · exact h x
    · rfl
  rw [updIf, List.filter_map, he, updIf]

theorem toList_find?_updIf {α : Type} (p q : α → Bool) (f : α → α) (l : List α) (h : ∀ x, q (f x) = q x) :
    ((updIf p f l).find? q).toList = updIf p f (l.find? q).toList := by
  have he : (q ∘ fun x => if p x then f x else x) = q := funext fun x => by
    simp only [Function.comp_apply]
    split
    · exact h x
    · rfl
  rw [updIf, List.find?_map, he]
  cases l.find? q with
  | none => rfl
  | some x => rfl

namespace State.ChunkPut

variable {k : Nat} {x : Spot} {pa : Nat} {b : Byte} {nt : Option (Nat × Nat)} {s s' : State} (h : s.ChunkPut k x pa b nt s')
include h

theorem coreByte (core g a : Nat) : s'.coreByte core g a = s.coreByte core g a := by
  simp only [State.coreByte, State.keptByte, State.staleByte, State.flying, h.mem, h.held, h.shadows, h.flights, h.fresh]

theorem chunksOf (core : Nat) (base : Option Nat) :
    s'.chunksOf core base = updIf (fun l => l.key == k) (fun l => l.put (x.line pa b s.keys nt)) (s.chunksOf core base) := by
  rw [State.chunksOf, h.lams]
  exact filter_updIf _ _ _ _ fun _ => rfl

theorem lam? (j : Nat) :
    (s'.lam? j).toList = updIf (fun l => l.key == k) (fun l => l.put (x.line pa b s.keys nt)) (s.lam? j).toList := by
  rw [State.lam?, h.lams]
  exact toList_find?_updIf _ _ _ _ fun _ => rfl

/-- The enclosing lamina of a lamina stays. -/
theorem parent (j : Nat) : ((s'.lam? j).bind fun l => l.parent) = (s.lam? j).bind fun l => l.parent := by
  have e := h.lam? j
  cases h1 : s.lam? j with
  | none =>
    rw [h1] at e
    rw [Option.toList_eq_nil_iff.mp e]
  | some l =>
    rw [h1] at e
    cases h2 : s'.lam? j with
    | none => simp [h2, updIf] at e
    | some l' =>
      simp only [h2, Option.toList_some, updIf, List.map_cons, List.map_nil, List.cons.injEq, and_true] at e
      subst e
      simp only [Option.bind_some]
      split <;> rfl

theorem lamChain (n : Nat) (base : Option Nat) : s'.lamChain n base = s.lamChain n base := by
  induction n generalizing base with
  | zero => rfl
  | succ n ih =>
    cases base with
    | none => rfl
    | some j => rw [State.lamChain, State.lamChain, ih, h.parent]

theorem lams_length : s'.lams.length = s.lams.length := by rw [h.lams, updIf, List.length_map]

/-- Every other byte reads as before, at every layer. -/
theorem viewByte_other {y : Spot} {pa' : Nat} (hx : x.loc = .mem pa) (hy : y.loc = .mem pa') (hne : y.same x = false) (core : Nat)
    (home : Byte × Option Nat) (ks : List (Option Nat)) :
    s'.viewByte core y.grain pa' (fun _ => true) home ks = s.viewByte core y.grain pa' (fun _ => true) home ks := by
  induction ks with
  | nil => rfl
  | cons j ks ih =>
    have hchunks : latestLine ((s'.chunksOf core j).filter fun _ => true) y.grain pa'
        = latestLine ((s.chunksOf core j).filter fun _ => true) y.grain pa' := by
      rw [h.chunksOf, List.filter_true, List.filter_true]
      exact latestLine_put_other hx hy hne _ _ _ _ _
    have hlam : ∀ i, latestLine (s'.lam? i).toList y.grain pa' = latestLine (s.lam? i).toList y.grain pa' := fun i => by
      rw [h.lam?]
      exact latestLine_put_other hx hy hne _ _ _ _ _
    simp only [State.viewByte, hchunks, hlam, ih]

theorem locByte_other {y : Spot} {pa' : Nat} {t u : Team} (hx : x.loc = .mem pa) (hy : y.loc = .mem pa') (hne : y.same x = false)
    (hcore : u.core = t.core) (hbase : u.base = t.base) : s'.locByte u y = s.locByte t y := by
  simp only [State.locByte, hy, State.teamByte, State.teamView, hcore, hbase, h.coreByte, h.lamChain, h.lams_length,
    h.viewByte_other hx hy hne]

/-- The byte put into a chunk of the reading core's innermost layer is the one read. -/
theorem locByte_self {u : Team} {l : Lam} (hx : x.loc = .mem pa) (hl : l ∈ s.chunksOf u.core u.base) (hk : l.key = k)
    (hseq : ∀ m ∈ s.lams, ∀ y ∈ m.lines, y.seq < s.keys) : s'.locByte u x = b := by
  have hlen : ∃ n, s.lams.length = n + 1 :=
    Nat.exists_eq_add_one.mpr (List.length_pos_of_mem (List.mem_filter.mp hl).1)
  obtain ⟨n, hn⟩ := hlen
  have hfirst : ∃ ks, s.lamChain (n + 1) u.base = u.base :: ks := by
    cases u.base with
    | none => exact ⟨[], rfl⟩
    | some j => exact ⟨_, rfl⟩
  obtain ⟨ks, hks⟩ := hfirst
  have hlate : latestLine ((s'.chunksOf u.core u.base).filter fun _ => true) x.grain pa = some (x.line pa b s.keys nt, k) := by
    rw [h.chunksOf, List.filter_true, ← hk]
    exact latestLine_put_self x pa b s.keys nt _ l hl fun m hm => hseq m (List.mem_filter.mp hm).1
  simp only [State.locByte, hx, State.teamByte, State.teamView, h.lams_length, h.lamChain, hn, hks, State.viewByte, hlate]
  rfl

end State.ChunkPut

/-! ## The provisional byte of an accepted store -/

/-- Under the name that a frame is written by, no other name's stale byte comes up (R206). -/
theorem noteName_sameName {s : State} {g pa : Nat} (h : ∀ x ∈ s.writes, x.pa / 65536 = pa / 65536 → x.name / 65536 = g / 65536) :
    ∃ n, s.noteName g pa = { s with names := n } := by
  have hmine : (s.writes.filter fun w => w.pa / 65536 == pa / 65536 && w.name / 65536 != g / 65536) = [] := by
    rw [List.filter_eq_nil_iff]
    intro x hx
    simpa using h x hx
  unfold State.noteName
  simp only [hmine, List.map_nil, List.append_nil]
  split
  · exact ⟨_, rfl⟩
  · exact ⟨_, rfl⟩

/-- A byte goes into a chunk under the next number. -/
theorem chunkWrite_chunkPut {s : State} {x : Spot} {pa : Nat}
    (h : ∀ y ∈ s.writes, y.pa / 65536 = pa / 65536 → y.name / 65536 = x.grain / 65536) (k : Nat) (b : Byte) (nt : Option (Nat × Nat)) :
    s.ChunkPut k x pa b nt (s.chunkWrite k x pa b nt) ∧ (s.chunkWrite k x pa b nt).teams = s.teams := by
  obtain ⟨n, hn⟩ := noteName_sameName h
  rw [State.chunkWrite, hn]
  exact ⟨⟨rfl, rfl, rfl, rfl, rfl, rfl⟩, rfl⟩

/-- An operation that completes changes nothing that a read of memory sees. -/
theorem State.ChunkPut.finishOp {k : Nat} {x : Spot} {pa : Nat} {b : Byte} {nt : Option (Nat × Nat)} {s s' : State}
    (h : s.ChunkPut k x pa b nt s') (o : Op) : s.ChunkPut k x pa b nt (s'.finishOp o) := by
  rw [(finishOp_sameButFlags s' o).rest]
  exact ⟨h.mem, h.held, h.shadows, h.flights, h.fresh, h.lams⟩

/-- The chunk of a store's byte is the group's one open chunk with room. -/
theorem storeTarget_open {s : State} {team gid op g : Nat} {l : Lam} (hg : s.groupChunks team gid = [l]) (hst : l.st = .open)
    (hop : l.key < op) (hroom : l.crowded = false) (hsplit : s.splitsFor l g = false) :
    s.storeTarget team gid op (uniq [g]) = (some l.key, s) := by
  simp [State.storeTarget, hg, hst, hop, hroom, hsplit, uniq]

theorem acceptStore_provisional {s : State} {o : Op} {w : StoreByte} {pa : Nat} {l : Lam} (hch : NoChainWrites s) (hw : w.at_.loc = .mem pa)
    (hd : w.direct = false) (hg : s.groupChunks o.team w.who.gid = [l]) (hst : l.st = .open) (hop : l.key < o.key)
    (hroom : l.crowded = false) (hsplit : s.splitsFor l w.at_.grain = false) (nt : Bool) :
    s.acceptStore o [w] nt
      = s.chunkWrite l.key w.at_ pa w.byte (if nt then some (w.who.gid, w.who.lane) else none) := by
  have ht := storeTarget_open hg hst hop hroom hsplit
  simp only [State.acceptStore, List.filter_cons, hd, hw, Bool.not_false, Bool.and_self, if_true, List.filter_nil, List.map_cons,
    List.map_nil, ht, List.foldl_cons, List.foldl_nil]
  exact storeByte_chunk nt hch hw hd

theorem mem_addGrain (g : Nat) (l : List Nat) : g ∈ addGrain g l := by
  unfold addGrain
  split
  · next h => exact List.contains_iff_mem.mp h
  · exact List.mem_cons_self

/-- The chunk's write signature takes the byte's grain. -/
theorem State.ChunkPut.wsig {k : Nat} {x : Spot} {pa : Nat} {b : Byte} {nt : Option (Nat × Nat)} {s s' : State}
    (h : s.ChunkPut k x pa b nt s') (hk : (s.lam? k).isSome = true) : ∃ l', s'.lam? k = some l' ∧ x.grain ∈ l'.wsig := by
  obtain ⟨l, hl⟩ := Option.isSome_iff_exists.mp hk
  refine ⟨l.put (x.line pa b s.keys nt), ?_, mem_addGrain _ _⟩
  have e := find?_updIf (fun m : Lam => m.key == k) (fun m => m.put (x.line pa b s.keys nt)) s.lams fun _ hm => hm
  rw [State.lam?, h.lams, e]
  exact congrArg (Option.map _) hl

/-- Settles O26: outside chunks the store's bytes reach their places one by one; a provisional byte is the newest line of its chunk,
which is what the core reads first. -/
theorem storesAccepted : Obligations.StoresAccepted := by
  unfold Obligations.StoresAccepted
  constructor
  · intro s o t ws nt ha ho hk ht hlev hr hch hlams hwait htoks hw
    exact execStoreAccept_own ha ho hk hr ⟨⟨t, ht, hlev⟩, hch, hlams, hwait⟩ ht htoks hw
  · intro s o t w pa nt l ha ho hk ht hw hd hr hch hnames hg hst hop hroom hsplit hcore hparent _ hseq _
    obtain ⟨hput, hteams⟩ := chunkWrite_chunkPut hnames l.key w.byte (if nt then some (w.who.gid, w.who.lane) else none)
    have hacc := acceptStore_provisional hch hw hd hg hst hop hroom hsplit nt
    rw [← hacc] at hput hteams
    have hfl := finishOp_sameButFlags (s.acceptStore o [w] nt) o
    have hv : ((s.acceptStore o [w] nt).dropOp o.key).team? o.team = some t := by
      change (s.acceptStore o [w] nt).teams.find? _ = _
      rw [hteams]
      exact ht
    obtain ⟨u, hu, hut⟩ := hfl.team_eq hv
    have hucore : u.core = t.core := (congrArg Team.core hut :)
    have hubase : u.base = t.base := (congrArg Team.base hut :)
    have hl : l ∈ s.lams ∧ (l.owner == .chunk) = true := by
      have hm : l ∈ s.groupChunks o.team w.who.gid := hg ▸ List.mem_cons_self
      obtain ⟨hm, hp⟩ := List.mem_filter.mp hm
      simp only [Bool.and_eq_true] at hp
      exact ⟨hm, hp.1.1⟩
    have hchunk : l ∈ s.chunksOf u.core u.base :=
      List.mem_filter.mpr ⟨hl.1, by simp [hl.2, hcore, hparent, hucore, hubase]⟩
    have hfin := hput.finishOp o
    exact ⟨_, u, exec_storeAccept ha ho hk hr, hu, hfin.mem, hfin.locByte_self hw hchunk rfl hseq,
      fun y pa' hy hne => hfin.locByte_other hw hy hne hucore hubase,
      hfin.wsig (List.find?_isSome.mpr ⟨l, hl.1, beq_self_eq_true _⟩)⟩

end Sys2Proof.Machine

/-! The register formats: the values of their codes in order (R76). -/

namespace Sys2Proof.Machine

/-! ## The magnitudes of a format (R76) -/

/-- What the register formats share: normal codes begin at `2^mb`, and the infinity is the code after the largest finite one. -/
structure Fmt.Register (f : Fmt) : Prop where
  fraction : f.mb ≠ 0
  normal : 2 ^ f.mb ≤ f.maxFin
  inf : f.inf = some (f.maxFin + 1)
  fits : f.maxFin + 1 < 2 ^ (f.mb + f.eb)
  nan : canonNan f < 2 ^ (f.mb + f.eb)

theorem register_of_mem {f : Fmt} (h : f ∈ registerFmts) : f.Register := by
  simp only [registerFmts, List.mem_cons, List.not_mem_nil, or_false] at h
  rcases h with rfl | rfl | rfl <;> exact ⟨by decide, by decide, rfl, by decide, by decide⟩

/-- The exponent of the last place of a subnormal. -/
def Fmt.emin (f : Fmt) : Int := 1 - (f.bias : Int) - f.mb

/-- The value of a code without its sign, whether or not the format has room for it: from `2^mb` on, each `2^mb` codes double
the distance between neighbours. -/
def Fmt.magValue (f : Fmt) (k : Nat) : Rat :=
  ((k - (k / 2 ^ f.mb - 1) * 2 ^ f.mb : Nat) : Rat) * 2 ^ (f.emin + ((k / 2 ^ f.mb - 1 : Nat) : Int))

theorem magValue_eq (f : Fmt) {t r : Nat} (hr : r ≤ 2 ^ (f.mb + 1)) (ht : t = 0 ∨ 2 ^ f.mb ≤ r) :
    f.magValue (t * 2 ^ f.mb + r) = (r : Rat) * 2 ^ (f.emin + (t : Int)) := by
  have hp : 0 < 2 ^ f.mb := by positivity
  rw [pow_succ] at hr
  unfold Fmt.magValue
  rw [Nat.mul_comm t, Nat.mul_add_div hp]
  rcases Nat.lt_or_ge r (2 ^ f.mb) with h | h
  · obtain rfl : t = 0 := ht.resolve_right (by omega)
    simp [Nat.div_eq_of_lt h]
  rcases Nat.lt_or_ge r (2 ^ f.mb * 2) with h2 | h2
  · have hd : r / 2 ^ f.mb = 1 := Nat.div_eq_of_lt_le (by omega) (by omega)
    rw [hd, Nat.add_sub_cancel, Nat.mul_comm t, Nat.add_sub_cancel_left]
  · obtain rfl : r = 2 ^ f.mb * 2 := by omega
    rw [Nat.mul_div_cancel_left _ hp, show t + 2 - 1 = t + 1 by omega,
      show 2 ^ f.mb * t + 2 ^ f.mb * 2 - (t + 1) * 2 ^ f.mb = 2 ^ f.mb by
        rw [Nat.add_mul, Nat.mul_comm t]; omega,
      Nat.cast_succ, ← add_assoc, zpow_add₀ two_ne_zero _ 1]
    push_cast
    ring

/-- Every code is a multiple of the last place of its binade. -/
theorem exists_binade (f : Fmt) (k : Nat) : ∃ t r, k = t * 2 ^ f.mb + r ∧ r < 2 ^ (f.mb + 1) ∧ (t = 0 ∨ 2 ^ f.mb ≤ r) := by
  have hp : 0 < 2 ^ f.mb := by positivity
  have hk := Nat.div_add_mod' k (2 ^ f.mb)
  have hm := Nat.mod_lt k hp
  rw [pow_succ]
  cases hd : k / 2 ^ f.mb with
  | zero => exact ⟨0, k, by omega, by rw [hd] at hk; omega, .inl rfl⟩
  | succ t =>
    rw [hd, Nat.add_mul] at hk
    exact ⟨t, 2 ^ f.mb + k % 2 ^ f.mb, by omega, by omega, .inr (by omega)⟩

theorem magValue_strictMono (f : Fmt) : StrictMono f.magValue := by
  refine strictMono_nat_of_lt_succ fun k => ?_
  obtain ⟨t, r, rfl, hr, ht⟩ := exists_binade f k
  rw [magValue_eq f hr.le ht, Nat.add_assoc, magValue_eq f hr (ht.imp_right fun h => by omega)]
  have : (0 : Rat) < 2 ^ (f.emin + (t : Int)) := by positivity
  push_cast
  linarith

theorem magValue_nonneg (f : Fmt) (k : Nat) : 0 ≤ f.magValue k := by unfold Fmt.magValue; positivity

/-! ## Codes (R76) -/

/-- The factor of a sign. -/
def signFactor (neg : Bool) : Rat := if neg then -1 else 1

theorem exact_num (neg : Bool) (m : Nat) (e : Int) : (Val.num neg m e).exact = signFactor neg * ((m : Rat) * 2 ^ e) := mul_assoc _ _ _

theorem abs_signFactor_mul (neg : Bool) (x : Rat) : |signFactor neg * x| = |x| := by cases neg <;> simp [signFactor]

theorem signFactor_mul_self (neg : Bool) (x : Rat) : signFactor neg * (signFactor neg * x) = x := by cases neg <;> simp [signFactor]

/-- A code of a finite value holds its sign, and its other bits are at most the largest finite magnitude. -/
theorem decodeFp_num {f : Fmt} {c m : Nat} {neg : Bool} {e : Int} (h : decodeFp f c = .num neg m e) :
    c % 2 ^ (f.mb + f.eb) ≤ f.maxFin ∧ neg = c.testBit (f.mb + f.eb)
      ∧ (Val.num neg m e).exact = signFactor neg * f.magValue (c % 2 ^ (f.mb + f.eb)) := by
  unfold decodeFp at h
  generalize c % 2 ^ (f.mb + f.eb) = mag at *
  simp only [Nat.shiftRight_eq_div_pow] at h
  have hp : 0 < 2 ^ f.mb := by positivity
  have hk := Nat.div_add_mod' mag (2 ^ f.mb)
  have hm := Nat.mod_lt mag hp
  split at h
  case isFalse => split at h <;> cases h
  rename_i hfin
  split at h
  · rename_i h0
    obtain ⟨rfl, rfl, rfl⟩ := Val.num.inj h
    rw [h0] at hk
    refine ⟨hfin, rfl, ?_⟩
    rw [exact_num, show mag = 0 * 2 ^ f.mb + mag % 2 ^ f.mb by omega, magValue_eq f (by rw [pow_succ]; omega) (.inl rfl)]
    simp [Fmt.emin]
  · obtain ⟨rfl, rfl, rfl⟩ := Val.num.inj h
    refine ⟨hfin, rfl, ?_⟩
    obtain ⟨t, ht⟩ := Nat.exists_eq_succ_of_ne_zero ‹¬ mag / 2 ^ f.mb = 0›
    rw [ht, Nat.succ_mul] at hk
    have hv := magValue_eq f (t := t) (r := 2 ^ f.mb + mag % 2 ^ f.mb) (by rw [pow_succ]; omega) (.inr (by omega))
    rw [show t * 2 ^ f.mb + (2 ^ f.mb + mag % 2 ^ f.mb) = mag by omega] at hv
    rw [exact_num, hv, ht, Fmt.emin]
    congr 3
    push_cast
    ring

theorem signOf_add_mod {f : Fmt} (neg : Bool) {k : Nat} (hk : k < 2 ^ (f.mb + f.eb)) : (signOf f neg + k) % 2 ^ (f.mb + f.eb) = k := by
  cases neg <;> simp [signOf, Nat.mod_eq_of_lt hk]

theorem testBit_signOf_add {f : Fmt} (neg : Bool) {k : Nat} (hk : k < 2 ^ (f.mb + f.eb)) :
    (signOf f neg + k).testBit (f.mb + f.eb) = neg := by
  cases neg <;> simp [signOf, Nat.testBit_two_pow_add_eq, Nat.testBit_lt_two_pow hk]

/-- A magnitude up to the largest finite one, with a sign, is the code of a finite value. -/
theorem decodeFp_finite {f : Fmt} (hf : f.Register) (neg : Bool) {k : Nat} (hk : k ≤ f.maxFin) : ∃ m e,
    decodeFp f (signOf f neg + k) = .num neg m e ∧ (Val.num neg m e).exact = signFactor neg * f.magValue k := by
  have hlt : k < 2 ^ (f.mb + f.eb) := by have := hf.fits; omega
  have h : ∃ m e, decodeFp f (signOf f neg + k) = .num neg m e := by
    unfold decodeFp
    simp only [signOf_add_mod neg hlt, testBit_signOf_add neg hlt, if_pos hk]
    split <;> exact ⟨_, _, rfl⟩
  obtain ⟨m, e, h⟩ := h
  obtain ⟨-, -, hv⟩ := decodeFp_num h
  rw [signOf_add_mod neg hlt] at hv
  exact ⟨m, e, h, hv⟩

theorem decodeFp_infinity {f : Fmt} (hf : f.Register) (neg : Bool) : decodeFp f (signOf f neg + (f.maxFin + 1)) = .inf neg := by
  unfold decodeFp
  simp only [signOf_add_mod neg hf.fits, testBit_signOf_add neg hf.fits]
  rw [if_neg (by omega), if_pos hf.inf]

end Sys2Proof.Machine

/-! Rounding to a register format: the exact value lies between two neighbouring codes, and `roundTo` chooses one of them (R77, R80). -/

namespace Sys2Proof.Machine

/-! ## The two neighbours of a value (R80) -/

/-- Whether a value between two neighbouring magnitudes is rounded to the upper one, which has the code after `k` (R80). -/
def roundsAway (rm : Nat) (neg : Bool) (k : Nat) (lo x hi : Rat) : Bool :=
  if lo = x then false
  else match rm with
  | 0 => decide (hi - x < x - lo) || (decide (x - lo = hi - x) && k % 2 = 1)
  | 1 => false
  | 2 => neg
  | _ => !neg

/-- Rounding to a multiple of `2^q` chooses between the multiples on both sides. -/
theorem roundAt_spec (rm : Nat) (neg : Bool) (m : Nat) (e q : Int) : ∃ r : Nat,
    (r : Rat) * 2 ^ q ≤ m * 2 ^ e ∧ (m : Rat) * 2 ^ e < (r + 1 : Nat) * 2 ^ q
      ∧ roundAt rm neg m e q = (if roundsAway rm neg r (r * 2 ^ q) (m * 2 ^ e) ((r + 1 : Nat) * 2 ^ q) then r + 1 else r,
          decide ((r : Rat) * 2 ^ q = m * 2 ^ e)) := by
  have hpq : (0 : Rat) < 2 ^ q := by positivity
  have hpe : (0 : Rat) < 2 ^ e := by positivity
  unfold roundAt
  split
  · rename_i h
    have hv : ((m <<< (e - q).toNat : Nat) : Rat) * 2 ^ q = m * 2 ^ e := by
      rw [Nat.shiftLeft_eq, Nat.cast_mul, Nat.cast_pow, Nat.cast_ofNat, mul_assoc, ← zpow_natCast, ← zpow_add₀ two_ne_zero]
      congr 2
      omega
    refine ⟨m <<< (e - q).toNat, hv.le, ?_, ?_⟩
    · push_cast; linarith
    · simp [roundsAway, hv]
  · rename_i h
    obtain ⟨sh, hsh⟩ : ∃ sh : Nat, q = sh + e := ⟨(q - e).toNat, by omega⟩
    obtain rfl : sh = (q - e).toNat := by omega
    generalize (q - e).toNat = sh at *
    have hq : (2 : Rat) ^ q = 2 ^ sh * 2 ^ e := by rw [hsh, zpow_add₀ two_ne_zero, zpow_natCast]
    have hm : (m : Rat) = (m / 2 ^ sh : Nat) * 2 ^ sh + (m % 2 ^ sh : Nat) := by exact_mod_cast (Nat.div_add_mod' m (2 ^ sh)).symm
    have hlt : ((m % 2 ^ sh : Nat) : Rat) < 2 ^ sh := by exact_mod_cast Nat.mod_lt m (by positivity)
    simp only [Nat.shiftRight_eq_div_pow]
    generalize m / 2 ^ sh = r at *
    generalize m % 2 ^ sh = d at *
    have hlo : (m : Rat) * 2 ^ e - r * 2 ^ q = d * 2 ^ e := by rw [hm, hq]; ring
    have hhi : ((r + 1 : Nat) : Rat) * 2 ^ q - m * 2 ^ e = (2 ^ sh - d) * 2 ^ e := by rw [hm, hq]; push_cast; ring
    have hd : (0 : Rat) ≤ d * 2 ^ e := by positivity
    have hpos : 0 < (2 ^ sh - (d : Rat)) * 2 ^ e := mul_pos (by linarith) hpe
    have hexact : (r : Rat) * 2 ^ q = m * 2 ^ e ↔ d = 0 := by
      rw [eq_comm, ← sub_eq_zero, hlo]; simp [hpe.ne']
    have hup : roundsUp rm neg r d sh = roundsAway rm neg r (r * 2 ^ q) (m * 2 ^ e) ((r + 1 : Nat) * 2 ^ q) := by
      unfold roundsUp roundsAway
      rw [hlo, hhi]
      have hgt : (2 ^ sh - (d : Rat)) * 2 ^ e < d * 2 ^ e ↔ 2 * d > 2 ^ sh := by
        rw [mul_lt_mul_iff_left₀ hpe, sub_lt_iff_lt_add, ← two_mul]; exact_mod_cast Iff.rfl
      have heq : (d : Rat) * 2 ^ e = (2 ^ sh - d) * 2 ^ e ↔ 2 * d = 2 ^ sh := by
        rw [mul_left_inj' hpe.ne', eq_sub_iff_add_eq, ← two_mul]; exact_mod_cast Iff.rfl
      match rm with
      | 0 => simp only [hexact, hgt, heq]
      | 1 | 2 | _ + 3 => simp only [hexact]
    refine ⟨r, by linarith, by linarith, ?_⟩
    rw [hup, decide_eq_decide.mpr hexact]

/-- The magnitude `m * 2^e` rounded to a format without a largest code: the code, and whether it is exact. -/
def roundMag (f : Fmt) (rm : Nat) (neg : Bool) (m : Nat) (e : Int) : Nat × Bool :=
  let q := max ((Nat.log2 m : Int) + e - f.mb) f.emin
  let r := roundAt rm neg m e q
  (if r.1 < 2 ^ f.mb then r.1 else ((q - f.emin + 1).toNat <<< f.mb) + (r.1 - 2 ^ f.mb), r.2)

/-- An overflow goes to the infinity, and not to the largest finite value, where rounding leads away from zero (R80). -/
def overflows (rm : Nat) (neg : Bool) : Bool := match rm with
  | 0 => true
  | 1 => false
  | 2 => neg
  | _ => !neg

/-- What rounding a value that is not zero to a register format gives. -/
theorem roundTo_eq {f : Fmt} (hf : f.Register) (rm : Nat) (neg : Bool) {m : Nat} (hm : m ≠ 0) (e : Int) :
    roundTo f rm false neg m e =
      let r := roundMag f rm neg m e
      if r.1 ≤ f.maxFin then
        (signOf f neg + r.1, (if r.2 then 0 else flagFX) ||| (if !r.2 && decide (r.1 < 2 ^ f.mb) then flagFU else 0))
      else (signOf f neg + (if overflows rm neg then f.maxFin + 1 else f.maxFin), flagFO ||| flagFX) := by
  unfold roundTo
  rw [if_neg hm, hf.inf]
  rfl

theorem log2_bounds {m : Nat} (hm : m ≠ 0) (e : Int) :
    (2 : Rat) ^ ((Nat.log2 m : Int) + e) ≤ m * 2 ^ e ∧ (m : Rat) * 2 ^ e < 2 ^ ((Nat.log2 m : Int) + e + 1) := by
  have hpe : (0 : Rat) < 2 ^ e := by positivity
  rw [add_right_comm, zpow_add₀ two_ne_zero _ e, zpow_add₀ two_ne_zero _ e]
  refine ⟨mul_le_mul_of_nonneg_right ?_ hpe.le, mul_lt_mul_of_pos_right ?_ hpe⟩
  · exact_mod_cast Nat.log2_self_le hm
  · exact_mod_cast Nat.lt_log2_self (n := m)

theorem pow_mul_zpow (n : Nat) (q : Int) : ((2 ^ n : Nat) : Rat) * 2 ^ q = 2 ^ ((n : Int) + q) := by
  rw [Nat.cast_pow, Nat.cast_ofNat, ← zpow_natCast, ← zpow_add₀ two_ne_zero]

/-- At the exponent of the result's binade the quotient has at most `mb + 1` bits, and exactly so many above the subnormals. -/
theorem quotient_bounds {f : Fmt} {m r t : Nat} {e q : Int} (hm : m ≠ 0) (hq : max ((Nat.log2 m : Int) + e - f.mb) f.emin = q)
    (ht : q = f.emin + t) (hlo : (r : Rat) * 2 ^ q ≤ m * 2 ^ e) (hhi : (m : Rat) * 2 ^ e < (r + 1 : Nat) * 2 ^ q) :
    r < 2 ^ (f.mb + 1) ∧ (t = 0 ∨ 2 ^ f.mb ≤ r) := by
  obtain ⟨hlow, hhigh⟩ := log2_bounds hm e
  have hpq : (0 : Rat) < 2 ^ q := by positivity
  constructor
  · have h : (r : Rat) * 2 ^ q < (2 ^ (f.mb + 1) : Nat) * 2 ^ q := by
      rw [pow_mul_zpow]
      exact (hlo.trans_lt hhigh).trans_le (zpow_le_zpow_right₀ one_le_two (by omega))
    exact_mod_cast lt_of_mul_lt_mul_right h hpq.le
  · refine or_iff_not_imp_left.mpr fun ht0 => Nat.lt_succ_iff.mp ?_
    have h : ((2 ^ f.mb : Nat) : Rat) * 2 ^ q < (r + 1 : Nat) * 2 ^ q := by
      rw [pow_mul_zpow]
      exact lt_of_le_of_lt (zpow_le_zpow_right₀ one_le_two (by omega)) (hlow.trans_lt hhi)
    exact_mod_cast lt_of_mul_lt_mul_right h hpq.le

/-- The code of a multiple of a binade's last place. -/
theorem code_of_quotient {f : Fmt} {t x : Nat} (hx : t = 0 ∨ 2 ^ f.mb ≤ x) :
    (if x < 2 ^ f.mb then x else ((t + 1) <<< f.mb) + (x - 2 ^ f.mb)) = t * 2 ^ f.mb + x := by
  rw [Nat.shiftLeft_eq, Nat.add_mul]
  split
  · obtain rfl : t = 0 := hx.resolve_right (by omega)
    omega
  · omega

/-- A code is even where the quotient of its binade is. -/
theorem roundsAway_binade {f : Fmt} (hmb : f.mb ≠ 0) (rm : Nat) (neg : Bool) (t r : Nat) :
    roundsAway rm neg (t * 2 ^ f.mb + r) = roundsAway rm neg r := by
  obtain ⟨b, hb⟩ := Nat.exists_eq_succ_of_ne_zero hmb
  have h : (t * 2 ^ f.mb + r) % 2 = r % 2 := by rw [hb, pow_succ, ← mul_assoc]; omega
  unfold roundsAway
  rw [h]

/-- The rounded magnitude is one of the two neighbours of the exact one (R80). -/
theorem roundMag_spec {f : Fmt} (hmb : f.mb ≠ 0) (rm : Nat) (neg : Bool) {m : Nat} (hm : m ≠ 0) (e : Int) : ∃ k,
    f.magValue k ≤ m * 2 ^ e ∧ (m : Rat) * 2 ^ e < f.magValue (k + 1)
      ∧ roundMag f rm neg m e = (if roundsAway rm neg k (f.magValue k) (m * 2 ^ e) (f.magValue (k + 1)) then k + 1 else k,
          decide (f.magValue k = m * 2 ^ e)) := by
  unfold roundMag
  generalize hq : max ((Nat.log2 m : Int) + e - f.mb) f.emin = q
  obtain ⟨t, ht⟩ : ∃ t : Nat, q = f.emin + t := ⟨(q - f.emin).toNat, by omega⟩
  obtain ⟨r, hlo, hhi, hr⟩ := roundAt_spec rm neg m e q
  obtain ⟨hrlt, hrge⟩ := quotient_bounds hm hq ht hlo hhi
  have hrge' : t = 0 ∨ 2 ^ f.mb ≤ r + 1 := hrge.imp_right Nat.le_succ_of_le
  have hv : f.magValue (t * 2 ^ f.mb + r) = r * 2 ^ q := by rw [magValue_eq f hrlt.le hrge, ht]
  have hv' : f.magValue (t * 2 ^ f.mb + r + 1) = (r + 1 : Nat) * 2 ^ q := by rw [Nat.add_assoc, magValue_eq f hrlt hrge', ht]
  refine ⟨t * 2 ^ f.mb + r, by rwa [hv], by rwa [hv'], ?_⟩
  simp only [hv, hv', roundsAway_binade hmb, hr, show (q - f.emin + 1).toNat = t + 1 by omega]
  congr 1
  split
  · exact code_of_quotient hrge'
  · exact code_of_quotient hrge

/-- Rounding depends on the exact value alone. -/
theorem roundTo_congr {f : Fmt} (hf : f.Register) (rm : Nat) {neg neg' : Bool} {m m' : Nat} {e e' : Int} (hm : m ≠ 0)
    (h : (Val.num neg m e).exact = (Val.num neg' m' e').exact) : roundTo f rm false neg m e = roundTo f rm false neg' m' e' := by
  have hx : (0 : Rat) < m * 2 ^ e := by positivity
  have hx' : (0 : Rat) ≤ m' * 2 ^ e' := by positivity
  rw [exact_num, exact_num] at h
  have hv : (m : Rat) * 2 ^ e = m' * 2 ^ e' := by
    rw [← abs_of_pos hx, ← abs_of_nonneg hx', ← abs_signFactor_mul neg, h, abs_signFactor_mul]
  have hm' : m' ≠ 0 := by rintro rfl; rw [hv] at hx; simp at hx
  have hn : neg = neg' := by
    rw [hv] at h hx
    have := mul_right_cancel₀ hx.ne' h
    revert this
    cases neg <;> cases neg' <;> norm_num [signFactor]
  subst hn
  obtain ⟨k, hlo, hhi, hr⟩ := roundMag_spec hf.fraction rm neg hm e
  obtain ⟨k', hlo', hhi', hr'⟩ := roundMag_spec hf.fraction rm neg hm' e'
  rw [← hv] at hlo' hhi' hr'
  have h1 := (magValue_strictMono f).lt_iff_lt.mp (hlo.trans_lt hhi')
  have h2 := (magValue_strictMono f).lt_iff_lt.mp (hlo'.trans_lt hhi)
  obtain rfl : k = k' := by omega
  rw [roundTo_eq hf rm neg hm, roundTo_eq hf rm neg hm', hr, hr']

end Sys2Proof.Machine

/-! O14: the choice between the neighbours (R80, R83). -/

namespace Sys2Proof.Machine

/-! ## To nearest -/

theorem abs_sub_signFactor_mul (neg : Bool) (x y : Rat) : |y - signFactor neg * x| = |signFactor neg * y - x| := by
  rw [← abs_signFactor_mul neg (_ - x), mul_sub, signFactor_mul_self]

/-- No finite code has a value between two neighbouring magnitudes, of either sign. -/
theorem finite_outside {f : Fmt} {c m : Nat} {n : Bool} {e : Int} (h : decodeFp f c = .num n m e) (neg : Bool) (k : Nat) :
    signFactor neg * (Val.num n m e).exact ≤ f.magValue k ∨ f.magValue (k + 1) ≤ signFactor neg * (Val.num n m e).exact := by
  obtain ⟨-, -, hv⟩ := decodeFp_num h
  have h0 := magValue_nonneg f k
  have h1 := magValue_nonneg f (c % 2 ^ (f.mb + f.eb))
  have hs : ∀ x : Rat, signFactor neg * (signFactor n * x) = x ∨ signFactor neg * (signFactor n * x) = -x := by
    intro x; cases neg <;> cases n <;> simp [signFactor]
  rw [hv]
  rcases hs (f.magValue (c % 2 ^ (f.mb + f.eb))) with h | h
  · rw [h, (magValue_strictMono f).le_iff_le, (magValue_strictMono f).le_iff_le]
    omega
  · rw [h]
    left
    linarith

/-- No finite code has a magnitude beyond the largest. -/
theorem abs_finite_le {f : Fmt} {c m : Nat} {n : Bool} {e : Int} (h : decodeFp f c = .num n m e) :
    |(Val.num n m e).exact| ≤ f.magValue f.maxFin := by
  obtain ⟨hc, -, hv⟩ := decodeFp_num h
  rw [hv, abs_signFactor_mul, abs_of_nonneg (magValue_nonneg f _)]
  exact (magValue_strictMono f).monotone hc

/-- An overflow has an exact magnitude beyond the largest finite one. -/
theorem maxFin_lt_of_overflow {f : Fmt} {rm k : Nat} {neg : Bool} {x : Rat} (hlo : f.magValue k ≤ x)
    (h : f.maxFin < if roundsAway rm neg k (f.magValue k) x (f.magValue (k + 1)) then k + 1 else k) : f.magValue f.maxFin < x := by
  have hne : roundsAway rm neg k (f.magValue k) x (f.magValue (k + 1)) = true → f.magValue k ≠ x := by
    rintro h rfl; simp [roundsAway] at h
  split at h
  · rename_i ha
    exact ((magValue_strictMono f).monotone (Nat.lt_succ_iff.mp h)).trans_lt (lt_of_le_of_ne hlo (hne ha))
  · exact (magValue_strictMono f h).trans_le hlo

/-- To nearest, the upper neighbour is chosen where it is not further, and at a tie where its code is even. -/
theorem roundsAway_nearest {neg : Bool} {k : Nat} {lo x hi : Rat} (hhi : x < hi) :
    (roundsAway 0 neg k lo x hi = true ∧ hi - x ≤ x - lo ∧ (x - lo = hi - x → (k + 1) % 2 = 0))
      ∨ (roundsAway 0 neg k lo x hi = false ∧ x - lo ≤ hi - x ∧ (x - lo = hi - x → k % 2 = 0)) := by
  unfold roundsAway
  by_cases hx : lo = x
  · right
    subst hx
    refine ⟨if_pos rfl, by linarith, fun h => absurd h (by linarith)⟩
  rw [if_neg hx]
  rcases lt_trichotomy (x - lo) (hi - x) with h | h | h
  · simp [h.le, h.ne, h.not_gt]
  · simp only [h, lt_irrefl, decide_false, Bool.false_or, decide_true, Bool.true_and, decide_eq_true_eq, decide_eq_false_iff_not,
      le_refl, true_and, forall_const]
    omega
  · simp [h.le, h.ne', h]

/-- A neighbour that is not further than the other is nearest among all values not between them. -/
theorem nearest_of_outside {lo x hi y v : Rat} (hlo : lo ≤ x) (hhi : x < hi) (hy : y ≤ lo ∨ hi ≤ y)
    (hv : v = lo ∧ x - lo ≤ hi - x ∨ v = hi ∧ hi - x ≤ x - lo) :
    |v - x| ≤ |y - x| ∧ (|y - x| = |v - x| → y ≠ v → x - lo = hi - x) := by
  have hvx : |v - x| = x - lo ∧ x - lo ≤ hi - x ∧ v = lo ∨ |v - x| = hi - x ∧ hi - x ≤ x - lo ∧ v = hi := by
    rcases hv with ⟨rfl, h⟩ | ⟨rfl, h⟩
    · exact .inl ⟨by rw [abs_of_nonpos (by linarith)]; ring, h, rfl⟩
    · exact .inr ⟨abs_of_nonneg (by linarith), h, rfl⟩
  have hyx : |y - x| = x - y ∧ y ≤ lo ∨ |y - x| = y - x ∧ hi ≤ y := by
    rcases hy with h | h
    · exact .inl ⟨by rw [abs_of_nonpos (by linarith)]; ring, h⟩
    · exact .inr ⟨abs_of_nonneg (by linarith), h⟩
  rcases hvx with ⟨hv, hle, rfl⟩ | ⟨hv, hle, rfl⟩ <;> rcases hyx with ⟨hy, h⟩ | ⟨hy, h⟩ <;> rw [hv, hy] <;>
    refine ⟨by linarith, fun he hne => ?_⟩
  · exact absurd (by linarith) hne
  · linarith
  · linarith
  · exact absurd (by linarith) hne

/-- FX is among the flags of a value that does not overflow exactly when it is not the exact one. -/
theorem flagFX_iff (exact tiny : Bool) :
    ((if exact then 0 else flagFX) ||| (if !exact && tiny then flagFU else 0)) &&& flagFX = 0 ↔ exact = true := by
  cases exact <;> cases tiny <;> decide

theorem even_signOf_add {f : Fmt} (hmb : f.mb ≠ 0) (neg : Bool) (k : Nat) : (signOf f neg + k) % 2 = k % 2 := by
  obtain ⟨b, hb⟩ := Nat.exists_eq_succ_of_ne_zero hmb
  cases neg
  · simp [signOf]
  · have : 2 ^ (f.mb + f.eb) = 2 * 2 ^ (b + f.eb) := by rw [hb, ← pow_succ']; congr 1; omega
    simp only [signOf, if_true, this]
    omega

/-- Rounding to nearest (R80, R83). -/
theorem roundTo_nearest {f : Fmt} (hf : f.Register) (neg : Bool) {m : Nat} (hm : m ≠ 0) (e : Int) :
    let c := (roundTo f 0 false neg m e).1
    let x := (Val.num neg m e).exact
    (∃ n k g, decodeFp f c = .num n k g
        ∧ (∀ c' n' k' g', decodeFp f c' = .num n' k' g' →
            |(Val.num n k g).exact - x| ≤ |(Val.num n' k' g').exact - x|
            ∧ (|(Val.num n' k' g').exact - x| = |(Val.num n k g).exact - x| →
                (Val.num n' k' g').exact ≠ (Val.num n k g).exact → c % 2 = 0))
        ∧ ((roundTo f 0 false neg m e).2 &&& flagFX = 0 ↔ (Val.num n k g).exact = x))
      ∨ (decodeFp f c = .inf neg ∧ (roundTo f 0 false neg m e).2 = flagFO ||| flagFX
        ∧ ∀ c' n' k' g', decodeFp f c' = .num n' k' g' → |(Val.num n' k' g').exact| < |x|) := by
  obtain ⟨k, hlo, hhi, hr⟩ := roundMag_spec hf.fraction 0 neg hm e
  have hx : (0 : Rat) < m * 2 ^ e := by positivity
  rw [roundTo_eq hf 0 neg hm e, hr, exact_num]
  generalize (m : Rat) * 2 ^ e = x at *
  dsimp only
  generalize hmag : (if roundsAway 0 neg k (f.magValue k) x (f.magValue (k + 1)) = true then k + 1 else k) = mag
  have hnear : f.magValue mag = f.magValue k ∧ x - f.magValue k ≤ f.magValue (k + 1) - x
      ∨ f.magValue mag = f.magValue (k + 1) ∧ f.magValue (k + 1) - x ≤ x - f.magValue k := by
    rcases roundsAway_nearest (neg := neg) (k := k) (lo := f.magValue k) hhi with ⟨ha, h, -⟩ | ⟨ha, h, -⟩ <;>
      rw [ha] at hmag <;> subst hmag
    · exact .inr ⟨rfl, h⟩
    · exact .inl ⟨rfl, h⟩
  have heven : x - f.magValue k = f.magValue (k + 1) - x → mag % 2 = 0 := by
    rcases roundsAway_nearest (neg := neg) (k := k) (lo := f.magValue k) hhi with ⟨ha, -, h⟩ | ⟨ha, -, h⟩ <;>
      rw [ha] at hmag <;> subst hmag <;> exact h
  by_cases hfin : mag ≤ f.maxFin
  · left
    rw [if_pos hfin]
    obtain ⟨m', e', hd, hv⟩ := decodeFp_finite hf neg hfin
    refine ⟨neg, m', e', hd, fun c' n' k' g' hd' => ?_, ?_⟩
    · obtain ⟨hle, htie⟩ := nearest_of_outside hlo hhi (finite_outside hd' neg k) hnear
      rw [abs_sub_signFactor_mul, abs_sub_signFactor_mul, hv, signFactor_mul_self, even_signOf_add hf.fraction]
      refine ⟨hle, fun he hne => heven (htie he fun h => hne ?_)⟩
      rw [← h, signFactor_mul_self]
    · rw [flagFX_iff, decide_eq_true_eq, hv]
      have hlt : f.magValue k = x → mag = k := fun h => by rw [← hmag, h]; simp [roundsAway]
      constructor
      · intro h; rw [hlt h, h]
      · intro h
        have h' : f.magValue mag = x := by rw [← signFactor_mul_self neg (f.magValue mag), h, signFactor_mul_self]
        rcases hnear with ⟨h1, -⟩ | ⟨h1, h2⟩
        · rw [← h1, h']
        · linarith
  · right
    rw [if_neg hfin]
    refine ⟨decodeFp_infinity hf neg, rfl, fun c' n' k' g' hd' => ?_⟩
    rw [abs_signFactor_mul, abs_of_pos hx]
    subst hmag
    exact (abs_finite_le hd').trans_lt (maxFin_lt_of_overflow hlo (not_le.mp hfin))

/-! ## Directed -/

/-- The values that a directed rounding may give: toward zero, down, up (R80). -/
def onSide (rm : Nat) (x y : Rat) : Prop := if rm = 1 then |y| ≤ |x| ∧ 0 ≤ y * x else if rm = 2 then y ≤ x else x ≤ y

/-- Which neighbour a directed rounding chooses depends on its mode and the sign alone. -/
theorem roundsAway_directed {rm : Nat} (hrm : rm ≠ 0) (neg : Bool) (k : Nat) (lo x hi : Rat) :
    roundsAway rm neg k lo x hi = (decide (lo ≠ x) && overflows rm neg) := by
  unfold roundsAway overflows
  by_cases h : lo = x
  · simp [h]
  · rw [if_neg h]
    match rm, hrm with
    | 1, _ | 2, _ | _ + 3, _ => simp [h]

/-- A directed rounding away from zero: the values at or beyond the exact one. -/
theorem onSide_away {rm : Nat} {neg : Bool} (hrm : rm ∈ [1, 2, 3]) (h : overflows rm neg = true) (x y : Rat) :
    onSide rm (signFactor neg * x) y ↔ x ≤ signFactor neg * y := by
  simp only [List.mem_cons, List.not_mem_nil, or_false] at hrm
  rcases hrm with rfl | rfl | rfl <;> cases neg <;> simp_all [overflows, onSide, signFactor, le_neg]

/-- A directed rounding toward zero gives no value beyond the exact one, and may give each one between it and zero. -/
theorem onSide_toward {rm : Nat} {neg : Bool} (hrm : rm ∈ [1, 2, 3]) (h : overflows rm neg = false) {x : Rat} (hx : 0 < x) (y : Rat) :
    (onSide rm (signFactor neg * x) y → signFactor neg * y ≤ x)
      ∧ (0 ≤ signFactor neg * y → signFactor neg * y ≤ x → onSide rm (signFactor neg * x) y) := by
  simp only [List.mem_cons, List.not_mem_nil, or_false] at hrm
  rcases hrm with rfl | rfl | rfl
  · obtain ⟨z, rfl⟩ : ∃ z, y = signFactor neg * z := ⟨signFactor neg * y, (signFactor_mul_self neg y).symm⟩
    have hmul : signFactor neg * z * (signFactor neg * x) = z * x := by cases neg <;> simp [signFactor]
    simp only [onSide, if_true, abs_signFactor_mul, signFactor_mul_self, hmul, abs_of_pos hx]
    exact ⟨fun h => (le_abs_self z).trans h.1, fun h0 h => ⟨by rwa [abs_of_nonneg h0], mul_nonneg h0 hx.le⟩⟩
  · cases neg <;> simp_all [overflows, onSide, signFactor]
  · cases neg <;> simp_all [overflows, onSide, signFactor, neg_le]

/-- A code that a directed rounding of x may give: the finite code nearest to x on its side, or the infinity of the sign of x in
rounding toward it, where no finite code lies on that side (R80). -/
def RoundedOnSide (f : Fmt) (rm : Nat) (neg : Bool) (x : Rat) (c : Nat) : Prop :=
  (∃ n k g, decodeFp f c = .num n k g ∧ onSide rm x (Val.num n k g).exact
      ∧ ∀ c' n' k' g', decodeFp f c' = .num n' k' g' → onSide rm x (Val.num n' k' g').exact →
          |(Val.num n k g).exact - x| ≤ |(Val.num n' k' g').exact - x|)
    ∨ (decodeFp f c = .inf neg ∧ (rm = 2 ∧ neg = true ∨ rm = 3 ∧ neg = false)
      ∧ ∀ c' n' k' g', decodeFp f c' = .num n' k' g' → ¬ onSide rm x (Val.num n' k' g').exact)

theorem signed_finite_le {f : Fmt} {c m : Nat} {n : Bool} {e : Int} (h : decodeFp f c = .num n m e) (neg : Bool) :
    signFactor neg * (Val.num n m e).exact ≤ f.magValue f.maxFin :=
  (le_abs_self _).trans ((abs_signFactor_mul neg _).le.trans (abs_finite_le h))

/-- Away from zero: the least magnitude not below the exact one, or the infinity. -/
theorem roundTo_away {f : Fmt} (hf : f.Register) {rm : Nat} (hrm : rm ∈ [1, 2, 3]) {neg : Bool} (hd : overflows rm neg = true)
    {m : Nat} (hm : m ≠ 0) (e : Int) : RoundedOnSide f rm neg (Val.num neg m e).exact (roundTo f rm false neg m e).1 := by
  have hrm0 : rm ≠ 0 := by rintro rfl; simp at hrm
  obtain ⟨k, hlo, hhi, hr⟩ := roundMag_spec hf.fraction rm neg hm e
  have hover := maxFin_lt_of_overflow (f := f) (rm := rm) (neg := neg) hlo
  rw [roundTo_eq hf rm neg hm e, hr, exact_num, RoundedOnSide]
  simp only [onSide_away hrm hd]
  generalize (m : Rat) * 2 ^ e = x at *
  simp only [roundsAway_directed hrm0, hd, Bool.and_true, decide_eq_true_eq, if_true] at hover ⊢
  generalize hmag : (if f.magValue k ≠ x then k + 1 else k) = mag at *
  by_cases hfin : mag ≤ f.maxFin
  · left
    rw [if_pos hfin]
    obtain ⟨m', e', hc, hv⟩ := decodeFp_finite hf neg hfin
    obtain ⟨hge, hleast⟩ : x ≤ f.magValue mag
        ∧ ∀ y, y ≤ f.magValue k ∨ f.magValue (k + 1) ≤ y → x ≤ y → f.magValue mag ≤ y := by
      subst hmag
      split
      · rename_i hne
        exact ⟨hhi.le, fun y hy hxy => hy.resolve_left fun h => hne (le_antisymm hlo (hxy.trans h))⟩
      · rename_i heq
        exact ⟨(not_ne_iff.mp heq).ge, fun y _ hxy => hlo.trans hxy⟩
    refine ⟨neg, m', e', hc, by rwa [hv, signFactor_mul_self], fun c' n' k' g' hd' hs => ?_⟩
    have hle := hleast _ (finite_outside hd' neg k) hs
    rw [abs_sub_signFactor_mul, abs_sub_signFactor_mul, hv, signFactor_mul_self, abs_of_nonneg (by linarith), abs_of_nonneg (by linarith)]
    linarith
  · right
    rw [if_neg hfin]
    refine ⟨decodeFp_infinity hf neg, ?_, fun c' n' k' g' hd' hs => ?_⟩
    · simp only [List.mem_cons, List.not_mem_nil, or_false] at hrm
      rcases hrm with rfl | rfl | rfl <;> simp_all [overflows]
    · exact (hover (not_le.mp hfin)).not_ge (hs.trans (signed_finite_le hd' neg))

/-- Toward zero: the largest finite magnitude that does not exceed the exact one. -/
theorem roundTo_toward {f : Fmt} (hf : f.Register) {rm : Nat} (hrm : rm ∈ [1, 2, 3]) {neg : Bool} (hd : overflows rm neg = false)
    {m : Nat} (hm : m ≠ 0) (e : Int) : RoundedOnSide f rm neg (Val.num neg m e).exact (roundTo f rm false neg m e).1 := by
  have hrm0 : rm ≠ 0 := by rintro rfl; simp at hrm
  obtain ⟨k, hlo, hhi, hr⟩ := roundMag_spec hf.fraction rm neg hm e
  have hx : (0 : Rat) < m * 2 ^ e := by positivity
  rw [roundTo_eq hf rm neg hm e, hr, exact_num]
  generalize (m : Rat) * 2 ^ e = x at *
  obtain ⟨mag, hfin, hcode, hle, hlargest⟩ : ∃ mag, mag ≤ f.maxFin
      ∧ (if k ≤ f.maxFin then signOf f neg + k else signOf f neg + f.maxFin) = signOf f neg + mag ∧ f.magValue mag ≤ x
      ∧ ∀ y, y ≤ f.magValue f.maxFin → y ≤ f.magValue k ∨ f.magValue (k + 1) ≤ y → y ≤ x → y ≤ f.magValue mag := by
    by_cases h : k ≤ f.maxFin
    · exact ⟨k, h, if_pos h, hlo, fun y _ hy hyx => hy.resolve_right fun h => (h.trans hyx).not_gt hhi⟩
    · exact ⟨f.maxFin, le_rfl, if_neg h, ((magValue_strictMono f).monotone (by omega)).trans hlo, fun y hy _ _ => hy⟩
  obtain ⟨m', e', hc, hv⟩ := decodeFp_finite hf neg hfin
  simp only [roundsAway_directed hrm0, hd, Bool.and_false, Bool.false_eq_true, if_false, apply_ite Prod.fst, hcode]
  refine .inl ⟨neg, m', e', hc, ?_, fun c' n' k' g' hd' hs => ?_⟩
  · refine (onSide_toward hrm hd hx _).2 ?_ ?_ <;> rw [hv, signFactor_mul_self]
    exacts [magValue_nonneg f _, hle]
  · have hs' := (onSide_toward hrm hd hx _).1 hs
    have hle' := hlargest _ (signed_finite_le hd' neg) (finite_outside hd' neg k) hs'
    rw [abs_sub_signFactor_mul, abs_sub_signFactor_mul, hv, signFactor_mul_self, abs_of_nonpos (by linarith), abs_of_nonpos (by linarith)]
    linarith

/-- Settles O14: the rounded magnitude is one of the two neighbours of the exact one, and no finite code lies between them. -/
theorem rounding : Obligations.Rounding := by
  unfold Obligations.Rounding
  refine ⟨fun f neg m e hf hm => roundTo_nearest (register_of_mem hf) neg hm e, fun f rm neg m e hf hrm hm => ?_⟩
  cases hd : overflows rm neg with
  | true => exact roundTo_away (register_of_mem hf) hrm hd hm e
  | false => exact roundTo_toward (register_of_mem hf) hrm hd hm e

end Sys2Proof.Machine

/-! Exact sums, products and orders of float values (R76, R77, R79), and codes within the width of their format. -/

namespace Sys2Proof.Machine

/-! ## Exact values -/

theorem addScaled_exact (n1 : Bool) (m1 : Nat) (e1 : Int) (n2 : Bool) (m2 : Nat) (e2 : Int) :
    ((addScaled n1 m1 e1 n2 m2 e2).1 : Rat) * 2 ^ (addScaled n1 m1 e1 n2 m2 e2).2
      = (Val.num n1 m1 e1).exact + (Val.num n2 m2 e2).exact := by
  have hshift : ∀ (m : Nat) (e d : Int), d ≤ e → ((m <<< (e - d).toNat : Nat) : Rat) * 2 ^ d = m * 2 ^ e := fun m e d h => by
    rw [Nat.shiftLeft_eq, Nat.cast_mul, mul_assoc, pow_mul_zpow, show ((e - d).toNat : Int) + d = e by omega]
  have h1 := hshift m1 e1 (min e1 e2) (min_le_left _ _)
  have h2 := hshift m2 e2 (min e1 e2) (min_le_right _ _)
  rw [exact_num, exact_num, ← h1, ← h2]
  dsimp only [addScaled, signFactor]
  generalize m1 <<< (e1 - min e1 e2).toNat = a
  generalize m2 <<< (e2 - min e1 e2).toNat = b
  cases n1 <;> cases n2 <;> simp [add_mul]

theorem negVal_num_exact (n : Bool) (m : Nat) (e : Int) : (Val.num (!n) m e).exact = -(Val.num n m e).exact := by
  cases n <;> simp [exact_num, signFactor]

theorem mul_num_exact (n1 : Bool) (m1 : Nat) (e1 : Int) (n2 : Bool) (m2 : Nat) (e2 : Int) :
    (Val.num (n1 != n2) (m1 * m2) (e1 + e2)).exact = (Val.num n1 m1 e1).exact * (Val.num n2 m2 e2).exact := by
  rw [exact_num, exact_num, exact_num, zpow_add₀ two_ne_zero, Nat.cast_mul]
  cases n1 <;> cases n2 <;> simp [signFactor] <;> ring

/-- A signed integer and its exponent, as sign and magnitude. -/
theorem exact_of_int (t e : Int) : (Val.num (decide (t < 0)) t.natAbs e).exact = t * 2 ^ e := by
  rw [exact_num, Nat.cast_natAbs]
  by_cases h : t < 0
  · simp [signFactor, h, abs_of_neg h]
  · simp [signFactor, h, abs_of_nonneg (not_lt.mp h)]

theorem exact_ne_zero {neg : Bool} {m : Nat} {e : Int} (hm : m ≠ 0) : (Val.num neg m e).exact ≠ 0 := by
  rw [exact_num]
  cases neg <;> simp [signFactor, hm, zpow_ne_zero]

/-- A sum that is not zero is the exact sum, rounded. -/
theorem addFin_of_exact {f : Fmt} (hf : f.Register) (rm : Nat) {n1 n2 neg : Bool} {m1 m2 m : Nat} {e1 e2 e : Int} (hm : m ≠ 0)
    (h : (Val.num neg m e).exact = (Val.num n1 m1 e1).exact + (Val.num n2 m2 e2).exact) :
    addFin f rm n1 m1 e1 n2 m2 e2 = roundTo f rm false neg m e := by
  have hsum := addScaled_exact n1 m1 e1 n2 m2 e2
  unfold addFin
  generalize addScaled n1 m1 e1 n2 m2 e2 = r at *
  rw [← h] at hsum
  have ht : r.1 ≠ 0 := fun h0 => exact_ne_zero hm (by rw [← hsum, h0]; simp)
  dsimp only
  rw [if_neg ht]
  exact (roundTo_congr hf rm hm (by rw [exact_of_int, hsum])).symm

/-! ## Operands without FTZ (R81) -/

theorem ftzIn_false (f : Fmt) (v : Val) : ftzIn false f v = v := by cases v <;> rfl

theorem fpIn_of_not_ftz {ctl : Word} (h : fpFtz ctl = false) (f : Fmt) (x : Nat) : fpIn f ctl x = decodeFp f x := by
  rw [fpIn, h, ftzIn_false]

theorem ftzOut_false (f : Fmt) (r : Nat × Word) : ftzOut false f r = r := rfl

/-! ## Codes within their format's width -/

theorem signOf_add_lt {f : Fmt} (neg : Bool) {k : Nat} (hk : k < 2 ^ (f.mb + f.eb)) : signOf f neg + k < 2 ^ (f.mb + f.eb + 1) := by
  rw [pow_succ]
  cases neg <;> simp only [signOf, if_true, Bool.false_eq_true, if_false] <;> omega

theorem signOf_lt (f : Fmt) (neg : Bool) : signOf f neg < 2 ^ (f.mb + f.eb + 1) := signOf_add_lt neg (k := 0) (by positivity)

section
variable {f : Fmt} (hf : f.Register)
include hf

theorem canonNan_lt : canonNan f < 2 ^ (f.mb + f.eb + 1) := hf.nan.trans (Nat.pow_lt_pow_right (by decide) (by omega))

theorem infOf_lt (neg : Bool) : infOf f neg < 2 ^ (f.mb + f.eb + 1) := by
  rw [infOf, hf.inf]
  exact signOf_add_lt neg hf.fits

theorem roundTo_code_lt (rm : Nat) (neg : Bool) (m : Nat) (e : Int) : (roundTo f rm false neg m e).1 < 2 ^ (f.mb + f.eb + 1) := by
  by_cases hm : m = 0
  · unfold roundTo
    rw [if_pos hm]
    exact signOf_lt f neg
  · rw [roundTo_eq hf rm neg hm]
    have hfits := hf.fits
    dsimp only
    split
    · exact signOf_add_lt neg (by omega)
    · exact signOf_add_lt neg (ite_lt_of_lt (by omega) (by omega))

theorem addFin_lt (rm : Nat) (n1 : Bool) (m1 : Nat) (e1 : Int) (n2 : Bool) (m2 : Nat) (e2 : Int) :
    (addFin f rm n1 m1 e1 n2 m2 e2).1 < 2 ^ (f.mb + f.eb + 1) := fst_ite_lt (signOf_lt f _) (roundTo_code_lt hf rm _ _ _)

/-- What the sum of two infinities gives (R133). -/
theorem infinities_lt (a b : Bool) : (if a == b then (infOf f a, 0) else (canonNan f, flagFI)).1 < 2 ^ (f.mb + f.eb + 1) :=
  fst_ite_lt (infOf_lt hf a) (canonNan_lt hf)

theorem fpAdd_lt (rm : Nat) (x y : Val) : (fpAdd f rm x y).1 < 2 ^ (f.mb + f.eb + 1) := by
  cases x with
  | nan s => exact canonNan_lt hf
  | inf a => cases y with
    | nan s => exact canonNan_lt hf
    | inf b => exact infinities_lt hf a b
    | num n m e => exact infOf_lt hf a
  | num n1 m1 e1 => cases y with
    | nan s => exact canonNan_lt hf
    | inf b => exact infOf_lt hf b
    | num n2 m2 e2 => exact addFin_lt hf rm n1 m1 e1 n2 m2 e2

theorem fpMul_lt (rm : Nat) (x y : Val) : (fpMul f rm x y).1 < 2 ^ (f.mb + f.eb + 1) := by
  unfold fpMul
  cases mulVal x y with
  | nan s => exact canonNan_lt hf
  | inf n => exact infOf_lt hf n
  | num n m e => exact roundTo_code_lt hf rm n m e

end

/-- A fused sum gives the code that the sum of the exact product and the third operand gives. -/
theorem fpFma_fst (f : Fmt) (rm : Nat) (x y z : Val) : (fpFma f rm x y z).1 = (fpAdd f rm (mulVal x y) z).1 := by
  unfold fpFma fpAdd
  cases mulVal x y <;> cases z <;> rfl

theorem ftzOut_lt (f : Fmt) (ftz : Bool) {r : Nat × Word} (hr : r.1 < 2 ^ (f.mb + f.eb + 1)) :
    (ftzOut ftz f r).1 < 2 ^ (f.mb + f.eb + 1) := fst_ite_lt (signOf_lt f _) hr

theorem ftzCode_lt (f : Fmt) (ftz : Bool) {c : Nat} (hc : c < 2 ^ (f.mb + f.eb + 1)) : ftzCode ftz f c < 2 ^ (f.mb + f.eb + 1) :=
  ite_lt_of_lt (signOf_lt f _) hc

/-- `FMIN` and `FMAX` give the canonical NaN or one of the operands as they are read (R79). -/
theorem fpMinMax_cases (f : Fmt) (ftz isMax : Bool) (a b : Nat) :
    (fpMinMax f ftz isMax a b).1 = canonNan f ∨ (fpMinMax f ftz isMax a b).1 = ftzCode ftz f a
      ∨ (fpMinMax f ftz isMax a b).1 = ftzCode ftz f b := by
  unfold fpMinMax
  dsimp only
  split
  · exact .inl rfl
  · exact .inr (.inr rfl)
  · exact .inr (.inl rfl)
  · dsimp only
    split
    · exact .inr (.inl rfl)
    · exact .inr (.inr rfl)

theorem fpMinMax_lt {f : Fmt} (hf : f.Register) (ftz isMax : Bool) {a b : Nat}
    (ha : a < 2 ^ (f.mb + f.eb + 1)) (hb : b < 2 ^ (f.mb + f.eb + 1)) :
    (fpMinMax f ftz isMax a b).1 < 2 ^ (f.mb + f.eb + 1) := by
  rcases fpMinMax_cases f ftz isMax a b with h | h | h <;> rw [h]
  exacts [canonNan_lt hf, ftzCode_lt f ftz ha, ftzCode_lt f ftz hb]

/-- Each operation of R132 gives a code of its format. -/
theorem op_lt {f : Fmt} (hf : f.Register) {op : FpOp} (hop : op ∈ [opAdd, opSub, opMul, opFma, opMin, opMax]) (ctl : Word)
    {a b : Nat} (c : Nat) (ha : a < 2 ^ (f.mb + f.eb + 1)) (hb : b < 2 ^ (f.mb + f.eb + 1)) : (op f ctl a b c).1 < 2 ^ (f.mb + f.eb + 1) := by
  simp only [List.mem_cons, List.not_mem_nil, or_false] at hop
  rcases hop with rfl | rfl | rfl | rfl | rfl | rfl
  · exact ftzOut_lt f _ (fpAdd_lt hf _ _ _)
  · exact ftzOut_lt f _ (fpAdd_lt hf _ _ _)
  · exact ftzOut_lt f _ (fpMul_lt hf _ _ _)
  · exact ftzOut_lt f _ ((fpFma_fst _ _ _ _ _).trans_lt (fpAdd_lt hf _ _ _))
  · exact fpMinMax_lt hf _ _ ha hb
  · exact fpMinMax_lt hf _ _ ha hb

end Sys2Proof.Machine

/-! O13: sums and products are exact, then rounded (R77). -/

namespace Sys2Proof.Machine

/-- Sums, differences, products and fused sums of finite operands without FTZ (R77). -/
theorem op_exact {f : Fmt} (hf : f.Register) {ctl : Word} (hz : fpFtz ctl = false) {a b c : Nat} {nx ny nz neg : Bool} {mx my mz m : Nat}
    {ex ey ez e : Int} (hx : decodeFp f a = .num nx mx ex) (hy : decodeFp f b = .num ny my ey) (hc : decodeFp f c = .num nz mz ez)
    (hm : m ≠ 0) :
    let v := (Val.num neg m e).exact
    let r := roundTo f (fpRm ctl) false neg m e
    let x := (Val.num nx mx ex).exact
    let y := (Val.num ny my ey).exact
    (v = x + y → opAdd f ctl a b c = r) ∧ (v = x - y → opSub f ctl a b c = r) ∧ (v = x * y → opMul f ctl a b c = r)
      ∧ (v = x * y + (Val.num nz mz ez).exact → opFma f ctl a b c = r) := by
  unfold opAdd opSub opMul opFma
  simp only [hz, ftzOut_false, fpIn_of_not_ftz hz, hx, hy, hc]
  refine ⟨fun h => addFin_of_exact hf _ hm h, fun h => addFin_of_exact hf _ hm ?_, fun h => ?_, fun h => addFin_of_exact hf _ hm ?_⟩
  · rw [h, negVal_num_exact, sub_eq_add_neg]
  · exact (roundTo_congr hf _ hm (h.trans (mul_num_exact ..).symm)).symm
  · rw [h, mul_num_exact]

/-- The halves of a packed result are those of its elements. -/
theorem packed_halves {f : Fmt} {op : FpOp} {ctl x y z : Word}
    (hlo : (op f ctl (x.toNat % 65536) (y.toNat % 65536) (z.toNat % 65536)).1 < 65536)
    (hhi : (op f ctl (x.toNat / 65536) (y.toNat / 65536) (z.toNat / 65536)).1 < 65536) :
    (packed f op ctl x y z).1.toNat % 65536 = (op f ctl (x.toNat % 65536) (y.toNat % 65536) (z.toNat % 65536)).1
      ∧ (packed f op ctl x y z).1.toNat / 65536 = (op f ctl (x.toNat / 65536) (y.toNat / 65536) (z.toNat / 65536)).1 := by
  simp only [packed, BitVec.toNat_ofNat]
  omega

/-- Settles O13: the sum of the scaled integers is the exact one, and rounding depends on the exact value alone. -/
theorem exactThenRounded : Obligations.ExactThenRounded := by
  unfold Obligations.ExactThenRounded
  constructor
  · rintro f ctl a b c x y z hf hz hx hy hc ⟨nx, mx, ex, rfl⟩ ⟨ny, my, ey, rfl⟩ ⟨nz, mz, ez, rfl⟩ neg m e hm
    exact op_exact (register_of_mem hf) hz hx.symm hy.symm hc.symm hm
  · intro f op ctl x y z hf hop
    obtain ⟨hreg, hw⟩ : f.Register ∧ 2 ^ (f.mb + f.eb + 1) = 65536 := by
      refine ⟨register_of_mem (List.mem_cons_of_mem _ hf), ?_⟩
      simp only [List.mem_cons, List.not_mem_nil, or_false] at hf
      rcases hf with rfl | rfl <;> rfl
    have hlt : ∀ a b c, a < 65536 → b < 65536 → (op f ctl a b c).1 < 65536 := fun a b c ha hb => by
      rw [← hw] at ha hb ⊢
      exact op_lt hreg hop ctl c ha hb
    have hx := x.isLt
    have hy := y.isLt
    obtain ⟨hlo, hhi⟩ := packed_halves (hlt _ _ (z.toNat % 65536) (Nat.mod_lt _ (by decide)) (Nat.mod_lt _ (by decide)))
      (hlt (x.toNat / 65536) (y.toNat / 65536) (z.toNat / 65536) (by omega) (by omega))
    exact ⟨hlo, hhi, rfl⟩

end Sys2Proof.Machine

/-! O12: minima and maxima (R79, R81). -/

namespace Sys2Proof.Machine

/-! ## Operands as they are read (R81) -/

/-- A code within its format's width is its sign and its magnitude. -/
theorem eq_signOf_add (f : Fmt) {c : Nat} (hc : c < 2 ^ (f.mb + f.eb + 1)) :
    c = signOf f (c.testBit (f.mb + f.eb)) + c % 2 ^ (f.mb + f.eb) := by
  rw [pow_succ] at hc
  rcases Nat.lt_or_ge c (2 ^ (f.mb + f.eb)) with h | h
  · simp [Nat.testBit_lt_two_pow h, Nat.mod_eq_of_lt h, signOf]
  · obtain ⟨k, rfl⟩ := Nat.exists_eq_add_of_le h
    have hk : k < 2 ^ (f.mb + f.eb) := by omega
    simp [Nat.testBit_two_pow_add_eq, Nat.testBit_lt_two_pow hk, Nat.mod_eq_of_lt hk, signOf]

theorem magValue_zero (f : Fmt) : f.magValue 0 = 0 := by simp [Fmt.magValue]

theorem magValue_normal (f : Fmt) : f.magValue (2 ^ f.mb) = 2 ^ (1 - (f.bias : Int)) := by
  have h := magValue_eq f (t := 0) (r := 2 ^ f.mb) (Nat.pow_le_pow_right (by decide) (by omega)) (.inl rfl)
  rw [Nat.zero_mul, Nat.zero_add, pow_mul_zpow] at h
  rw [h, Fmt.emin]
  congr 1
  push_cast
  ring

theorem magnitude_of_num {f : Fmt} {c m : Nat} {n : Bool} {e : Int} (h : decodeFp f c = .num n m e) :
    (m : Rat) * 2 ^ e = f.magValue (c % 2 ^ (f.mb + f.eb)) := by
  obtain ⟨-, -, hv⟩ := decodeFp_num h
  rw [exact_num] at hv
  rw [← signFactor_mul_self n (m * 2 ^ e), hv, signFactor_mul_self]

theorem num_eq_zero_iff {f : Fmt} {c m : Nat} {n : Bool} {e : Int} (h : decodeFp f c = .num n m e) :
    m = 0 ↔ c % 2 ^ (f.mb + f.eb) = 0 := by
  rw [← (magValue_strictMono f).injective.eq_iff (a := c % 2 ^ (f.mb + f.eb)) (b := 0), magValue_zero, ← magnitude_of_num h]
  simp [zpow_ne_zero]

/-- A value lies below a power of two exactly when its leading bit does. -/
theorem log2_add_lt_iff {m : Nat} (hm : m ≠ 0) (e n : Int) : (Nat.log2 m : Int) + e < n ↔ (m : Rat) * 2 ^ e < 2 ^ n := by
  obtain ⟨hlo, hhi⟩ := log2_bounds hm e
  constructor
  · exact fun h => hhi.trans_le (zpow_le_zpow_right₀ one_le_two h)
  · exact fun h => (zpow_lt_zpow_iff_right₀ one_lt_two).mp (hlo.trans_lt h)

/-- Subnormals are the codes below the normal ones, but for the zeros. -/
theorem isSubnormal_decodeFp {f : Fmt} (hf : f.Register) (c : Nat) :
    isSubnormal f (decodeFp f c) = true ↔ c % 2 ^ (f.mb + f.eb) ≠ 0 ∧ c % 2 ^ (f.mb + f.eb) < 2 ^ f.mb := by
  cases h : decodeFp f c with
  | num n m e =>
    simp only [isSubnormal, Bool.and_eq_true, decide_eq_true_eq]
    rw [ne_eq, ne_eq, ← num_eq_zero_iff h]
    refine and_congr_right fun hm => ?_
    rw [log2_add_lt_iff hm, magnitude_of_num h, ← magValue_normal, (magValue_strictMono f).lt_iff_lt]
  | nan s | inf n =>
    have hbig : ¬ c % 2 ^ (f.mb + f.eb) ≤ f.maxFin := fun hle => by
      unfold decodeFp at h
      simp only [if_pos hle] at h
      split at h <;> cases h
    have hn := hf.normal
    simp only [isSubnormal, Bool.false_eq_true, false_iff]
    omega

/-- What an operand is read as (R81). -/
theorem ftzCode_eq_flushed {f : Fmt} (hf : f.Register) (ftz : Bool) {c : Nat} (hc : c < 2 ^ (f.mb + f.eb + 1)) :
    ftzCode ftz f c = flushed f ftz c := by
  unfold ftzCode flushed
  simp only [Bool.and_eq_true, isSubnormal_decodeFp hf]
  have h := eq_signOf_add f hc
  by_cases h0 : c % 2 ^ (f.mb + f.eb) = 0
  · simp [h0]
  · simp only [h0, ne_eq, not_false_eq_true, true_and]
    split
    · omega
    · rfl

/-! ## The order of values (R79) -/

theorem ltVal_num_iff (n1 : Bool) (m1 : Nat) (e1 : Int) (n2 : Bool) (m2 : Nat) (e2 : Int) :
    ltVal (.num n1 m1 e1) (.num n2 m2 e2) = true ↔ (Val.num n1 m1 e1).exact < (Val.num n2 m2 e2).exact := by
  have h := addScaled_exact n1 m1 e1 (!n2) m2 e2
  rw [negVal_num_exact, ← sub_eq_add_neg] at h
  rw [← sub_neg, ← h, ltVal, decide_eq_true_eq, mul_neg_iff]
  simp [zpow_pos, (zpow_pos (two_pos (α := Rat)) _).not_gt]

theorem le_of_ltVal {x y : Val} (h : ltVal x y = true) : x.le y := by
  cases x <;> cases y
  case num.num => exact ((ltVal_num_iff ..).mp h).le
  all_goals simp_all [ltVal, Val.le]

theorem le_of_not_ltVal {x y : Val} (hx : isNan x = false) (hy : isNan y = false) (h : ltVal x y = false) : y.le x := by
  cases x <;> cases y
  case num.num => exact not_lt.mp fun hlt => by rw [(ltVal_num_iff ..).mpr hlt] at h; cases h
  case inf.inf a b => cases a <;> cases b <;> simp_all [ltVal, Val.le]
  all_goals simp_all [ltVal, Val.le, isNan]

theorem Val.le_refl {x : Val} (hx : isNan x = false) : x.le x := by
  cases x with
  | nan s => cases hx
  | inf n => cases n <;> simp [Val.le]
  | num n m e => exact le_rfl (a := (Val.num n m e).exact)

theorem le_of_isZero {x y : Val} (hx : isZero x = true) (hy : isZero y = true) : x.le y := by
  cases x <;> cases y <;> simp_all [isZero, Val.le, Val.exact]

/-- Two zeros of different codes differ in sign. -/
theorem isNeg_ne_of_zeros {f : Fmt} {x y : Nat} (hx : x < 2 ^ (f.mb + f.eb + 1)) (hy : y < 2 ^ (f.mb + f.eb + 1))
    (hzx : isZero (decodeFp f x) = true) (hzy : isZero (decodeFp f y) = true) (hne : x ≠ y) :
    isNeg (decodeFp f y) = !isNeg (decodeFp f x) := by
  have hcode : ∀ c, c < 2 ^ (f.mb + f.eb + 1) → isZero (decodeFp f c) = true → c = signOf f (isNeg (decodeFp f c)) := by
    intro c hc hz
    have h := eq_signOf_add f hc
    cases hd : decodeFp f c with
    | nan s | inf n => rw [hd] at hz; cases hz
    | num n m e =>
      rw [hd, isZero, beq_iff_eq, num_eq_zero_iff hd] at hz
      obtain ⟨-, rfl, -⟩ := decodeFp_num hd
      rwa [hz] at h
  have hcx := hcode x hx hzx
  have hcy := hcode y hy hzy
  generalize isNeg (decodeFp f x) = a at *
  generalize isNeg (decodeFp f y) = b at *
  cases a <;> cases b
  case false.false | true.true => exact absurd (hcx.trans hcy.symm) hne
  all_goals rfl

theorem ltVal_of_zeros {x y : Val} (hx : isZero x = true) (hy : isZero y = true) : ltVal x y = false := by
  cases x <;> cases y <;> simp_all [isZero, ltVal, addScaled]

/-! ## The words (R79) -/

/-- Does the first operand lie below the second, with −0 below +0? -/
def belowVal (x y : Val) : Bool := ltVal x y || (isZero x && isZero y && isNeg x && !isNeg y)

/-- The result by the operands as they are read. -/
theorem fpMinMax_fst {f : Fmt} (hf : f.Register) (ftz isMax : Bool) {a b : Nat}
    (ha : a < 2 ^ (f.mb + f.eb + 1)) (hb : b < 2 ^ (f.mb + f.eb + 1)) :
    let x := flushed f ftz a
    let y := flushed f ftz b
    let r := (fpMinMax f ftz isMax a b).1
    (isNan (decodeFp f x) = true → isNan (decodeFp f y) = true → r = canonNan f)
    ∧ (isNan (decodeFp f x) = true → isNan (decodeFp f y) = false → r = y)
    ∧ (isNan (decodeFp f x) = false → isNan (decodeFp f y) = true → r = x)
    ∧ (isNan (decodeFp f x) = false → isNan (decodeFp f y) = false →
      r = if belowVal (decodeFp f x) (decodeFp f y) != isMax then x else y) := by
  unfold fpMinMax
  rw [ftzCode_eq_flushed hf ftz ha, ftzCode_eq_flushed hf ftz hb]
  dsimp only
  refine ⟨fun hx hy => ?_, fun hx hy => ?_, fun hx hy => ?_, fun hx hy => ?_⟩ <;> rw [hx, hy]
  rfl

/-- An operand at or below another, and the other, by what `FMIN` and `FMAX` compare. -/
theorem belowVal_le {x y : Val} (hx : isNan x = false) (hy : isNan y = false) : if belowVal x y then x.le y else y.le x := by
  unfold belowVal
  cases h : ltVal x y
  · split
    · rename_i hz
      simp only [Bool.false_or, Bool.and_eq_true] at hz
      obtain ⟨⟨⟨hzx, hzy⟩, -⟩, -⟩ := hz
      exact le_of_isZero hzx hzy
    · exact le_of_not_ltVal hx hy h
  · exact le_of_ltVal h

theorem belowVal_of_zeros {x y : Val} (hx : isZero x = true) (hy : isZero y = true) (hne : isNeg y = !isNeg x) :
    belowVal x y = isNeg x := by
  rw [belowVal, ltVal_of_zeros hx hy, hx, hy, hne]
  cases isNeg x <;> rfl

theorem flushed_lt (f : Fmt) (ftz : Bool) {c n : Nat} (hc : c < n) : flushed f ftz c < n :=
  ite_lt_of_lt (by omega) hc

/-- Settles O12: the operands are read with FTZ, and the smaller is the one below the other. -/
theorem minMaxOperands : Obligations.MinMaxOperands := by
  unfold Obligations.MinMaxOperands
  intro f op isMax ctl a b c hmem hop ha hb
  have hr : (op f ctl a b c).1 = (fpMinMax f (fpFtz ctl) isMax a b).1 := by
    simp only [List.mem_cons, List.not_mem_nil, or_false, Prod.mk.injEq] at hop
    rcases hop with ⟨rfl, rfl⟩ | ⟨rfl, rfl⟩ <;> rfl
  obtain ⟨h1, h2, h3, h4⟩ := fpMinMax_fst (register_of_mem hmem) (fpFtz ctl) isMax ha hb
  have hxlt := flushed_lt f (fpFtz ctl) ha
  have hylt := flushed_lt f (fpFtz ctl) hb
  rw [← hr] at h1 h2 h3 h4
  generalize (op f ctl a b c).1 = r at *
  generalize flushed f (fpFtz ctl) a = x at *
  generalize flushed f (fpFtz ctl) b = y at *
  refine ⟨h1, h2, h3, fun hx hy => ?_, fun d v w k => ⟨⟨rfl, rfl⟩, ⟨rfl, rfl⟩, rfl, rfl⟩⟩
  have hle := belowVal_le hx hy
  have hzeros := fun zx zy hne => belowVal_of_zeros (x := decodeFp f x) (y := decodeFp f y) zx zy (isNeg_ne_of_zeros hxlt hylt zx zy hne)
  have hsecond : ∀ zx zy hne, isNeg (decodeFp f y) = !belowVal (decodeFp f x) (decodeFp f y) := fun zx zy hne => by
    rw [hzeros zx zy hne, isNeg_ne_of_zeros hxlt hylt zx zy hne]
  rw [h4 hx hy]
  cases hbelow : belowVal (decodeFp f x) (decodeFp f y) <;> rw [hbelow] at hle hzeros hsecond <;> cases isMax
  case false.false =>
    exact ⟨.inr rfl, fun _ => ⟨hle, Val.le_refl hy⟩, nofun, hsecond⟩
  case false.true => exact ⟨.inl rfl, nofun, fun _ => ⟨Val.le_refl hx, hle⟩, fun zx zy hne => (hzeros zx zy hne).symm⟩
  case true.false => exact ⟨.inl rfl, fun _ => ⟨Val.le_refl hx, hle⟩, nofun, fun zx zy hne => (hzeros zx zy hne).symm⟩
  case true.true =>
    exact ⟨.inr rfl, nofun, fun _ => ⟨hle, Val.le_refl hy⟩, hsecond⟩

end Sys2Proof.Machine

/-! O19: what the participants of a collective receive (R99, R100, R169, R170). -/

namespace Sys2Proof.Machine

/-! ## Participants -/

/-- At a lane stands at most one participant. -/
theorem partAt_eq_some_iff {ps : List Part1} (h : (ps.map Part1.lane).Pairwise (· < ·)) {l : Nat} {q : Part1} :
    partAt ps l = some q ↔ q ∈ ps ∧ q.lane = l := by
  induction ps with
  | nil => simp [partAt]
  | cons p ps ih =>
    obtain ⟨hp, hps⟩ := List.pairwise_cons.mp h
    have hlt : ∀ q ∈ ps, p.lane < q.lane := fun q hq => hp _ (List.mem_map_of_mem hq)
    unfold partAt at ih ⊢
    rw [List.find?_cons]
    by_cases hl : p.lane = l
    · simp only [beq_iff_eq.mpr hl, Option.some.injEq, List.mem_cons]
      exact ⟨fun e => ⟨.inl e.symm, e ▸ hl⟩, fun ⟨hm, e⟩ => hm.elim Eq.symm fun hm => by have := hlt q hm; omega⟩
    · simp only [beq_eq_false_iff_ne.mpr hl, ih hps, List.mem_cons]
      exact ⟨fun ⟨hm, e⟩ => ⟨.inr hm, e⟩, fun ⟨hm, e⟩ => ⟨hm.resolve_left fun h => hl (h ▸ e), e⟩⟩

theorem partAt_eq_none_iff {ps : List Part1} {l : Nat} : partAt ps l = none ↔ ∀ q ∈ ps, q.lane ≠ l := by simp [partAt]

/-! ## Reductions (R99) -/

/-- Combining neighbours first makes one more level of the tree. -/
theorem treeAt_pairs (op : Nat → Nat → Nat) (y : Nat → Nat) (k l : Nat) :
    treeAt op (fun i => op (y (2 * i)) (y (2 * i + 1))) k l = treeAt op y (k + 1) (2 * l) := by
  induction k generalizing l with
  | zero => rfl
  | succ k ih =>
    rw [treeAt, ih, ih, Nat.mul_add, ← pow_succ']
    rfl

theorem tree_eq_treeAt (op : Nat → Nat → Nat) (d k : Nat) (y : Nat → Nat) :
    tree op d k ((List.range (2 ^ k)).map y) = treeAt op y k 0 := by
  induction k generalizing y with
  | zero => rfl
  | succ k ih =>
    rw [← Nat.mul_zero 2, ← treeAt_pairs, ← ih, tree, List.length_map, List.length_range, pow_succ, Nat.mul_div_cancel _ two_pos]
    congr 1
    refine List.map_congr_left fun i hi => ?_
    have := List.mem_range.mp hi
    rw [List.getD_eq_getElem _ _ (by simp; omega), List.getD_eq_getElem _ _ (by simp; omega)]
    simp

theorem reduce_eq_treeAt {ps : List Part1} (h : (ps.map Part1.lane).Pairwise (· < ·)) (op : Nat → Nat → Nat) (identity : Nat) {y : Nat → Nat}
    (hy : ∀ l, (∀ q ∈ ps, q.lane = l → y l = q.x.toNat) ∧ ((∀ q ∈ ps, q.lane ≠ l) → y l = identity)) :
    reduce op identity ps = treeAt op y 6 0 := by
  rw [← tree_eq_treeAt op identity]
  unfold reduce
  congr 1
  refine List.map_congr_left fun l _ => ?_
  obtain ⟨hmem, hnone⟩ := hy l
  cases hp : partAt ps l with
  | some q =>
    obtain ⟨hq, hl⟩ := (partAt_eq_some_iff h).mp hp
    exact (hmem q hq hl).symm
  | none => exact (hnone (partAt_eq_none_iff.mp hp)).symm

/-! ## Scans (R100) -/

/-- The participants below a lane and the one at it. -/
theorem filter_lane_succ {ps : List Part1} (h : (ps.map Part1.lane).Pairwise (· < ·)) (n : Nat) :
    (ps.filter fun q => q.lane < n + 1) = (ps.filter fun q => q.lane < n) ++ (partAt ps n).toList := by
  induction ps with
  | nil => rfl
  | cons p ps ih =>
    obtain ⟨hp, hps⟩ := List.pairwise_cons.mp h
    have hlt : ∀ q ∈ ps, p.lane < q.lane := fun q hq => hp _ (List.mem_map_of_mem hq)
    have hempty : ∀ m, m ≤ p.lane + 1 → (ps.filter fun q => q.lane < m) = [] := fun m hm =>
      List.filter_eq_nil_iff.mpr fun q hq => by have := hlt q hq; simp; omega
    rcases Nat.lt_trichotomy p.lane n with hl | hl | hl
    · have hne : (p.lane == n) = false := by simp; omega
      rw [List.filter_cons_of_pos (by simp; omega), List.filter_cons_of_pos (by simpa using hl), ih hps, partAt, partAt, List.find?_cons, hne]
      rfl
    · rw [List.filter_cons_of_pos (by simp; omega), List.filter_cons_of_neg (by simp; omega), hempty _ (by omega), hempty _ (by omega),
        partAt, List.find?_cons, beq_iff_eq.mpr hl]
      rfl
    · have hnone : partAt (p :: ps) n = none := partAt_eq_none_iff.mpr fun q hq => by
        rcases List.mem_cons.mp hq with rfl | hq
        · omega
        · have := hlt q hq; omega
      rw [hnone, List.filter_cons_of_neg (by simp; omega), List.filter_cons_of_neg (by simp; omega), hempty _ (by omega), hempty _ (by omega)]
      rfl

/-- What a serial scan has summed below a lane. -/
def sumBelow (op : Nat → Nat → Nat) (identity : Nat) (ps : List Part1) (n : Nat) : Nat :=
  (ps.filter fun q => q.lane < n).foldl (fun a q => op a q.x.toNat) identity

theorem sumBelow_succ {ps : List Part1} (h : (ps.map Part1.lane).Pairwise (· < ·)) (op : Nat → Nat → Nat) (identity n : Nat) :
    sumBelow op identity ps (n + 1) = match partAt ps n with
      | some p => op (sumBelow op identity ps n) p.x.toNat
      | none => sumBelow op identity ps n := by
  unfold sumBelow
  rw [filter_lane_succ h, List.foldl_append]
  cases partAt ps n <;> rfl

/-- One lane of a scan: the sum so far, and what the lanes so far receive. -/
def scanLane (op : Nat → Nat → Nat) (ps : List Part1) (acc : Nat × List (Nat × Word)) (l : Nat) : Nat × List (Nat × Word) :=
  match partAt ps l with
  | some p => (op acc.1 p.x.toNat, acc.2 ++ [(l, BitVec.ofNat 32 (op acc.1 p.x.toNat))])
  | none => acc

theorem scan_eq (op : Nat → Nat → Nat) (identity : Nat) (ps : List Part1) :
    scan op identity ps = ((List.range 64).foldl (scanLane op ps) (identity, [])).2 := rfl

/-- A scan of the first lanes: its sum, and that each participant there has received the sum up to its lane. -/
theorem scanLane_foldl {ps : List Part1} (h : (ps.map Part1.lane).Pairwise (· < ·)) (op : Nat → Nat → Nat) (identity n : Nat) :
    ((List.range n).foldl (scanLane op ps) (identity, [])).1 = sumBelow op identity ps n
      ∧ ∀ p ∈ ps, p.lane < n →
        (p.lane, BitVec.ofNat 32 (sumBelow op identity ps (p.lane + 1))) ∈ ((List.range n).foldl (scanLane op ps) (identity, [])).2 := by
  induction n with
  | zero => exact ⟨by simp [sumBelow], fun p _ hp => absurd hp (Nat.not_lt_zero _)⟩
  | succ n ih =>
    obtain ⟨hsum, hmem⟩ := ih
    rw [List.range_succ, List.foldl_append, List.foldl_cons, List.foldl_nil, scanLane, sumBelow_succ h, hsum]
    cases hp : partAt ps n with
    | none =>
      refine ⟨hsum, fun p hm hlt => hmem p hm ?_⟩
      have := partAt_eq_none_iff.mp hp p hm
      omega
    | some q =>
      refine ⟨rfl, fun p hm hlt => List.mem_append.mpr ?_⟩
      rcases Nat.lt_succ_iff_lt_or_eq.mp hlt with hlt | rfl
      · exact .inl (hmem p hm hlt)
      · right
        rw [sumBelow_succ h, hp]
        exact List.mem_singleton_self _

theorem mem_scan {ps : List Part1} (h : (ps.map Part1.lane).Pairwise (· < ·)) (op : Nat → Nat → Nat) (identity : Nat)
    {p : Part1} (hp : p ∈ ps) (hl : p.lane < 64) :
    (p.lane, BitVec.ofNat 32 ((ps.filter fun q => q.lane ≤ p.lane).foldl (fun a q => op a q.x.toNat) identity)) ∈ scan op identity ps := by
  have hmem := (scanLane_foldl h op identity 64).2 p hp hl
  simp only [sumBelow, Nat.lt_succ_iff] at hmem
  rwa [scan_eq]

/-! ## Shuffles (R169) -/

theorem shuffleSource_eq (f lane n width : Nat) : shuffleSource f lane n width =
    if 0 ≤ shuffleFrom f lane n ∧ shuffleFrom f lane n < width then some (shuffleFrom f lane n).toNat else none := by
  unfold shuffleSource shuffleFrom
  rfl

theorem mem_shuffle {ps : List Part1} (h : (ps.map Part1.lane).Pairwise (· < ·)) {width : Nat} (hw : ∀ p ∈ ps, p.lane < width) (f : Nat)
    {p : Part1} (hp : p ∈ ps) :
    let source := shuffleFrom f p.lane (p.n.toNat % width)
    (∀ q ∈ ps, (q.lane : Int) = source → (p.lane, q.x) ∈ shuffle f width ps)
      ∧ ((∀ q ∈ ps, (q.lane : Int) ≠ source) → (p.lane, p.x) ∈ shuffle f width ps) := by
  unfold shuffle
  simp only [shuffleSource_eq]
  constructor
  · intro q hq hs
    refine List.mem_map.mpr ⟨p, hp, ?_⟩
    have hlt := hw q hq
    rw [← hs, if_pos (by omega), Int.toNat_natCast, Option.bind_some, (partAt_eq_some_iff h).mpr ⟨hq, rfl⟩]
  · intro hs
    refine List.mem_map.mpr ⟨p, hp, ?_⟩
    by_cases hin : 0 ≤ shuffleFrom f p.lane (p.n.toNat % width) ∧ shuffleFrom f p.lane (p.n.toNat % width) < width
    · rw [if_pos hin, Option.bind_some, partAt_eq_none_iff.mpr fun q hq e => hs q hq (by omega)]
    · rw [if_neg hin]
      rfl

theorem collective_shuffle {f : Nat} (hf : f < 4) (width : Nat) (ps : List Part1) : collective f width ps = shuffle f width ps := by
  match f, hf with
  | 0, _ | 1, _ | 2, _ | 3, _ => rfl

/-! ## `BALLOT` (R170) -/

theorem mem_insertBy {α : Type} (le : α → α → Bool) (x y : α) (l : List α) : y ∈ insertBy le x l ↔ y = x ∨ y ∈ l := by
  induction l with
  | nil => simp [insertBy]
  | cons z r ih =>
    unfold insertBy
    split
    · simp
    · simp only [List.mem_cons, ih]; tauto

theorem mem_sortBy {α : Type} (le : α → α → Bool) (y : α) (l : List α) : y ∈ sortBy le l ↔ y ∈ l := by
  induction l with
  | nil => simp [sortBy]
  | cons x r ih =>
    rw [List.mem_cons, ← ih]
    exact mem_insertBy le x y _

theorem getLsbD_laneMask (ls : List Nat) {i : Nat} (hi : i < 64) : (laneMask ls).getLsbD i = decide (i ∈ ls) := by
  have key : ∀ (ls : List Nat) (m : DWord),
      (ls.foldl (fun m l => m ||| BitVec.ofNat 64 (2 ^ l)) m).getLsbD i = (m.getLsbD i || decide (i ∈ ls)) := by
    intro ls
    induction ls with
    | nil => simp
    | cons l ls ih =>
      intro m
      have hbit : (BitVec.ofNat 64 (2 ^ l)).getLsbD i = decide (i = l) := by
        rw [BitVec.getLsbD_ofNat, Nat.testBit_two_pow, decide_eq_true hi, Bool.true_and]
        exact decide_eq_decide.mpr eq_comm
      rw [List.foldl_cons, ih, BitVec.getLsbD_or, hbit, Bool.or_assoc, ← Bool.decide_or]
      simp only [List.mem_cons]
  simpa [laneMask] using key ls 0

/-- The fields of `BALLOT`'s word. -/
theorem ballot_fields {k : BitVec 6} {a : BitVec 3} {w : Word} (h : encode false (.ballot k a) = some w) :
    (shufFields w).1 = 6 ∧ (shufFields w).2.2.2 % 8 = a.toNat ∧ bits w.toNat 23 18 = k.toNat := by
  have hk := k.isLt
  have ha := a.isLt
  have hw : w.toNat = 0x18000006 + k.toNat * 2 ^ 18 + a.toNat * 2 ^ 11 := by
    rw [← Option.some.inj h, BitVec.toNat_ofNat]
    simp only [enc, List.foldl_cons, List.foldl_nil, Bool.false_eq_true, if_false]
    omega
  simp only [shufFields, bits, hw, Nat.shiftRight_eq_div_pow]
  omega

/-- What the performance of `BALLOT` makes of the lanes that wait at it. -/
theorem ballot_lanes (s : State) (t : Team) (g width : Nat) (w : Word) (lanes : List Nat) :
    ((((collective 6 width ((sortBy (fun a b => decide (a ≤ b)) lanes).map fun l => s.partOf t g l w)).map
        fun r => (g, r.1, r.2.toNat)).filter fun r => r.2.2 != 0).map fun r => r.2.1)
      = (sortBy (fun a b => decide (a ≤ b)) lanes).filter fun l => s.rdP t g l ((shufFields w).2.2.2 % 8) := by
  induction sortBy (fun a b => decide (a ≤ b)) lanes with
  | nil => rfl
  | cons l ls ih =>
    simp only [collective, List.map_cons, List.filter_cons, State.partOf] at ih ⊢
    cases s.rdP t g l ((shufFields w).2.2.2 % 8) <;> simpa using ih

/-- A scalar pair holds the two halves of what is written to it. -/
theorem peek_pairWrites (now lat : Nat) (t : Team) {g k : Nat} (hg : (t.group? g).isSome = true) (hk : k ≠ 0) (x : DWord) :
    let u := (pairWrites g k x).foldl (Team.write now lat) t
    u.peek (.s g (2 * k)) = (x.setWidth 32).setWidth 64 ∧ u.peek (.s g (2 * k + 1)) = x >>> 32 := by
  have hws : pairWrites g k x = [(.s g (2 * k), (x.setWidth 32).setWidth 64), (.s g (2 * k + 1), x >>> 32)] := if_neg hk
  have hplain : ∀ n, n ≠ 0 → (RegId.s g n).plain = true := fun n hn => by simp [RegId.plain, hn]
  have hgood : ∀ w ∈ pairWrites g k x, goodWrite w := by
    rw [hws]
    intro w hw
    simp only [List.mem_cons, List.not_mem_nil, or_false] at hw
    rcases hw with rfl | rfl <;> exact .inl (hplain _ (by omega))
  constructor
  · rw [Team.foldl_write_self now lat _ t hgood (.s g (2 * k)) _ (hplain _ (by omega)) hg (by rw [hws]; exact List.mem_cons_self)]
    · simp [RegId.trim]
    · rw [hws]
      simp
  · rw [Team.foldl_write_self now lat _ t hgood (.s g (2 * k + 1)) (x >>> 32) (hplain _ (by omega)) hg (by rw [hws]; simp)]
    · simp only [RegId.trim]
      apply BitVec.eq_of_toNat_eq
      have := x.isLt
      simp only [BitVec.toNat_setWidth, BitVec.toNat_ushiftRight, Nat.shiftRight_eq_div_pow]
      omega
    · rw [hws]
      simp

/-- A team that takes the place of another with its key. -/
theorem State.team?_modTeam_const (s : State) {t u : Team} (ht : s.team? t.key = some t) (hu : u.key = t.key) :
    (s.modTeam t.key fun _ => u).team? t.key = some u := by
  have h : (s.modTeam t.key fun _ => u).team? t.key = (s.team? t.key).map fun _ => u :=
    find?_updIf _ _ s.teams fun _ _ => by simp [hu]
  rw [h, ht, Option.map_some]

/-- `BALLOT` writes the pair of its group. -/
theorem performColl_ballot {s : State} {t : Team} {g : Nat} {lanes : List Nat} {k : BitVec 6} {a : BitVec 3} {w : Word}
    (ht : s.team? t.key = some t) (hg : (t.group? g).isSome = true) (hwf : (Instr.ballot k a).wf = true) (hk : k ≠ 0)
    (hw : encode false (.ballot k a) = some w) :
    let m := laneMask ((sortBy (fun a b => decide (a ≤ b)) lanes).filter fun l => s.rdP t g l a.toNat)
    (s.performColl t.key g w lanes).reg t.key (.s g k.toNat) = (m.setWidth 32).setWidth 64
      ∧ (s.performColl t.key g w lanes).reg t.key (.s g (k.toNat + 1)) = m >>> 32 := by
  obtain ⟨hf, ha, hbits⟩ := ballot_fields hw
  have heven : k.toNat % 2 = 0 := by
    by_contra h
    simp [Instr.wf, Instr.fieldError, FieldError.unless, h] at hwf
  have hne : k.toNat ≠ 0 := fun h => hk (BitVec.eq_of_toNat_eq h)
  intro m
  obtain ⟨u, hkey, hug, hperform⟩ : ∃ u : Team, u.key = t.key ∧ u.group? g = t.group? g ∧ s.performColl t.key g w lanes
      = s.modTeam t.key fun _ => (pairWrites g (k.toNat / 2) m).foldl (Team.write s.now Config.latColl) u := by
    refine ⟨t.collResults ((collective 6 (s.width t) ((sortBy (fun a b => decide (a ≤ b)) lanes).map fun l => s.partOf t g l w)).map
      fun r => (g, r.1, r.2.toNat)), rfl, rfl, ?_⟩
    unfold State.performColl
    rw [ht]
    simp only [hf, if_true, ballot_lanes, ha, hbits]
    rfl
  have hpair := peek_pairWrites s.now Config.latColl u (g := g) (k := k.toNat / 2) (by rw [hug, hg]) (by omega) m
  rw [show 2 * (k.toNat / 2) = k.toNat by omega] at hpair
  rw [hperform, State.reg, State.reg, State.team?_modTeam_const s ht (by rw [Team.foldl_write_key, hkey])]
  exact hpair

/-- Settles O19. -/
theorem collectiveResults : Obligations.CollectiveResults := by
  unfold Obligations.CollectiveResults
  refine ⟨fun ps width hps hw hwidth p hp => ⟨fun f op identity hf y hy => ?_, fun f op identity hf => ?_, fun f hf => ?_, ?_, ?_⟩,
    fun s t g lanes k a w ht hg hwf hk he _ _ => ?_⟩
  · simp only [laneOps, List.mem_cons, List.not_mem_nil, or_false, Prod.mk.injEq] at hf
    rw [← reduce_eq_treeAt hps op identity hy]
    rcases hf with ⟨rfl, rfl, rfl⟩ | ⟨rfl, rfl, rfl⟩ | ⟨rfl, rfl, rfl⟩ | ⟨rfl, rfl, rfl⟩ <;> exact List.mem_map.mpr ⟨p, hp, rfl⟩
  · have hl : p.lane < 64 := (hw p hp).trans_le (by omega)
    have hmem := mem_scan hps op identity hp hl
    simp only [scanOps, List.mem_cons, List.not_mem_nil, or_false, Prod.mk.injEq] at hf
    rcases hf with ⟨rfl, rfl, rfl⟩ | ⟨rfl, rfl, rfl⟩ <;> exact hmem
  · rw [collective_shuffle hf]
    exact mem_shuffle hps hw f hp
  · exact List.mem_map.mpr ⟨p, hp, by split <;> rfl⟩
  · exact List.mem_map.mpr ⟨p, hp, by split <;> rfl⟩
  · obtain ⟨hlo, hhi⟩ := performColl_ballot (lanes := lanes) ht hg hwf hk he
    refine ⟨_, hlo, hhi, fun l hl => ?_⟩
    rw [getLsbD_laneMask _ hl]
    simp only [List.mem_filter, mem_sortBy, Bool.decide_and, Bool.decide_eq_true]

end Sys2Proof.Machine

/-! O11: a load with acquire in a word already noted to be issued again raises no `MISALIGN` (R186, R198). -/

namespace Sys2Proof.Machine

/-- The misaligned access of `oddState` in a word that is already noted to be issued again. -/
def retriedOddState : State := { oddState false with cur := { (oddState false).cur with retry := true } }

/-- The load with acquire of four bytes at address 2: `execLd` lets a word that is to be issued again raise its faults then. -/
theorem retriedOddState_no_handler : ∃ s', exec (.ld 8 0 9 2 1) retriedOddState = .next s'
    ∧ ((s'.team? 2).bind fun u => u.thread? 0 0).map Thread.handler = some false := ⟨_, rfl, by decide⟩

/-- The premises of the third clause hold of it. -/
theorem meets_retriedOddState : ∃ gr th sp, retriedOddState.MayTrap (oddTeam false) 0 0 gr th 0x104 sp
    ∧ retriedOddState.readTeam = some (oddTeam false) ∧ retriedOddState.members = [(0, 0)]
    ∧ (∃ c, retriedOddState.ctxOf (oddTeam false) = some c) ∧ retriedOddState.Unchunked
    ∧ misaligned (retriedOddState.addressOf (oddTeam false) 0 0 0 9) 4 = true := by
  have ⟨sp, hs⟩ := ok_of (e := retriedOddState.privRange (oddTeam false) 0 .store 0 64) (by decide)
  exact ⟨_, _, sp, ⟨rfl, rfl, ⟨_, rfl, rfl⟩, rfl, rfl, by decide, rfl, rfl, hs⟩, rfl, by decide, ⟨_, rfl⟩,
    ⟨by decide, by decide⟩, by decide⟩

/-- Refutes O11: its third clause does not take the note `retry` of the word at issue to be clear. In `retriedOddState`, where it is
set, the misaligned load with acquire leaves its thread outside its handler, where the clause says that it enters it. Before each word
that the machine performs the note is clear, so no run of the machine shows this. -/
theorem not_trappingOperands : ¬ Obligations.TrappingOperands := by
  unfold Obligations.TrappingOperands
  rintro ⟨-, -, h⟩
  obtain ⟨gr, th, sp, htrap, hread, hmembers, ⟨c, hctx⟩, hfree, hmis⟩ := meets_retriedOddState
  obtain ⟨hload, -⟩ := h (.ld 8 0 9 2 1) retriedOddState (oddTeam false) c 0 0 gr th 0x104 sp 0 9 4 htrap hread hmembers hctx hfree rfl hmis
  obtain ⟨s', hexec, hentered⟩ := hload fun hdone => hdone.1 _ _ _ _ _ rfl
  obtain ⟨s1, hexec1, hhandler⟩ := retriedOddState_no_handler
  rw [hexec1] at hexec
  cases hexec
  obtain ⟨u, x, hu, hx, rfl, -⟩ := hentered.thread
  rw [show (2 : Nat) = (oddTeam false).key from rfl, hu, Option.bind_some, hx] at hhandler
  cases hhandler

end Sys2Proof.Machine

/-! O23: threads filed in trays (R157, R158, R161). -/

namespace Sys2Proof.Machine

/-! ## Changes of one team, one after another -/

theorem State.modTeam_modTeam (s : State) (k : Nat) (f f' : Team → Team) (hf : ∀ t, (f t).key = t.key) :
    (s.modTeam k f).modTeam k f' = s.modTeam k fun t => f' (f t) := by
  unfold State.modTeam updIf
  simp only [List.map_map]
  congr 1
  refine List.map_congr_left fun t _ => ?_
  by_cases h : t.key = k <;> simp [h, hf t]

theorem State.team?_modTeam_some {s : State} {k : Nat} {t : Team} (ht : s.team? k = some t) (f : Team → Team)
    (hf : ∀ u, (f u).key = u.key) : (s.modTeam k f).team? k = some (f t) := by
  rw [State.team?_modTeam s k f hf, ht, Option.map_some]

/-- A change of one thread, as a change of the threads of a list. -/
theorem Team.modThreads_singleton (t : Team) (g l : Nat) (f : Thread → Thread) :
    (t.modThreads [(g, l)] fun _ => f) = t.modThread g l f := by
  unfold Team.modThreads Team.modThread Team.modGroup Group.modThread updIf
  congr 1
  refine List.map_congr_left fun x _ => ?_
  by_cases h : x.gid = g
  · simp [h]
  · simp [h, Ne.symm h]

/-- No register holds a PC. -/
theorem Team.peek_setPc (t : Team) (g l : Nat) (pc : DWord) (r : RegId) :
    (t.modThread g l fun x => { x with pc := pc }).peek r = t.peek r :=
  Team.peek_modThread t g l _ r (fun _ => rfl) (fun _ _ _ => rfl) (fun _ _ _ => rfl) fun k _ x => by simp only [Thread.tsr]

/-! ## Filing one thread (R158) -/

/-- A thread put into the trays with some number. -/
def addHeld (num : Nat) (m : Nat × Nat × Nat) (late : List (Nat × Nat)) (trays : List Tray) : List Tray :=
  updIf (fun z => z.num == num) (fun z => { z with held := z.held ++ [m], yielded := z.yielded ++ late }) trays

/-- A tray opened with one thread. -/
def openTray (num : Nat) (pc : DWord) (grp : Option Nat) (m : Nat × Nat × Nat) (late : List (Nat × Nat))
    (trays : List Tray) : List Tray :=
  trays ++ [{ num := num, pc := pc, group := grp, held := [m], yielded := late, aged := false }]

/-- The trays of a team changed. -/
def Team.modTrays (f : List Tray → List Tray) (t : Team) : Team := { t with trays := f t.trays }

/-- What filing a thread can do: it joins the tray of its PC and group, or opens the free tray with the lowest number, or finds none
free. -/
theorem file_cases {s : State} {k g l : Nat} {t : Team} {x : Thread} (ht : s.team? k = some t) (hx : t.thread? g l = some x)
    (perGroup yielded : Bool) {grp : Option Nat} {late : List (Nat × Nat)} (hgrp : (if perGroup then some g else none) = grp)
    (hlate : (if yielded then [(g, l)] else []) = late) :
    (∃ y, t.trays.find? (fun y => y.pc == x.pc && y.group == grp) = some y
      ∧ s.file k g l perGroup yielded = some (s.modTeam k (Team.modTrays (addHeld y.num (g, l, s.now) late))))
    ∨ t.trays.find? (fun y => y.pc == x.pc && y.group == grp) = none ∧ (
      (∃ n, s.freeTray t = some n
        ∧ s.file k g l perGroup yielded = some (s.modTeam k (Team.modTrays (openTray n x.pc grp (g, l, s.now) late))))
      ∨ s.freeTray t = none ∧ s.file k g l perGroup yielded = none) := by
  subst hgrp hlate
  cases hy : t.trays.find? (fun y => y.pc == x.pc && y.group == if perGroup then some g else none) with
  | some y => exact .inl ⟨y, rfl, by simp only [State.file, ht, hx, hy]; rfl⟩
  | none =>
    cases hn : s.freeTray t with
    | some n => exact .inr ⟨rfl, .inl ⟨n, rfl, by simp only [State.file, ht, hx, hy, hn]; rfl⟩⟩
    | none => exact .inr ⟨rfl, .inr ⟨rfl, by simp only [State.file, ht, hx, hy, hn]⟩⟩

/-- Which tray is free does not depend on what stands in the teams' threads. -/
theorem freeTray_modTeam (s : State) (k : Nat) {f : Team → Team}
    (hf : ∀ u, (f u).core = u.core ∧ (f u).st = u.st ∧ (f u).trays = u.trays ∧ (f u).kind = u.kind) (t : Team) :
    (s.modTeam k f).freeTray (f t) = s.freeTray t := by
  let change_ : Team → Team := fun u => if u.key == k then f u else u
  have hchange : ∀ u, (change_ u).core = u.core ∧ (change_ u).st = u.st ∧ (change_ u).trays = u.trays := fun u => by
    obtain ⟨hcore, hst, htrays, -⟩ := hf u
    simp only [change_]
    split <;> simp [hcore, hst, htrays]
  obtain ⟨hcore, -, -, hkind⟩ := hf t
  change (List.range (trayCount (f t).kind)).find? (fun n => !(((s.teams.map change_).filter _).flatMap _).contains n) = _
  rw [List.filter_map, List.flatMap_map, hkind]
  simp only [Function.comp_def, fun u => (hchange u).1, fun u => (hchange u).2.1, fun u => (hchange u).2.2, hcore]
  rfl

theorem not_mem_leaveSquads {t : Team} {ms : List (Nat × Nat)} {q : Squad} (hq : q ∈ (t.leaveSquads ms).squads) {m : Nat × Nat}
    (hm : m ∈ ms) : m ∉ q.members := by
  obtain ⟨p, -, rfl⟩ := List.mem_map.mp (List.mem_filter.mp hq).1
  intro hmem
  have := (List.mem_filter.mp hmem).2
  simp [hm] at this

/-! ## The words (R158, R161) -/

/-- A team in which one thread has gone past its word, into one of its trays and out of its squad. -/
def Team.filed (g l : Nat) (pc : DWord) (f : List Tray → List Tray) (t : Team) : Team :=
  Team.leaveSquads (Team.modTrays f (t.modThread g l fun x => { x with pc := pc })) [(g, l)]

/-- What a change of the team of the word at issue keeps that touches no register, engine or local memory. -/
theorem keeps_modTeam {s : State} {t : Team} (ht : s.curTeam = some t) (f : Team → Team) (hf : ∀ u, (f u).key = u.key)
    (hregs : ∀ r, (f t).peek r = t.peek r)
    (hengines : ((f t).scratch, (f t).priv, (f t).tags, (f t).tagerr, (f t).chains, (f t).slots, (f t).accs, (f t).convs)
      = (t.scratch, t.priv, t.tags, t.tagerr, t.chains, t.slots, t.accs, t.convs)) :
    Keeps s (s.modTeam s.cur.team f) fun _ => False := by
  have hu := State.team?_modTeam_some (k := s.cur.team) ht f hf
  have ht' : s.team? s.cur.team = some t := ht
  refine ⟨fun r _ => ?_, fun k hk => State.team?_modTeam_ne s f hk hf, rfl, ?_⟩
  · simp only [State.reg, hu, ht', hregs]
  · rw [hu, ht', Option.map_some, Option.map_some, hengines]

/-- A single thread of the word at issue is filed, or goes on. -/
theorem fileMembers_single {s : State} {t : Team} {g l : Nat} {x : Thread} (ht : s.curTeam = some t) (hx : t.thread? g l = some x)
    (perGroup yielded : Bool) {grp : Option Nat} {late : List (Nat × Nat)} (hgrp : (if perGroup then some g else none) = grp)
    (hlate : (if yielded then [(g, l)] else []) = late) :
    let pc := nextSlot t.kind s.cur.pc
    (∃ y, t.trays.find? (fun y => y.pc == pc && y.group == grp) = some y
      ∧ s.fileMembers [(g, l)] perGroup yielded = s.modTeam s.cur.team (Team.filed g l pc (addHeld y.num (g, l, s.now) late)))
    ∨ t.trays.find? (fun y => y.pc == pc && y.group == grp) = none ∧ (
      (∃ n, s.freeTray t = some n
        ∧ s.fileMembers [(g, l)] perGroup yielded = s.modTeam s.cur.team (Team.filed g l pc (openTray n pc grp (g, l, s.now) late)))
      ∨ s.freeTray t = none ∧ s.fileMembers [(g, l)] perGroup yielded = s) := by
  intro pc
  let go : Team → Team := fun u => u.modThread g l fun x => { x with pc := pc }
  have hset : s.setPcs s.cur.team [(g, l)] (fun _ _ => pc) = s.modTeam s.cur.team go := by
    unfold State.setPcs
    congr 1
    exact funext fun u => u.modThreads_singleton g l fun x => { x with pc := pc }
  have hteam : (s.modTeam s.cur.team go).team? s.cur.team = some (go t) := State.team?_modTeam_some ht go fun _ => rfl
  have hthread : (go t).thread? g l = some { x with pc := pc } := by
    rw [Team.thread?_modThread t g l (fun x => { x with pc := pc }) fun _ => rfl, hx, Option.map_some]
  have hfree : (s.modTeam s.cur.team go).freeTray (go t) = s.freeTray t :=
    freeTray_modTeam s s.cur.team (f := go) (fun _ => ⟨rfl, rfl, rfl, rfl⟩) t
  have hfiled : ∀ f, ((s.modTeam s.cur.team go).modTeam s.cur.team (Team.modTrays f)).modTeam s.cur.team (fun t => t.leaveSquads [(g, l)])
      = s.modTeam s.cur.team (Team.filed g l pc f) := fun f => by
    rw [State.modTeam_modTeam _ _ go (Team.modTrays f) fun _ => rfl,
      State.modTeam_modTeam _ _ (fun u => Team.modTrays f (go u)) _ fun _ => rfl]
    rfl
  have hmembers : s.fileMembers [(g, l)] perGroup yielded = match (s.modTeam s.cur.team go).file s.cur.team g l perGroup yielded with
      | none => s
      | some s' => s'.modTeam s.cur.team fun t => t.leaveSquads [(g, l)] := by
    simp only [State.fileMembers, ht, List.foldl_cons, List.foldl_nil, Option.bind_some]
    rw [hset]
    rfl
  rcases file_cases hteam hthread perGroup yielded hgrp hlate with ⟨y, hy, hf⟩ | ⟨hy, ⟨n, hn, hf⟩ | ⟨hn, hf⟩⟩
  · exact .inl ⟨y, hy, by rw [hmembers, hf]; exact hfiled _⟩
  · exact .inr ⟨hy, .inl ⟨n, hfree.symm.trans hn, by rw [hmembers, hf]; exact hfiled _⟩⟩
  · exact .inr ⟨hy, .inr ⟨hfree.symm.trans hn, by rw [hmembers, hf]⟩⟩

/-- A filing word of a squad of one thread is the filing of that thread. -/
theorem filingWord_exec {i : Instr} {s : State} {g l : Nat} {grp : Option Nat} {yielded : Bool}
    (h : (i, grp, yielded) ∈ [(Instr.reformG, some g, false), (.reformT, none, false), (.yield, some g, true)])
    (hm : s.members = [(g, l)]) : ∃ perGroup : Bool, (if perGroup then some g else none) = grp
      ∧ exec i s = .next (s.fileMembers [(g, l)] perGroup yielded) := by
  have hgids : s.curGids = [g] := by rw [State.curGids, hm]; rfl
  simp only [List.mem_cons, List.not_mem_nil, or_false, Prod.mk.injEq] at h
  rcases h with ⟨rfl, rfl, rfl⟩ | ⟨rfl, rfl, rfl⟩ | ⟨rfl, rfl, rfl⟩
  · refine ⟨true, rfl, ?_⟩
    change execReformG s = _
    simp [execReformG, hgids, hm]
  · refine ⟨false, rfl, ?_⟩
    change execReformT s = _
    rw [execReformT, hm]
  · refine ⟨true, rfl, ?_⟩
    change execYield s = _
    simp [execYield, hgids, hm]

theorem Team.peek_filed (g l : Nat) (pc : DWord) (f : List Tray → List Tray) (t : Team) (r : RegId) :
    (Team.filed g l pc f t).peek r = t.peek r := by
  refine Eq.trans ?_ (t.peek_setPc g l pc r)
  cases r <;> rfl

theorem keeps_filed {s : State} {t : Team} (ht : s.curTeam = some t) (g l : Nat) (pc : DWord) (f : List Tray → List Tray) :
    Keeps s (s.modTeam s.cur.team (Team.filed g l pc f)) fun _ => False :=
  keeps_modTeam ht _ (fun _ => rfl) (Team.peek_filed g l pc f t) rfl

theorem Keeps.refl (s : State) (dest : RegId → Prop) : Keeps s s dest := ⟨fun _ _ => rfl, fun _ _ => rfl, rfl, rfl⟩

end Sys2Proof.Machine

/-! O23: words that take effect at once, `CVSET` and `EXIT` (R143, R156, R222, R267). -/

namespace Sys2Proof.Machine

/-! ## No chunk and no store holds the word back (R221, R222) -/

theorem irrevocable_of_unchunked {s : State} (h : s.Unchunked) (k : State → State) : s.irrevocable k = k s := by
  have hnone : ∀ p : Nat → Bool, (∀ g ∈ s.curGids, p g = false) → s.curGids.filter p = [] := fun p hp =>
    List.filter_eq_nil_iff.mpr fun g hg => by simp [hp g hg]
  have hwait : (s.curGids.any fun g => (s.groupChunks s.cur.team g).any fun l => l.st == .requested && l.squashable) = false := by
    rw [List.any_eq_false]
    intro g hg
    simp [h.chunks g hg]
  have hmark : ∀ f : Lam → Lam, updIf (fun l => l.owner == .chunk && l.team == s.cur.team && s.curGids.contains l.gid && l.st == .open)
      f s.lams = s.lams := fun f => by
    refine (List.map_congr_left fun l hl => if_neg fun hm => ?_).trans (List.map_id s.lams)
    simp only [Bool.and_eq_true, List.contains_iff_mem, beq_iff_eq] at hm
    obtain ⟨⟨⟨howner, hteam⟩, hgid⟩, -⟩ := hm
    refine List.filter_eq_nil_iff.mp (h.chunks l.gid hgid) l hl ?_
    simp [howner, hteam]
  unfold State.irrevocable
  rw [hnone]
  · simp only [hwait, hmark, List.isEmpty_nil, Bool.not_true, Bool.or_false, Bool.and_false, Bool.false_eq_true, if_false]
  · intro g hg
    rw [openChunk?_of_groupChunks (h.chunks g hg)]

theorem endChunk_of_groupChunks {s : State} {team g : Nat} (h : s.groupChunks team g = []) : s.endChunk team g = s := by
  rw [State.endChunk, openChunk?_of_groupChunks h]

theorem foldl_fixed_of_mem {α β : Type} {f : β → α → β} {b : β} (l : List α) (h : ∀ a ∈ l, f b a = b) : l.foldl f b = b := by
  induction l with
  | nil => rfl
  | cons a l ih =>
    rw [List.foldl_cons, h a List.mem_cons_self]
    exact ih fun a' ha => h a' (List.mem_cons_of_mem a ha)

theorem lastThreads_of_unchunked {s : State} (h : s.Unchunked) (k : State → State) : s.lastThreads k = k s := by
  have hpend : ∀ p : Nat → Bool, ((s.curGids.filter p).any fun g => s.storesPending s.cur.team g) = false := fun p =>
    List.any_eq_false.mpr fun g hg => by simp [h.stores g (List.mem_filter.mp hg).1]
  unfold State.lastThreads
  simp only [hpend, irrevocable_of_unchunked h, Bool.and_false, Bool.false_eq_true, if_false]
  congr 1
  exact foldl_fixed_of_mem _ fun g hg => endChunk_of_groupChunks (h.chunks g (List.mem_filter.mp hg).1)

/-! ## CVSET (R265, R267) -/

/-- The convergence registers of a team, one of them with another mask. -/
def Team.setConvMask (n mask : Nat) (t : Team) : Team :=
  { t with convs := updIf (fun c => c.n == n) (fun c => { c with mask := mask }) t.convs }

theorem conv?_setConvMask (t : Team) (n mask : Nat) : (t.setConvMask n mask).conv? n = (t.conv? n).map fun c => { c with mask := mask } :=
  find?_updIf _ _ t.convs fun _ h => h

theorem conv?_setConvMask_ne (t : Team) {n k : Nat} (mask : Nat) (h : k ≠ n) : (t.setConvMask n mask).conv? k = t.conv? k :=
  find?_updIf_ne _ _ _ t.convs fun c hc => by
    simp only [beq_iff_eq] at hc
    simp [hc, Ne.symm h]

theorem cvset_exec {s : State} {t : Team} {g : Nat} (hin : s.InGroup t g) (v : BitVec 3) (k : BitVec 6) :
    exec (.cvset v k) s = .next (s.modTeam t.key (Team.setConvMask v.toNat ((s.rdS t g k.toNat).toNat % 65536))) := by
  change execCvset v k s = _
  unfold execCvset
  simp only [hin.reads, irrevocable_of_unchunked hin.free, hin.gids, List.foldl_cons, List.foldl_nil]
  rfl

/-! ## Threads that end (R143, R156) -/

/-- The lanes of one group among some threads. -/
def lanesIn (ms : List (Nat × Nat)) (g : Nat) : List Nat := (ms.filter fun m => m.1 == g).map (·.2)

theorem mem_uniq_iff {α : Type} [BEq α] [LawfulBEq α] {x : α} {l : List α} : x ∈ uniq l ↔ x ∈ l := by
  have key : ∀ xs acc : List α, x ∈ acc ∨ x ∈ xs →
      x ∈ xs.foldl (fun acc y => if acc.contains y then acc else acc ++ [y]) acc := by
    intro xs
    induction xs with
    | nil => simp
    | cons y ys ih =>
      refine fun acc h => ih _ ?_
      by_cases hc : y ∈ acc
      · rcases h with h | h
        · simp [hc, h]
        · rcases List.mem_cons.mp h with rfl | h
          · simp [hc]
          · exact .inr h
      · simp only [List.contains_iff_mem, hc, if_false, List.mem_append, List.mem_singleton]
        simp only [List.mem_cons] at h
        tauto
  exact ⟨mem_uniq, fun h => key l [] (.inr h)⟩

theorem mem_lanesIn {ms : List (Nat × Nat)} {g l : Nat} : l ∈ lanesIn ms g ↔ (g, l) ∈ ms := by
  simp [lanesIn]

/-- A group in which threads have ended. -/
def Group.endLanes (lanes : List Nat) (x : Group) : Group :=
  let ths := x.threads.filter fun t => !lanes.contains t.lane
  Group.freeEntries { x with m := (x.m.map fun p => (p.1, p.2 &&& ~~~laneMask lanes)).filter (fun p => p.2 != 0),
                             threads := ths, st := if ths.isEmpty then .draining else x.st }

/-- A team in which threads of one group have ended. -/
def Team.endLanes (ms : List (Nat × Nat)) (t : Team) (g : Nat) : Team :=
  let cut : Group → Group := fun x =>
    let ths := x.threads.filter fun t => !(lanesIn ms g).contains t.lane
    Group.freeEntries { x with threads := ths, st := if ths.isEmpty then .draining else x.st }
  let t := (t.clearMasks g (laneMask (lanesIn ms g))).modGroup g cut
  { t.leaveSquads ms with windows := t.windows.filter fun w => !(lanesIn ms g).any fun l => w.ofThread g l }

/-- A team in which threads have ended. -/
def Team.endThreads (ms : List (Nat × Nat)) (t : Team) : Team := (uniq (ms.map (·.1))).foldl (Team.endLanes ms) t

theorem group?_endLanes (ms : List (Nat × Nat)) (t : Team) (g h : Nat) :
    (t.endLanes ms g).group? h = if h = g then (t.group? g).map (Group.endLanes (lanesIn ms g)) else t.group? h := by
  let clear : Group → Group := fun x =>
    { x with m := (x.m.map fun p => (p.1, p.2 &&& ~~~laneMask (lanesIn ms g))).filter fun p => p.2 != 0 }
  let cut : Group → Group := fun x =>
    let ths := x.threads.filter fun t => !(lanesIn ms g).contains t.lane
    Group.freeEntries { x with threads := ths, st := if ths.isEmpty then .draining else x.st }
  change ((t.modGroup g clear).modGroup g cut).group? h = _
  split
  · next hg =>
    subst hg
    rw [Team.group?_modGroup _ h cut fun _ => rfl, Team.group?_modGroup t h clear fun _ => rfl, Option.map_map]
    rfl
  · next hg =>
    rw [Team.group?_modGroup_ne _ cut hg fun _ => rfl, Team.group?_modGroup_ne t clear hg fun _ => rfl]

/-- Each group of a team loses the lanes that ended in it. -/
theorem group?_endThreads (ms : List (Nat × Nat)) (t : Team) (g : Nat) :
    (t.endThreads ms).group? g
      = (t.group? g).map fun x => if g ∈ ms.map (·.1) then x.endLanes (lanesIn ms g) else x := by
  have key : ∀ (gs : List Nat), gs.Nodup → ∀ u : Team, (gs.foldl (Team.endLanes ms) u).group? g
      = (u.group? g).map fun x => if g ∈ gs then x.endLanes (lanesIn ms g) else x := by
    intro gs
    induction gs with
    | nil => simp
    | cons a gs ih =>
      intro hn u
      obtain ⟨ha, hn⟩ := List.nodup_cons.mp hn
      rw [List.foldl_cons, ih hn, group?_endLanes]
      by_cases hg : g = a
      · subst hg
        simp [ha, Function.comp_def]
      · simp [hg]
  have hmem : g ∈ uniq (ms.map (·.1)) ↔ g ∈ ms.map (·.1) := mem_uniq_iff
  unfold Team.endThreads
  simp only [key _ (nodup_uniq _) t, hmem]

/-- The threads that have ended are gone, and no other thread has changed. -/
theorem thread?_endThreads (ms : List (Nat × Nat)) (t : Team) (g l : Nat) :
    (t.endThreads ms).thread? g l = if (g, l) ∈ ms then none else t.thread? g l := by
  have hlanes : ∀ (ls : List Nat) (x : Group), (x.endLanes ls).thread? l = if l ∈ ls then none else x.thread? l := fun ls x => by
    change (x.threads.filter fun y => !ls.contains y.lane).find? (fun y => y.lane == l) = _
    rw [List.find?_filter]
    split
    · next hl =>
      refine List.find?_eq_none.mpr fun y _ h => ?_
      simp only [Bool.not_eq_true', List.contains_eq_mem, decide_eq_false_iff_not, beq_iff_eq, decide_eq_true_eq] at h
      exact h.1 (h.2 ▸ hl)
    · next hl =>
      unfold Group.thread?
      congr 1
      funext y
      by_cases hy : y.lane = l <;> simp [hy, hl]
  unfold Team.thread?
  rw [group?_endThreads]
  cases t.group? g with
  | none => simp
  | some x =>
    simp only [Option.map_some, Option.bind_some]
    by_cases hg : g ∈ ms.map (·.1)
    · simp only [if_pos hg, hlanes, mem_lanesIn]
    · have hm : (g, l) ∉ ms := fun h => hg (List.mem_map_of_mem h)
      rw [if_neg hg, if_neg hm]

/-- The bits of ended lanes have left a group's masks. -/
theorem getLsbD_endLanes {ls : List Nat} {l : Nat} (hl : l ∈ ls) (x : Group) (n : Nat) :
    (sget n (x.endLanes ls).m).getLsbD l = false := by
  change (sget n ((x.m.map fun p => (p.1, p.2 &&& ~~~laneMask ls)).filter fun p => p.2 != 0)).getLsbD l = false
  induction x.m with
  | nil => simp [sget]
  | cons p m ih =>
    rw [List.map_cons, List.filter_cons]
    split
    · by_cases hp : p.1 = n
      · by_cases h64 : l < 64
        · simp [sget, hp, getLsbD_laneMask ls h64, hl]
        · simp [BitVec.getLsbD_of_ge _ _ (Nat.le_of_not_lt h64)]
      · simpa [sget, hp] using ih
    · exact ih

theorem peek_mask_endThreads {ms : List (Nat × Nat)} {g l : Nat} (hm : (g, l) ∈ ms) (t : Team) (n : Nat) :
    ((t.endThreads ms).peek (.m g n)).getLsbD l = false := by
  unfold Team.peek
  simp only [group?_endThreads, List.mem_map_of_mem (f := (·.1)) hm, if_true]
  cases t.group? g with
  | none => simp
  | some x => exact getLsbD_endLanes (mem_lanesIn.mpr hm) x n

/-- A group without threads is DRAINING (R143). -/
theorem endLanes_draining {ls : List Nat} {x : Group} (h : ∀ y ∈ x.threads, y.lane ∈ ls) :
    (x.endLanes ls).st = .draining ∧ (x.endLanes ls).threads = [] := by
  have hnone : (x.threads.filter fun y => !ls.contains y.lane) = [] := List.filter_eq_nil_iff.mpr fun y hy => by simp [h y hy]
  refine ⟨?_, hnone⟩
  change (if (x.threads.filter fun y => !ls.contains y.lane).isEmpty then GroupState.draining else x.st) = _
  rw [hnone]
  rfl

theorem not_mem_squads_endThreads {ms : List (Nat × Nat)} (t : Team) {q : Squad} (hq : q ∈ (t.endThreads ms).squads)
    {m : Nat × Nat} (hm : m ∈ ms) : m ∉ q.members := by
  have hne : uniq (ms.map (·.1)) ≠ [] := uniq_ne_nil (by rintro h; simp_all)
  obtain ⟨gs, g, hgs⟩ := List.eq_nil_or_concat'  (uniq (ms.map (·.1))) |>.resolve_left hne
  rw [Team.endThreads, hgs, List.foldl_append] at hq
  exact not_mem_leaveSquads hq hm

theorem endLanes_key (ms : List (Nat × Nat)) (t : Team) (g : Nat) : (t.endLanes ms g).key = t.key := by
  simp only [Team.endLanes, Team.leaveSquads, Team.clearMasks, Team.modGroup]

theorem endLanes_convs (ms : List (Nat × Nat)) (t : Team) (g : Nat) : (t.endLanes ms g).convs = t.convs := by
  simp only [Team.endLanes, Team.leaveSquads, Team.clearMasks, Team.modGroup]

theorem endThreads_key (ms : List (Nat × Nat)) (t : Team) : (t.endThreads ms).key = t.key :=
  foldl_team_key (f := Team.endLanes ms) (endLanes_key ms) _ t

theorem endThreads_convs (ms : List (Nat × Nat)) (t : Team) : (t.endThreads ms).convs = t.convs := by
  unfold Team.endThreads
  induction uniq (ms.map (·.1)) generalizing t with
  | nil => rfl
  | cons g gs ih => rw [List.foldl_cons, ih, endLanes_convs]

/-! ## EXIT (R156) -/

theorem foldl_modTeam {α : Type} (s : State) (k : Nat) (f : Team → α → Team) (hf : ∀ t x, (f t x).key = t.key) (xs : List α) :
    xs.foldl (fun s x => s.modTeam k fun t => f t x) s = s.modTeam k fun t => xs.foldl f t := by
  induction xs generalizing s with
  | nil => exact s.modTeam_id k |>.symm
  | cons x xs ih => rw [List.foldl_cons, ih, State.modTeam_modTeam _ _ _ _ fun t => hf t x]; rfl

/-- Threads that end, and with them perhaps the turn of the group that holds the commit token (R156, R368). -/
def Team.endedIn (ms : List (Nat × Nat)) (turnEnds : Bool) (t : Team) : Team :=
  let u := t.endThreads ms
  if turnEnds then { u with turnOver := true } else u

theorem endedIn_key (ms : List (Nat × Nat)) (b : Bool) (t : Team) : (t.endedIn ms b).key = t.key := by
  cases b
  · exact endThreads_key ms t
  · exact endThreads_key ms t

theorem closeRounds_of_convs {s : State} {k : Nat} {t : Team} (ht : s.team? k = some t) (h : t.convs = []) : s.closeRounds k = s := by
  simp only [State.closeRounds, ht, h, List.foldl_nil]

/-- Where no barrier waits for arrivals and the team has no round to close, threads that end change their team alone. -/
theorem endThreads_quiet {s : State} {t : Team} (ht : s.team? t.key = some t) (hbars : s.bars = []) (hconvs : t.convs = [])
    (ms : List (Nat × Nat)) : ∃ b : Bool, s.endThreads t.key ms = s.modTeam t.key (Team.endedIn ms b) := by
  have hfold : (uniq (ms.map (·.1))).foldl (fun s g => s.modTeam t.key fun u => u.endLanes ms g) s
      = s.modTeam t.key (Team.endThreads ms) := foldl_modTeam s t.key (Team.endLanes ms) (endLanes_key ms) _
  have hclose : ∀ b : Bool, (s.modTeam t.key (Team.endedIn ms b)).closeRounds t.key = s.modTeam t.key (Team.endedIn ms b) := fun b =>
    closeRounds_of_convs (State.team?_modTeam_some ht _ (endedIn_key ms b)) (by
      rw [← hconvs, ← endThreads_convs ms t]
      cases b <;> rfl)
  have hturn : ∀ c : Bool, (if c then (s.modTeam t.key (Team.endThreads ms)).modTeam t.key (fun u => { u with turnOver := true })
      else s.modTeam t.key (Team.endThreads ms)) = s.modTeam t.key (Team.endedIn ms c) := fun c => by
    cases c
    · rfl
    · exact State.modTeam_modTeam s t.key _ _ (endThreads_key ms)
  have hdef : s.endThreads t.key ms =
      let s1 := (uniq (ms.map (·.1))).foldl (fun s g => s.modTeam t.key fun u => u.endLanes ms g) s
      let s2 := if !s.holderArrived t.key && s1.holderArrived t.key then s1.modTeam t.key (fun u => { u with turnOver := true }) else s1
      (s2.bars.foldl (fun s b => if b.arrived.isEmpty then s else s.checkBar b.key) s2).closeRounds t.key := rfl
  rw [hdef]
  simp only [hfold, hturn]
  generalize (!s.holderArrived t.key && (s.modTeam t.key (Team.endThreads ms)).holderArrived t.key) = b
  exact ⟨b, by rw [State.modTeam_bars, hbars, List.foldl_nil, hclose]⟩

/-- A team that is done with its DET words is noted as such, and nothing else of it changes (R369). -/
theorem orderDone_keeps (s : State) (k : Nat) : (s.orderDone k).mem = s.mem ∧ (∀ j, j ≠ k → (s.orderDone k).team? j = s.team? j)
    ∧ ∀ u, s.team? k = some u → ∃ d, (s.orderDone k).team? k = some { u with doneOrdering := d } := by
  unfold State.orderDone
  cases hk : s.team? k with
  | none => exact ⟨rfl, fun _ _ => rfl, fun u hu => by cases hu⟩
  | some t =>
    dsimp only
    split
    · exact ⟨rfl, fun _ _ => rfl, fun u hu => ⟨u.doneOrdering, hk.trans hu⟩⟩
    · refine ⟨rfl, fun j hj => State.team?_modTeam_ne s (fun u => { u with doneOrdering := true }) hj fun _ => rfl,
        fun u hu => ⟨true, ?_⟩⟩
      exact State.team?_modTeam_some (hk.trans hu) (fun u => { u with doneOrdering := true }) fun _ => rfl

/-- `EXIT` of threads that are not their team's last: they end in the groups and leave the squads, and no other team changes. -/
theorem exit_ends {s : State} {t : Team} (ht : s.curTeam = some t) (hlevels : t.levels = []) (hlast : s.lastOfTeam t = false)
    (hfree : s.Unchunked) (hbars : s.bars = []) (hconvs : t.convs = []) :
    ∃ s' u, exec .exit s = .next s' ∧ s'.team? s.cur.team = some u ∧ s'.mem = s.mem
      ∧ u.groups = (t.endThreads s.members).groups ∧ u.squads = (t.endThreads s.members).squads
      ∧ ∀ k, k ≠ s.cur.team → s'.team? k = s.team? k := by
  have hkey : t.key = s.cur.team := team?_key ht
  have ht' : s.team? t.key = some t := hkey ▸ ht
  obtain ⟨b, hend⟩ := endThreads_quiet ht' hbars hconvs s.members
  have hexec : exec .exit s = .next ((s.modTeam t.key (Team.endedIn s.members b)).orderDone t.key) := by
    change execExit s = _
    unfold execExit
    simp only [ht, hlevels, hlast, lastThreads_of_unchunked hfree, hend, List.isEmpty_nil, Bool.not_true, Bool.false_and,
      Bool.false_eq_true, if_false]
  obtain ⟨hmem, hothers, hteam⟩ := orderDone_keeps (s.modTeam t.key (Team.endedIn s.members b)) t.key
  obtain ⟨d, hd⟩ := hteam _ (State.team?_modTeam_some ht' _ (endedIn_key s.members b))
  rw [← hkey]
  refine ⟨_, _, hexec, hd, hmem, ?_, ?_, fun k hk => ?_⟩
  · cases b <;> rfl
  · cases b <;> rfl
  · rw [hothers k hk, State.team?_modTeam_ne s _ hk (endedIn_key s.members b)]

end Sys2Proof.Machine

/-! O23: the words of 07_group and CVSET. -/

namespace Sys2Proof.Machine

/-- Settles O23: a filing word of one thread either files it or changes nothing; without chunks, barriers and rounds in the way
`CVSET` and `EXIT` take effect at once; inside a block `EXIT` is a failure. -/
theorem groupWords : Obligations.GroupWords := by
  unfold Obligations.GroupWords
  refine ⟨?_, ?_, ?_, ?_⟩
  · intro i s t g l x grp yielded hi ht hm hx pc late
    obtain ⟨perGroup, hgrp, hexec⟩ := filingWord_exec hi hm
    have filed := fun f => State.team?_modTeam_some (k := s.cur.team) ht (Team.filed g l pc f) fun _ => rfl
    have hleft : ∀ f, ∀ q ∈ (Team.filed g l pc f t).squads, (g, l) ∉ q.members := fun f q hq =>
      not_mem_leaveSquads hq List.mem_cons_self
    rcases fileMembers_single ht hx perGroup yielded hgrp (late := late) rfl with ⟨y, hy, hs⟩ | ⟨hy, ⟨n, hn, hs⟩ | ⟨hn, hs⟩⟩
    · refine ⟨_, _, hexec.trans (congrArg _ hs), filed _, rfl, fun z hz => ?_, fun hz => ?_, keeps_filed ht g l pc _⟩
      · obtain rfl := Option.some.inj (hy.symm.trans hz)
        exact ⟨rfl, hleft _⟩
      · cases hy.symm.trans hz
    · refine ⟨_, _, hexec.trans (congrArg _ hs), filed _, rfl, fun z hz => ?_, fun _ => ⟨fun hz => ?_, fun k hk => ?_⟩,
        keeps_filed ht g l pc _⟩
      · cases hy.symm.trans hz
      · cases hn.symm.trans hz
      · obtain rfl := Option.some.inj (hn.symm.trans hk)
        exact ⟨rfl, hleft _⟩
    · refine ⟨_, t, hexec.trans (congrArg _ hs), ht, rfl, fun z hz => ?_, fun _ => ⟨fun _ => rfl, fun k hk => ?_⟩, .refl s _⟩
      · cases hy.symm.trans hz
      · cases hn.symm.trans hk
  · intro v k s t g c hin hc
    refine ⟨_, cvset_exec hin v k, rfl, _, team?_modCur hin.writes _ (fun _ => rfl), ?_, fun n hn => conv?_setConvMask_ne t _ hn⟩
    rw [conv?_setConvMask, hc, Option.map_some]
  · intro s t ht hlevels hlast hfree hbars hconvs
    obtain ⟨s', u, hexec, hu, hmem, hgroups, hsquads, hothers⟩ := exit_ends ht hlevels hlast hfree hbars hconvs
    have hgroup : ∀ g, u.group? g = (t.endThreads s.members).group? g := fun g => by rw [Team.group?, hgroups]; rfl
    have hthread : ∀ g l, u.thread? g l = if (g, l) ∈ s.members then none else t.thread? g l := fun g l => by
      rw [← thread?_endThreads, Team.thread?, hgroup]
      rfl
    refine ⟨s', u, hexec, hu, hmem, fun g l hm => ⟨?_, fun n => ?_, fun q hq => ?_⟩, fun g l hm => ?_,
      fun g gr hg hl hall => ?_, hothers⟩
    · rw [hthread, if_pos hm]
    · rw [← peek_mask_endThreads hm t n]
      simp only [Team.peek, hgroup]
    · exact not_mem_squads_endThreads t (hsquads ▸ hq) hm
    · rw [hthread, if_neg hm]
    · obtain ⟨l, hl⟩ := hl
      refine ⟨gr.endLanes (lanesIn s.members g), ?_, endLanes_draining fun y hy => mem_lanesIn.mpr (hall y hy)⟩
      rw [hgroup, group?_endThreads, hg, Option.map_some, if_pos (List.mem_map_of_mem hl)]
  · intro s t ht hlevels
    change execExit s = _
    unfold execExit
    simp [ht, hlevels]

end Sys2Proof.Machine

/-! O44: trays that age and trays that are drawn (R159 to R161). -/

namespace Sys2Proof.Machine

/-! ## Squads formed (R146, R148) -/

/-- A squad as it is formed. -/
def newSquad (key : Nat) (ms : List (Nat × Nat)) (t0 tlast : Nat) (packet : Option DWord) (line : List Word) : Squad :=
  { key := key, members := sortBy threadLe ms, wait := none, t0 := t0, tlast := tlast, packet := packet, line := line,
    pass := [], held := [], popWait := none, since := [], holds := false, parted := false, join := none }

/-- A team with a squad more. -/
def Team.withSquad (q : Squad) (t : Team) : Team := { t with squads := t.squads ++ [q] }

theorem addSquad_eq {s : State} {ms : List (Nat × Nat)} (h : ms ≠ []) (k t0 tlast : Nat) (packet : Option DWord) (line : List Word) :
    s.addSquad k ms t0 tlast packet line =
      { s.modTeam k (Team.withSquad (newSquad s.keys ms t0 tlast packet line)) with
          keys := s.keys + 1, run := s.run ++ [(k, s.keys)] } := by
  have hne : ms.isEmpty = false := by simpa using h
  simp only [State.addSquad, hne, Bool.false_eq_true, if_false]
  rfl

theorem addSquad_keeps (s : State) (k : Nat) (ms : List (Nat × Nat)) (t0 tlast : Nat) (packet : Option DWord) (line : List Word) :
    (s.addSquad k ms t0 tlast packet line).mem = s.mem ∧ (s.addSquad k ms t0 tlast packet line).ctxs = s.ctxs := by
  unfold State.addSquad
  split <;> exact ⟨rfl, rfl⟩

theorem team?_addSquad {s : State} {k : Nat} {t : Team} (ht : s.team? k = some t) {ms : List (Nat × Nat)} (h : ms ≠ [])
    (t0 tlast : Nat) (packet : Option DWord) (line : List Word) :
    (s.addSquad k ms t0 tlast packet line).team? k = some (t.withSquad (newSquad s.keys ms t0 tlast packet line)) := by
  rw [addSquad_eq h]
  exact State.team?_modTeam_some ht _ fun _ => rfl

theorem insertBy_perm {α : Type} (le : α → α → Bool) (x : α) (l : List α) : (insertBy le x l).Perm (x :: l) := by
  induction l with
  | nil => exact .refl _
  | cons y r ih =>
    unfold insertBy
    split
    · exact .refl _
    · exact (ih.cons y).trans (.swap x y r)

theorem sortBy_perm {α : Type} (le : α → α → Bool) (l : List α) : (sortBy le l).Perm l := by
  induction l with
  | nil => exact .refl _
  | cons x l ih => exact (insertBy_perm le x _).trans (ih.cons x)

/-! ## Trays told apart by their numbers -/

theorem tray_eq_of_num {trays : List Tray} (hn : (trays.map Tray.num).Nodup) {y z : Tray} (hy : y ∈ trays) (hz : z ∈ trays)
    (h : z.num = y.num) : z = y := List.inj_on_of_nodup_map hn hz hy h

/-! ## TRAY_AGED (R159) -/

/-- The mark of an aged tray. -/
def State.markAged (s : State) (t : Team) (y : Tray) : Tray := if s.trayOld t y then { y with aged := true } else y

theorem trayAged_exec {s : State} {t : Team} {n : Nat} (ht : s.team? t.key = some t) (harg : s.arg = [t.key, n]) :
    exec .trayAged s = .next (s.modTeam t.key (Team.modTrays (updIf (fun y => y.num == n) (s.markAged t)))) := by
  change execTrayAged s = _
  unfold execTrayAged
  simp only [harg, ht]
  rfl

theorem trayOld_iff {s : State} {t : Team} {y : Tray} (h : y.held ≠ []) : s.trayOld t y = true ↔ y.oldest + s.ageLimit t ≤ s.now := by
  simp [State.trayOld, h]

/-- A tray whose oldest thread has waited long enough is marked as aged; a younger one stays as it is (R159). -/
theorem trayAged_marks {s : State} {t : Team} {y : Tray} (ht : s.team? t.key = some t) (hy : y ∈ t.trays)
    (hn : (t.trays.map Tray.num).Nodup) (harg : s.arg = [t.key, y.num]) :
    (s.now < y.oldest + s.ageLimit t → y.held ≠ [] → ∃ s', exec .trayAged s = .next s' ∧ s'.team? t.key = some t)
    ∧ (y.oldest + s.ageLimit t ≤ s.now → y.held ≠ [] → ∃ s', exec .trayAged s = .next s' ∧ OnlyTeams s s'
      ∧ TeamIs s' t.key fun u => u.groups = t.groups ∧ u.squads = t.squads ∧ { y with aged := true } ∈ u.trays
        ∧ ∀ z ∈ t.trays, z.num ≠ y.num → z ∈ u.trays) := by
  have hteam := State.team?_modTeam_some ht (Team.modTrays (updIf (fun z => z.num == y.num) (s.markAged t))) fun _ => rfl
  refine ⟨fun hyoung hne => ⟨_, trayAged_exec ht harg, ?_⟩,
    fun hold hne => ⟨_, trayAged_exec ht harg, rfl, _, hteam, rfl, rfl, ?_, fun z hz hzy => ?_⟩⟩
  · have hmark : s.markAged t y = y := if_neg fun h => by
      have := (trayOld_iff hne).mp h
      omega
    have hsame : updIf (fun z => z.num == y.num) (s.markAged t) t.trays = t.trays := by
      refine (List.map_congr_left fun z hz => ?_).trans (List.map_id _)
      split
      · next h => rw [tray_eq_of_num hn hy hz (by simpa using h), hmark]; rfl
      · rfl
    rw [hteam, Team.modTrays, hsame]
  · refine List.mem_map.mpr ⟨y, hy, ?_⟩
    simp [State.markAged, (trayOld_iff hne).mpr hold]
  · exact List.mem_map.mpr ⟨z, hz, if_neg (by simpa using hzy)⟩

/-! ## The threads that a draw takes (R160) -/

/-- The older of two filed threads, ties to the lower group. -/
def olderHeld (x h : Nat × Nat × Nat) : Nat × Nat × Nat := if h.2.2 < x.2.2 || (h.2.2 == x.2.2 && h.1 < x.1) then h else x

/-- The oldest so far of some filed threads, with one more. -/
def keepOlder (b : Option (Nat × Nat × Nat)) (h : Nat × Nat × Nat) : Option (Nat × Nat × Nat) := match b with
  | none => some h
  | some x => if h.2.2 < x.2.2 || (h.2.2 == x.2.2 && h.1 < x.1) then some h else some x

/-- The oldest thread of a tray at a lane position. -/
def Tray.oldestAt (y : Tray) (l : Nat) : Option (Nat × Nat × Nat) := (y.held.filter fun h => h.2.1 == l).foldl keepOlder none

theorem taken_eq (y : Tray) :
    y.taken = (uniq (y.held.map fun h => h.2.1)).filterMap fun l => (y.oldestAt l).map fun h => (h.1, h.2.1) := rfl

theorem foldl_olderHeld (hs : List (Nat × Nat × Nat)) (x : Nat × Nat × Nat) :
    hs.foldl olderHeld x ∈ x :: hs ∧ ∀ h ∈ x :: hs, (hs.foldl olderHeld x).2.2 ≤ h.2.2 := by
  induction hs generalizing x with
  | nil => simp
  | cons a hs ih =>
    obtain ⟨hmem, hle⟩ := ih (olderHeld x a)
    have hone : olderHeld x a = a ∨ olderHeld x a = x := by unfold olderHeld; split <;> simp
    have hx : (olderHeld x a).2.2 ≤ x.2.2 := by unfold olderHeld; split <;> simp_all; omega
    have ha : (olderHeld x a).2.2 ≤ a.2.2 := by unfold olderHeld; split <;> simp_all
    have hfirst := hle _ List.mem_cons_self
    rw [List.foldl_cons]
    refine ⟨?_, fun h hh => ?_⟩
    · rcases List.mem_cons.mp hmem with h | h
      · rw [h]
        rcases hone with e | e <;> simp [e]
      · simp [h]
    · rcases List.mem_cons.mp hh with rfl | hh
      · exact hfirst.trans hx
      rcases List.mem_cons.mp hh with rfl | hh
      · exact hfirst.trans ha
      · exact hle h (List.mem_cons_of_mem _ hh)

theorem foldl_keepOlder (hs : List (Nat × Nat × Nat)) (x : Nat × Nat × Nat) :
    hs.foldl keepOlder (some x) = some (hs.foldl olderHeld x) := by
  induction hs generalizing x with
  | nil => rfl
  | cons a hs ih =>
    rw [List.foldl_cons, List.foldl_cons, ← ih]
    exact congrArg (hs.foldl keepOlder) (apply_ite some (_ = true) a x).symm

/-- Where a tray holds a thread at a lane position, the oldest there is one of them. -/
theorem oldestAt_spec {y : Tray} {l : Nat} (h : ∃ h ∈ y.held, h.2.1 = l) :
    ∃ h ∈ y.held, h.2.1 = l ∧ y.oldestAt l = some h ∧ ∀ h' ∈ y.held, h'.2.1 = l → h.2.2 ≤ h'.2.2 := by
  have hmem : ∀ h', h' ∈ y.held.filter (fun h => h.2.1 == l) ↔ h' ∈ y.held ∧ h'.2.1 = l := fun h' => by simp
  unfold Tray.oldestAt
  cases hf : y.held.filter (fun h => h.2.1 == l) with
  | nil =>
    obtain ⟨h, hh⟩ := h
    rw [← hmem, hf] at hh
    cases hh
  | cons a hs =>
    obtain ⟨hin, hle⟩ := foldl_olderHeld hs a
    rw [hf] at hmem
    obtain ⟨hheld, hlane⟩ := (hmem _).mp hin
    exact ⟨_, hheld, hlane, foldl_keepOlder hs a, fun h' hh hl => hle h' ((hmem h').mpr ⟨hh, hl⟩)⟩

/-- Each lane position of a tray gives one thread. -/
theorem taken_lanes (y : Tray) : y.taken.map (·.2) = uniq (y.held.map fun h => h.2.1) := by
  have hlane : ∀ l ∈ uniq (y.held.map fun h => h.2.1), ((y.oldestAt l).map fun h => (h.1, h.2.1)).map (·.2) = some l := fun l hl => by
    obtain ⟨h, hh, hlane, hold, -⟩ := oldestAt_spec (List.mem_map.mp (mem_uniq hl))
    rw [hold, Option.map_some, Option.map_some, hlane]
  rw [taken_eq, List.map_filterMap, List.filterMap_congr hlane, List.filterMap_some]

theorem mem_taken {y : Tray} {m : Nat × Nat} (h : m ∈ y.taken) :
    ∃ n, (m.1, m.2, n) ∈ y.held ∧ ∀ h ∈ y.held, h.2.1 = m.2 → n ≤ h.2.2 := by
  rw [taken_eq] at h
  obtain ⟨l, hl, hm⟩ := List.mem_filterMap.mp h
  obtain ⟨o, ho, hlane, hold, hle⟩ := oldestAt_spec (List.mem_map.mp (mem_uniq hl))
  rw [hold, Option.map_some, Option.some.injEq] at hm
  subst hm
  exact ⟨o.2.2, ho, fun h hh e => hle h hh (e.trans hlane)⟩

theorem exists_taken {y : Tray} {h : Nat × Nat × Nat} (hh : h ∈ y.held) : ∃ m ∈ y.taken, m.2 = h.2.1 := by
  have hl : h.2.1 ∈ y.taken.map (·.2) := by
    rw [taken_lanes, mem_uniq_iff]
    exact List.mem_map_of_mem hh
  exact List.mem_map.mp hl

theorem taken_ne_nil {y : Tray} (h : y.held ≠ []) : y.taken ≠ [] := by
  obtain ⟨a, ha⟩ := List.exists_mem_of_ne_nil _ h
  obtain ⟨m, hm, -⟩ := exists_taken ha
  exact List.ne_nil_of_mem hm

/-! ## TRAY_DRAW (R159, R160) -/

/-- A tray that some of its threads have left. -/
def Tray.without (ms : List (Nat × Nat)) (z : Tray) : Tray :=
  { z with held := z.held.filter (fun h => !ms.contains (h.1, h.2.1)),
           yielded := z.yielded.filter (fun h => !ms.contains h), aged := false }

/-- The trays of a team after a draw from the one with some number: those that still hold threads. -/
def drawnTrays (num : Nat) (ms : List (Nat × Nat)) (trays : List Tray) : List Tray :=
  (updIf (fun z => z.num == num) (Tray.without ms) trays).filter fun z => !z.held.isEmpty

theorem mem_drawnTrays {trays : List Tray} (hn : (trays.map Tray.num).Nodup) {y : Tray} (hy : y ∈ trays) {ms : List (Nat × Nat)}
    {w : Tray} (hw : w ∈ drawnTrays y.num ms trays) (hnum : w.num = y.num) : w.held ≠ [] ∧ w = y.without ms := by
  obtain ⟨hmem, hne⟩ := List.mem_filter.mp hw
  refine ⟨by simpa using hne, ?_⟩
  obtain ⟨z, hz, rfl⟩ := List.mem_map.mp hmem
  by_cases h : z.num = y.num
  · rw [tray_eq_of_num hn hy hz h]
    simp
  · rw [if_neg (by simpa using h)] at hnum
    exact absurd hnum h

/-- The squad that a draw forms, and the trays it leaves. -/
theorem trayDraw_exec {s : State} {t : Team} {y : Tray} {core sched : Nat} {idle : Bool} (ht : s.team? t.key = some t)
    (harg : s.arg = [core, sched]) (hc : s.trayChoice core sched = some ((t, y), idle))
    (hne : (s.drawable core t y idle).held ≠ []) : ∃ s', exec .trayDraw s = .next s' ∧ s'.mem = s.mem
      ∧ s'.team? t.key = some (Team.withSquad (newSquad s.keys (s.drawable core t y idle).taken 0 0 none [])
        (t.modTrays (drawnTrays y.num (s.drawable core t y idle).taken))) := by
  let ms := (s.drawable core t y idle).taken
  have hms : ms ≠ [] := taken_ne_nil hne
  let s1 : State := { s.modTeam t.key (Team.modTrays (drawnTrays y.num ms)) with
    drawn := (core, y.num) :: s.drawn.filter fun d => d.1 != core, drew := if idle then (core, sched) :: s.drew else s.drew }
  have h1 : s1.team? t.key = some (t.modTrays (drawnTrays y.num ms)) := State.team?_modTeam_some ht _ fun _ => rfl
  refine ⟨s1.addSquad t.key ms 0 0 none, ?_, ?_, team?_addSquad h1 hms 0 0 none []⟩
  · change execTrayDraw s = _
    unfold execTrayDraw
    simp only [harg, hc]
    rfl
  · exact (addSquad_keeps s1 _ _ _ _ _ _).1

/-- A draw takes the oldest thread of each lane position into a squad, and out of the tray (R160). -/
theorem trayDraw_draws {s : State} {t : Team} {y : Tray} (ht : s.team? t.key = some t) (hy : y ∈ t.trays)
    (hn : (t.trays.map Tray.num).Nodup) {core sched : Nat} {idle : Bool} (harg : s.arg = [core, sched])
    (hc : s.trayChoice core sched = some ((t, y), idle)) {z : Tray} (hz : s.drawable core t y idle = z) (hne : z.held ≠ []) :
    ∃ s' u q, exec .trayDraw s = .next s' ∧ s'.mem = s.mem ∧ s'.team? t.key = some u ∧ u.groups = t.groups
      ∧ u.squads = t.squads ++ [q] ∧ q.wait = none
      ∧ (∀ m ∈ q.members, ∃ n, (m.1, m.2, n) ∈ z.held ∧ ∀ h ∈ z.held, h.2.1 = m.2 → n ≤ h.2.2)
      ∧ (∀ h ∈ z.held, ∃ m ∈ q.members, m.2 = h.2.1) ∧ (q.members.map (·.2)).Nodup
      ∧ ∀ w ∈ u.trays, w.num = y.num → w.held ≠ [] ∧ ∀ h ∈ w.held, (h.1, h.2.1) ∉ q.members ∧ h ∈ y.held := by
  subst hz
  obtain ⟨s', hexec, hmem, hteam⟩ := trayDraw_exec ht harg hc hne
  let z := s.drawable core t y idle
  have hq : ∀ m, m ∈ sortBy threadLe z.taken ↔ m ∈ z.taken := fun m => mem_sortBy threadLe m z.taken
  refine ⟨s', _, _, hexec, hmem, hteam, rfl, rfl, rfl, fun m hm => mem_taken ((hq m).mp hm), fun h hh => ?_, ?_, fun w hw hnum => ?_⟩
  · obtain ⟨m, hm, hlane⟩ := exists_taken hh
    exact ⟨m, (hq m).mpr hm, hlane⟩
  · refine ((sortBy_perm threadLe z.taken).map (·.2)).nodup_iff.mpr ?_
    rw [taken_lanes]
    exact nodup_uniq _
  · obtain ⟨hheld, rfl⟩ := mem_drawnTrays hn hy hw hnum
    refine ⟨hheld, fun h hh => ?_⟩
    obtain ⟨hin, hout⟩ := List.mem_filter.mp hh
    have hnot : (h.1, h.2.1) ∉ z.taken := by simpa using hout
    exact ⟨fun hm => hnot ((hq _).mp hm), hin⟩

end Sys2Proof.Machine

/-! O44: handler entries that waited, and replays (R108, R188, R191, R397). -/

namespace Sys2Proof.Machine

/-! ## Nothing to form, nothing at fault -/

theorem squadsAt_nil (s : State) (k t0 tlast : Nat) (packet : Option DWord) (line : List Word) :
    s.squadsAt k [] t0 tlast packet line = s := by
  unfold State.squadsAt
  split <;> rfl

/-- Threads of one group at one PC form one squad. -/
theorem squadsAt_single {s : State} {k g l : Nat} {t : Team} {x : Thread} (ht : s.team? k = some t) (hx : t.thread? g l = some x)
    (t0 tlast : Nat) (packet : Option DWord) (line : List Word) :
    s.squadsAt k [(g, l)] t0 tlast packet line = s.addSquad k [(g, l)] t0 tlast packet line := by
  simp [State.squadsAt, ht, hx, uniq]

theorem reportLanes_nil (s : State) (t : Team) : s.reportLanes t [] = s := rfl

theorem parkOn_nil (s : State) (t : Team) : s.parkOn t [] = s := by
  unfold State.parkOn
  split
  · rfl
  · simp

theorem frameFaults_nil (s : State) (t : Team) : s.frameFaults t [] = s := by
  simp [State.frameFaults, reportLanes_nil, parkOn_nil, uniq]

/-- No entry is finished while registers of the threads are empty or pages of their frames move (R108, R191). -/
theorem finishEntries_of_waits {s : State} {k : Nat} {t : Team} (ht : s.team? k = some t) {ms : List (Nat × Nat)}
    (h : ∀ m ∈ ms, s.entryWaits t m.1 m.2 = true) : s.finishEntries k ms = s := by
  have hready : ∀ p : Nat × Nat → Bool, (ms.filter fun m => !s.entryWaits t m.1 m.2 && p m) = [] := fun p =>
    List.filter_eq_nil_iff.mpr fun m hm => by simp [h m hm]
  simp only [State.finishEntries, ht, hready, List.foldl_nil, frameFaults_nil, List.filter_nil, squadsAt_nil]

/-! ## A handler entered (R307, R397) -/

theorem privNoted_keeps (s : State) (k : Nat) (gs : List Nat) :
    (s.privNoted k gs).teams = s.teams ∧ (s.privNoted k gs).mem = s.mem := by
  unfold State.privNoted
  split
  · exact ⟨rfl, rfl⟩
  · next t _ =>
    dsimp only
    cases t.base <;> split <;> exact ⟨rfl, rfl⟩

theorem putPriv_mem (s : State) (k : Nat) (sp : List Spot) (bs : List Byte) : (s.putPriv k sp bs).mem = s.mem :=
  (privNoted_keeps _ k _).2

theorem team?_putPriv {s : State} {k : Nat} {t : Team} (ht : s.team? k = some t) (sp : List Spot) (bs : List Byte) :
    (s.putPriv k sp bs).team? k = some { t with priv := putBytes sp bs t.priv } := by
  unfold State.putPriv State.team?
  rw [(privNoted_keeps _ k _).1]
  exact State.team?_modTeam_some ht (fun t => { t with priv := putBytes sp bs t.priv }) fun _ => rfl

theorem logWrites_of_levels {s : State} {k : Nat} {t : Team} (ht : s.team? k = some t) (h : t.levels = [])
    (ws : List (Nat × Nat × RegId)) : s.logWrites k ws = s := by
  simp only [State.logWrites, ht, h]

theorem thread?_modThread_const {t : Team} {g l : Nat} {x y : Thread} (hx : t.thread? g l = some x) (hy : y.lane = l) :
    (t.modThread g l fun _ => y).thread? g l = some y := by
  unfold Team.thread? Team.modThread at *
  rw [Team.group?_modGroup t g (fun z => z.modThread l fun _ => y) fun _ => rfl]
  cases hg : t.group? g with
  | none => simp [hg] at hx
  | some gr =>
    rw [hg, Option.bind_some] at hx
    rw [Option.map_some, Option.bind_some]
    change (updIf _ _ gr.threads).find? _ = _
    rw [find?_updIf _ _ _ fun _ _ => by simp [hy]]
    change (gr.thread? l).map _ = _
    rw [hx, Option.map_some]

/-- A thread as it stands in its handler at `pc` for a trap (R397). -/
def State.inHandler (s : State) (t : Team) (x : Thread) (tr : Trap) (pc : DWord) : Thread :=
  let pcs := s.bothPcs t x.point tr.pc
  { x with pc := pc, handler := true, trap := none, cause := BitVec.ofNat 32 (tr.cause + 256), tinst := tr.word, tval := tr.tval,
           epcd := pcs.1, epcl := pcs.2 }

/-- A team with one of its threads in its handler: the frame is stored (R397). -/
def Team.entered (g l : Nat) (y : Thread) (sp : List Spot) (t : Team) : Team :=
  { t.modThread g l fun _ => y with priv := putBytes sp (frameBytes y (t.kind == .lcore)) t.priv }

section
variable {s : State} {t : Team} {g l : Nat} {gr : Group} {x : Thread} {pc : DWord} {sp : List Spot}
  (ht : s.team? t.key = some t) (hg : t.group? g = some gr) (hx : t.thread? g l = some x) (hl : x.lane = l) (hlevels : t.levels = [])
  (hpc : s.handlerPc t (s.tvecNow t gr) = some pc) (hsp : s.privRange t x.tid .store x.tframe.toNat 64 = .ok sp)
include ht hg hx hlevels hpc hsp

/-- Outside blocks, a thread whose handler and frame can be reached enters. -/
theorem enterHandler_enters (tr : Trap) : ∃ s', s.enterHandler t g l tr = (s', []) ∧ s'.mem = s.mem
    ∧ s'.team? t.key = some (t.entered g l (s.inHandler t x tr pc) sp) := by
  let y := s.inHandler t x tr pc
  let s1 := s.modThread t.key g l fun _ => y
  have h1 : s1.team? t.key = some (t.modThread g l fun _ => y) :=
    State.team?_modTeam_some ht (fun t => t.modThread g l fun _ => y) fun _ => rfl
  have h2 := team?_putPriv h1 sp (frameBytes y (t.kind == .lcore))
  refine ⟨s1.putPriv t.key sp (frameBytes y (t.kind == .lcore)), ?_, putPriv_mem _ _ _ _, h2⟩
  simp only [State.enterHandler, hg, hx, hpc, hsp]
  exact congrArg (·, []) (logWrites_of_levels h2 hlevels _)

include hl

/-- A pending entry that waits no longer is finished: the thread stands in its handler, in a squad of its own (R108, R397). -/
theorem finishEntries_single {tr : Trap} (htr : x.trap = some tr) (hpark : x.park = none) (hw : s.entryWaits t g l = false) :
    ∃ q, (s.finishEntries t.key [(g, l)]).mem = s.mem ∧ q.members = [(g, l)] ∧ q.wait = none
      ∧ (s.finishEntries t.key [(g, l)]).team? t.key = some (Team.withSquad q (t.entered g l (s.inHandler t x tr pc) sp)) := by
  obtain ⟨s1, henter, hmem, hteam⟩ := enterHandler_enters ht hg hx hlevels hpc hsp tr
  have hthread : (t.entered g l (s.inHandler t x tr pc) sp).thread? g l = some (s.inHandler t x tr pc) :=
    thread?_modThread_const hx hl
  have hrun : s.finishEntries t.key [(g, l)]
      = s1.squadsAt t.key [(g, l)] s1.now (s1.ownNow (t.entered g l (s.inHandler t x tr pc) sp)) none := by
    have hhandler : (s.inHandler t x tr pc).handler = true := rfl
    have htrap : (s.inHandler t x tr pc).trap = none := rfl
    have hparked : (s.inHandler t x tr pc).park = none := hpark
    simp [State.finishEntries, ht, hx, hw, htr, hpark, henter, hteam, frameFaults_nil, hthread, hhandler, htrap, hparked]
  rw [hrun, squadsAt_single hteam hthread]
  exact ⟨_, (addSquad_keeps s1 _ _ _ _ _ _).1.trans hmem, rfl, rfl, team?_addSquad hteam (List.cons_ne_nil _ _) _ _ _ _⟩

end

/-! ## HANDLER_ENTRY (R149, R397) -/

theorem flatMap_eq_of_unique {α β : Type} {l : List α} (hn : l.Nodup) {a : α} (ha : a ∈ l) (f : α → List β)
    (h : ∀ b ∈ l, b ≠ a → f b = []) : l.flatMap f = f a := by
  obtain ⟨l1, l2, rfl⟩ := List.append_of_mem ha
  have hsides : ∀ b, b ∈ l1 ∨ b ∈ l2 → f b = [] := fun b hb => by
    refine h b (by simp; tauto) ?_
    rintro rfl
    have := List.nodup_middle.mp hn
    simp only [List.nodup_cons, List.mem_append] at this
    exact this.1 hb
  rw [List.flatMap_append, List.flatMap_cons, List.flatMap_eq_nil_iff.mpr fun b hb => hsides b (.inl hb),
    List.flatMap_eq_nil_iff.mpr fun b hb => hsides b (.inr hb), List.nil_append, List.append_nil]

/-- Of a thread that its word trapped alone, the entry is its own. -/
theorem handlerEntry_alone {s : State} {t : Team} {g l : Nat} {gr : Group} {x : Thread} {tr : Trap} (harg : s.arg = [t.key, g, l])
    (ht : s.team? t.key = some t) (hg : t.group? g = some gr) (hths : gr.threads = [x]) (hl : x.lane = l) (htr : x.trap = some tr)
    (hn : (t.groups.map Group.gid).Nodup)
    (halone : ∀ h ∈ t.groups, ∀ z ∈ h.threads, ∀ tz, z.trap = some tz → tz.event = tr.event → h.gid = g) :
    exec .handlerEntry s = .next (s.finishEntries t.key [(g, l)]) := by
  have hx : t.thread? g l = some x := by simp [Team.thread?, hg, Group.thread?, hths, hl]
  let same : Thread → Bool := fun y => y.handler == x.handler && (y.trap.any fun b => x.trap.any fun a => a.event == b.event)
  have hgr : gr ∈ t.groups := List.mem_of_find?_eq_some hg
  have htogether : (t.groups.flatMap fun h => (h.threads.filter same).map fun y => (h.gid, y.lane)) = [(g, l)] := by
    rw [flatMap_eq_of_unique (List.Nodup.of_map _ hn) hgr]
    · simp [hths, same, htr, hl, group?_gid hg]
    · intro h hh hne
      rw [List.map_eq_nil_iff, List.filter_eq_nil_iff]
      intro z hz hsame
      have hevent : (z.trap.any fun b => x.trap.any fun a => a.event == b.event) = true := (Bool.and_eq_true_iff.mp hsame).2
      cases htz : z.trap with
      | none => simp [htz] at hevent
      | some tz =>
        simp only [htz, htr, Option.any_some, beq_iff_eq] at hevent
        exact hne (List.inj_on_of_nodup_map hn hh hgr ((halone h hh z hz tz htz hevent.symm).trans (group?_gid hg).symm))
  change execHandlerEntry s = _
  unfold execHandlerEntry
  simp only [harg, ht, Option.bind_some, hx]
  exact congrArg (fun ms => Host.Outcome.next (s.finishEntries t.key ms)) htogether

/-! ## Threads filed again (R149) -/

/-- A thread filed again is in a tray, or where none is free in a squad of its own; nothing else of the state changes. -/
theorem refile_single {s : State} {k g l : Nat} {t : Team} {x : Thread} (ht : s.team? k = some t) (hx : t.thread? g l = some x) :
    ∃ u, (s.refile k [(g, l)]).team? k = some u ∧ (s.refile k [(g, l)]).mem = s.mem ∧ (s.refile k [(g, l)]).ctxs = s.ctxs
      ∧ u.groups = t.groups ∧ ((∃ y ∈ u.trays, ∃ n, (g, l, n) ∈ y.held) ∨ ∃ q ∈ u.squads, (g, l) ∈ q.members) := by
  have hfile : s.refile k [(g, l)] = match s.file k g l true false with
      | some s' => s'
      | none => s.squadsAt k [(g, l)] s.now (s.ownNowOf k) none := by
    cases hf : s.file k g l true false <;> simp [State.refile, hf, uniq]
  rcases file_cases ht hx true false rfl rfl with ⟨y, hy, hf⟩ | ⟨-, ⟨n, -, hf⟩ | ⟨-, hf⟩⟩
  · rw [hfile, hf]
    refine ⟨_, State.team?_modTeam_some ht _ fun _ => rfl, rfl, rfl, rfl,
      .inl ⟨_, List.mem_map_of_mem (List.mem_of_find?_eq_some hy), s.now, ?_⟩⟩
    simp
  · rw [hfile, hf]
    exact ⟨_, State.team?_modTeam_some ht _ fun _ => rfl, rfl, rfl, rfl,
      .inl ⟨_, List.mem_append_right _ List.mem_cons_self, s.now, List.mem_cons_self⟩⟩
  · rw [hfile, hf]
    dsimp only
    rw [squadsAt_single ht hx]
    obtain ⟨hmem, hctxs⟩ := addSquad_keeps s k [(g, l)] s.now (s.ownNowOf k) none []
    exact ⟨_, team?_addSquad ht (List.cons_ne_nil _ _) _ _ _ _, hmem, hctxs, rfl,
      .inr ⟨_, List.mem_append_right _ List.mem_cons_self, List.mem_cons_self⟩⟩

/-! ## REPLAY (R188) -/

/-- A thread that is parked no longer. -/
def Thread.unparked (x : Thread) : Thread := { x with park := none }

/-- A parked lane of a running team, without a trap of its own, goes on. -/
theorem unpark_single {s : State} {t : Team} {g l key : Nat} {x : Thread} (ht : s.team? t.key = some t) (hrun : t.st = .running)
    (hx : t.thread? g l = some x) (hpark : x.park = some (.fault key)) (htr : x.trap = none) :
    s.unpark t.key g key [l] = (s.modThread t.key g l Thread.unparked).refile t.key [(g, l)] := by
  have hfree : (s.modTeam t.key fun t => t.modThreads [(g, l)] fun _ x => { x with park := none })
      = s.modThread t.key g l Thread.unparked :=
    congrArg (s.modTeam t.key) (funext fun u => u.modThreads_singleton g l Thread.unparked)
  have ht1 : (s.modThread t.key g l Thread.unparked).team? t.key = some (t.modThread g l Thread.unparked) :=
    State.team?_modTeam_some ht (fun t => t.modThread g l Thread.unparked) fun _ => rfl
  have hnone : (s.modThread t.key g l Thread.unparked).finishEntries t.key [] = s.modThread t.key g l Thread.unparked :=
    finishEntries_of_waits ht1 fun m hm => by cases hm
  simp [State.unpark, ht, hx, hpark, hrun, htr, hfree, hnone, sortBy, insertBy]

/-- A context in which a record is pending no longer. -/
def Context.withoutPending (key : Nat) (c : Context) : Context := { c with pending := c.pending.filter fun y => y.key != key }

/-- A state in which a record of a context is pending no longer. -/
def State.withoutPending (s : State) (cn key : Nat) : State := s.modCtx cn (Context.withoutPending key)

theorem ctx?_withoutPending {s : State} {cn : Nat} {c : Context} (hc : s.ctx? cn = some c) (key : Nat) :
    (s.withoutPending cn key).ctx? cn = some (c.withoutPending key) := by
  have h : (s.withoutPending cn key).ctx? cn = (s.ctx? cn).map (Context.withoutPending key) := find?_updIf _ _ s.ctxs fun _ h => h
  rw [h, hc, Option.map_some]

/-- In a running context a replay takes the record that its index names from those pending, and ignores an index that names none. -/
theorem replay_exec {s : State} {c : Context} {cn idx : Nat} (harg : s.arg = [cn, idx]) (hc : s.ctx? cn = some c)
    (hrun : c.st = .running) : exec .replay s = match c.pending.find? fun p => p.idx == some idx with
      | none => .next s
      | some p => .next ((s.withoutPending cn p.key).resumeBlocked cn p) := by
  change execReplay s = _
  simp only [execReplay, harg, State.replayRecord, hc, hrun]
  cases c.pending.find? fun p => p.idx == some idx <;> rfl

/-- The replay of a record that parks one lane of a running team lets the lane go on. -/
theorem replay_lane {s : State} {c : Context} {cn idx g l : Nat} {p : PendRec} {t : Team} {x : Thread} (harg : s.arg = [cn, idx])
    (hc : s.ctx? cn = some c) (hrun : c.st = .running) (hp : c.pending.find? (fun p => p.idx == some idx) = some p)
    (hblocked : p.blocked = .lanes t.key g [l]) (ht : s.team? t.key = some t) (hst : t.st = .running) (hx : t.thread? g l = some x)
    (hpark : x.park = some (.fault p.key)) (htr : x.trap = none) :
    ∃ s' u, exec .replay s = .next s' ∧ s'.mem = s.mem ∧ s'.team? t.key = some u ∧ u.thread? g l = some x.unparked
      ∧ s'.ctx? cn = some (c.withoutPending p.key)
      ∧ ((∃ y ∈ u.trays, ∃ n, (g, l, n) ∈ y.held) ∨ ∃ q ∈ u.squads, (g, l) ∈ q.members) := by
  have ht1 : (s.withoutPending cn p.key).team? t.key = some t := ht
  have hfreed := State.team?_modTeam_some ht1 (fun t => t.modThread g l Thread.unparked) fun _ => rfl
  have hthread : (t.modThread g l Thread.unparked).thread? g l = some x.unparked := by
    rw [Team.thread?_modThread t g l Thread.unparked fun _ => rfl, hx, Option.map_some]
  obtain ⟨u, hu, hmem, hctxs, hgroups, hplace⟩ := refile_single hfreed hthread
  refine ⟨_, u, ?_, hmem, hu, ?_, ?_, hplace⟩
  · rw [replay_exec harg hc hrun, hp]
    dsimp only
    rw [State.resumeBlocked, hblocked]
    exact congrArg _ (unpark_single ht1 hst hx hpark htr)
  · refine Eq.trans ?_ hthread
    rw [Team.thread?, Team.group?, hgroups]
    rfl
  · rw [State.ctx?, hctxs]
    exact ctx?_withoutPending hc p.key

/-- Settles O44: the draw takes the oldest thread at each lane position, a pending entry is finished once the thread is full and its
frame at rest, and a replayed lane is filed again. -/
theorem traysAndHandlers : Obligations.TraysAndHandlers := by
  unfold Obligations.TraysAndHandlers
  refine ⟨fun s t y ht hy hn => ⟨trayAged_marks ht hy hn, ?_⟩, ?_, ?_⟩
  · intro core sched idle harg hc z hne _
    exact trayDraw_draws ht hy hn harg hc rfl hne
  · intro s t g l gr x tr pc sp harg ht hg hths hl htr hn halone hlevels
    have hx : t.thread? g l = some x := by simp [Team.thread?, hg, Group.thread?, hths, hl]
    rw [handlerEntry_alone harg ht hg hths hl htr hn halone]
    refine ⟨fun hw => ?_, fun hw hpark hpc hsp => ?_⟩
    · rw [finishEntries_of_waits ht]
      simpa using hw
    · obtain ⟨q, hmem, hq, hwait, hteam⟩ := finishEntries_single ht hg hx hl hlevels hpc hsp htr hpark hw
      exact ⟨_, _, rfl, hmem, hteam, thread?_modThread_const hx hl, rfl, q, List.mem_append_right _ List.mem_cons_self, hq, hwait⟩
  · intro s c cn idx harg hc hrun
    refine ⟨fun hnone => ?_, fun p t g l x hp hblocked ht hst hx hpark htr => ?_⟩
    · rw [replay_exec harg hc hrun, List.find?_eq_none.mpr fun p hp => by simpa using hnone p hp]
    · obtain ⟨s', u, hexec, hmem, hu, hthread, hctx, hplace⟩ := replay_lane harg hc hrun hp hblocked ht hst hx hpark htr
      exact ⟨s', u, _, hexec, hmem, hu, hthread, hctx, rfl, hplace⟩

end Sys2Proof.Machine

/-! What leaves memory as it stands: the equations of the model's operations for the field `mem`. -/

namespace Sys2Proof.Machine

/-! ## Folds and branches -/

@[simp] theorem State.ite_mem (p : Prop) [Decidable p] (a b : State) : (if p then a else b).mem = if p then a.mem else b.mem :=
  apply_ite State.mem p a b

theorem State.mem_ite {p : Prop} [Decidable p] {a b : State} {m : List Host.Cell} (ha : a.mem = m) (hb : b.mem = m) :
    (if p then a else b).mem = m := by
  split <;> assumption

theorem State.mem_fst_ite {β : Type} {p : Prop} [Decidable p] {a b : State × β} {m : List Host.Cell} (ha : a.1.mem = m)
    (hb : b.1.mem = m) : (if p then a else b).1.mem = m := by
  split <;> assumption

theorem State.mem_snd_ite {β : Type} {p : Prop} [Decidable p] {a b : β × State} {m : List Host.Cell} (ha : a.2.mem = m)
    (hb : b.2.mem = m) : (if p then a else b).2.mem = m := by
  split <;> assumption

@[simp] theorem State.foldl_mem {α : Type} {f : State → α → State} (hf : ∀ s a, (f s a).mem = s.mem) (l : List α) (s : State) :
    (l.foldl f s).mem = s.mem := by
  induction l generalizing s with
  | nil => rfl
  | cons a r ih => exact (ih (f s a)).trans (hf s a)

@[simp] theorem State.foldl_fst_mem {α β : Type} {f : State × β → α → State × β} (hf : ∀ p a, (f p a).1.mem = p.1.mem)
    (l : List α)
    (p : State × β) : (l.foldl f p).1.mem = p.1.mem := by
  induction l generalizing p with
  | nil => rfl
  | cons a r ih => exact (ih (f p a)).trans (hf p a)

@[simp] theorem State.foldl_snd_mem {α β : Type} {f : β × State → α → β × State} (hf : ∀ p a, (f p a).2.mem = p.2.mem)
    (l : List α)
    (p : β × State) : (l.foldl f p).2.mem = p.2.mem := by
  induction l generalizing p with
  | nil => rfl
  | cons a r ih => exact (ih (f p a)).trans (hf p a)

@[simp] theorem State.modImage_mem (s : State) (k : Nat) (f : Image → Image) : (s.modImage k f).mem = s.mem := (rfl)

@[simp] theorem State.abortRival_mem (s : State) (team cause : Nat) : (s.abortRival team cause).mem = s.mem := (rfl)

@[simp] theorem State.putTlb_mem (s : State) (u : TlbUnit) (ctx va : Nat) (p : Page) : (s.putTlb u ctx va p).mem = s.mem := (rfl)

@[simp] theorem State.fillTlb_mem (s : State) (core ctx va : Nat) (p : Page) : (s.fillTlb core ctx va p).mem = s.mem := (rfl)

@[simp] theorem State.tokDone_mem (s : State) (key : Nat) : (s.tokDone key).mem = s.mem := by
  unfold State.tokDone
  split <;> simp

@[simp] theorem State.toksDone_mem (s : State) (ks : List Nat) : (s.toksDone ks).mem = s.mem := by simp [State.toksDone]

@[simp] theorem State.tokHold_mem (s : State) (key : Nat) : (s.tokHold key).mem = s.mem := (rfl)

@[simp] theorem State.newOp_mem (s : State) (team : Nat) (toks : List Nat) (lat : Nat) (what : OpKind) : (s.newOp team toks lat
    what).mem = s.mem := by
  unfold State.newOp
  refine State.foldl_mem (fun s a => ?_) _ _
  simp

@[simp] theorem State.groupOp_mem (s : State) (gid lat : Nat) (what : OpKind) : (s.groupOp gid lat what).mem = s.mem := by
  simp [State.groupOp]

@[simp] theorem State.wordOp_mem (s : State) (lat : Nat) (what : OpKind) : (s.wordOp lat what).mem = s.mem := by
  simp [State.wordOp]

@[simp] theorem State.raise_mem (s : State) (c vector : Nat) : (s.raise c vector).mem = s.mem := by simp [State.raise]

@[simp] theorem State.faultContext_mem (s : State) (c : Nat) : (s.faultContext c).mem = s.mem := (rfl)

@[simp] theorem State.noteRecord_mem (s : State) (cn : Nat) (r : Record) (b : Option Blocked) :
    (s.noteRecord cn r b).2.mem = s.mem := by
  unfold State.noteRecord
  split <;> simp

@[simp] theorem State.putRecords_mem (s : State) (cn : Nat) (rs : List (Record × Option Blocked)) :
    (s.putRecords cn rs).mem = s.mem := by
  unfold State.putRecords
  split <;> simp

@[simp] theorem State.addSquad_mem (s : State) (team : Nat) (ms : List (Nat × Nat)) (t0 tlast : Nat) (packet : Option DWord)
    (line : List Word) : (s.addSquad team ms t0 tlast packet line).mem = s.mem := by
  simp [State.addSquad]

@[simp] theorem State.squadsAt_mem (s : State) (team : Nat) (ms : List (Nat × Nat)) (t0 tlast : Nat) (packet : Option DWord)
    (line : List Word) : (s.squadsAt team ms t0 tlast packet line).mem = s.mem := by
  unfold State.squadsAt
  split <;> simp

@[simp] theorem State.splitSquad_mem (s : State) (team sq : Nat) (next : DWord) : (s.splitSquad team sq next).mem = s.mem := by
  unfold State.splitSquad
  split <;> (try split) <;> simp

@[simp] theorem State.setPcs_mem (s : State) (team : Nat) (ms : List (Nat × Nat)) (f : Nat → Thread → DWord) : (s.setPcs team ms
    f).mem = s.mem := (rfl)

theorem State.file_mem {s s' : State} {team gid lane : Nat} {perGroup yielded : Bool} (h : s.file team gid lane perGroup
    yielded = some s') :
    s'.mem = s.mem := by
  simp only [State.file] at h
  split at h
  · cases h; rfl
  · split at h
    · cases h; rfl
    · split at h
      · cases h; rfl
      · split at h
        · cases h
        · cases h; rfl

@[simp] theorem State.refile_mem (s : State) (team : Nat) (ms : List (Nat × Nat)) : (s.refile team ms).mem = s.mem := by
  have hf : ∀ (p : State × List (Nat × Nat)) (m : Nat × Nat), (match p.1.file team m.1 m.2 true false with
      | some s' => (s', p.2)
      | none => (p.1, p.2 ++ [m])).1.mem = p.1.mem := fun p m => by
    split
    · next hs => exact State.file_mem hs
    · rfl
  exact (State.foldl_mem (fun s g => s.squadsAt_mem ..) _ _).trans (State.foldl_fst_mem hf _ _)

@[simp] theorem State.failLevel_mem (s : State) (team depth code : Nat) : (s.failLevel team depth code).mem = s.mem := (rfl)

@[simp] theorem State.failRoutine_mem (s : State) (team code : Nat) : (s.failRoutine team code).mem = s.mem := by
  unfold State.failRoutine
  split <;> rfl

@[simp] theorem State.parkOn_mem (s : State) (t : Team) (rs : List (Nat × List Nat × Record)) : (s.parkOn t rs).mem = s.mem := by
  unfold State.parkOn
  split
  · rfl
  · dsimp only
    split
    · rfl
    · refine (State.foldl_mem (fun _ _ => ?_) _ _).trans (State.putRecords_mem ..)
      rfl

@[simp] theorem State.privNoted_mem (s : State) (team : Nat) (grains : List Nat) : (s.privNoted team grains).mem = s.mem := by
  unfold State.privNoted
  split <;> (try split) <;> simp

@[simp] theorem State.modLevel_mem (s : State) (team : Nat) (f : Level → Level) : (s.modLevel team f).mem = s.mem := (rfl)

@[simp] theorem State.spillLog_mem (s : State) (team gid lane first last : Nat) :
    (s.spillLog team gid lane first last).mem = s.mem := by
  unfold State.spillLog
  split
  · rfl
  · split
    · rfl
    · refine State.foldl_mem (fun s n => ?_) _ _
      split
      · exact putPriv_mem ..
      · rfl

@[simp] theorem State.logWrites_mem (s : State) (team : Nat) (ws : List (Nat × Nat × RegId)) : (s.logWrites team ws).mem = s.mem
    := by
  simp only [State.logWrites]
  (repeat' split) <;> simp

@[simp] theorem State.escalate_mem (s : State) (t : Team) (es : List (Nat × Nat × Nat × Trap × Nat)) : (s.escalate t es).mem =
    s.mem := by
  simp [State.escalate]

@[simp] theorem State.retryWord_mem (s : State) : s.retryWord.mem = s.mem := (rfl)

@[simp] theorem State.enterHandler_mem (s : State) (t : Team) (gid lane : Nat) (tr : Trap) :
    (s.enterHandler t gid lane tr).1.mem = s.mem := by
  unfold State.enterHandler
  split
  · split
    · simp
    · dsimp only
      split <;> simp [putPriv_mem]
  · rfl

@[simp] theorem State.reportEcc_mem (s : State) (ctx : Nat) (fs : List (Nat × AFault)) : (s.reportEcc ctx fs).mem = s.mem := by
  unfold State.reportEcc
  refine State.foldl_mem (fun s a => ?_) _ _
  simp

@[simp] theorem State.reportLanes_mem (s : State) (t : Team) (fs : List (Nat × Nat × Nat × AFault)) : (s.reportLanes t fs).mem =
    s.mem := by
  simp [State.reportLanes]

@[simp] theorem State.frameFaults_mem (s : State) (t : Team) (fs : List FrameFault) : (s.frameFaults t fs).mem = s.mem := by
  simp [State.frameFaults]

@[simp] theorem State.finishEntries_mem (s : State) (team : Nat) (ms : List (Nat × Nat)) :
    (s.finishEntries team ms).mem = s.mem := by
  have hf : ∀ (p : State × List FrameFault) (m : Nat × Nat), (match p.1.team? team with
      | some t => match (t.thread? m.1 m.2).bind fun x => x.trap with
        | some tr =>
          let r := p.1.enterHandler t m.1 m.2 tr
          (r.1, p.2 ++ r.2)
        | none => p
      | none => p).1.mem = p.1.mem := fun p m => by
    split
    · split
      · exact State.enterHandler_mem ..
      · rfl
    · rfl
  have hs : ∀ s1 : State, s1.mem = s.mem → ∀ fs, (match s1.team? team with
      | some t => s1.frameFaults t fs
      | none => s1).mem = s.mem := fun s1 h1 fs => by
    split <;> simp [h1]
  unfold State.finishEntries
  dsimp only
  split
  · exact hs _ (State.foldl_fst_mem hf _ _) _
  · exact (State.squadsAt_mem ..).trans (hs _ (State.foldl_fst_mem hf _ _) _)

@[simp] theorem State.unpass_mem (s : State) (ms : List (Nat × Nat)) : (s.unpass ms).mem = s.mem := by simp [State.unpass]

@[simp] theorem State.enterTraps_mem (s : State) (traps : List (Nat × Nat × Nat × DWord)) : (s.enterTraps traps).mem = s.mem := by
  have hf : ∀ (s1 : State) (k : Nat) (l : List (Nat × Nat × Nat × DWord)) (f : Nat × Nat × Nat × DWord → Thread → Thread),
      (l.foldl (fun s x => s.modThread k x.1 x.2.1 (f x)) s1).mem = s1.mem :=
          fun s1 k l f => State.foldl_mem (fun _ _ => by rfl) l s1
  unfold State.enterTraps
  dsimp only [State.newKey]
  split
  · simp
  · split
    · split <;> simp
    · split
      all_goals
        refine State.mem_ite (State.mem_ite ?_ ((State.finishEntries_mem ..).trans ?_))
          ((State.escalate_mem ..).trans (State.mem_ite ?_ ((State.finishEntries_mem ..).trans ?_))) <;> simp [hf]

@[simp] theorem State.takeTraps_mem (s : State) (traps : List (Nat × Nat × Nat × DWord)) : (s.takeTraps traps).mem = s.mem := by
  simp [State.takeTraps]

@[simp] theorem State.trapAll_mem (s : State) (cause : Nat) (tval : DWord) : (s.trapAll cause tval).mem = s.mem := by
  simp [State.trapAll]

@[simp] theorem State.accessFaults_mem (s : State) (fs : List (Nat × Nat × Nat × AFault)) : (s.accessFaults fs).mem = s.mem := by
  simp only [State.accessFaults]
  (repeat' split) <;> simp

@[simp] theorem laneWord_mem (lat : Nat) (f : Team → Nat → Thread → LaneOut) (s : State) : (laneWord lat f s).mem = s.mem := by
  simp [laneWord]

@[simp] theorem laneProducer_mem (lat : Nat) (f : Team → Nat → Thread → LaneOut) (s : State) : (laneProducer lat f s).mem = s.mem
    := by
  simp [laneProducer]

@[simp] theorem groupWord_mem (lat : Nat) (f : Team → Group → List Nat → List (RegId × DWord)) (s : State) : (groupWord lat f
    s).mem = s.mem := by
  unfold groupWord
  split <;> rfl

@[simp] theorem groupProducer_mem (lat d : Nat) (f : Team → Group → List Nat → Word) (s : State) :
    (groupProducer lat d f s).mem = s.mem := by
  unfold groupProducer
  split
  · rfl
  · split
    · rfl
    · refine State.foldl_mem (fun s g => ?_) _ _
      split <;> simp

@[simp] theorem State.waitOn_mem (s : State) (w : WaitOn) : (s.waitOn w).mem = s.mem := (rfl)

@[simp] theorem State.waitWith_mem (s : State) (w : WaitOn) (got : List (Nat × Nat × Nat)) : (s.waitWith w got).mem = s.mem :=
    (rfl)

@[simp] theorem wordVVV_mem (lat : Nat) (op : Word → Word → Word) (d a b : BitVec 7) (s : State) : (wordVVV lat op d a b s).mem =
    s.mem := by
  simp [wordVVV]

@[simp] theorem wordVVS_mem (lat : Nat) (op : Word → Word → Word) (d a : BitVec 7) (k : BitVec 6) (s : State) : (wordVVS lat op d
    a k s).mem = s.mem := by
  simp [wordVVS]

@[simp] theorem wordVVI_mem (op : Word → Word → Word) (d a : BitVec 7) (y : Word) (s : State) : (wordVVI op d a y s).mem = s.mem
    := by
  simp [wordVVI]

@[simp] theorem wordPPP_mem (op : Bool → Bool → Bool) (d a b : BitVec 3) (x y : BitVec 1) (s : State) : (wordPPP op d a b x y
    s).mem = s.mem := by
  simp [wordPPP]

@[simp] theorem wordFp_mem (op : Word → Word → Word → Word → Word × Word) (d a b : BitVec 7) (s : State) : (wordFp op d a b
    s).mem = s.mem := by
  simp [wordFp]

@[simp] theorem wordFps_mem (op : Word → Word → Word → Word → Word × Word) (d a : BitVec 7) (k : BitVec 6) (s : State) : (wordFps
    op d a k s).mem = s.mem := by
  simp [wordFps]

@[simp] theorem wordCvt_mem (op : Nat → Nat × Word) (d a : BitVec 7) (s : State) : (wordCvt op d a s).mem = s.mem := by
  simp [wordCvt]

@[simp] theorem wordBits_mem (op : Word → Word) (d a : BitVec 7) (s : State) : (wordBits op d a s).mem = s.mem := by
  simp [wordBits]

@[simp] theorem wordTrans_mem (f : Nat) (d a : BitVec 7) (s : State) : (wordTrans f d a s).mem = s.mem := by simp [wordTrans]

@[simp] theorem wordDraw_mem (n : Nat) (out : Word × Word × Word × Word → List Word) (d : Nat) (a : BitVec 7) (k : BitVec 5) (s :
    State) : (wordDraw n out d a k s).mem = s.mem := by
  simp [wordDraw]

@[simp] theorem wordSSS_mem (lat : Nat) (op : Word → Word → Word) (d a b : BitVec 6) (s : State) : (wordSSS lat op d a b s).mem =
    s.mem := by
  simp [wordSSS]

@[simp] theorem wordQQQ_mem (op : Bool → Bool → Bool) (d a b : BitVec 3) (x y : BitVec 1) (s : State) : (wordQQQ op d a b x y
    s).mem = s.mem := by
  simp [wordQQQ]

@[simp] theorem State.latchPair_mem (s : State) (team : Nat) (t : Team) (g : Group) (lanes : List Nat) (n : Nat) : (s.latchPair
    team t g lanes n).mem = s.mem := by
  unfold State.latchPair
  split <;> rfl

@[simp] theorem State.observeTags_mem (s : State) (team : Nat) (m : DWord) : (s.observeTags team m).mem = s.mem := (rfl)

@[simp] theorem wordSsrw_mem (k : BitVec 6) (r : BitVec 12) (s : State) : (wordSsrw k r s).mem = s.mem := by
  unfold wordSsrw
  split <;> rfl

@[simp] theorem maskWord_mem (f : Team → Group → List Nat → Team → Team) (s : State) : (maskWord f s).mem = s.mem := by
  unfold maskWord
  split <;> rfl

@[simp] theorem wordMask_mem (op : DWord → DWord → DWord) (m n : BitVec 4) (s : State) : (wordMask op m n s).mem = s.mem := by
  simp [wordMask]

@[simp] theorem State.performColl_mem (s : State) (team gid : Nat) (w : Word) (lanes : List Nat) : (s.performColl team gid w
    lanes).mem = s.mem := by
  unfold State.performColl
  split <;> rfl

@[simp] theorem State.collectives_mem (s : State) (team gid : Nat) : (s.collectives team gid).mem = s.mem := by
  unfold State.collectives
  split
  · rfl
  · refine (State.foldl_mem (fun s pc => ?_) _ _).trans (by simp)
    dsimp only
    split <;> simp

@[simp] theorem wordColl_mem (d : Nat) (s : State) : (wordColl d s).mem = s.mem := by
  unfold wordColl
  split <;> rfl

@[simp] theorem wordVote_mem (d : Nat) (s : State) : (wordVote d s).mem = s.mem := by
  unfold wordVote
  split <;> rfl

@[simp] theorem State.goTo_mem (s : State) (ts : List (Nat × Nat × DWord)) : (s.goTo ts).mem = s.mem := (rfl)

@[simp] theorem State.transfer_mem (s : State) (ts : List (Nat × Nat × DWord)) (more : List (Nat × Nat × Nat × DWord)) :
    (s.transfer ts more).mem = s.mem := by
  unfold State.transfer
  split <;> simp

theorem State.push_mem {s s' : State} {t : Team} {gid : Nat} {th : Thread} {x : DWord} (h : s.push t gid th x = .ok s') :
    s'.mem = s.mem := by
  simp only [State.push] at h
  split at h
  · cases h; rfl
  · split at h
    · cases h
    · cases h; exact putPriv_mem ..

theorem State.pop_mem {s : State} {t : Team} {gid : Nat} {th : Thread} {r : DWord × State} (h : s.pop t gid th = .ok r) :
    r.2.mem = s.mem := by
  simp only [State.pop] at h
  split at h
  · cases h; rfl
  · split at h
    · cases h
    · cases h; rfl

@[simp] theorem State.callTo_mem (s : State) (ts : List (Nat × Nat × DWord)) : (s.callTo ts).mem = s.mem := by
  unfold State.callTo
  split
  · rfl
  · next t _ =>
    have hf : ∀ (p : State × List (Nat × Nat × DWord) × List (Nat × Nat × Nat × AFault)) (x : Nat × Nat × DWord),
        (match t.thread? x.1 x.2.1 with
        | none => p
        | some th => match p.1.push t x.1 th (s.returnPc t) with
          | .ok s' => (s', p.2.1 ++ [x], p.2.2)
          | .error e => (p.1, p.2.1, p.2.2 ++ [(x.1, x.2.1, e.2, e.1)])).1.mem = p.1.mem := fun p x => by
      split
      · rfl
      · split
        · next hs => exact State.push_mem hs
        · rfl
    split
    · simp
    · exact ((State.accessFaults_mem ..).trans ((State.transfer_mem ..).trans (State.transfer_mem ..))).trans
        (State.foldl_fst_mem hf _ _)

@[simp] theorem State.fileMembers_mem (s : State) (ms : List (Nat × Nat)) (perGroup yielded : Bool) :
    (s.fileMembers ms perGroup yielded).mem = s.mem := by
  have hf : ∀ (l : List (Nat × Nat)) (p : Option State), (∀ x, p = some x → x.mem = s.mem) →
      ∀ x, l.foldl (fun p m => p.bind fun s => s.file s.cur.team m.1 m.2 perGroup yielded) p = some x → x.mem = s.mem := by
    intro l
    induction l with
    | nil => exact fun p hp => hp
    | cons m r ih =>
      refine fun p hp => ih _ fun x hx => ?_
      obtain ⟨y, hy, hf⟩ := Option.bind_eq_some_iff.mp hx
      exact (State.file_mem hf).trans (hp y hy)
  unfold State.fileMembers
  split
  · rfl
  · dsimp only
    split
    · rfl
    · next s' hs => exact hf _ _ (fun x hx => by cases hx; simp) s' hs

@[simp] theorem State.occupy_mem (s : State) (team : Nat) (new : Bool) : (s.occupy team new).mem = s.mem := by
  unfold State.occupy
  split <;> rfl

@[simp] theorem State.leaveSlots_mem (s : State) (t : Team) (xs : List Slot) : (s.leaveSlots t xs).mem = s.mem := (rfl)

@[simp] theorem State.vacate_mem (s : State) (team : Nat) : (s.vacate team).mem = s.mem := by
  unfold State.vacate
  split <;> (try split) <;> simp

@[simp] theorem State.spoilCopies_mem (s : State) (lay : Option Nat) (l : Loc) : (s.spoilCopies lay l).mem = s.mem := (rfl)

@[simp] theorem State.putScratch_mem (s : State) (w k level off : Nat) (b : Byte) : (s.putScratch w k level off b).mem = s.mem :=
    by
  simp only [State.putScratch]
  split <;> (try split) <;> simp

@[simp] theorem State.openChunk_mem (s : State) (t : Team) (g : Group) : (s.openChunk t g).mem = s.mem := (rfl)

@[simp] theorem State.withChunk_mem (s : State) (team gid : Nat) : (s.withChunk team gid).mem = s.mem := by
  unfold State.withChunk
  (repeat' split) <;> simp

@[simp] theorem State.endChunk_mem (s : State) (team gid : Nat) : (s.endChunk team gid).mem = s.mem := by
  unfold State.endChunk
  split <;> simp

@[simp] theorem State.turnChunk_mem (s : State) (team gid : Nat) : (s.turnChunk team gid).mem = s.mem := by simp [State.turnChunk]

@[simp] theorem State.endingWord_mem (s : State) {k : State → State} (hk : ∀ s, (k s).mem = s.mem) :
    (s.endingWord k).mem = s.mem := by
  unfold State.endingWord
  split <;> simp [hk]

@[simp] theorem State.holdGroups_mem (s : State) : s.holdGroups.mem = s.mem := (rfl)

@[simp] theorem State.turnUsed_mem (s : State) (gs : List Nat) : (s.turnUsed gs).mem = s.mem := by simp [State.turnUsed]

@[simp] theorem State.irrevocable_mem (s : State) {k : State → State} (hk : ∀ s, (k s).mem = s.mem) :
    (s.irrevocable k).mem = s.mem := by
  simp only [State.irrevocable]
  split <;> simp [hk]

@[simp] theorem State.endingEffect_mem (s : State) {k : State → State} (hk : ∀ s, (k s).mem = s.mem) :
    (s.endingEffect k).mem = s.mem := by
  simp only [State.endingEffect]
  split
  · simp
  · split <;> simp [hk]

@[simp] theorem State.noteSeen_mem (s : State) (team gid lane : Nat) (ks : List Nat) : (s.noteSeen team gid lane ks).mem = s.mem
    := by
  simp [State.noteSeen]

@[simp] theorem State.keepCopy_mem (s : State) (t : Team) (x : Spot) : (s.keepCopy t x).mem = s.mem := by
  unfold State.keepCopy
  split <;> simp

@[simp] theorem State.keepSector_mem (s : State) (t : Team) (x : Spot) : (s.keepSector t x).mem = s.mem := by
  unfold State.keepSector
  split <;> simp

@[simp] theorem State.readsAt_mem (s : State) (layer : Option Nat) (sp : List Spot) : (s.readsAt layer sp).mem = s.mem := by
  unfold State.readsAt
  split <;> rfl

@[simp] theorem State.noteRead_mem (s : State) (t : Team) (gid lane : Nat) (sp : List Spot) : (s.noteRead t gid lane sp).mem =
    s.mem := by
  simp only [State.noteRead]
  (repeat' split) <;> simp [State.noteName_mem]

@[simp] theorem State.storeTarget_mem (s : State) (team gid op : Nat) (grains : List Nat) :
    (s.storeTarget team gid op grains).2.mem = s.mem := by
  simp only [State.storeTarget]
  split
  · split <;> simp
  · simp

@[simp] theorem State.chunkWrite_mem (s : State) (chunk : Nat) (x : Spot) (pa : Nat) (b : Byte) (nt : Option (Nat × Nat)) :
    (s.chunkWrite chunk x pa b nt).mem = s.mem := by
  simp only [State.chunkWrite, State.newKey]
  simp [State.noteName_mem]

@[simp] theorem State.writeResult_mem (s : State) (o : Op) : (s.writeResult o).mem = s.mem := by
  unfold State.writeResult
  split <;> simp

@[simp] theorem State.cancelGroup_mem (s : State) (team gid since : Nat) : (s.cancelGroup team gid since).mem = s.mem := (rfl)

@[simp] theorem State.finishOld_mem (s : State) (team gid since : Nat) : (s.finishOld team gid since).mem = s.mem := by
  simp [State.finishOld]

@[simp] theorem State.standAgain_mem (s : State) (team : Nat) (st : List Stood) : (s.standAgain team st).mem = s.mem := by
  simp [State.standAgain]

@[simp] theorem State.rollBack_mem (s : State) (l : Lam) : (s.rollBack l).mem = s.mem := by
  simp only [State.rollBack]
  split <;> (try split) <;> simp

@[simp] theorem State.squash_mem (s : State) (ks : List Nat) : (s.squash ks).mem = s.mem := by simp [State.squash]

@[simp] theorem State.applySignature_mem (s : State) (dies : List Nat) (grains : List Nat) (own fourth : Option Nat) :
    (s.applySignature dies grains own fourth).mem = s.mem := by
  simp [State.applySignature]

@[simp] theorem State.healSectors_mem (s : State) (pa n : Nat) : (s.healSectors pa n).mem = s.mem := (rfl)

@[simp] theorem State.healWritten_mem (s : State) (pas : List Nat) : (s.healWritten pas).mem = s.mem := by
  simp [State.healWritten]

@[simp] theorem State.passBy_mem (s : State) (core : Nat) (base : Option Nat) (g pa : Nat) : (s.passBy core base g pa).mem =
    s.mem := (rfl)

@[simp] theorem State.layerReads_mem (s : State) (t : Team) (level : Nat) (sp : List Spot) : (s.layerReads t level sp).mem =
    s.mem := by
  simp [State.layerReads]

@[simp] theorem State.supersede_mem (s : State) (l : Lam) : (s.supersede l).mem = s.mem := (rfl)

@[simp] theorem State.launchFlight_mem (s : State) (l : Lam) (lines : List Line) : (s.launchFlight l lines).mem = s.mem := (rfl)

@[simp] theorem State.publish_mem (s : State) (l : Lam) : (s.publish l).mem = s.mem := by
  simp only [State.publish]
  (repeat' split) <;> simp [State.castShadow_mem]

@[simp] theorem State.grant_mem (s : State) (l : Lam) : (s.grant l).mem = s.mem := by
  simp only [State.grant]
  split <;> simp

@[simp] theorem State.commitAll_mem (s : State) (pick : Lam → Bool) (n : Nat) : (s.commitAll pick n).mem = s.mem := by
  induction n generalizing s with
  | zero => rfl
  | succ n ih =>
    unfold State.commitAll
    split <;> simp [ih]

@[simp] theorem State.renameSeen_mem (s : State) (old : List Nat) (new : Nat) : (s.renameSeen old new).mem = s.mem := (rfl)

@[simp] theorem State.giveUp_mem (s : State) (pick : Held → Bool) : (s.giveUp pick).2.mem = s.mem := by
  refine State.foldl_snd_mem (fun _ _ => ?_) _ _
  rfl

@[simp] theorem State.looseGoes_mem (s : State) (core : Nat) : (s.looseGoes core).mem = s.mem := State.giveUp_mem ..

@[simp] theorem State.looseFresh_mem (s : State) (core : Nat) : (s.looseFresh core).mem = s.mem := (rfl)

@[simp] theorem State.giveUpDue_mem (s : State) : s.giveUpDue.mem = s.mem := by simp [State.giveUpDue]

@[simp] theorem State.noteCluster_mem (s : State) (team : Nat) (vas : List Nat) : (s.noteCluster team vas).mem = s.mem := by
  simp [State.noteCluster]

@[simp] theorem State.fillPages_mem (s : State) (t : Team) (ls : List LaneAcc) : (s.fillPages t ls).mem = s.mem := by
  unfold State.fillPages
  split
  · rfl
  · refine State.foldl_mem (fun s p => ?_) _ _
    split <;> simp

@[simp] theorem State.fillLanes_mem (s : State) (t : Team) (ls : List LaneAcc) : (s.fillLanes t ls).mem = s.mem := by
  simp [State.fillLanes]

@[simp] theorem State.viewExhausted_mem (s : State) (team : Nat) : (s.viewExhausted team).mem = s.mem := (rfl)

@[simp] theorem State.toOutbox_mem (s : State) (team : Nat) (e : OutEntry) : (s.toOutbox team e).mem = s.mem := by
  unfold State.toOutbox
  split <;> simp

@[simp] theorem State.stage_mem (s : State) (team : Nat) (e : OutEntry) : (s.stage team e).mem = s.mem := by simp [State.stage]

@[simp] theorem State.sendFlit_mem (s : State) (module cls : Nat) : (s.sendFlit module cls).mem = s.mem := by
  simp only [State.sendFlit]
  split <;> simp

@[simp] theorem State.sendPod_mem (s : State) (c : Context) (tag va width : Nat) (act : RemoteAct) : (s.sendPod c tag va width
    act).mem = s.mem := by
  simp [State.sendPod]

@[simp] theorem State.podRequests_mem (s : State) (t : Team) (us : List (List LaneAcc)) (n : Nat)
    (regs : LaneAcc → List (Nat × Nat × Nat))
    (act : List LaneAcc → RemoteAct) : (s.podRequests t us n regs act).mem = s.mem := by
  unfold State.podRequests
  split
  · rfl
  · next c _ =>
    have hu : ∀ l : List (List LaneAcc), (l.foldl (fun (s : State) u => match u.filter fun l => !s.podDown c (bits l.va 41 34)
        with
        | [] => s
        | l :: rest =>
          let keys := (l :: rest).map fun x => (x.gid, x.lane)
          let s := { s with cur := { s.cur with members := keys } }.groupOp l.gid 0
            (.remote ((l :: rest).flatMap regs) l.va n (act (l :: rest)))
          s.sendPod c (s.keys - 1) l.va n (act (l :: rest))) s).mem = s.mem := fun l =>
      State.foldl_mem (fun s u => by split <;> simp) l s
    dsimp only at hu ⊢
    split
    · exact hu us
    · exact (State.putRecords_mem ..).trans (hu us)

@[simp] theorem State.fenceOps_mem (s : State) (kind scope : Nat) (toks : Bool) : (s.fenceOps kind scope toks).mem = s.mem := by
  simp [State.fenceOps]

@[simp] theorem State.loadLanes_mem (s : State) (t : Team) (v w : Nat) (ls : List LaneAcc) : (s.loadLanes t v w ls).mem = s.mem
    := by
  simp [State.loadLanes]

@[simp] theorem State.highestLane_mem (s : State) (team : Nat) : (s.highestLane team).mem = s.mem := (rfl)

@[simp] theorem State.storeLanes_mem (s : State) (t : Team) (v w : Nat) (nt : Bool) (ls : List LaneAcc) :
    (s.storeLanes t v w nt ls).mem = s.mem := by
  simp only [State.storeLanes, State.podRequests_mem, State.highestLane_mem]
  rw [State.foldl_mem fun s g => by simp, State.foldl_mem fun s g => by simp, State.foldl_mem fun s l => by split <;> simp]
  simp

@[simp] theorem State.atomLanes_mem (s : State) (t : Team) (d op : Nat) (r ret : Bool) (ls : List LaneAcc) :
    (s.atomLanes t d op r ret ls).mem = s.mem := by
  simp only [State.atomLanes, State.podRequests_mem]
  rw [State.foldl_mem fun s u => by split <;> simp, State.foldl_mem fun s l => by split <;> simp]
  split <;> simp

@[simp] theorem wordAtomic_mem (ret : Bool) (d : BitVec 7) (k : BitVec 5) (i : BitVec 7) (op : BitVec 4) (r : BitVec 1)
    (s : State) :
    (wordAtomic ret d k i op r s).mem = s.mem := by
  unfold wordAtomic
  split
  · rfl
  · simp only
    (repeat' split) <;> simp

@[simp] theorem wordFence_mem (kind : Nat) (sc : BitVec 3) (s : State) : (wordFence kind sc s).mem = s.mem :=
  State.endingWord_mem s fun s => s.fenceOps_mem ..

@[simp] theorem State.cctlOps_mem (s : State) : s.cctlOps.mem = s.mem := by simp [State.cctlOps]

@[simp] theorem State.fetchBlocks_mem (s : State) (t : Team) (vas : List Nat) : (s.fetchBlocks t vas).mem = s.mem := by
  unfold State.fetchBlocks
  split
  · rfl
  · refine State.foldl_mem (fun s b => ?_) _ _
    split <;> simp

@[simp] theorem State.writeBack_mem (s : State) (t : Team) (vas : List Nat) :
    (s.writeBack t vas).mem = s.mem := State.giveUp_mem ..

@[simp] theorem State.modChain_mem (s : State) (team h : Nat) (f : Chain → Chain) : (s.modChain team h f).mem = s.mem := (rfl)

@[simp] theorem State.freeChain_mem (s : State) (team h : Nat) : (s.freeChain team h).mem = s.mem := by
  unfold State.freeChain
  split <;> simp

@[simp] theorem State.reapChain_mem (s : State) (team h : Nat) : (s.reapChain team h).mem = s.mem := by
  unfold State.reapChain
  split <;> (try split) <;> simp

@[simp] theorem State.haltChain_mem (s : State) (team h : Nat) : (s.haltChain team h).mem = s.mem := by
  simp [State.haltChain]

@[simp] theorem State.setTag_mem (s : State) (team tag : Nat) : (s.setTag team tag).mem = s.mem := by
  unfold State.setTag
  split <;> simp

@[simp] theorem State.setTagErr_mem (s : State) (team tag : Nat) : (s.setTagErr team tag).mem = s.mem := by
  unfold State.setTagErr
  split <;> simp

@[simp] theorem State.clearTags_mem (s : State) (team : Nat) (m : DWord) : (s.clearTags team m).mem = s.mem := (rfl)

@[simp] theorem State.tellFills_mem (s : State) (team chain tag : Nat) : (s.tellFills team chain tag).mem = s.mem := (rfl)

@[simp] theorem State.failTag_mem (s : State) (team : Nat) (tag : Option Nat) : (s.failTag team tag).mem = s.mem := by
  unfold State.failTag
  split <;> simp

@[simp] theorem State.chainError_mem (s : State) (team h cause code : Nat) (tag : Option Nat) : (s.chainError team h cause code
    tag).mem = s.mem := by
  unfold State.chainError
  split <;> (try split) <;> simp

@[simp] theorem State.advance_mem (s : State) (team h off : Nat) : (s.advance team h off).mem = s.mem := (rfl)

@[simp] theorem State.slotClash_mem (s : State) (team slot : Nat) : (s.slotClash team slot).mem = s.mem := (rfl)

@[simp] theorem State.walkAhead_mem (s : State) (t : Team) (vas : List Nat) : (s.walkAhead t vas).mem = s.mem := by
  unfold State.walkAhead
  split
  · rfl
  · refine State.foldl_mem (fun s p => ?_) _ _
    split
    · rfl
    · split <;> simp

@[simp] theorem State.feedPops_mem (s : State) (team gid q seq : Nat) (words : List Word) : (s.feedPops team gid q seq words).mem
    = s.mem := (rfl)

@[simp] theorem State.fillSlot_mem (s : State) (team slot chain tag : Nat) (mine : List Nat) (ws : List (Nat × Option Byte)) :
    (s.fillSlot team slot chain tag mine ws).mem = s.mem := (rfl)

@[simp] theorem State.touch_mem (s : State) (team level code : Nat) : (s.touch team level code).mem = s.mem := (rfl)

@[simp] theorem State.sendEngine_mem (s : State) (t : Team) (own : EngineRef) (va n : Nat) (act : RemoteAct) : (s.sendEngine t
    own va n act).mem = s.mem := by
  unfold State.sendEngine
  split <;> simp

@[simp] theorem State.askPods_mem (s : State) (t : Team) (own : EngineRef) (vas : List Nat) : (s.askPods t own vas).mem = s.mem
    := by
  simp [State.askPods]

@[simp] theorem State.tellPods_mem (s : State) (t : Team) (own : EngineRef) (ws : List (Nat × Byte)) : (s.tellPods t own ws).mem
    = s.mem := by
  simp [State.tellPods]

@[simp] theorem State.dropCopy_mem (s : State) (team : Nat) (cp : Copy) : (s.dropCopy team cp).mem = s.mem := by
  simp [State.dropCopy]

@[simp] theorem State.modCopy_mem (s : State) (team k : Nat) (f : Copy → Copy) : (s.modCopy team k f).mem = s.mem := (rfl)

@[simp] theorem State.copyFails_mem (s : State) (t : Team) (cp : Copy) (cause : Nat) (r : Record) : (s.copyFails t cp cause
    r).mem = s.mem := by
  simp [State.copyFails]

@[simp] theorem State.stallChain_mem (s : State) (team h : Nat) : (s.stallChain team h).mem = s.mem := (rfl)

theorem State.copyFaults_mem {s s' : State} {t : Team} {c : Chain} {cp : Copy} {fs : List (Nat × AFault)}
    (h : s.copyFaults t c cp fs = some s') : s'.mem = s.mem := by
  simp only [State.copyFaults] at h
  split at h
  · cases h
  · cases h; simp
  · split at h <;> cases h <;> simp

@[simp] theorem State.endCopy_mem (s : State) (team : Nat) (cp : Copy) : (s.endCopy team cp).mem = s.mem := by
  simp [State.endCopy]

@[simp] theorem State.fatalWord_mem (s : State) (t : Team) (gid : Nat) (lanes : List Nat) (cause : Nat) (addr : DWord) (extra :
    List Byte) : (s.fatalWord t gid lanes cause addr extra).mem = s.mem := by
  simp [State.fatalWord]

@[simp] theorem State.startChain_mem (s : State) (t : Team) (d : BitVec 6) (k : BitVec 5) (gid : Nat) :
    (s.startChain t d k gid).mem = s.mem := by
  simp only [State.startChain, State.newKey]
  split
  · rfl
  · split <;> simp -implicitDefEqProofs

@[simp] theorem State.popOne_mem (s : State) (v q gid lane : Nat) : (s.popOne v q gid lane).mem = s.mem := by
  simp only [State.popOne]
  split <;> (try split) <;> simp

@[simp] theorem State.finishReleases_mem (s : State) (team : Nat) : (s.finishReleases team).mem = s.mem := by
  unfold State.finishReleases
  split <;> simp

@[simp] theorem State.claimOne_mem (s : State) (d gid : Nat) : (s.claimOne d gid).mem = s.mem := by
  simp only [State.claimOne]
  (repeat' split) <;> simp

@[simp] theorem State.issueMat_mem (s : State) (team key gid : Nat) (op : TileOp) (toks : List Nat) (iss : Issue) (by_ : List
    (Nat × Nat)) (lat : Nat) : (s.issueMat team key gid op toks iss by_ lat).mem = s.mem := by
  unfold State.issueMat
  split <;> rfl

@[simp] theorem State.issueRound_mem (s : State) (team cv : Nat) : (s.issueRound team cv).mem = s.mem := by
  unfold State.issueRound
  split <;> (try split) <;> simp

@[simp] theorem State.closeRounds_mem (s : State) (team : Nat) : (s.closeRounds team).mem = s.mem := by
  unfold State.closeRounds
  split
  · rfl
  · refine State.foldl_mem (fun s c => ?_) _ _
    split <;> simp

@[simp] theorem State.slotRecords_mem (s : State) (t : Team) (ms : List (Nat × Nat)) : (s.slotRecords t ms).mem = s.mem := by
  simp [State.slotRecords]

@[simp] theorem State.tellSigned_mem (s : State) (team key : Nat) (ms : List (Nat × Nat)) : (s.tellSigned team key ms).mem =
    s.mem := (rfl)

@[simp] theorem State.signAlone_mem (s : State) (w : Nat) (ms : List (Nat × Nat)) : (s.signAlone w ms).1.mem = s.mem := by
  unfold State.signAlone
  split
  · rfl
  · refine State.foldl_fst_mem (fun p m => ?_) _ _
    split
    · rfl
    · simp only [State.newKey]
      split
      · split <;> simp
      · split <;> simp

@[simp] theorem State.signRound_mem (s : State) (cv w : Nat) (ms : List (Nat × Nat)) : (s.signRound cv w ms).1.mem = s.mem := by
  unfold State.signRound
  split
  · rfl
  · split
    · rfl
    · dsimp only [State.newKey]
      refine State.mem_fst_ite rfl (State.mem_fst_ite (State.slotRecords_mem ..) (State.mem_fst_ite rfl ?_))
      refine State.mem_ite ((State.issueRound_mem ..).trans ?_) ?_ <;> simp -implicitDefEqProofs

@[simp] theorem State.signMma_mem (s : State) (cv w : Nat) (pend : List (Nat × Nat)) (n : Nat) :
    (s.signMma cv w pend n).1.mem = s.mem := by
  induction n generalizing s pend with
  | zero => rfl
  | succ n ih =>
    unfold State.signMma
    split
    · rfl
    · split
      · rfl
      · dsimp only
        split
        · refine State.mem_fst_ite (by simp) (State.mem_fst_ite ?_ ((ih _ _).trans ?_)) <;> simp
        · refine State.mem_fst_ite ?_ ?_ <;> simp

@[simp] theorem State.rejoin_mem (s : State) (a : Nat) : (s.rejoin a).mem = s.mem := (rfl)

@[simp] theorem State.issueDrain_mem (s : State) (t : Team) (load : Bool) (a : Nat) (k : BitVec 5) (gid : Nat) :
    (s.issueDrain t load a k gid).mem = s.mem := by
  simp only [State.issueDrain, State.newKey]
  (repeat' split) <;> simp

@[simp] theorem wordDrain_mem (load : Bool) (a : BitVec 3) (k : BitVec 5) (s : State) : (wordDrain load a k s).mem = s.mem := by
  unfold wordDrain
  split
  · rfl
  · split
    · simp
    · exact State.endingEffect_mem s fun s => State.foldl_mem (fun s g => s.issueDrain_mem ..) _ _

@[simp] theorem State.endMat_mem (s : State) (team : Nat) (m : MatOp) : (s.endMat team m).mem = s.mem := by
  simp [State.endMat]

@[simp] theorem State.drainFails_mem (s : State) (t : Team) (m : MatOp) (cause : Nat) (r : Record) : (s.drainFails t m cause
    r).mem = s.mem := by
  simp [State.drainFails]

@[simp] theorem State.modMop_mem (s : State) (team k : Nat) (f : MatOp → MatOp) : (s.modMop team k f).mem = s.mem := (rfl)

theorem State.drainFaults_mem {s s' : State} {t : Team} {m : MatOp} {a : Nat} {fs : List (Nat × AFault)}
    (h : s.drainFaults t m a fs = some s') : s'.mem = s.mem := by
  simp only [State.drainFaults] at h
  split at h
  · cases h
  · split at h <;> cases h <;> simp
  · cases h; simp

@[simp] theorem State.withBar_mem (s : State) (o : BarOwner) (sc id : Nat) : (s.withBar o sc id).2.mem = s.mem := by
  unfold State.withBar
  split <;> rfl

@[simp] theorem State.completePhase_mem (s : State) (b : Bar) (here : Bool) : (s.completePhase b here).mem = s.mem := by
  unfold State.completePhase
  split <;> (try split) <;> simp

@[simp] theorem State.checkBar_mem (s : State) (key : Nat) : (s.checkBar key).mem = s.mem := by
  unfold State.checkBar
  split <;> simp

@[simp] theorem State.noteTurn_mem (s : State) (key : Nat) (who : Nat × Nat × Nat) : (s.noteTurn key who).mem = s.mem := by
  unfold State.noteTurn
  split <;> simp

@[simp] theorem State.arrive_mem (s : State) (key : Nat) (who : Nat × Nat × Nat) (count : Option Nat) (fences : List Nat) :
    (s.arrive key who count fences).1.mem = s.mem := by
  simp only [State.arrive]
  (repeat' split) <;> simp

@[simp] theorem State.noteArrival_mem (s : State) (key : Nat) (who : Nat × Nat × Nat) (phase : Nat) : (s.noteArrival key who
    phase).mem = s.mem := (rfl)

@[simp] theorem State.countAt_mem (s : State) (key : Nat) (l : List Arrival) : (s.countAt key l).1.mem = s.mem := by
  induction l generalizing s with
  | nil => rfl
  | cons a as ih =>
    have ha := s.arrive_mem key a.who a.count a.fences
    unfold State.countAt
    split
    · next h => rw [ih, ← ha, h]
    · next h => rw [ih, State.noteArrival_mem, ← ha, h]

@[simp] theorem State.countRounds_mem (s : State) (key n : Nat) (l : List Arrival) : (s.countRounds key n l).1.mem = s.mem := by
  induction n generalizing s l with
  | zero => rfl
  | succ n ih =>
    have hl := s.countAt_mem key l
    unfold State.countRounds
    split
    next h =>
    rw [h] at hl
    split
    · exact hl
    · exact (ih _ _).trans hl

@[simp] theorem State.countArrivals_mem (s : State) : s.countArrivals.mem = s.mem := by
  simp [State.countArrivals]

@[simp] theorem State.sendArrivals_mem (s : State) (key sc : Nat) (count : Nat → Option Nat) : (s.sendArrivals key sc count).mem
    = s.mem := by
  simp [State.sendArrivals]

@[simp] theorem State.emptyResults_mem (s : State) (d : Nat) : (s.emptyResults d).mem = s.mem := by simp [State.emptyResults]

@[simp] theorem State.released_mem (s : State) (sc : Nat) : (s.released sc).mem = s.mem := by simp [State.released]

@[simp] theorem State.barResults_mem (s : State) (d : Nat) (x : Nat → Word) : (s.barResults d x).mem = s.mem := by
  simp [State.barResults]

@[simp] theorem State.barWord_mem (s : State) (key sc : Nat) (sync : Bool) (count : Nat → Option Nat) (d : Nat) : (s.barWord key
    sc sync count d).mem = s.mem := by
  unfold State.barWord
  split <;> (try split) <;> simp

@[simp] theorem State.barBegin_mem (s : State) (sc id : Nat) {k : Nat → State → State} (hk : ∀ n s, (k n s).mem = s.mem) :
    (s.barBegin sc id k).mem = s.mem := by
  unfold State.barBegin
  split
  · rfl
  · dsimp only
    (repeat' split) <;> simp [hk, State.endingEffect_mem]

@[simp] theorem State.moveToken_mem (s : State) (team : Nat) : (s.moveToken team).mem = s.mem := by
  unfold State.moveToken
  (repeat' split) <;> simp

@[simp] theorem State.orderDone_mem (s : State) (team : Nat) : (s.orderDone team).mem = s.mem := by
  unfold State.orderDone
  split <;> simp

@[simp] theorem State.tokenWord_mem (s : State) (pass : Bool) (n : Nat) (left : List Nat) :
    (s.tokenWord pass n left).mem = s.mem := by
  induction n generalizing s left with
  | zero => rfl
  | succ n ih =>
    unfold State.tokenWord
    split
    · rfl
    · split
      · rfl
      · split
        · simp
        · split
          · dsimp only
            split <;> simp [ih]
          · simp

@[simp] theorem wordToken_mem (pass : Bool) (s : State) : (wordToken pass s).mem = s.mem := by
  unfold wordToken
  split
  · rfl
  · split <;> simp

@[simp] theorem State.endThreads_mem (s : State) (team : Nat) (ms : List (Nat × Nat)) : (s.endThreads team ms).mem = s.mem := by
  simp -implicitDefEqProofs [State.endThreads]

@[simp] theorem State.leaveDie_mem (s : State) (t : Team) : (s.leaveDie t).mem = s.mem := (rfl)

@[simp] theorem State.restoreTeam_mem (s : State) (t : Team) (core : Nat) : (s.restoreTeam t core).mem = s.mem := by
  simp only [State.restoreTeam]
  split <;> simp

@[simp] theorem State.dropTeam_mem (s : State) (key : Nat) : (s.dropTeam key).mem = s.mem := by simp [State.dropTeam]

@[simp] theorem State.noteRetired_mem (s : State) (t : Team) : (s.noteRetired t).mem = s.mem := (rfl)

@[simp] theorem State.reapTeam_mem (s : State) (key : Nat) : (s.reapTeam key).mem = s.mem := by
  unfold State.reapTeam
  split <;> simp

@[simp] theorem State.cancelTeam_mem (s : State) (team : Nat) : (s.cancelTeam team).mem = s.mem := (rfl)

@[simp] theorem State.barsBack_mem (s : State) (team : Nat) (bars : List Bar) : (s.barsBack team bars).mem = s.mem := (rfl)

@[simp] theorem State.podOut_mem (s : State) (t : Team) (e : OutEntry) (va width : Nat) (act : RemoteAct) : (s.podOut t e va
    width act).mem = s.mem := by
  unfold State.podOut
  split <;> simp

@[simp] theorem State.stageView_mem (s : State) (t : Team) (view : Nat) : (s.stageView t view).mem = s.mem := by
  unfold State.stageView
  split <;> (try split) <;> simp

@[simp] theorem State.commitTeam_mem (s : State) (team : Nat) : (s.commitTeam team).mem = s.mem := by
  simp [State.commitTeam]

@[simp] theorem State.mergeLam_mem (s : State) (key : Nat) : (s.mergeLam key).mem = s.mem := by
  unfold State.mergeLam
  split <;> (try split) <;> simp

@[simp] theorem State.commitLevel_mem (s : State) (team : Nat) : (s.commitLevel team).mem = s.mem := by
  unfold State.commitLevel
  split <;> (try split) <;> simp

@[simp] theorem State.retryLevel_mem (s : State) (team : Nat) (l : Level) : (s.retryLevel team l).mem = s.mem := by
  simp [State.retryLevel]

@[simp] theorem State.judge_mem (s : State) (team : Nat) : (s.judge team).mem = s.mem := by
  unfold State.judge
  split <;> (try split) <;> simp

@[simp] theorem State.publishLevels_mem (s : State) : s.publishLevels.mem = s.mem := by
  unfold State.publishLevels
  refine State.foldl_mem (fun s a => ?_) _ _
  (repeat' split) <;> simp

@[simp] theorem State.newLam_mem (s : State) (t : Team) (owner : LamOwner) (parent : Option Nat) :
    (s.newLam t owner parent).2.mem = s.mem := rfl

@[simp] theorem State.openLevel_mem (s : State) (t : Team) (l : Latch) (lam : Nat) (full : Bool) : (s.openLevel t l lam full).mem
    = s.mem := by
  simp [State.openLevel]

@[simp] theorem State.tryOpen_mem (s : State) (team : Nat) : (s.tryOpen team).mem = s.mem := by
  unfold State.tryOpen
  split
  · rfl
  · split
    · rfl
    · have hc : ∀ ms : List Team, (ms.foldl (fun s (u : Team) =>
          if u.allWait (fun (w : WaitOn) => w == WaitOn.ensure) then s.commitTeam u.key else s) s).mem = s.mem :=
        fun ms => State.foldl_mem (fun s u => by split <;> simp) ms s
      refine State.mem_ite rfl (State.mem_ite (hc _) ((State.foldl_mem (fun s u => ?_) _ _).trans (hc _)))
      split <;> simp

@[simp] theorem State.playBack_mem (s : State) (js : List (Nat × Nat × List (Option Byte))) : (s.playBack js).mem = s.mem := by
  unfold State.playBack
  refine State.foldl_mem (fun s a => ?_) _ _
  simp

@[simp] theorem State.undoLevel_mem (s : State) (t : Team) (l : Level) (snap : Snap) : (s.undoLevel t l snap).mem = s.mem := by
  simp [State.undoLevel]

@[simp] theorem State.fileAll_mem (s : State) (team : Nat) (pc : DWord) : (s.fileAll team pc).mem = s.mem := by
  unfold State.fileAll
  split <;> simp

@[simp] theorem State.exhaust_mem (s : State) (team : Nat) (l : Level) (pc : DWord) : (s.exhaust team l pc).mem = s.mem := by
  simp only [State.exhaust]
  split <;> simp

@[simp] theorem State.nextAttempt_mem (s : State) (team : Nat) (l : Level) (lam : Nat) : (s.nextAttempt team l lam).mem = s.mem
    := by
  unfold State.nextAttempt
  split <;> simp

@[simp] theorem State.carrySpilled_mem (s : State) (t : Team) (i : Image) (target : Kind) : (s.carrySpilled t i target).mem =
    s.mem := by
  simp only [State.carrySpilled]
  simp [putPriv_mem]

@[simp] theorem State.restoreLevel_mem (s : State) (t : Team) (l : Level) (lam : Nat) (exhausted : Bool) : (s.restoreLevel t l
    lam exhausted).mem = s.mem := by
  simp only [State.restoreLevel]
  (repeat' split) <;> simp

@[simp] theorem State.stopLevelChains_mem (s : State) (team : Nat) : (s.stopLevelChains team).mem = s.mem := by
  unfold State.stopLevelChains
  split <;> (try split) <;> simp

@[simp] theorem State.needs?_mem (s : State) (bit : Nat) {k : Team → State} (hk : ∀ t, (k t).mem = s.mem) :
    (s.needs? bit k).mem = s.mem := by
  unfold State.needs?
  split
  · rfl
  · split <;> simp [hk]

@[simp] theorem State.endWord_mem (s : State) (t : Team) : (s.endWord t).mem = s.mem := by
  unfold State.endWord
  split <;> simp

@[simp] theorem State.giveVerdict_mem (s : State) (t : Team) : (s.giveVerdict t).mem = s.mem := by
  simp only [State.giveVerdict]
  (repeat' split) <;> simp

theorem State.outsideOnly_mem (s : State) (t : Team) {k : State} (hk : k.mem = s.mem) : (s.outsideOnly t k).mem = s.mem := by
  unfold State.outsideOnly
  (repeat' split) <;> simp [hk]

@[simp] theorem State.modRival_mem (s : State) (team : Nat) (f : Rival → Rival) : (s.modRival team f).mem = s.mem := by
  unfold State.modRival
  split <;> rfl

@[simp] theorem State.discardRivals_mem (s : State) (team n : Nat) : (s.discardRivals team n).mem = s.mem := by
  induction n generalizing s team with
  | zero => rfl
  | succ n ih =>
    unfold State.discardRivals
    split <;> simp [ih]

@[simp] theorem State.stopRival_mem (s : State) (t : Team) (keepView : Bool) : (s.stopRival t keepView).mem = s.mem := by
  simp [State.stopRival]

@[simp] theorem State.endRival_mem (s : State) (team cause : Nat) : (s.endRival team cause).mem = s.mem := by
  unfold State.endRival
  split <;> simp

@[simp] theorem State.makeRival_mem (s : State) (t : Team) (d r : Nat) : (s.makeRival t d r).mem = s.mem := by
  simp only [State.makeRival, State.newKey]
  split <;> simp

@[simp] theorem State.rivalWord_mem (s : State) {k : Team → State} (hk : ∀ t, (k t).mem = s.mem) : (s.rivalWord k).mem = s.mem :=
  s.needs?_mem 0 fun t => by split <;> simp [hk]

@[simp] theorem State.lastThreads_mem (s : State) {k : State → State} (hk : ∀ s, (k s).mem = s.mem) :
    (s.lastThreads k).mem = s.mem := by
  simp only [State.lastThreads]
  split
  · simp
  · exact State.irrevocable_mem s fun s => by simp [hk]

@[simp] theorem State.chosenBack_mem (s : State) (t : Team) (f : ForkRes) (l : Latch) (result : Word) : (s.chosenBack t f l
    result).mem = s.mem := by
  unfold State.chosenBack
  split <;> rfl

@[simp] theorem State.endChoose_mem (s : State) (team : Nat) (result : Word) : (s.endChoose team result).mem = s.mem := by
  unfold State.endChoose
  split
  · rfl
  · split <;> simp

@[simp] theorem State.publishRival_mem (s : State) (t u : Team) (num : Nat) : (s.publishRival t u num).mem = s.mem := by
  unfold State.publishRival
  split <;> simp

@[simp] theorem State.tryChoose_mem (s : State) (team : Nat) : (s.tryChoose team).mem = s.mem := by
  simp only [State.tryChoose]
  (repeat' split) <;> simp

@[simp] theorem State.fillFetch_mem (s : State) (t : Team) (pc : DWord) (p : Page) (ws : List Word) : (s.fillFetch t pc p ws).mem
    = s.mem := (rfl)

@[simp] theorem State.endTeam_mem (s : State) (team : Nat) : (s.endTeam team).mem = s.mem := by simp [State.endTeam]

@[simp] theorem State.fatalThreads_mem (s : State) (t : Team) (cause : Nat) : (s.fatalThreads t cause).mem = s.mem := by
  simp [State.fatalThreads]

@[simp] theorem State.migrateGroup_mem (s : State) (team gid k : Nat) : (s.migrateGroup team gid k).mem = s.mem := by
  simp only [State.migrateGroup]
  (repeat' split) <;> simp

@[simp] theorem State.sendPacket_mem (s : State) (t : Team) (gid q : Nat) (p : List Byte) : (s.sendPacket t gid q p).mem = s.mem
    := by
  simp [State.sendPacket]

@[simp] theorem State.carrySnaps_mem (s : State) (t : Team) (i : Image) (target : Kind) : (s.carrySnaps t i target).mem = s.mem
    := (rfl)

@[simp] theorem State.refuseMigration_mem (s : State) (t : Team) (m : Migr) (code : Nat) : (s.refuseMigration t m code).mem =
    s.mem := by
  simp [State.refuseMigration]

@[simp] theorem State.finishOp_mem (s : State) (o : Op) : (s.finishOp o).mem = s.mem := by simp [State.finishOp]

@[simp] theorem State.fencesYield_mem (s : State) : s.fencesYield.mem = s.mem := by
  simp [State.fencesYield]

@[simp] theorem State.fenceDrops_mem (s : State) (o : Op) : (s.fenceDrops o).mem = s.mem := by
  unfold State.fenceDrops
  split <;> simp

@[simp] theorem State.dropFetched_mem (s : State) (ctx a n : Nat) : (s.dropFetched ctx a n).mem = s.mem := (rfl)

@[simp] theorem State.endNamed_mem (s : State) (key : Nat) (ready : Lam → Bool) : (s.endNamed key ready).mem = s.mem := by
  unfold State.endNamed
  split <;> simp

@[simp] theorem State.atPc_mem (s : State) (t : Team) (q : Squad) (word : Word) : (s.atPc t q word).mem = s.mem := (rfl)

@[simp] theorem State.fetchFault_mem (s : State) (t : Team) (q : Squad) (e : AFault) : (s.fetchFault t q e).mem = s.mem := by
  simp [State.fetchFault]

@[simp] theorem State.badPacket_mem (s : State) (t : Team) (q : Squad) (w : Word) : (s.badPacket t q w).mem = s.mem := by
  simp [State.badPacket]

@[simp] theorem State.parkAtPoint_mem (s : State) (t : Team) (ms : List (Nat × Nat)) (id : Nat) : (s.parkAtPoint t ms id).mem =
    s.mem := by
  simp [State.parkAtPoint]

@[simp] theorem State.countPacket_mem (s : State) (team : Nat) (gs : List Nat) : (s.countPacket team gs).mem = s.mem := (rfl)

@[simp] theorem State.beginPacket_mem (s : State) (t : Team) (q : Squad) (p : Page) (line : List Word) : (s.beginPacket t q p
    line).mem = s.mem := (rfl)

@[simp] theorem State.unitTraps_mem (s : State) (t : Team) (q : Squad) (items : List UnitItem) : (s.unitTraps t q items).mem =
    s.mem := by
  unfold State.unitTraps
  split <;> simp

@[simp] theorem State.countFlags_mem (s : State) (team : Nat) (gs : List Nat) (f : Nat) :
    (s.countFlags team gs f).2.mem = s.mem := by
  unfold State.countFlags
  split <;> simp

@[simp] theorem State.unitWords_mem (s : State) (t : Team) (q : Squad) (ms : List (Nat × Nat)) (items : List UnitItem) :
    (s.unitWords t q ms items).2.mem = s.mem := by
  unfold State.unitWords
  refine State.foldl_snd_mem (fun p x => ?_) _ _
  dsimp only
  split
  · split <;> simp
  · simp

@[simp] theorem State.partSquad_mem (s : State) (t : Team) (q : Squad) : (s.partSquad t q).mem = s.mem := by
  simp only [State.partSquad]
  split <;> simp

@[simp] theorem State.passPoint_mem (s : State) (t : Team) (q : Squad) (ms : List (Nat × Nat)) :
    (s.passPoint t q ms).2.mem = s.mem := by
  unfold State.passPoint
  split
  · split <;> rfl
  · rfl

@[simp] theorem State.openUnit_mem (s : State) (t : Team) (q : Squad) (items : List UnitItem) :
    (s.openUnit t q items).2.mem = s.mem := by
  simp [State.openUnit]

@[simp] theorem State.timeUnit_mem (s : State) (t : Team) (q : Squad) (ws : List Performed) : (s.timeUnit t q ws).mem = s.mem :=
    (rfl)

@[simp] theorem State.beginUnit_mem (s : State) (team sq : Nat) : (s.beginUnit team sq).2.mem = s.mem := by
  unfold State.beginUnit
  split
  · rfl
  · next t _ =>
    split
    · rfl
    · next q _ =>
      have hp : ∀ (x : Option Squad) (items : List UnitItem) (ms : List (Nat × Nat)), (match x with
          | some y => if (badItem items).isNone && y.issuesApart (instrsOf items) && y.members.any ms.contains then
              (s.unitTraps t q items).partSquad t y else s.unitTraps t q items
          | none => s.unitTraps t q items).mem = s.mem := fun x items ms => by
        split
        · split <;> simp
        · simp
      split
      · rfl
      · dsimp only
        split
        · exact hp ..
        · split
          · exact hp ..
          · refine State.mem_snd_ite (hp ..) ?_
            simp only [State.timeUnit_mem, State.openUnit_mem]
            exact hp ..

@[simp] theorem State.forWord_mem (s : State) (iss : Issue) : (s.forWord iss).mem = s.mem := (rfl)

@[simp] theorem State.afterWord_mem (s : State) (i : Instr) : (s.afterWord i).mem = s.mem := by simp [State.afterWord]

@[simp] theorem State.retirePackets_mem (s : State) (last : Issue) (gone : List (Nat × Nat)) : (s.retirePackets last gone).mem =
    s.mem := by
  unfold State.retirePackets
  split <;> rfl

@[simp] theorem State.checkpoints_mem (s s0 : State) (team : Nat) (gs : List Nat) (retry : Bool) :
    (s.checkpoints s0 team gs retry).mem = s.mem := by
  unfold State.checkpoints
  refine State.foldl_mem (fun s g => ?_) _ _
  split
  · rfl
  · split
    · rfl
    · dsimp only
      split <;> simp

@[simp] theorem State.holdToks_mem (s : State) (iss : Issue) (i : Instr) : (s.holdToks iss i).mem = s.mem := by
  simp [State.holdToks]

@[simp] theorem State.higherWins_mem (s : State) (ws : List Performed) : (s.higherWins ws).mem = s.mem := by
  unfold State.higherWins
  split
  · rfl
  · refine State.foldl_mem (fun _ _ => ?_) _ _
    rfl

@[simp] theorem State.notePart_mem (s : State) (team sq : Nat) (join : Option Join) : (s.notePart team sq join).mem = s.mem := by
  simp [State.notePart]

@[simp] theorem State.closeUnit_mem (s : State) (team sq : Nat) (last : Issue) : (s.closeUnit team sq last).mem = s.mem := by
  simp only [State.closeUnit]
  split <;> (try split) <;> simp

@[simp] theorem State.mergeSquads_mem (s : State) (team key : Nat) : (s.mergeSquads team key).mem = s.mem := by
  simp only [State.mergeSquads]
  split <;> (try split) <;> simp

@[simp] theorem State.joinSquads_mem (s : State) : s.joinSquads.mem = s.mem := by simp [State.joinSquads]

@[simp] theorem State.reopenUnit_mem (s : State) (team sq : Nat) (ws : List Performed) : (s.reopenUnit team sq ws).mem = s.mem :=
    by
  simp only [State.reopenUnit]
  (repeat' split) <;> simp

@[simp] theorem State.endUnit_mem (s s0 : State) (team sq : Nat) (ws : List Performed) :
    (s.endUnit s0 team sq ws).mem = s.mem := by
  unfold State.endUnit
  split
  · rfl
  · simp

@[simp] theorem State.unpark_mem (s : State) (team gid key : Nat) (lanes : List Nat) : (s.unpark team gid key lanes).mem = s.mem
    := by
  unfold State.unpark
  split <;> simp

@[simp] theorem State.chainOn_mem (s : State) (team h : Nat) : (s.chainOn team h).mem = s.mem := by
  simp only [State.chainOn]
  split <;> simp

@[simp] theorem State.resumeBlocked_mem (s : State) (ctx : Nat) (p : PendRec) : (s.resumeBlocked ctx p).mem = s.mem := by
  unfold State.resumeBlocked
  split
  · simp
  · simp
  · simp
  · rfl
  · split
    · split
      · simp
      · next own _ _ _ _ _ =>
        have ho : ∀ c : Context, (s.ops.foldl (fun s x => match x.what with
            | .engine w va n act f =>
              if w == own && f == some p.key then
                (s.modOp x.key fun x => { x with what := .engine w va n act none }).sendPod c x.key va n act
              else s
            | _ => s) s).mem = s.mem := fun c => State.foldl_mem (fun s x => by
          split
          · split <;> simp
          · rfl) _ _
        dsimp only
        split
        · exact (State.chainOn_mem ..).trans (ho _)
        · exact ho _
      · rfl
    · rfl
  · rfl

@[simp] theorem State.replayRecord_mem (s : State) (ctx idx : Nat) : (s.replayRecord ctx idx).mem = s.mem := by
  unfold State.replayRecord
  (repeat' split) <;> simp

@[simp] theorem State.renamed_mem (s : State) (f : Nat → Nat) : (s.renamed f).mem = s.mem := (rfl)

@[simp] theorem State.pageFail_mem (s : State) (ctx va : Nat) (fatal : Bool) : (s.pageFail ctx va fatal).mem = s.mem := by
  simp [State.pageFail]

@[simp] theorem State.failMove_mem (s : State) (ctx va : Nat) : (s.failMove ctx va).mem = s.mem := by
  simp only [State.failMove]
  split <;> simp

@[simp] theorem State.shootdown_mem (s : State) (ctx : Nat) (len : DWord) : (s.shootdown ctx len).mem = s.mem := (rfl)

@[simp] theorem State.outsideByte_mem (s : State) (pa : Nat) (b : Byte) : (s.outsideByte pa b).2.mem = s.mem := by
  unfold State.outsideByte
  split <;> simp

@[simp] theorem State.hostFaults_mem (s : State) (team : Nat) (lanes : List (Nat × Nat × Nat)) (f : AFault) : (s.hostFaults team
    lanes f).mem = s.mem := by
  unfold State.hostFaults
  split <;> simp

@[simp] theorem State.withTenant_mem (s : State) (k : Nat) : (s.withTenant k).mem = s.mem := by simp [State.withTenant]

@[simp] theorem State.modQueue_mem (s : State) (c q : Nat) (f : Queue → Queue) : (s.modQueue c q f).mem = s.mem := (rfl)

@[simp] theorem State.firstQueue_mem (s : State) (c : Context) (q : Nat) : (s.firstQueue c q).mem = s.mem := by
  simp [State.firstQueue]

@[simp] theorem State.rereadQueue_mem (s : State) (c : Context) (q : Queue) : (s.rereadQueue c q).mem = s.mem := by
  simp only [State.rereadQueue]
  (repeat' split) <;> simp

@[simp] theorem State.qupdate_mem (s : State) (c : Nat) (v : DWord) : (s.qupdate c v).mem = s.mem := by
  unfold State.qupdate
  (repeat' split) <;> simp

@[simp] theorem State.terminate_mem (s : State) (c : Nat) : (s.terminate c).mem = s.mem := by
  unfold State.terminate
  split <;> simp

@[simp] theorem State.freeContext_mem (s : State) (c : Nat) : (s.freeContext c).mem = s.mem := (rfl)

@[simp] theorem State.releaseCtx_mem (s : State) (c : Nat) : (s.releaseCtx c).mem = s.mem := by
  unfold State.releaseCtx
  split <;> simp

@[simp] theorem State.notePops_mem (s : State) : s.notePops.mem = s.mem := (rfl)

@[simp] theorem State.refuseImage_mem (s : State) (i : Image) (code : Nat) : (s.refuseImage i code).mem = s.mem := (rfl)

@[simp] theorem State.dropUnloading_mem (s : State) : s.dropUnloading.mem = s.mem := (rfl)

@[simp] theorem State.modPacket_mem (s : State) (c q idx : Nat) (f : Packet → Packet) : (s.modPacket c q idx f).mem = s.mem :=
    (rfl)

@[simp] theorem State.packetFault_mem (s : State) (c q : Nat) (p : Packet) (e : AFault × Nat) : (s.packetFault c q p e).mem =
    s.mem := by
  simp [State.packetFault]

@[simp] theorem State.badPacketRecord_mem (s : State) (c q : Nat) (p : Packet) (offset : Nat) : (s.badPacketRecord c q p
    offset).mem = s.mem := by
  simp [State.badPacketRecord]

@[simp] theorem State.joinTenant_mem (s : State) (k : Nat) : (s.joinTenant k).mem = s.mem := by
  simp only [State.joinTenant]
  split <;> (try split) <;> simp

@[simp] theorem State.deliveryFault_mem (s : State) (t : Team) (o : Op) (e : AFault × Nat) : (s.deliveryFault t o e).mem = s.mem
    := by
  simp [State.deliveryFault]

@[simp] theorem State.chargeGrant_mem (s : State) (l : Launch) (reached : List (Nat × Nat)) (cost : Nat) :
    (s.chargeGrant l reached cost).mem = s.mem := by
  unfold State.chargeGrant
  split <;> simp

@[simp] theorem State.clearDeficits_mem (s : State) : s.clearDeficits.mem = s.mem := (rfl)

@[simp] theorem State.wakeContext_mem (s : State) (cn : Nat) (cores : List Nat) : (s.wakeContext cn cores).mem = s.mem := by
  unfold State.wakeContext
  split <;> simp

@[simp] theorem State.startTeam_mem (s : State) (l : Launch) (i : Image) (index core slot : Nat) (scalars : Sparse 32) :
    (s.startTeam l i index core slot scalars).mem = s.mem := by
  simp [State.startTeam]

@[simp] theorem State.preloadFault_mem (s : State) (l : Launch) (e : AFault × Nat) : (s.preloadFault l e).mem = s.mem := by
  unfold State.preloadFault
  split <;> simp

@[simp] theorem State.startNext_mem (s : State) (l : Launch) (i : Image) (cores : List Nat) (reached : List (Nat × Nat)) :
    (s.startNext l i cores reached).mem = s.mem := by
  unfold State.startNext
  split <;> (try split) <;> simp

@[simp] theorem State.stopTeams_mem (s : State) (r : Reclaim) : (s.stopTeams r).mem = s.mem := (rfl)

@[simp] theorem State.preempt_mem (s : State) (cn : Nat) : (s.preempt cn).mem = s.mem := by simp [State.preempt]

@[simp] theorem State.endReclaim_mem (s : State) (r : Reclaim) : (s.endReclaim r).mem = s.mem := by simp [State.endReclaim]

@[simp] theorem State.settleContexts_mem (s : State) : s.settleContexts.mem = s.mem := by simp [State.settleContexts]

@[simp] theorem State.endLaunches_mem (s : State) : s.endLaunches.mem = s.mem := by simp [State.endLaunches]

@[simp] theorem State.machineCheck_mem (s : State) (code info : Nat) (reset : Bool) : (s.machineCheck code info reset).mem =
    s.mem := by
  simp [State.machineCheck]

@[simp] theorem State.modLink_mem (s : State) (n : Nat) (f : Link → Link) : (s.modLink n f).mem = s.mem := (rfl)

@[simp] theorem State.linkDown_mem (s : State) (n : Nat) : (s.linkDown n).mem = s.mem := by
  unfold State.linkDown
  split <;> simp

@[simp] theorem State.podResponse_mem (s : State) (key val : Nat) : (s.podResponse key val).mem = s.mem := by
  unfold State.podResponse
  (repeat' split) <;> simp

@[simp] theorem State.engineFault_mem (s : State) (t : Team) (o : Op) (own : EngineRef) (va entry module rctx : Nat) (f : AFault)
    : (s.engineFault t o own va entry module rctx f).mem = s.mem := by
  unfold State.engineFault
  split <;> (try split) <;> simp

@[simp] theorem State.podFault_mem (s : State) (key : Nat) (f : AFault) : (s.podFault key f).mem = s.mem := by
  unfold State.podFault
  (repeat' split) <;> simp

@[simp] theorem State.returnPermits_mem (s : State) (port : Nat) (ret : List Nat) : (s.returnPermits port ret).mem = s.mem :=
    (rfl)

@[simp] theorem State.podMessage_mem (s : State) (m : PodMsg) : (s.podMessage m).mem = s.mem := by
  unfold State.podMessage
  split <;> simp

@[simp] theorem State.quarantine_mem (s : State) (n : Nat) : (s.quarantine n).mem = s.mem := by
  unfold State.quarantine
  split <;> simp

@[simp] theorem State.setClock_mem (s : State) (core pct : Nat) : (s.setClock core pct).mem = s.mem := (rfl)

@[simp] theorem State.startPodBar_mem (s : State) (c off v : Nat) : (s.startPodBar c off v).mem = s.mem := by
  simp [State.startPodBar]

@[simp] theorem State.managementWrite_mem (s : State) (page c off v : Nat) : (s.managementWrite page c off v).mem = s.mem := by
  unfold State.managementWrite
  (repeat' split) <;> simp

@[simp] theorem State.endWaits_mem (s : State) (team : Nat) : (s.endWaits team).mem = s.mem := by
  unfold State.endWaits
  split <;> simp

@[simp] theorem State.teamCollectives_mem (s : State) (team : Nat) : (s.teamCollectives team).mem = s.mem := by
  unfold State.teamCollectives
  split <;> simp

@[simp] theorem State.dropMoves_mem (s : State) : s.dropMoves.mem = s.mem := by simp [State.dropMoves]

@[simp] theorem State.dropApplied_mem (s : State) : s.dropApplied.mem = s.mem := by simp [State.dropApplied]

@[simp] theorem State.dropRun_mem (s : State) : s.dropRun.mem = s.mem := (rfl)

@[simp] theorem State.dropLeft_mem (s : State) : s.dropLeft.mem = s.mem := by simp [State.dropLeft]

@[simp] theorem State.exhausted_mem (s : State) : s.exhausted.mem = s.mem := by simp [State.exhausted]

@[simp] theorem State.chargeTenants_mem (s : State) : s.chargeTenants.mem = s.mem := by simp [State.chargeTenants]

@[simp] theorem State.heldAt_mem (s : State) (iss : Issue) (ms : List (Nat × Nat)) : (s.heldAt iss ms).mem = s.mem := (rfl)

@[simp] theorem State.takeWhole_mem (s : State) (iss : Issue) (traps : List (Nat × Nat × Nat × DWord)) : (s.takeWhole iss
    traps).mem = s.mem := by
  simp [State.takeWhole]

@[simp] theorem State.passedOver_mem (s : State) (team sq : Nat) : (s.passedOver team sq).mem = s.mem := (rfl)

end Sys2Proof.Machine

/-! Words and events that leave memory as it stands. -/

namespace Sys2Proof.Machine

/-- An outcome that leaves memory as it stands. -/
def MemStays (s : State) : Host.Outcome State Fault Refusal → Prop
  | .next s' => s'.mem = s.mem
  | .fault _ => True
  | .refused _ => True

@[simp] theorem memStays_next (s s' : State) : MemStays s (.next s') ↔ s'.mem = s.mem := Iff.rfl

theorem execWrtsr_memStays (a : BitVec 7) (k : BitVec 6) (s : State) : MemStays s (execWrtsr a k s) := by
  unfold execWrtsr
  split <;> (try split) <;> simp

theorem execSsrr_memStays (k : BitVec 6) (r : BitVec 12) (s : State) : MemStays s (execSsrr k r s) := by
  simp only [execSsrr, memStays_next]
  split
  · split <;> simp
  · refine (State.foldl_mem (fun x gid => ?_) _ _).trans ?_
    · split <;> simp
    · split <;> simp

theorem execWaitm_memStays (m : BitVec 4) (s : State) : MemStays s (execWaitm m s) := by
  unfold execWaitm
  split <;> simp

theorem execBallot_memStays (_d : BitVec 6) (_a : BitVec 3) (s : State) : MemStays s (execBallot _d _a s) := by
  unfold execBallot
  split <;> simp

theorem execBrp_memStays (n : BitVec 1) (p : BitVec 3) (o : BitVec 21) (s : State) : MemStays s (execBrp n p o s) := by
  unfold execBrp
  split <;> simp

theorem execBrq_memStays (n : BitVec 1) (q : BitVec 3) (o : BitVec 21) (s : State) : MemStays s (execBrq n q o s) := by
  unfold execBrq
  split <;> simp

theorem execCallr_memStays (a : BitVec 6) (s : State) : MemStays s (execCallr a s) := by
  unfold execCallr
  split <;> simp

theorem execJmpr_memStays (a : BitVec 6) (s : State) : MemStays s (execJmpr a s) := by
  unfold execJmpr
  split <;> simp

theorem execRet_memStays (s : State) : MemStays s (execRet s) := by
  unfold execRet
  split
  · rfl
  · next t _ =>
    split
    · simp
    · have hf : ∀ l : List (Nat × Thread), (l.foldl
          (fun (p : State × List (Nat × Nat × DWord) × List (Nat × Nat × Nat × AFault)) x =>
            match p.1.pop t x.1 x.2 with
            | .ok (pc, s') => (s', p.2.1 ++ [(x.1, x.2.lane, pc)], p.2.2)
            | .error e => (p.1, p.2.1, p.2.2 ++ [(x.1, x.2.lane, e.2, e.1)])) (s, [], [])).1.mem = s.mem := fun l => by
        refine State.foldl_fst_mem (fun p x => ?_) l (s, [], [])
        split
        · next h => exact State.pop_mem h
        · rfl
      exact (State.accessFaults_mem ..).trans ((State.transfer_mem ..).trans (hf _))

theorem execReformG_memStays (s : State) : MemStays s (execReformG s) := by simp [execReformG]

theorem execYield_memStays (s : State) : MemStays s (execYield s) := by simp [execYield]

theorem execLd_memStays (v : BitVec 7) (k : BitVec 5) (i : BitVec 7) (w : BitVec 3) (h : BitVec 2) (s : State) : MemStays s
    (execLd v k i w h s) := by
  unfold execLd
  (repeat' split) <;> simp

theorem execSt_memStays (v : BitVec 7) (k : BitVec 5) (i : BitVec 7) (w : BitVec 3) (h : BitVec 2) (s : State) : MemStays s
    (execSt v k i w h s) := by
  simp only [execSt]
  (repeat' split) <;> simp

theorem execPrefetch_memStays (k : BitVec 5) (i : BitVec 7) (s : State) : MemStays s (execPrefetch k i s) := by
  unfold execPrefetch
  split <;> simp

theorem execInvl_memStays (k : BitVec 5) (i : BitVec 7) (s : State) : MemStays s (execInvl k i s) := by
  unfold execInvl
  (repeat' split) <;> simp

theorem execCopyEntry_memStays (s : State) : MemStays s (execCopyEntry s) := by
  simp only [execCopyEntry]
  (repeat' split) <;> simp

theorem execLoopEntry_memStays (s : State) : MemStays s (execLoopEntry s) := by
  simp only [execLoopEntry]
  (repeat' split) <;> simp

theorem execIftagEntry_memStays (s : State) : MemStays s (execIftagEntry s) := by
  unfold execIftagEntry
  split <;> (try split) <;> simp

theorem execSettagEntry_memStays (s : State) : MemStays s (execSettagEntry s) := by
  unfold execSettagEntry
  split <;> (try split) <;> simp

theorem execQfeedEntry_memStays (s : State) : MemStays s (execQfeedEntry s) := by
  simp only [execQfeedEntry]
  (repeat' split) <;> simp

theorem execQfeedResume_memStays (s : State) : MemStays s (execQfeedResume s) := by
  simp only [execQfeedResume]
  (repeat' split) <;> simp

theorem execEndEntry_memStays (s : State) : MemStays s (execEndEntry s) := by
  unfold execEndEntry
  split <;> (try split) <;> simp

theorem execTchain_memStays (d : BitVec 6) (k : BitVec 5) (s : State) : MemStays s (execTchain d k s) := by
  unfold execTchain
  split <;> (try split) <;> simp

theorem execTagwaitAll_memStays (k : BitVec 5) (s : State) : MemStays s (execTagwaitAll k s) := by
  simp only [execTagwaitAll]
  (repeat' split) <;> simp

theorem execTagwaitAny_memStays (k : BitVec 5) (s : State) : MemStays s (execTagwaitAny k s) := by
  simp only [execTagwaitAny]
  (repeat' split) <;> simp

theorem execTagfirst_memStays (d : BitVec 6) (k : BitVec 5) (s : State) : MemStays s (execTagfirst d k s) := by
  unfold execTagfirst
  split <;> simp

theorem execTagclr_memStays (k : BitVec 5) (s : State) : MemStays s (execTagclr k s) := by simp [execTagclr]

theorem execQpop_memStays (v : BitVec 7) (q : BitVec 2) (s : State) : MemStays s (execQpop v q s) := by simp [execQpop]

theorem execTcancel_memStays (k : BitVec 6) (s : State) : MemStays s (execTcancel k s) := by
  unfold execTcancel
  split
  · rfl
  · refine State.endingEffect_mem s fun s => State.foldl_mem (fun s g => ?_) _ _
    dsimp only
    split <;> simp

theorem execSsrw_memStays (k : BitVec 6) (r : BitVec 12) (s : State) : MemStays s (execSsrw k r s) := by
  unfold execSsrw
  split <;> simp

theorem execOclaim_memStays (d : BitVec 6) (s : State) : MemStays s (execOclaim d s) := by simp [execOclaim]

theorem execOrelease_memStays (k : BitVec 6) (s : State) : MemStays s (execOrelease k s) := by
  unfold execOrelease
  split <;> (try split) <;> simp

theorem execOfence_memStays (s : State) : MemStays s (execOfence s) := by
  unfold execOfence
  split <;> simp

theorem execMma_memStays (h : BitVec 5) (a : BitVec 3) (x y : BitVec 5) (v : BitVec 3) (z : BitVec 1) (s : State) : MemStays s
    (execMma h a x y v z s) := by
  unfold execMma
  split <;> simp

theorem execCvset_memStays (v : BitVec 3) (k : BitVec 6) (s : State) : MemStays s (execCvset v k s) := by
  simp only [execCvset]
  (repeat' split) <;> simp -implicitDefEqProofs

theorem execMwait_memStays (a : BitVec 3) (s : State) : MemStays s (execMwait a s) := by
  simp only [execMwait]
  (repeat' split) <;> simp

theorem execMzero_memStays (a : BitVec 3) (s : State) : MemStays s (execMzero a s) := by
  simp only [execMzero, State.newKey]
  (repeat' split) <;> simp

theorem execMatrixOpStart_memStays (s : State) : MemStays s (execMatrixOpStart s) := by
  unfold execMatrixOpStart
  (repeat' split) <;> simp

theorem execMatrixOpComplete_memStays (s : State) : MemStays s (execMatrixOpComplete s) := by
  unfold execMatrixOpComplete
  (repeat' split) <;> simp

theorem execMzeroComplete_memStays (s : State) : MemStays s (execMzeroComplete s) := by
  unfold execMzeroComplete
  (repeat' split) <;> simp

theorem execMloadComplete_memStays (s : State) : MemStays s (execMloadComplete s) := by
  unfold execMloadComplete
  split
  · split
    · split
      · dsimp only
        split
        · rfl
        · split
          · next h => exact (State.drainFaults_mem h).trans (State.noteCluster_mem ..)
          · split <;> simp
      · rfl
    · rfl
  · rfl

theorem execArrive_memStays (g : BitVec 3) (b d : BitVec 6) (s : State) : MemStays s (execArrive g b d s) := by simp [execArrive]

theorem execSync_memStays (g : BitVec 3) (b d : BitVec 6) (s : State) : MemStays s (execSync g b d s) := by simp [execSync]

theorem execArrivex_memStays (g : BitVec 3) (b k d : BitVec 6) (s : State) : MemStays s (execArrivex g b k d s) := by
  simp only [execArrivex]
  (repeat' split) <;> simp

theorem execWaitb_memStays (g : BitVec 3) (b k d : BitVec 6) (s : State) : MemStays s (execWaitb g b k d s) := by
  unfold execWaitb
  split
  · rfl
  · refine State.barBegin_mem s _ _ fun key s => ?_
    split
    · rfl
    · dsimp only
      split <;> simp

theorem execBarrierRelease_memStays (s : State) : MemStays s (execBarrierRelease s) := by
  simp only [execBarrierRelease]
  (repeat' split) <;> simp

theorem execPodBarrierArrival_memStays (s : State) : MemStays s (execPodBarrierArrival s) := by
  simp only [execPodBarrierArrival]
  (repeat' split) <;> simp

theorem execPodBarrierCompletion_memStays (s : State) : MemStays s (execPodBarrierCompletion s) := by
  simp only [execPodBarrierCompletion]
  (repeat' split) <;> simp

theorem execTkpass_memStays (s : State) : MemStays s (execTkpass s) := by
  unfold execTkpass
  split <;> simp

theorem execTkdone_memStays (s : State) : MemStays s (execTkdone s) := by
  simp only [execTkdone]
  (repeat' split) <;> simp -implicitDefEqProofs

theorem execRbRestore_memStays (s : State) : MemStays s (execRbRestore s) := by
  have hf : ∀ (b : Bool) (s1 : State) (p : Nat × State), p.2.mem = s1.mem → ∀ ms : List Team, (ms.foldl (fun s (u : Team) =>
      match u.restoring with
      | some x => s.restoreLevel u x p.1 b
      | none => s) p.2).mem = s1.mem := fun b s1 p hp ms => (State.foldl_mem (fun s u => by split <;> simp) ms p.2).trans hp
  unfold execRbRestore
  split
  · split
    · rfl
    · split
      · rfl
      · dsimp only
        split
        · rfl
        · split
          · simp
          · have hp : ∀ (b : Bool) (t : Team) (x : Option Nat), (if b then (0, s) else s.newLam t .level x).2.mem = s.mem :=
              fun b t x => State.mem_snd_ite rfl rfl
            refine State.mem_ite ?_ ((State.foldl_mem (fun s u => State.failLevel_mem ..) _ _).trans ?_)
            all_goals exact hf _ s _ (hp ..) _
  · rfl

theorem execRbCycleLimit_memStays (s : State) : MemStays s (execRbCycleLimit s) := by
  unfold execRbCycleLimit
  (repeat' split) <;> simp

theorem execEnsure_memStays (k : BitVec 6) (s : State) : MemStays s (execEnsure k s) :=
  State.needs?_mem s 1 fun t => by (repeat' split) <;> simp -implicitDefEqProofs

theorem execElseby_memStays (s : State) : MemStays s (execElseby s) := by simp [execElseby]

theorem execElseerror_memStays (s : State) : MemStays s (execElseerror s) := by simp [execElseerror]

theorem execAccept_memStays (s : State) : MemStays s (execAccept s) := by simp [execAccept]

theorem execReject_memStays (s : State) : MemStays s (execReject s) := by simp [execReject]

theorem execConvjoin_memStays (k : BitVec 6) (s : State) : MemStays s (execConvjoin k s) :=
  State.needs?_mem s 1 fun t => State.outsideOnly_mem s t (State.endingEffect_mem s fun s => State.foldl_mem (fun s g => by
    dsimp only
    split <;> simp) _ _)

theorem execConvleave_memStays (s : State) : MemStays s (execConvleave s) := by simp [execConvleave]

theorem execRbstat_memStays (d : BitVec 6) (s : State) : MemStays s (execRbstat d s) := by simp [execRbstat]

theorem execRivalDone_memStays (s : State) : MemStays s (execRivalDone s) := by
  simp only [execRivalDone]
  (repeat' split) <;> simp

theorem execFork_memStays (d k : BitVec 6) (s : State) : MemStays s (execFork d k s) :=
  State.needs?_mem s 0 fun t => by
    dsimp only
    (repeat' split) <;> simp -implicitDefEqProofs

theorem execForkComplete_memStays (s : State) : MemStays s (execForkComplete s) := by
  unfold execForkComplete
  split
  · split
    · rfl
    · split
      · rfl
      · dsimp only [State.newKey]
        split
        · rfl
        · split
          · simp
          · split
            · simp
            · refine (State.foldl_mem (fun s r => ?_) _ _).trans ?_
              · split <;> simp
              · split <;> simp
  · rfl

theorem execWdone_memStays (k : BitVec 6) (s : State) : MemStays s (execWdone k s) := by simp [execWdone]

theorem execWabort_memStays (s : State) : MemStays s (execWabort s) := by simp [execWabort]

theorem execWstat_memStays (d : BitVec 5) (k : BitVec 6) (s : State) : MemStays s (execWstat d k s) := by
  unfold execWstat
  split <;> simp

theorem execChoose_memStays (d k : BitVec 6) (s : State) : MemStays s (execChoose d k s) :=
  State.needs?_mem s 0 fun t => by
    dsimp only
    (repeat' split) <;> simp -implicitDefEqProofs

theorem execRivalTimeShare_memStays (s : State) : MemStays s (execRivalTimeShare s) := by
  unfold execRivalTimeShare
  (repeat' split) <;> simp

theorem execRivalPlace_memStays (s : State) : MemStays s (execRivalPlace s) := by
  simp only [execRivalPlace]
  (repeat' split) <;> simp

theorem execParentResume_memStays (s : State) : MemStays s (execParentResume s) := by
  simp only [execParentResume]
  (repeat' split) <;> simp

theorem execExit_memStays (s : State) : MemStays s (execExit s) := by
  simp only [execExit]
  (repeat' split) <;> simp

theorem execGroupRetire_memStays (s : State) : MemStays s (execGroupRetire s) := by
  unfold execGroupRetire
  (repeat' split) <;> simp

theorem execMigrate_memStays (k : BitVec 2) (s : State) : MemStays s (execMigrate k s) := by
  unfold execMigrate
  split
  · rfl
  · split
    · rfl
    · exact State.outsideOnly_mem s _ (by simp)

theorem execEqpt_memStays (i : BitVec 16) (s : State) : MemStays s (execEqpt i s) := by
  unfold execEqpt
  split <;> (try split) <;> simp

theorem execKlaunch_memStays (k : BitVec 5) (q : BitVec 6) (s : State) : MemStays s (execKlaunch k q s) := by
  simp only [execKlaunch]
  (repeat' split) <;> simp

theorem execMigrationTimeout_memStays (s : State) : MemStays s (execMigrationTimeout s) := by
  unfold execMigrationTimeout
  (repeat' split) <;> simp

theorem execNop_memStays (s : State) : MemStays s (execNop s) := by simp [execNop]

theorem execRtt_memStays (s : State) : MemStays s (execRtt s) := by
  unfold execRtt
  split
  · rfl
  · split
    · simp
    · simp only [memStays_next, State.accessFaults_mem, State.takeTraps_mem]
      refine State.foldl_mem (fun s r => ?_) _ _
      split <;> simp

theorem execIcinv_memStays (k l : BitVec 5) (s : State) : MemStays s (execIcinv k l s) := by
  unfold execIcinv
  split <;> (try split) <;> simp

theorem execResultWriteback_memStays (s : State) : MemStays s (execResultWriteback s) := by
  unfold execResultWriteback
  (repeat' split) <;> simp

theorem execFenceComplete_memStays (s : State) : MemStays s (execFenceComplete s) := by
  unfold execFenceComplete
  (repeat' split) <;> simp

theorem execChunkPacketLimit_memStays (s : State) : MemStays s (execChunkPacketLimit s) := by
  unfold execChunkPacketLimit
  split <;> simp

theorem execChunkQuietPeriod_memStays (s : State) : MemStays s (execChunkQuietPeriod s) := by
  unfold execChunkQuietPeriod
  split <;> simp

theorem execChunkCommitGrant_memStays (s : State) : MemStays s (execChunkCommitGrant s) := by
  unfold execChunkCommitGrant
  (repeat' split) <;> simp

theorem execExternalWriteSignature_memStays (s : State) : MemStays s (execExternalWriteSignature s) := by
  unfold execExternalWriteSignature
  split <;> simp

theorem execPacketIssue_memStays (s : State) : MemStays s (execPacketIssue s) := by
  unfold execPacketIssue
  (repeat' split) <;> simp

theorem execTrayAged_memStays (s : State) : MemStays s (execTrayAged s) := by
  unfold execTrayAged
  split <;> (try split) <;> simp

theorem execTrayDraw_memStays (s : State) : MemStays s (execTrayDraw s) := by
  unfold execTrayDraw
  split <;> (try split) <;> simp

theorem execHandlerEntry_memStays (s : State) : MemStays s (execHandlerEntry s) := by
  unfold execHandlerEntry
  split <;> (try split) <;> simp

theorem execReplay_memStays (s : State) : MemStays s (execReplay s) := by
  unfold execReplay
  split <;> simp

theorem execShootdown_memStays (s : State) : MemStays s (execShootdown s) := by
  unfold execShootdown
  split <;> simp

theorem execShootdownComplete_memStays (s : State) : MemStays s (execShootdownComplete s) := by
  unfold execShootdownComplete
  (repeat' split) <;> simp

theorem execHostMemRead_memStays (s : State) : MemStays s (execHostMemRead s) := by
  unfold execHostMemRead
  split <;> (try split) <;> simp

theorem execHostErrorCompletion_memStays (s : State) : MemStays s (execHostErrorCompletion s) := by
  unfold execHostErrorCompletion
  (repeat' split) <;> simp

theorem execTranslate_memStays (s : State) : MemStays s (execTranslate s) := by
  unfold execTranslate
  split <;> simp

theorem execRevokeAnswer_memStays (s : State) : MemStays s (execRevokeAnswer s) := by
  unfold execRevokeAnswer
  split <;> simp

theorem execFeatureAccept_memStays (s : State) : MemStays s (execFeatureAccept s) := by
  unfold execFeatureAccept
  split <;> (try split) <;> simp

theorem execCreate_memStays (s : State) : MemStays s (execCreate s) := by
  simp only [execCreate]
  (repeat' split) <;> simp

theorem execEnable_memStays (s : State) : MemStays s (execEnable s) := by
  unfold execEnable
  (repeat' split) <;> simp

theorem execQupdate_memStays (s : State) : MemStays s (execQupdate s) := by
  unfold execQupdate
  split <;> simp

theorem execTerminate_memStays (s : State) : MemStays s (execTerminate s) := by
  unfold execTerminate
  split <;> simp

theorem execContextResourcesFreed_memStays (s : State) : MemStays s (execContextResourcesFreed s) := by
  unfold execContextResourcesFreed
  (repeat' split) <;> simp

theorem execRelease_memStays (s : State) : MemStays s (execRelease s) := by
  unfold execRelease
  split <;> simp

theorem execWatchdogTimeout_memStays (s : State) : MemStays s (execWatchdogTimeout s) := by
  unfold execWatchdogTimeout
  (repeat' split) <;> simp

theorem execKernelUnload_memStays (s : State) : MemStays s (execKernelUnload s) := by
  unfold execKernelUnload
  split <;> simp

theorem execLaunch_memStays (s : State) : MemStays s (execLaunch s) := by
  unfold execLaunch
  split <;> (try split) <;> simp

theorem execCopyPacket_memStays (s : State) : MemStays s (execCopyPacket s) := by
  unfold execCopyPacket
  split <;> simp

theorem execFencePacket_memStays (s : State) : MemStays s (execFencePacket s) := by
  unfold execFencePacket
  split <;> simp

theorem execCoreGrant_memStays (s : State) : MemStays s (execCoreGrant s) := by
  unfold execCoreGrant
  (repeat' split) <;> simp

theorem execTeamRestore_memStays (s : State) : MemStays s (execTeamRestore s) := by
  unfold execTeamRestore
  split
  · split
    · split
      · rfl
      · simp only [memStays_next, State.clearDeficits_mem]
        refine (State.foldl_mem (fun s p => ?_) _ _).trans (by simp)
        split <;> simp
    · rfl
  · rfl

theorem execCoreReclaim_memStays (s : State) : MemStays s (execCoreReclaim s) := by
  simp only [execCoreReclaim]
  (repeat' split) <;> simp

theorem execPreemptStopRequest_memStays (s : State) : MemStays s (execPreemptStopRequest s) := by
  unfold execPreemptStopRequest
  split <;> (try split) <;> simp

theorem execPriorityAging_memStays (s : State) : MemStays s (execPriorityAging s) := by
  unfold execPriorityAging
  (repeat' split) <;> simp

theorem execLinkEnable_memStays (s : State) : MemStays s (execLinkEnable s) := by
  unfold execLinkEnable
  split <;> simp

theorem execLinkTrained_memStays (s : State) : MemStays s (execLinkTrained s) := by
  unfold execLinkTrained
  (repeat' split) <;> simp

theorem execLinkRetryRate_memStays (s : State) : MemStays s (execLinkRetryRate s) := by
  unfold execLinkRetryRate
  split <;> simp

theorem execLinkDisable_memStays (s : State) : MemStays s (execLinkDisable s) := by
  unfold execLinkDisable
  split <;> simp

theorem execFlitReceive_memStays (s : State) : MemStays s (execFlitReceive s) := by
  unfold execFlitReceive
  (repeat' split) <;> simp

theorem execProoferAudit_memStays (s : State) : MemStays s (execProoferAudit s) := by
  unfold execProoferAudit
  (repeat' split) <;> simp

theorem execAttestationRequest_memStays (s : State) : MemStays s (execAttestationRequest s) := by
  unfold execAttestationRequest
  split <;> simp

theorem execPpsEdge_memStays (s : State) : MemStays s (execPpsEdge s) := by
  unfold execPpsEdge
  split <;> simp

theorem execPpsLoss_memStays (s : State) : MemStays s (execPpsLoss s) := by
  unfold execPpsLoss
  split <;> simp

theorem execIeee1588TimeOfDay_memStays (s : State) : MemStays s (execIeee1588TimeOfDay s) := by
  unfold execIeee1588TimeOfDay
  split <;> simp

theorem execPowerLimitSet_memStays (s : State) : MemStays s (execPowerLimitSet s) := by
  unfold execPowerLimitSet
  split <;> simp

theorem execContextPowerCapSet_memStays (s : State) : MemStays s (execContextPowerCapSet s) := by
  unfold execContextPowerCapSet
  split <;> simp

theorem execLCoreThermalThrottle_memStays (s : State) : MemStays s (execLCoreThermalThrottle s) := by
  unfold execLCoreThermalThrottle
  split <;> simp

theorem execThrottleClockRise_memStays (s : State) : MemStays s (execThrottleClockRise s) := by
  unfold execThrottleClockRise
  split <;> simp

theorem execHbmThermalThrottle_memStays (s : State) : MemStays s (execHbmThermalThrottle s) := by
  unfold execHbmThermalThrottle
  split <;> simp

theorem execHbmStackBelow90C_memStays (s : State) : MemStays s (execHbmStackBelow90C s) := by
  unfold execHbmStackBelow90C
  split <;> simp

theorem execTempCritical_memStays (s : State) : MemStays s (execTempCritical s) := by
  unfold execTempCritical
  split <;> (try split) <;> simp

theorem execHeartbeatMiss_memStays (s : State) : MemStays s (execHeartbeatMiss s) := by
  simp only [execHeartbeatMiss]
  (repeat' split) <;> simp

end Sys2Proof.Machine

/-! O59: every step keeps the canonical form of memory (R182). -/

namespace Sys2Proof.Machine

/-! ## Operations that write memory -/

theorem State.ite_snd_formed {β : Type} {p : Prop} [Decidable p] {a b : β × State} (ha : a.2.Formed) (hb : b.2.Formed) :
    (if p then a else b).2.Formed := by
  split <;> assumption

theorem State.Formed.releaseWaiting {s : State} (h : s.Formed) : s.releaseWaiting.Formed := by
  unfold State.releaseWaiting
  split
  · exact h
  · refine State.Formed.foldl (fun s w hs => ?_) _ h
    split
    · exact hs
    · exact hs.enterByte ..

theorem State.Formed.intoLayer {s : State} (h : s.Formed) (t : Team) (layer : Option Nat) (pa : Nat) (b : Byte) (x : Spot) :
    (s.intoLayer t layer pa b x).Formed := by
  unfold State.intoLayer
  split
  · exact h.externalByte ..
  · exact h.of_mem (by simp [State.noteName_mem])

theorem State.Formed.engineWrite {s : State} (h : s.Formed) (t : Team) (level : Nat) (lam : Option Nat) (sp : Spot) (b : Byte) :
    (s.engineWrite t level lam sp b).Formed := by
  unfold State.engineWrite
  split
  · exact h.of_mem (by simp)
  · exact State.Formed.intoLayer (h.of_mem (by simp)) ..
  · exact h
  · exact h

theorem State.Formed.engineWrites {s : State} (h : s.Formed) (t : Team) (level : Nat) (ws : List (Spot × Byte)) :
    (s.engineWrites t level ws).Formed := by
  unfold State.engineWrites
  dsimp only
  split <;> exact State.Formed.foldl (fun s w hs => hs.engineWrite ..) ws h

theorem State.Formed.writeBackPriv {s : State} (h : s.Formed) (t : Team) (pas : List Nat) : (s.writeBackPriv t pas).Formed := by
  unfold State.writeBackPriv
  split
  · exact h
  · exact foldl_memPut_wf _ (fun p : Nat × Byte => privPa p.1) (fun p => p.2) _ h

theorem State.Formed.performCopy {s : State} (h : s.Formed) (t : Team) (level : Nat) (cp : Copy) (whole : Nat → Bool) :
    (s.performCopy t level cp whole).2.Formed := by
  unfold State.performCopy
  split
  · exact h.of_mem (by simp)
  · have hw : ∀ (ws : List (Spot × Byte)) (c : Prop) [Decidable c] (f : Chain → Chain), (if c then
        (s.engineWrites t level ws).modChain t.key cp.h f else s.engineWrites t level ws).Formed := fun ws c _ f =>
      State.ite_formed (h.engineWrites ..) (h.engineWrites ..)
    exact State.Formed.of_mem (State.ite_formed (State.Formed.of_mem (hw ..)
      (State.foldl_mem (fun s w => State.spoilCopies_mem ..) _ _)) (hw ..)) (State.healWritten_mem ..)

theorem State.Formed.writePrivate {s : State} (h : s.Formed) (t : Team) : (s.writePrivate t).Formed := by
  unfold State.writePrivate
  split
  · exact h
  · exact foldl_memPut_wf _ (fun p : Nat × Byte => privPa p.1) (fun p => p.2) _ h

theorem State.Formed.saveTeam {s : State} (h : s.Formed) (t : Team) : (s.saveTeam t).Formed := by
  unfold State.saveTeam
  refine State.Formed.foldl (fun s b hs => ?_) _ (State.Formed.of_mem (State.Formed.writePrivate (h.of_mem ?_) t) rfl)
  · exact State.ite_formed hs (hs.of_mem (by simp))
  · simp

theorem State.Formed.performOut {s : State} (h : s.Formed) (t : Team) (e : OutEntry) : (s.performOut t e).Formed := by
  unfold State.performOut
  dsimp only
  split
  · exact h.of_mem (by simp)
  · exact h.of_mem (by simp)
  · exact h.of_mem (by simp)
  all_goals exact State.Formed.foldl (fun s p hs => hs.externalByte ..) _ h

theorem State.Formed.sendEntries {s : State} (h : s.Formed) (team : Nat) (stages : Bool) (es : List OutEntry) :
    (s.sendEntries team stages es).2.Formed := by
  induction es generalizing s with
  | nil => exact h
  | cons e es ih =>
    unfold State.sendEntries
    split
    · exact h
    · exact State.ite_snd_formed h (State.ite_snd_formed (ih (h.modTeam ..)) (ih ((h.performOut ..).modTeam ..)))

theorem State.Formed.finishChoose {s : State} (h : s.Formed) (team : Nat) : (s.finishChoose team).Formed := by
  unfold State.finishChoose
  split
  · exact h
  · split
    · exact h
    · split
      · exact h
      · split
        · exact h
        · next u _ =>
          have hs := h.sendEntries team true u.outbox
          split
          · exact h.of_mem (by simp)
          · split
            · exact h
            · dsimp only
              split
              · exact hs.of_mem rfl
              · exact hs.of_mem (by simp)

theorem State.Formed.storeByte {s : State} (h : s.Formed) (o : Op) (nt : Bool) (chunk : Option Nat) (w : StoreByte) :
    (s.storeByte o nt chunk w).Formed := by
  have hc : ∀ (c : Bool) (lay : Option Nat) (l : Loc), (if c then s.spoilCopies lay l else s).Formed :=
    fun c lay l => h.of_mem (by simp)
  simp only [State.storeByte]
  split
  · split
    · exact State.Formed.of_mem (hc ..) (State.putScratch_mem ..)
    · exact hc ..
  · exact State.Formed.of_mem (hc ..) (State.privNoted_mem ..)
  · split
    · exact State.Formed.externalByte (hc ..) ..
    · split
      · exact State.Formed.of_mem (hc ..) (State.chunkWrite_mem ..)
      · exact hc ..
  · exact hc ..

theorem State.Formed.acceptStore {s : State} (h : s.Formed) (o : Op) (ws : List StoreByte) (nt : Bool) :
    (s.acceptStore o ws nt).Formed := by
  unfold State.acceptStore
  refine State.Formed.foldl (fun s w hs => hs.storeByte ..) ws (h.of_mem ?_)
  split <;> simp

theorem State.Formed.performAtomic {s : State} (h : s.Formed) (o : Op) (t : Team) (sp : List Spot) (op : Nat) (r : Bool)
    (dest : Option Nat) (lanes : List AtomLane) : (s.performAtomic o t sp op r dest lanes).Formed := by
  have h0 : ∀ (a : Bool) (f : Held → Bool) (l : List Spot), ((if a then s else (s.giveUp f).2).layerReads t t.levels.length
      l).Formed :=
    fun a f l => h.of_mem (by simp)
  simp only [State.performAtomic]
  refine State.Formed.of_mem ?_ (State.finishOp_mem ..)
  split
  all_goals
    try refine State.Formed.modTeam ?_ _ _
    refine State.Formed.foldl (fun s p hs => ?_) _ (h0 ..)
    have hc : ∀ c : Bool, (if c then s.spoilCopies (t.layer t.levels.length) p.1.loc else s).Formed :=
      fun c => hs.of_mem (by simp)
    split
    · exact State.Formed.of_mem (hc _) (State.putScratch_mem ..)
    · exact State.Formed.intoLayer (State.Formed.of_mem (hc _) (State.dropCopies_mem ..)) ..
    · exact hc _

theorem State.Formed.applyFlight {s : State} (h : s.Formed) (f : Flight) (die : Nat) : (s.applyFlight f die).Formed := by
  have hs : ∀ (c : Bool) (a : List Applied) (fs : List Flight) (k : Nat) (g : Flight),
      let s1 : State := { s with keys := k, applied := a, flights := fs }
      (if c then s1.land g else s1).Formed := fun c a fs k g => by
    have h1 : ({ s with keys := k, applied := a, flights := fs } : State).Formed := h
    exact State.ite_formed (h1.land g) h1
  exact State.Formed.of_mem (hs ..) (State.applySignature_mem ..)

theorem State.Formed.unmapPage {s : State} (h : s.Formed) (a e : Nat) : (s.unmapPage a e).Formed := State.Formed.putLeaf h a 0

theorem State.Formed.endMove {s : State} (h : s.Formed) (m : Move) : (s.endMove m).Formed := by
  have hs : ({ s with moves := s.moves.filter fun x => !(x.ctx == m.ctx && x.va == m.va) } : State).Formed := h
  unfold State.endMove
  dsimp only
  split
  · exact hs
  · split
    · exact State.ite_formed hs (hs.unmapPage ..)
    · exact State.ite_formed hs (State.ite_formed (hs.of_mem (State.pageFail_mem ..))
        (State.ite_formed (State.Formed.of_mem (hs.putLeaf ..) (State.pageFail_mem ..)) (hs.moveHome ..)))

theorem State.Formed.movePage {s : State} (h : s.Formed) (ctx va : Nat) (dst : Option Nat) : (s.movePage ctx va dst).Formed := by
  unfold State.movePage
  split
  · exact h
  · dsimp only
    split
    · exact State.ite_formed (h.endMove _) h
    · exact State.ite_formed h (State.ite_formed h h)

theorem State.Formed.writeTqread {s : State} (h : s.Formed) (c : Nat) (v : DWord) : (s.writeTqread c v).Formed := by
  have hs := h.modCtx c fun x => { x with tqread := v.setWidth 32 }
  unfold State.writeTqread
  dsimp only
  split
  · exact hs
  · exact State.ite_formed hs (State.ite_formed ((hs.writeHeld ..).raise ..) (hs.writeHeld ..))

theorem State.Formed.putSection {s : State} (h : s.Formed) (c : Context) (base : DWord) (ws : List Word) :
    (s.putSection c base ws).Formed :=
  State.Formed.foldl (fun _ _ hs => hs.physBytes ..) _ h

theorem State.Formed.putVa {s : State} (h : s.Formed) (c : Context) (va : Nat) (bs : List Byte) : (s.putVa c va bs).Formed := by
  unfold State.putVa
  split
  · exact h.physBytes ..
  · exact h

theorem State.Formed.putImage {s : State} (h : s.Formed) (c : Context) (i : Image) : (s.putImage c i).Formed :=
  State.Formed.putVa (State.Formed.foldl (fun _ _ hs => hs.putVa ..) _ ((h.putSection ..).putSection ..)) ..

theorem State.Formed.putQueue {s : State} (h : s.Formed) (c q : Nat) (f : Queue → Queue) : (s.putQueue c q f).Formed := by
  have hs : (s.modQueue c q fun x => s.stampHead (f x).settle).Formed := h
  unfold State.putQueue
  dsimp only
  split
  · split
    · exact hs.putIndices ..
    · exact hs
  · exact hs

theorem State.Formed.endPacket {s : State} (h : s.Formed) (c q idx : Nat) : (s.endPacket c q idx).Formed := h.putQueue ..

theorem State.Formed.doorbell {s : State} (h : s.Formed) (c n : Nat) (v : DWord) : (s.doorbell c n v).Formed := by
  unfold State.doorbell
  split
  · exact h
  · exact State.ite_formed h (State.ite_formed (h.of_mem (by simp)) (h.putQueue ..))

theorem State.Formed.cpWrite {s : State} (h : s.Formed) (pas : List (Nat × Nat)) (bs : List Byte) : (s.cpWrite pas bs).Formed :=
  (State.Formed.foldl (fun s p hs => (hs.of_mem (State.outsideByte_mem s p.1.1 p.2)).externalByte ..) (pas.zip bs) h).of_mem
    (State.healWritten_mem ..)

theorem State.Formed.readSignal {s : State} (h : s.Formed) (c : Context) (q : Queue) (p : Packet) :
    (s.readSignal c q p).Formed := by
  unfold State.readSignal
  split
  · exact h.of_mem (by simp)
  · exact State.ite_formed (h.endPacket ..) h

theorem State.Formed.remoteAccess {s : State} (h : s.Formed) (r : RemoteReq) : (s.remoteAccess r).Formed := by
  unfold State.remoteAccess
  dsimp only
  split
  · exact h.of_mem (by simp)
  · split
    · exact h.of_mem (by simp)
    · split
      · exact h.of_mem (by simp)
      · next pas _ =>
        split
        · exact h.of_mem (by simp)
        · next v _ => exact (h.cpWrite pas (leBytes r.width v)).of_mem (by simp)
        · exact State.Formed.of_mem (h.cpWrite pas _) (State.sendFlit_mem ..)

theorem State.Formed.settleTeam {s : State} (h : s.Formed) (team : Nat) : (s.settleTeam team).Formed := by
  unfold State.settleTeam
  split
  · exact h
  · next t _ =>
    dsimp only
    refine State.Formed.of_mem ?_ ((State.reapTeam_mem ..).trans (State.endWaits_mem ..))
    refine State.ite_formed (State.Formed.finishChoose ?_ _) ?_
    all_goals
      refine h.of_mem ?_
      simp

theorem State.Formed.settle {s : State} (h : s.Formed) : s.settle.Formed := by
  have h0 : s.releaseWaiting.giveUpDue.fencesYield.Formed := h.releaseWaiting.of_mem (by simp)
  have h1 : ∀ (b : Bool) (l : List Team), (l.foldl (fun s t => s.settleTeam t.key)
      (if b then s.releaseWaiting.giveUpDue.fencesYield.joinSquads else s.releaseWaiting.giveUpDue.fencesYield)).Formed :=
          fun b l =>
    State.Formed.foldl (fun s t hs => hs.settleTeam _) l (State.ite_formed (h0.of_mem (by simp)) h0)
  have h2 : ∀ u : State, u.Formed → ∀ l : List Bar, (l.foldl (fun s b => s.checkBar b.key)
      u.exhausted.publishLevels).endLaunches.Formed :=
    fun u hu l => hu.of_mem (by simp)
  have h3 : ∀ (b : Bool) (u : State), u.Formed → (if b then u.dropUnloading else u).Formed :=
    fun b u hu => State.ite_formed (hu.of_mem (by simp)) hu
  have h4 : ∀ (b : Bool) (u : State), u.Formed → (if b then u.settleContexts else u).Formed :=
    fun b u hu => State.ite_formed (hu.of_mem (by simp)) hu
  have h5 : ∀ u : State, u.Formed → u.dropMoves.dropApplied.dropRun.dropLeft.notePops.Formed :=
    fun u hu => hu.of_mem (by simp)
  exact h5 _ (h4 _ _ (h3 _ _ (h2 _ (h1 _ _) _)))

theorem State.Formed.tick {s : State} (h : s.Formed) : s.tick.Formed := by
  refine State.Formed.of_mem (State.Formed.foldl (fun s c hs => ?_) _ (h.of_mem (State.countArrivals_mem s)))
      (State.chargeTenants_mem _)
  split
  · exact hs
  · split
    · exact (hs.writeRaised ..).of_mem (State.terminate_mem ..)
    · exact hs.writeRaised ..

/-! ## Words and events -/

/-- An outcome whose state, if there is one, has the canonical form of memory. -/
def FormKept : Host.Outcome State Fault Refusal → Prop
  | .next s => s.Formed
  | .fault _ => True
  | .refused _ => True

theorem FormKept.of_memStays {s : State} {o : Host.Outcome State Fault Refusal} (h : s.Formed) (ho : MemStays s o) :
    FormKept o := by
  cases o with
  | next s' => exact h.of_mem ho
  | fault f => trivial
  | refused r => trivial

theorem FormKept.formed {o : Host.Outcome State Fault Refusal} {s : State} (h : FormKept o) (ho : o = .next s) : s.Formed := by
  subst ho
  exact h

theorem FormKept.ite {p : Prop} [Decidable p] {a b : Host.Outcome State Fault Refusal} (ha : FormKept a) (hb : FormKept b) :
    FormKept (if p then a else b) := by
  split <;> assumption

theorem State.Formed.foldl_option {α : Type} {f : Option State → α → Option State}
    (hf : ∀ o a, (∀ x, o = some x → x.Formed) → ∀ x, f o a = some x → x.Formed) (l : List α) {o : Option State}
    (ho : ∀ x, o = some x → x.Formed) : ∀ x, l.foldl f o = some x → x.Formed := by
  induction l generalizing o with
  | nil => exact ho
  | cons a l ih => exact ih (hf o a ho)

theorem State.Formed.getD {o : Option State} {s : State} (ho : ∀ x, o = some x → x.Formed) (h : s.Formed) :
    (o.getD s).Formed := by
  cases o with
  | none => exact h
  | some x => exact ho x rfl

theorem execWbl_formKept {s : State} (h : s.Formed) (k : BitVec 5) (i : BitVec 7) : FormKept (execWbl k i s) := by
  unfold execWbl
  dsimp only
  split
  · exact h
  · split
    · exact h.of_mem (by simp)
    · refine State.Formed.of_mem ?_ ((State.accessFaults_mem ..).trans (State.cctlOps_mem ..))
      refine State.Formed.writeBackPriv ?_ _ _
      exact h.of_mem (by simp)

theorem execCopyComplete_formKept {s : State} (h : s.Formed) : FormKept (execCopyComplete s) := by
  have hn : ∀ k l, (s.noteCluster k l).Formed := fun k l => h.of_mem (State.noteCluster_mem ..)
  unfold execCopyComplete
  split
  · split
    · exact h
    · split
      · exact h
      · split
        · exact h.of_mem (by simp)
        · dsimp only
          split
          · exact h
          · split
            · exact h.of_mem (by simp)
            · split
              · next hf => exact (hn ..).of_mem (State.copyFaults_mem hf)
              · split
                · exact h.of_mem (by simp)
                · split
                  · exact h.of_mem (by simp)
                  · split
                    · refine State.Formed.of_mem ?_ ((State.endCopy_mem ..).trans (State.layerReads_mem ..))
                      exact (hn ..).performCopy ..
                    · refine State.Formed.of_mem ?_ ((State.modCopy_mem ..).trans ((State.tellPods_mem ..).trans
                        (State.layerReads_mem ..)))
                      exact (hn ..).performCopy ..
  · exact h

theorem execDrainComplete_formKept {s : State} (h : s.Formed) : FormKept (execDrainComplete s) := by
  have hn : ∀ k l, (s.noteCluster k l).Formed := fun k l => h.of_mem (State.noteCluster_mem ..)
  unfold execDrainComplete
  split
  · split
    · next t m _ =>
      split
      · next a d _ =>
        dsimp only
        refine FormKept.ite h (FormKept.ite (h.of_mem (State.endMat_mem ..)) ?_)
        generalize d.scaleVas ++ (if d.flags.testBit 0 then d.vas else []) = reads
        split
        · next hf => exact (hn ..).of_mem (State.drainFaults_mem hf)
        · refine FormKept.ite (h.of_mem (by simp)) (FormKept.ite (h.of_mem (by simp)) ?_)
          split
          · refine State.Formed.of_mem ?_ ((State.endMat_mem ..).trans ((State.layerReads_mem ..).trans (State.healWritten_mem
              ..)))
            exact (hn ..).engineWrites ..
          · refine State.Formed.of_mem ?_ ((State.modMop_mem ..).trans ((State.tellPods_mem ..).trans
              ((State.layerReads_mem ..).trans (State.healWritten_mem ..))))
            exact (hn ..).engineWrites ..
      · exact h
    · exact h
  · exact h

theorem execRbCommitComplete_formKept {s : State} (h : s.Formed) : FormKept (execRbCommitComplete s) := by
  unfold execRbCommitComplete
  split
  · split
    · exact h
    · next team _ _ t _ =>
      split
      · next l _ =>
        have hclose : ∀ p : Bool × State, p.2.Formed → FormKept (if p.1 then .next p.2 else
            .next { (p.2.modTeam team Team.closeLevel).looseFresh t.core with
              snaps := (p.2.modTeam team Team.closeLevel).snaps.filter fun (x : Snap) => x.key != l.snap }) :=
          fun p hp => FormKept.ite hp (hp.of_mem (by simp))
        exact FormKept.ite h (hclose _ (State.ite_snd_formed (State.ite_formed (h.of_mem (State.viewExhausted_mem ..)) h)
          ((h.sendEntries ..).modTeam ..)))
      · exact h
  · exact h

theorem execMigrationPerform_formKept {s : State} (h : s.Formed) : FormKept (execMigrationPerform s) := by
  unfold execMigrationPerform
  split
  · split
    · exact h
    · next team _ _ _ t _ =>
      split
      · next m i _ _ =>
        split
        · exact h
        · split
          · exact h.of_mem (by simp)
          · dsimp only
            have hs : ∀ (i : Image) (k : Kind), (((s.commitTeam team).carrySpilled t i k).saveTeam t).Formed := fun i k =>
              State.Formed.saveTeam (h.of_mem (by simp)) t
            split
            · exact h.of_mem (by simp)
            · split
              · exact (hs i m.target).of_mem (by simp)
              · exact (hs i m.target).of_mem (by simp)
      · exact h
  · exact h

theorem execThermalMigration_formKept {s : State} (h : s.Formed) : FormKept (execThermalMigration s) := by
  unfold execThermalMigration
  split
  · split
    · exact h
    · next t _ =>
      dsimp only
      refine FormKept.ite h ?_
      have hc : ((s.clusterTeams t).foldl (fun s u => s.commitTeam u.key) s).Formed :=
        h.of_mem (State.foldl_mem (fun _ _ => State.commitTeam_mem ..) _ _)
      refine FormKept.ite ?_ (hc.of_mem (State.foldl_mem (fun _ _ => State.modTeam_mem ..) _ _))
      refine State.Formed.getD (State.Formed.foldl_option (fun o u ho s' hs' => ?_) _ ?_) hc
      · cases o with
        | none => simp at hs'
        | some s1 =>
          have h1 : s1.Formed := ho s1 rfl
          dsimp only at hs'
          split at hs'
          · obtain ⟨v, _, rfl⟩ := Option.map_eq_some_iff.mp hs'
            exact h1.of_mem (State.restoreTeam_mem ..)
          · simp at hs'
      · intro x hx
        obtain rfl := Option.some.inj hx
        exact State.Formed.foldl (fun s u hs => hs.saveTeam u) _ hc
  · exact h

theorem execStoreAccept_formKept {s : State} (h : s.Formed) : FormKept (execStoreAccept s) := by
  unfold execStoreAccept
  split
  · split
    · exact h
    · split
      · split
        · exact (h.acceptStore ..).of_mem (State.finishOp_mem ..)
        · exact h
      · exact h
  · exact h

theorem execAtomicRequestPerform_formKept {s : State} (h : s.Formed) : FormKept (execAtomicRequestPerform s) := by
  unfold execAtomicRequestPerform
  split
  · split
    · exact h
    · split
      · split
        · exact h.performAtomic ..
        · exact h
      · exact h
  · exact h

theorem execSignatureBroadcastApply_formKept {s : State} (h : s.Formed) : FormKept (execSignatureBroadcastApply s) := by
  unfold execSignatureBroadcastApply
  split
  · split
    · exact h
    · exact State.ite_formed (h.applyFlight ..) h
  · exact h

theorem execPageMove_formKept {s : State} (h : s.Formed) : FormKept (execPageMove s) := by
  unfold execPageMove
  split
  · exact h.movePage ..
  · exact h.movePage ..
  · exact h.of_mem (State.failMove_mem ..)
  · exact h

theorem execEccErrorReport_formKept {s : State} (h : s.Formed) : FormKept (execEccErrorReport s) := by
  unfold execEccErrorReport
  split
  · split
    · exact h
    · have hs : ∀ ms a e, (({ s with moves := ms } : State).poison a e).Formed := fun ms a e =>
        State.Formed.putLeaf (s := { s with moves := ms }) h ..
      exact State.ite_formed (State.Formed.of_mem (hs ..) (State.pageFail_mem ..)) (hs ..)
  · exact h

theorem execHostMemWrite_formKept {s : State} (h : s.Formed) : FormKept (execHostMemWrite s) := by
  unfold execHostMemWrite
  split
  · split
    · exact h
    · refine State.Formed.of_mem ?_ ((State.emit_mem ..).trans (State.healSectors_mem ..))
      exact State.Formed.foldl (fun s p hs => (hs.of_mem (State.outsideByte_mem ..)).physByte ..) _ h
  · exact h

theorem execPermit_formKept {s : State} (h : s.Formed) : FormKept (execPermit s) := by
  unfold execPermit
  split
  · split
    · split
      · exact h
      · exact State.Formed.putLeaf (s := { s with tlb := _ }) h ..
    · exact h
  · exact h

theorem execTqread_formKept {s : State} (h : s.Formed) : FormKept (execTqread s) := by
  unfold execTqread
  split
  · exact h.writeTqread ..
  · exact h

theorem execKernelLoad_formKept {s : State} (h : s.Formed) : FormKept (execKernelLoad s) := by
  unfold execKernelLoad
  split
  · split
    · exact h
    · split
      · exact h
      · split
        · exact h
        · split
          · exact h
          · split
            · exact h
            · split
              · exact h.of_mem (by simp)
              · split
                · exact h.of_mem (by simp)
                · dsimp only
                  split
                  · exact h.of_mem (by simp)
                  · exact State.Formed.putImage (h.of_mem (State.modImage_mem ..)) ..
  · exact h

theorem execDoorbell_formKept {s : State} (h : s.Formed) : FormKept (execDoorbell s) := by
  unfold execDoorbell
  split
  · exact h.doorbell ..
  · exact h

theorem execQueuePacketTake_formKept {s : State} (h : s.Formed) : FormKept (execQueuePacketTake s) := by
  unfold execQueuePacketTake
  split
  · split
    · exact h
    · split
      · exact h
      · dsimp only
        split
        · exact h
        · have hm : ∀ c n f, (s.modQueue c n f).Formed := fun c n f => h.of_mem (State.modQueue_mem ..)
          split
          · exact h.of_mem (by simp)
          · split
            · exact State.Formed.of_mem ((hm ..).putQueue ..) (State.badPacketRecord_mem ..)
            · exact (hm ..).putQueue ..
  · exact h

theorem execNopPacket_formKept {s : State} (h : s.Formed) : FormKept (execNopPacket s) := by
  unfold execNopPacket
  split
  · exact h.endPacket ..
  · exact h

theorem execWaitsig_formKept {s : State} (h : s.Formed) : FormKept (execWaitsig s) := by
  unfold execWaitsig
  split
  · exact h
  · exact State.Formed.readSignal (h.of_mem (State.modPacket_mem ..)) ..

theorem execWaitsigReread_formKept {s : State} (h : s.Formed) : FormKept (execWaitsigReread s) := by
  unfold execWaitsigReread
  split
  · exact h
  · exact h.readSignal ..

theorem execWaitsigTimeout_formKept {s : State} (h : s.Formed) : FormKept (execWaitsigTimeout s) := by
  unfold execWaitsigTimeout
  split
  · exact h
  · split
    · exact h
    · split
      · exact h.of_mem (by simp)
      · split
        · exact h.endPacket ..
        · exact h.of_mem (by simp)

theorem execSignal_formKept {s : State} (h : s.Formed) : FormKept (execSignal s) := by
  unfold execSignal
  split
  · exact h
  · split
    · exact h
    · split
      · exact h.of_mem (by simp)
      · exact State.ite_formed (((h.cpWrite ..).endPacket ..).raise ..) ((h.cpWrite ..).endPacket ..)

theorem execCopyPacketComplete_formKept {s : State} (h : s.Formed) : FormKept (execCopyPacketComplete s) := by
  unfold execCopyPacketComplete
  split
  · exact h
  · dsimp only
    split
    · exact h
    · split
      · exact h.of_mem (by simp)
      · exact h.of_mem (by simp)
      · exact (h.cpWrite ..).endPacket ..

theorem execTimestamp_formKept {s : State} (h : s.Formed) : FormKept (execTimestamp s) := by
  unfold execTimestamp
  split
  · exact h
  · split
    · exact h
    · split
      · exact h.of_mem (by simp)
      · exact (h.cpWrite ..).endPacket ..

theorem execFencePacketComplete_formKept {s : State} (h : s.Formed) : FormKept (execFencePacketComplete s) := by
  unfold execFencePacketComplete
  split
  · exact h
  · exact State.ite_formed (h.endPacket ..) h

theorem execKlaunchDelivery_formKept {s : State} (h : s.Formed) : FormKept (execKlaunchDelivery s) := by
  unfold execKlaunchDelivery
  split
  · split
    · exact h
    · split
      · split
        · exact h
        · split
          · split
            · exact h.of_mem (by simp)
            · exact ((h.cpWrite ..).putQueue ..).of_mem (State.finishOp_mem ..)
          · exact h
      · exact h
  · exact h

theorem execTeamSaveComplete_formKept {s : State} (h : s.Formed) : FormKept (execTeamSaveComplete s) := by
  unfold execTeamSaveComplete
  split
  · split
    · exact h
    · next t _ =>
      split
      · exact h
      · exact (h.saveTeam t).of_mem (by simp)
  · exact h

theorem execBakeryTurnBegin_formKept {s : State} (h : s.Formed) : FormKept (execBakeryTurnBegin s) := by
  unfold execBakeryTurnBegin
  split
  · split
    · exact h
    · next t _ =>
      split
      · exact h
      · exact ((h.sendEntries _ false t.staged).modTeam ..).of_mem (State.reapTeam_mem ..)
  · exact h

theorem execLaunchComplete_formKept {s : State} (h : s.Formed) : FormKept (execLaunchComplete s) := by
  have hf : ∀ (s1 : State) (k c q n : Nat) (f : Launch → Launch), s1.Formed →
      (((s1.modLaunch k f).endPacket c q n).dropUnloading.settleContexts).Formed := fun s1 k c q n f h1 =>
    State.Formed.of_mem (State.Formed.endPacket (s := s1.modLaunch k f) (h1.of_mem (State.modLaunch_mem ..)) c q n)
      ((State.settleContexts_mem ..).trans (State.dropUnloading_mem ..))
  unfold execLaunchComplete
  split
  · split
    · exact h
    · split
      · exact h
      · dsimp only
        split
        · exact h
        · split
          · exact hf _ _ _ _ _ _ h
          · split
            · exact h.of_mem (by simp)
            · exact hf _ _ _ _ _ _ (h.cpWrite ..)
  · exact h

theorem execRemotePodAccess_formKept {s : State} (h : s.Formed) : FormKept (execRemotePodAccess s) := by
  unfold execRemotePodAccess
  split
  · split
    · exact h
    · next r _ =>
      have hr : ({ s with part := { s.part with remote := s.part.remote.eraseIdx ‹_› } } : State).Formed := h
      exact hr.remoteAccess r
  · exact h

theorem execPowerOn_formKept (s : State) : FormKept (execPowerOn s) := reset_mem_wf

theorem execWarmReset_formKept {s : State} (h : s.Formed) : FormKept (execWarmReset s) := by
  unfold execWarmReset
  split
  · exact h
  · exact h

theorem State.controlWrite_formKept {s : State} (h : s.Formed) (c off : Nat) (v : DWord) : FormKept (s.controlWrite c off v) := by
  unfold State.controlWrite
  split
  · exact h.writeTqread ..
  · exact h.of_mem (by simp)
  · exact h
  · exact h.of_mem (by simp)
  · have ha : ({ s with arg := [c] } : State).Formed := h
    unfold State.command
    dsimp only
    split
    · exact .of_memStays ha (execCreate_memStays _)
    · exact .of_memStays ha (execEnable_memStays _)
    · exact .of_memStays ha (execTerminate_memStays _)
    · exact .of_memStays ha (execRelease_memStays _)
    · exact ha
  · exact h.of_mem (by simp)
  · exact h

theorem execRegisterWrite_formKept {s : State} (h : s.Formed) : FormKept (execRegisterWrite s) := by
  unfold execRegisterWrite
  split
  · split
    · exact State.ite_formed (h.doorbell ..) h
    · exact State.controlWrite_formKept h ..
    · exact h.of_mem (by simp)
  · exact h
  · exact h

/-- Every instruction word, engine step and input keeps the canonical form of memory. -/
theorem exec_formKept (i : Instr) {s : State} (h : s.Formed) : FormKept (exec i s) := by
  cases i with
  | nop => exact .of_memStays h (execNop_memStays ..)
  | iadd | isub | imul | imulhI32 | imulhN32 | and | or | xor | shl | shr | sar | iminI32 | imaxI32 | iminN32 | imaxN32
  | iaddsI32 => exact .of_memStays h (wordVVV_mem ..)
  | iaddVs | isubVs | imulVs | imulhI32Vs | imulhN32Vs | andVs | orVs | xorVs | shlVs | shrVs | sarVs | iminI32Vs
  | imaxI32Vs | iminN32Vs | imaxN32Vs | iaddsI32Vs => exact .of_memStays h (wordVVS_mem ..)
  | movs | imacs | movi | setp | pmov | pfromm | sel | mov | laneid | tid | rwrite => exact .of_memStays h (laneWord_mem ..)
  | iaddi | andi | ori | xori | shli | shri | sari => exact .of_memStays h (wordVVI_mem ..)
  | pand | por | pxor => exact .of_memStays h (wordPPP_mem ..)
  | fadd | fsub | fmul | fmin | fmax | ffma | hadd2 | hmul2 | hfma2 | badd2 | bmul2 | bfma2 | hmin2 | hmax2
    => exact .of_memStays h (wordFp_mem ..)
  | fadds | fsubs | fmuls | ffmas | fmins | fmaxs | hfma2s | bfma2s => exact .of_memStays h (wordFps_mem ..)
  | cvtF32I32 | cvtF32N32 | cvtI32F32 | cvtN32F32 | cvtF16F32 | cvtF32F16 | cvtBf16F32 | cvtF32Bf16 | cvtDm8F32 | cvtF32Dm8
  | cvtE4m3F32 | cvtF32E4m3 | cvtE5m2F32 | cvtF32E5m2 => exact .of_memStays h (wordCvt_mem ..)
  | fabs | fneg | popc | clz | brev | sx8 | sx16 | zx8 | zx16 => exact .of_memStays h (wordBits_mem ..)
  | rcp | rsq | sqrt | exp2 | log2 | sinrv | cosrv | tanh => exact .of_memStays h (wordTrans_mem ..)
  | rfal | rlane => exact .of_memStays h (groupProducer_mem ..)
  | rdtsr | rread => exact .of_memStays h (laneProducer_mem ..)
  | wrtsr => exact .of_memStays h (execWrtsr_memStays ..)
  | shfl | shflup | shfldn | shflx | redaddI32 | redaddF32 | redmaxF32 | redminF32 | scanaddI32 | scanaddF32
    => exact .of_memStays h (wordColl_mem ..)
  | vany | vall => exact .of_memStays h (wordVote_mem ..)
  | ballot d a => exact .of_memStays h (execBallot_memStays d a s)
  | rand | randf | rand4 => exact .of_memStays h (wordDraw_mem ..)
  | sadd | ssub | smul | smulhI32 | smulhN32 | sand | sor | sxor | sshl | sshr | ssar | sminI32 | smaxI32 | sminN32
  | smaxN32 => exact .of_memStays h (wordSSS_mem ..)
  | smov | sadd64 | ssub64 | sshl64 | sshr64 | smulw | saddi | slui | saddi64 | scmp | qmov | mget | mpopc | mself
    => exact .of_memStays h (groupWord_mem ..)
  | qand | qor | qxor => exact .of_memStays h (wordQQQ_mem ..)
  | ssrr => exact .of_memStays h (execSsrr_memStays ..)
  | ssrw => exact .of_memStays h (execSsrw_memStays ..)
  | join | leave | mset => exact .of_memStays h (maskWord_mem ..)
  | waitm => exact .of_memStays h (execWaitm_memStays ..)
  | mand | mor | mandn => exact .of_memStays h (wordMask_mem ..)
  | bra => exact .of_memStays h (State.transfer_mem ..)
  | brp => exact .of_memStays h (execBrp_memStays ..)
  | brq => exact .of_memStays h (execBrq_memStays ..)
  | call => exact .of_memStays h (State.callTo_mem ..)
  | callr => exact .of_memStays h (execCallr_memStays ..)
  | jmpr => exact .of_memStays h (execJmpr_memStays ..)
  | ret => exact .of_memStays h (execRet_memStays ..)
  | exit => exact .of_memStays h (execExit_memStays ..)
  | reformG => exact .of_memStays h (execReformG_memStays ..)
  | reformT => exact .of_memStays h (State.fileMembers_mem ..)
  | yield => exact .of_memStays h (execYield_memStays ..)
  | ld => exact .of_memStays h (execLd_memStays ..)
  | st => exact .of_memStays h (execSt_memStays ..)
  | atom | red => exact .of_memStays h (wordAtomic_mem ..)
  | fenceAcq | fenceRel | fenceAr | drainNt | aliasfence => exact .of_memStays h (wordFence_mem ..)
  | prefetch => exact .of_memStays h (execPrefetch_memStays ..)
  | wbl => exact execWbl_formKept h ..
  | invl => exact .of_memStays h (execInvl_memStays ..)
  | tchain => exact .of_memStays h (execTchain_memStays ..)
  | tagwaitAll => exact .of_memStays h (execTagwaitAll_memStays ..)
  | tagwaitAny => exact .of_memStays h (execTagwaitAny_memStays ..)
  | tagfirst => exact .of_memStays h (execTagfirst_memStays ..)
  | tagclr => exact .of_memStays h (execTagclr_memStays ..)
  | qpop => exact .of_memStays h (execQpop_memStays ..)
  | tcancel => exact .of_memStays h (execTcancel_memStays ..)
  | oclaim => exact .of_memStays h (execOclaim_memStays ..)
  | orelease => exact .of_memStays h (execOrelease_memStays ..)
  | ofence => exact .of_memStays h (execOfence_memStays ..)
  | mma => exact .of_memStays h (execMma_memStays ..)
  | mwait => exact .of_memStays h (execMwait_memStays ..)
  | mdrain | mload => exact .of_memStays h (wordDrain_mem ..)
  | mzero => exact .of_memStays h (execMzero_memStays ..)
  | cvset => exact .of_memStays h (execCvset_memStays ..)
  | arrive => exact .of_memStays h (execArrive_memStays ..)
  | waitb => exact .of_memStays h (execWaitb_memStays ..)
  | sync => exact .of_memStays h (execSync_memStays ..)
  | arrivex => exact .of_memStays h (execArrivex_memStays ..)
  | tkwait => exact .of_memStays h (wordToken_mem ..)
  | tkpass => exact .of_memStays h (execTkpass_memStays ..)
  | tkdone => exact .of_memStays h (execTkdone_memStays ..)
  | ensure => exact .of_memStays h (execEnsure_memStays ..)
  | elseby => exact .of_memStays h (execElseby_memStays ..)
  | elseerror => exact .of_memStays h (execElseerror_memStays ..)
  | accept => exact .of_memStays h (execAccept_memStays ..)
  | reject => exact .of_memStays h (execReject_memStays ..)
  | convjoin => exact .of_memStays h (execConvjoin_memStays ..)
  | convleave => exact .of_memStays h (execConvleave_memStays ..)
  | rbstat => exact .of_memStays h (execRbstat_memStays ..)
  | fork => exact .of_memStays h (execFork_memStays ..)
  | wdone => exact .of_memStays h (execWdone_memStays ..)
  | choose => exact .of_memStays h (execChoose_memStays ..)
  | wabort => exact .of_memStays h (execWabort_memStays ..)
  | wstat => exact .of_memStays h (execWstat_memStays ..)
  | migrate => exact .of_memStays h (execMigrate_memStays ..)
  | eqpt => exact .of_memStays h (execEqpt_memStays ..)
  | klaunch => exact .of_memStays h (execKlaunch_memStays ..)
  | trap | bkpt => exact .of_memStays h (State.trapAll_mem ..)
  | rtt => exact .of_memStays h (execRtt_memStays ..)
  | icinv => exact .of_memStays h (execIcinv_memStays ..)
  | packetIssue => exact .of_memStays h (execPacketIssue_memStays ..)
  | resultWriteback => exact .of_memStays h (execResultWriteback_memStays ..)
  | storeAccept => exact execStoreAccept_formKept h
  | fenceComplete => exact .of_memStays h (execFenceComplete_memStays ..)
  | handlerEntry => exact .of_memStays h (execHandlerEntry_memStays ..)
  | trayAged => exact .of_memStays h (execTrayAged_memStays ..)
  | trayDraw => exact .of_memStays h (execTrayDraw_memStays ..)
  | replay => exact .of_memStays h (execReplay_memStays ..)
  | chunkPacketLimit => exact .of_memStays h (execChunkPacketLimit_memStays ..)
  | chunkQuietPeriod => exact .of_memStays h (execChunkQuietPeriod_memStays ..)
  | chunkCommitGrant => exact .of_memStays h (execChunkCommitGrant_memStays ..)
  | signatureBroadcastApply => exact execSignatureBroadcastApply_formKept h
  | externalWriteSignature => exact .of_memStays h (execExternalWriteSignature_memStays ..)
  | atomicRequestPerform => exact execAtomicRequestPerform_formKept h
  | pageMove => exact execPageMove_formKept h
  | eccErrorReport => exact execEccErrorReport_formKept h
  | shootdown => exact .of_memStays h (execShootdown_memStays ..)
  | shootdownComplete => exact .of_memStays h (execShootdownComplete_memStays ..)
  | hostMemRead => exact .of_memStays h (execHostMemRead_memStays ..)
  | hostMemWrite => exact execHostMemWrite_formKept h
  | hostErrorCompletion => exact .of_memStays h (execHostErrorCompletion_memStays ..)
  | translate => exact .of_memStays h (execTranslate_memStays ..)
  | permit => exact execPermit_formKept h
  | revokeAnswer => exact .of_memStays h (execRevokeAnswer_memStays ..)
  | copyEntry => exact .of_memStays h (execCopyEntry_memStays ..)
  | copyComplete => exact execCopyComplete_formKept h
  | loopEntry => exact .of_memStays h (execLoopEntry_memStays ..)
  | iftagEntry => exact .of_memStays h (execIftagEntry_memStays ..)
  | settagEntry => exact .of_memStays h (execSettagEntry_memStays ..)
  | qfeedEntry => exact .of_memStays h (execQfeedEntry_memStays ..)
  | qfeedResume => exact .of_memStays h (execQfeedResume_memStays ..)
  | endEntry => exact .of_memStays h (execEndEntry_memStays ..)
  | matrixOpStart => exact .of_memStays h (execMatrixOpStart_memStays ..)
  | matrixOpComplete => exact .of_memStays h (execMatrixOpComplete_memStays ..)
  | mzeroComplete => exact .of_memStays h (execMzeroComplete_memStays ..)
  | drainComplete => exact execDrainComplete_formKept h
  | mloadComplete => exact .of_memStays h (execMloadComplete_memStays ..)
  | barrierRelease => exact .of_memStays h (execBarrierRelease_memStays ..)
  | podBarrierArrival => exact .of_memStays h (execPodBarrierArrival_memStays ..)
  | podBarrierCompletion => exact .of_memStays h (execPodBarrierCompletion_memStays ..)
  | watchdogTimeout => exact .of_memStays h (execWatchdogTimeout_memStays ..)
  | rbCycleLimit => exact .of_memStays h (execRbCycleLimit_memStays ..)
  | rbRestore => exact .of_memStays h (execRbRestore_memStays ..)
  | rbCommitComplete => exact execRbCommitComplete_formKept h
  | forkComplete => exact .of_memStays h (execForkComplete_memStays ..)
  | rivalDone => exact .of_memStays h (execRivalDone_memStays ..)
  | rivalTimeShare => exact .of_memStays h (execRivalTimeShare_memStays ..)
  | rivalPlace => exact .of_memStays h (execRivalPlace_memStays ..)
  | parentResume => exact .of_memStays h (execParentResume_memStays ..)
  | migrationPerform => exact execMigrationPerform_formKept h
  | migrationTimeout => exact .of_memStays h (execMigrationTimeout_memStays ..)
  | thermalMigration => exact execThermalMigration_formKept h
  | kernelLoad => exact execKernelLoad_formKept h
  | kernelUnload => exact .of_memStays h (execKernelUnload_memStays ..)
  | featureAccept => exact .of_memStays h (execFeatureAccept_memStays ..)
  | coreGrant => exact .of_memStays h (execCoreGrant_memStays ..)
  | groupRetire => exact .of_memStays h (execGroupRetire_memStays ..)
  | launchComplete => exact execLaunchComplete_formKept h
  | bakeryTurnBegin => exact execBakeryTurnBegin_formKept h
  | doorbell => exact execDoorbell_formKept h
  | qupdate => exact .of_memStays h (execQupdate_memStays ..)
  | queuePacketTake => exact execQueuePacketTake_formKept h
  | nopPacket => exact execNopPacket_formKept h
  | launch => exact .of_memStays h (execLaunch_memStays ..)
  | waitsig => exact execWaitsig_formKept h
  | waitsigReread => exact execWaitsigReread_formKept h
  | waitsigTimeout => exact execWaitsigTimeout_formKept h
  | signal => exact execSignal_formKept h
  | copyPacket => exact .of_memStays h (execCopyPacket_memStays ..)
  | copyPacketComplete => exact execCopyPacketComplete_formKept h
  | timestamp => exact execTimestamp_formKept h
  | fencePacket => exact .of_memStays h (execFencePacket_memStays ..)
  | fencePacketComplete => exact execFencePacketComplete_formKept h
  | klaunchDelivery => exact execKlaunchDelivery_formKept h
  | priorityAging => exact .of_memStays h (execPriorityAging_memStays ..)
  | coreReclaim => exact .of_memStays h (execCoreReclaim_memStays ..)
  | preemptStopRequest => exact .of_memStays h (execPreemptStopRequest_memStays ..)
  | teamSaveComplete => exact execTeamSaveComplete_formKept h
  | teamRestore => exact .of_memStays h (execTeamRestore_memStays ..)
  | create => exact .of_memStays h (execCreate_memStays ..)
  | enable => exact .of_memStays h (execEnable_memStays ..)
  | terminate => exact .of_memStays h (execTerminate_memStays ..)
  | release => exact .of_memStays h (execRelease_memStays ..)
  | contextResourcesFreed => exact .of_memStays h (execContextResourcesFreed_memStays ..)
  | tqread => exact execTqread_formKept h
  | registerWrite => exact execRegisterWrite_formKept h
  | linkEnable => exact .of_memStays h (execLinkEnable_memStays ..)
  | linkTrained => exact .of_memStays h (execLinkTrained_memStays ..)
  | linkRetryRate => exact .of_memStays h (execLinkRetryRate_memStays ..)
  | linkDisable => exact .of_memStays h (execLinkDisable_memStays ..)
  | flitReceive => exact .of_memStays h (execFlitReceive_memStays ..)
  | prooferAudit => exact .of_memStays h (execProoferAudit_memStays ..)
  | remotePodAccess => exact execRemotePodAccess_formKept h
  | powerOn => exact execPowerOn_formKept s
  | warmReset => exact execWarmReset_formKept h
  | attestationRequest => exact .of_memStays h (execAttestationRequest_memStays ..)
  | ppsEdge => exact .of_memStays h (execPpsEdge_memStays ..)
  | ppsLoss => exact .of_memStays h (execPpsLoss_memStays ..)
  | powerLimitSet => exact .of_memStays h (execPowerLimitSet_memStays ..)
  | contextPowerCapSet => exact .of_memStays h (execContextPowerCapSet_memStays ..)
  | lCoreThermalThrottle => exact .of_memStays h (execLCoreThermalThrottle_memStays ..)
  | throttleClockRise => exact .of_memStays h (execThrottleClockRise_memStays ..)
  | hbmThermalThrottle => exact .of_memStays h (execHbmThermalThrottle_memStays ..)
  | tempCritical => exact .of_memStays h (execTempCritical_memStays ..)
  | heartbeatMiss => exact .of_memStays h (execHeartbeatMiss_memStays ..)
  | hbmStackBelow90C => exact .of_memStays h (execHbmStackBelow90C_memStays ..)
  | ieee1588TimeOfDay => exact .of_memStays h (execIeee1588TimeOfDay_memStays ..)

/-! ## Units, squads and steps -/

/-- A unit's end whose state, if there is one, has the canonical form of memory. -/
def UnitFormed : UnitEnd → Prop
  | .ended s => s.Formed
  | .undone _ _ => True
  | .fault _ => True
  | .refused _ => True

/-- Performing a word in a state of the canonical form, and going on from a state of that form, ends in one. -/
theorem UnitFormed.afterExec {i : Instr} {s : State} (h : s.Formed) {k : State → UnitEnd} (hk : ∀ s1,
    s1.Formed → UnitFormed (k s1)) :
    UnitFormed (match exec i s with
      | .fault f => .fault f
      | .refused r => .refused r
      | .next s1 => k s1) := by
  have he := exec_formKept i h
  cases hx : exec i s with
  | next s1 => exact hk s1 (he.formed hx)
  | fault f => trivial
  | refused r => trivial

theorem UnitFormed.ite {p : Prop} [Decidable p] {a b : UnitEnd} (ha : UnitFormed a) (hb : UnitFormed b) :
    UnitFormed (if p then a else b) := by
  split <;> assumption

theorem runWords_formed {s0 : State} (h0 : s0.Formed) (ms : List (Nat × Nat)) (ws : List Performed) :
    ∀ (l : Leaving) {s : State}, s.Formed → UnitFormed (runWords s0 ms ws l s) := by
  induction ws with
  | nil => exact fun _ _ h => h
  | cons w ws ih =>
    intro l s h
    have hheld : ∀ (u : State) iss, u.Formed → (u.heldAt iss ms).Formed := fun u iss hu => hu.of_mem (State.setPcs_mem ..)
    have hgo : ∀ (u : State) iss, u.Formed → UnitFormed (runWords s0 ms ws (l.after u iss) (u.afterWord w.instr)) :=
      fun u iss hu => ih _ (hu.of_mem (State.afterWord_mem ..))
    refine UnitFormed.afterExec (s := s.forWord { w.iss with members := w.iss.members.filter fun m => !l.out.contains m }) h
      fun s1 h1 => ?_
    refine UnitFormed.ite trivial (UnitFormed.ite (hgo _ _ h1) (UnitFormed.ite (hheld _ _ h1) ?_))
    refine UnitFormed.afterExec (s := s0.forWord { w.iss with members := w.iss.members.filter fun m => !l.out.contains m }) h0
      fun s2 h2 => ?_
    refine UnitFormed.ite (hheld _ _ h2) ?_
    refine UnitFormed.afterExec (s := s.forWord { w.iss with
      members := w.iss.members.filter fun m => !l.out.contains m, cleared := true }) h fun s3 h3 => ?_
    exact UnitFormed.ite (h3.of_mem (State.setPcs_mem ..)) (hgo _ _ h3)

theorem performUnit_formKept (n : Nat) {s : State} (ws : List Performed) (h : s.Formed) : FormKept (performUnit n s ws) := by
  induction n generalizing s ws with
  | zero =>
    have hr := runWords_formed h ((ws.map fun w => w.iss.members).headD []) ws { out := [], moved := [], parted :=
        s.cur.parted } h
    unfold performUnit
    cases hx : runWords s ((ws.map fun w => w.iss.members).headD []) ws { out := [], moved := [], parted := s.cur.parted } s with
    | ended s1 => simpa only [hx, UnitFormed, FormKept] using hr
    | undone iss traps => simpa only [hx, FormKept] using h
    | fault f => simp only [hx, FormKept]
    | refused r => simp only [hx, FormKept]
  | succ n ih =>
    have hr := runWords_formed h ((ws.map fun w => w.iss.members).headD []) ws { out := [], moved := [], parted :=
        s.cur.parted } h
    unfold performUnit
    cases hx : runWords s ((ws.map fun w => w.iss.members).headD []) ws { out := [], moved := [], parted := s.cur.parted } s with
    | ended s1 => simpa only [hx, UnitFormed, FormKept] using hr
    | undone iss traps => simpa only [hx] using ih _ (h.of_mem (State.takeWhole_mem s iss traps))
    | fault f => simp only [hx, FormKept]
    | refused r => simp only [hx, FormKept]

/-- What follows an outcome of the canonical form in a state of that form keeps it. -/
theorem FormKept.bind {o : Host.Outcome State Fault Refusal} (h : FormKept o) {k : State → Host.Outcome State Fault Refusal}
    (hk : ∀ s, s.Formed → FormKept (k s)) :
    FormKept (match o with
      | .fault f => .fault f
      | .refused r => .refused r
      | .next s1 => k s1) := by
  cases o with
  | next s1 => exact hk s1 h
  | fault f => trivial
  | refused r => trivial

theorem State.issueWords_formKept {s : State} (h : s.Formed) (team sq : Nat) : FormKept (s.issueWords team sq) := by
  have hb : (s.beginUnit team sq).2.Formed := h.of_mem (State.beginUnit_mem ..)
  exact (performUnit_formKept 64 (s.beginUnit team sq).1 hb).bind fun s1 h1 => (h1.of_mem (State.endUnit_mem ..)).settle

theorem State.issue_formKept {s : State} (h : s.Formed) (team sq : Nat) : FormKept (s.issue team sq) := by
  refine FormKept.ite (State.issueWords_formKept h ..) ?_
  refine (exec_formKept (s := { s with cur := Issue.none, arg := [team, sq] }) .packetIssue h).bind fun s1 h1 => ?_
  have h2 : ({ s1 with arg := [], cur := Issue.none, fresh := s1.fresh + 2 } : State).Formed := h1
  exact FormKept.ite (State.issueWords_formKept h2 ..) (h2.of_mem (State.passedOver_mem ..)).settle

theorem State.perform_formKept {s : State} (h : s.Formed) (e : Event) (rest : List Event) : FormKept (s.perform e rest) := by
  refine (exec_formKept (s := { s with cur := Issue.none, arg := e.arg, agenda := rest }) e.step h).bind fun s1 h1 => ?_
  exact State.Formed.settle (s := { s1 with arg := [], cur := Issue.none, fresh := s1.fresh + 2 }) h1

theorem step_formKept {s : State} (h : s.Formed) : FormKept (step s) := by
  unfold step
  split
  · exact State.perform_formKept h ..
  · refine FormKept.ite trivial ?_
    split
    · exact State.issue_formKept h ..
    · exact h.tick.settle

/-- Settles O59: a step is an input or an engine step, the issue of a squad, or a cycle that passes, and each keeps the canonical
form of memory. -/
theorem stepKeepsMemory : Obligations.StepKeepsMemory := fun _ _ h hstep => (step_formKept h).formed hstep

end Sys2Proof.Machine

/-! O56: a remote atomic whose numbers are wider than the operands of a lane (R201, R411). -/

namespace Sys2Proof.Machine

/-- A granted compare and swap of a remote module: the operand 1, and a comparand of 33 bits. -/
def wideSwap : RemoteReq := remote0 (.atom 10 true false [(1, 2 ^ 32)])

/-- A part at which that request has arrived; the four bytes it names hold 0. -/
def wideSwapState : State := { withPart fun p => { p with remote := [wideSwap], grants := [(1, 0, 0)] } with arg := [0] }

/-- The bytes of the request, each with its granule name. -/
def wideSwapBytes : List (Nat × Nat) := (upFrom 0x50100 4).map fun a => (a, 256)

theorem wideSwap_reaches :
    wideSwapState.cpReach programContext wideSwap.acc wideSwap.va wideSwap.width = .ok wideSwapBytes := by decide

/-- As the statement counts, 0 is not 2 to the 32, and the swap stores 0. -/
theorem wideSwap_new : [((1 : Nat), 2 ^ 32)].foldl (fun m x => atomicNew 10 m x.1 x.2)
    (leNat (wideSwapState.cpHome wideSwapBytes)) = 0 := by
  decide

/-- The model compares with the 32 bits that a lane's comparand has, which are 0, and stores 1. -/
theorem wideSwap_stores : (match exec .remotePodAccess wideSwapState with
    | .next u => memGet 0x50100 u.mem
    | _ => 0) = 1 := by
  decide

theorem wideSwapState_openOutside : wideSwapState.OpenOutside := ⟨by decide, by decide⟩

/-- Refutes O56: a request's operands and comparands are numbers without bound, and the model cuts them to the 64 and 32 bits of a
lane's registers, which the statement does not: a comparand of 2 to the 32 meets a word that holds 0. -/
theorem not_prooferAndRemote : ¬ Obligations.ProoferAndRemote := by
  unfold Obligations.ProoferAndRemote
  rintro ⟨_, hremote⟩
  obtain ⟨_, hgranted⟩ := hremote wideSwapState 0 wideSwap rfl rfl
  obtain ⟨_, hreached⟩ := hgranted programContext (by decide) rfl
  obtain ⟨_, _, hatom⟩ := hreached wideSwapBytes wideSwap_reaches (by decide) (by decide) (by decide) wideSwapState_openOutside
  obtain ⟨s', ⟨hexec, _⟩, hstored, _⟩ := hatom 10 true [(1, 2 ^ 32)] rfl
  have hbyte : memGet 0x50100 s'.mem = 0 := by
    rw [hstored 0 0x50100 rfl, wideSwap_new]
    decide
  have hone := wideSwap_stores
  rw [hexec] at hone
  exact absurd (hbyte.symm.trans hone) (by decide)

end Sys2Proof.Machine

/-! O28: an atomic request is performed as one (R200, R201, R212). -/

namespace Sys2Proof.Machine

/-! ## Folds of writes, seen at one place -/

/-- What is read of a place that no later write of a list touches is as before the list. -/
theorem foldl_unobserved {M α β : Type} {put : M → α → M} (get : M → β) {l : List α} (h : ∀ b ∈ l, ∀ m, get (put m b) = get m)
    (m : M) :
    get (l.foldl put m) = get m := by
  induction l generalizing m with
  | nil => rfl
  | cons b l ih =>
    rw [List.foldl_cons, ih fun c hc => h c (List.mem_cons_of_mem b hc)]
    exact h b List.mem_cons_self m

/-- What is read of a place that one write of a list sets, and no later one touches. -/
theorem foldl_observed {M α β : Type} {put : M → α → M} (get : M → β) {l : List α} {n : Nat} {a : α} {v : β} (ha : l[n]? = some a)
    (hset : ∀ m, get (put m a) = v) (hlater : ∀ i b, n < i → l[i]? = some b → ∀ m, get (put m b) = get m) (m : M) :
    get (l.foldl put m) = v := by
  obtain ⟨hn, hget⟩ := List.getElem?_eq_some_iff.mp ha
  have hsplit : l = l.take n ++ a :: l.drop (n + 1) := by
    rw [← hget, List.getElem_cons_drop, List.take_append_drop]
  rw [hsplit, List.foldl_append, List.foldl_cons, foldl_unobserved get, hset]
  intro b hb m
  obtain ⟨i, hi⟩ := List.mem_iff_getElem?.mp hb
  rw [List.getElem?_drop] at hi
  exact hlater (n + 1 + i) b (by omega) hi m

/-! ## Outside writes that nothing holds back (R206, R225) -/

theorem heldBack_of_lams {s s' : State} (h : s'.lams = s.lams) (gs : List Nat) :
    s'.heldBack none none gs = s.heldBack none none gs := by
  simp [State.heldBack, State.hasPriority, h]

/-- What holds back a write of one granule holds back a write of that granule among others. -/
theorem heldBack_of_mem {s : State} {gs : List Nat} (h : s.heldBack none none gs = false) {g : Nat} (hg : g ∈ gs) :
    s.heldBack none none [g] = false := by
  have hmeet : ∀ x : Lam, sigsMeet [g] x.rsig = true → sigsMeet gs x.rsig = true := fun x hx => by
    simp only [sigsMeet, List.any_cons, List.any_nil, Bool.or_false] at hx
    exact List.any_eq_true.mpr ⟨g, hg, hx⟩
  rw [State.heldBack, List.any_eq_false] at h ⊢
  intro x hx hc
  refine h x hx ?_
  simp only [Bool.and_eq_true] at hc ⊢
  exact ⟨⟨⟨hc.1.1.1, hmeet x hc.1.1.2⟩, hc.1.2⟩, hc.2⟩

theorem outsideWrite_quiet {s u : State} {pa : Nat} {b : Byte} {g : Nat} (hh : s.heldBack none none [g] = false)
    (hl : u.lams = s.lams)
    (hw : u.waiting = []) : u.outsideWrite pa b [g] = u.enterByte pa b [g] := by
  simp [State.outsideWrite, heldBack_of_lams hl, hh, hw]

/-- An outside byte that nothing holds back enters memory at once; teams, operations, flag counts and chunks stay. -/
theorem externalByte_quiet {s : State} (core pa : Nat) (b : Byte) (g : Nat) (hh : s.heldBack none none [g] = false)
    (hw : s.waiting = []) :
    ∃ n w x f e ga k, s.externalByte core pa b g = { s with
      mem := memPut pa b s.mem, names := n, shadows := w, writes := x, flights := f, external := e, gathered := ga, keys := k,
      held := s.held.filter fun h => !(h.core == core && !h.dirty && h.line.holds g pa) } := by
  obtain ⟨n, w, hn⟩ := noteName_rest s g pa
  obtain ⟨x, w', hc⟩ := castShadow_rest { s with names := n, shadows := w } core g pa
  simp only [State.externalByte, hn, hc, State.dropCopies]
  rw [outsideWrite_quiet hh (by exact rfl) (by exact hw)]
  exact ⟨_, _, _, _, _, _, _, rfl⟩

/-! ## The bytes of a request -/

/-- Memory with one byte of a request. -/
def spotMem (m : List Host.Cell) (p : Spot × Byte) : List Host.Cell := match p.1.loc with
  | .mem pa => memPut pa p.2 m
  | _ => m

/-- The scratchpad of team `k` with one byte of a request. -/
def spotScratch (k : Nat) (m : Bytes) (p : Spot × Byte) : Bytes := match p.1.loc with
  | .scratch j off => if j = k then bput off p.2 m else m
  | _ => m

/-- Nothing keeps back or spoils a request of a team outside blocks and worlds. -/
structure State.AtomPlain (s : State) (t : Team) : Prop where
  team : ∃ u, s.team? t.key = some u ∧ u.levels = []
  chains : NoChainWrites s
  waiting : s.waiting = []

/-- What the bytes of a request have changed. -/
structure State.SpotsPut (t : Team) (ps : List (Spot × Byte)) (s s' : State) : Prop where
  mem : s'.mem = ps.foldl spotMem s.mem
  team : ∀ k, s'.team? k = (s.team? k).map fun u => { u with scratch := ps.foldl (spotScratch k) u.scratch }
  lams : s'.lams = s.lams
  plain : s'.AtomPlain t

theorem State.SpotsPut.cons {t : Team} {p : Spot × Byte} {ps : List (Spot × Byte)} {s s' s'' : State} (h : s.SpotsPut t [p] s')
    (h' : s'.SpotsPut t ps s'') : s.SpotsPut t (p :: ps) s'' := by
  refine ⟨h'.mem.trans (by rw [h.mem]; rfl), fun k => ?_, h'.lams.trans h.lams, h'.plain⟩
  rw [h'.team, h.team, Option.map_map]
  rfl

/-- One byte of a request at a place that no chain's write spoils, outside blocks and worlds. -/
def State.putSpot (s : State) (t : Team) (p : Spot × Byte) : State := match p.1.loc with
  | .scratch k off => s.putScratch t.key k t.levels.length off p.2
  | .mem pa => (s.dropCopies t.core p.1.grain pa).intoLayer t t.base pa p.2 p.1
  | _ => s

section
variable {s : State} {t : Team}

/-- A step that changes neither teams nor memory puts no byte. -/
theorem State.SpotsPut.same (h : s.AtomPlain t) {p : Spot × Byte} (hm : ∀ m, spotMem m p = m)
    (hs : ∀ k m, spotScratch k m p = m) :
    s.SpotsPut t [p] s :=
  ⟨(hm _).symm, fun k => by simp [hs], rfl, h⟩

theorem spotsPut_scratch (h : s.AtomPlain t) {p : Spot × Byte} {k off : Nat} (hp : p.1.loc = .scratch k off) :
    s.SpotsPut t [p] (s.putSpot t p) := by
  obtain ⟨u, hu, hl⟩ := h.team
  let put : Team → Team := fun v => { v with scratch := bput off p.2 v.scratch }
  have e : s.putSpot t p = s.modTeam k put := by
    simp only [State.putSpot, hp, State.putScratch, hu, hl, List.find?_nil]
    rfl
  have hteam : ∀ j, (s.modTeam k put).team? j
      = (s.team? j).map fun v => { v with scratch := [p].foldl (spotScratch j) v.scratch } := fun j => by
    by_cases hj : j = k
    · subst hj
      rw [State.team?_modTeam s j put fun _ => rfl]
      simp [spotScratch, hp, put]
    · rw [State.team?_modTeam_ne s put hj fun _ => rfl]
      simp [spotScratch, hp, Ne.symm hj]
  rw [e]
  refine ⟨by simp [spotMem, hp], hteam, rfl, ⟨?_, h.chains.modTeam k put fun _ => ⟨rfl, rfl⟩, h.waiting⟩⟩
  rw [hteam, hu]
  exact ⟨_, rfl, hl⟩

theorem spotsPut_mem (h : s.AtomPlain t) {p : Spot × Byte} {pa : Nat} (hp : p.1.loc = .mem pa) (hb : t.base = none)
    (hh : s.heldBack none none [p.1.grain] = false) : s.SpotsPut t [p] (s.putSpot t p) := by
  obtain ⟨n, w, x, f, e, ga, k, hext⟩ := externalByte_quiet (s :=
      s.dropCopies t.core p.1.grain pa) t.core pa p.2 p.1.grain hh h.waiting
  have hput : s.putSpot t p = (s.dropCopies t.core p.1.grain pa).externalByte t.core pa p.2 p.1.grain := by
    simp only [State.putSpot, hp, hb, State.intoLayer]
  rw [hput, hext]
  refine ⟨by simp [spotMem, hp, State.dropCopies], fun j => ?_, rfl, h.team, h.chains, h.waiting⟩
  change s.team? j = _
  simp [spotScratch, hp]

/-- One byte of a request is where it belongs. -/
theorem spotsPut_one (h : s.AtomPlain t) (p : Spot × Byte) (hb : t.base = none)
    (hh : ∀ pa, p.1.loc = .mem pa → s.heldBack none none [p.1.grain] = false) : s.SpotsPut t [p] (s.putSpot t p) := by
  cases hp : p.1.loc with
  | scratch k off => exact spotsPut_scratch h hp
  | mem pa => exact spotsPut_mem h hp hb (hh pa hp)
  | priv k a =>
    rw [State.putSpot, hp]
    exact .same h (fun m => by rw [spotMem, hp]) fun k m => by rw [spotScratch, hp]
  | pod a b =>
    rw [State.putSpot, hp]
    exact .same h (fun m => by rw [spotMem, hp]) fun k m => by rw [spotScratch, hp]

/-- The bytes of a request are where they belong. -/
theorem spotsPut_all (hb : t.base = none) (ps : List (Spot × Byte)) : ∀ {s : State}, s.AtomPlain t →
    (∀ p ∈ ps, ∀ pa, p.1.loc = .mem pa → s.heldBack none none [p.1.grain] = false) →
    s.SpotsPut t ps (ps.foldl (fun s p => s.putSpot t p) s) := by
  induction ps with
  | nil => exact fun h _ => ⟨rfl, fun k => by simp, rfl, h⟩
  | cons p ps ih =>
    intro s h hh
    have h1 := spotsPut_one h p hb (hh p List.mem_cons_self)
    refine h1.cons (ih h1.plain fun q hq pa hqa => ?_)
    rw [heldBack_of_lams h1.lams]
    exact hh q (List.mem_cons_of_mem p hq) pa hqa

end

/-! ## The value before and after each lane (R201) -/

/-- The value of a unit after the first `n` lanes of a request. -/
def atomValue (op : Nat) (lanes : List AtomLane) (m n : Nat) : Nat :=
  (lanes.take n).foldl (fun a x => atomicNew op a x.x.toNat x.cmp.toNat) m

/-- Applied in order, the lanes leave the unit's last value and receive the values before their own operations. -/
theorem atomicRun_ordered (op fresh m : Nat) (lanes : List AtomLane) :
    atomicRun op false fresh m lanes = (atomValue op lanes m lanes.length,
        (List.range lanes.length).map (atomValue op lanes m)) := by
  have hfold : ∀ (xs : List AtomLane) (m : Nat) (pre : List Nat),
      xs.foldl (fun acc (l : AtomLane) => (atomicNew op acc.1 l.x.toNat l.cmp.toNat, acc.2 ++ [acc.1])) (m, pre)
        = (atomValue op xs m xs.length, pre ++ (List.range xs.length).map (atomValue op xs m)) := by
    intro xs
    induction xs with
    | nil => simp [atomValue]
    | cons x xs ih => simp [ih, atomValue, List.range_succ_eq_map, Function.comp_def]
  simpa [atomicRun] using hfold lanes m []

/-! ## The values that lanes receive (R107, R201) -/

/-- The registers that the lanes of a request receive, from `d` on: one, or two for the 64-bit operation. -/
def atomFills (op d : Nat) (ls : List (AtomLane × Nat)) : List (RegId × DWord) :=
  ls.flatMap fun p => ((upFrom 0 (if op = 1 then 2 else 1)).filter fun i => !p.1.lost.contains (d + i)).map fun i =>
    (.v p.1.gid p.1.lane (d + i), (BitVec.ofNat 32 (p.2 >>> (32 * i))).setWidth 64)

theorem mem_atomFills {op d : Nat} {ls : List (AtomLane × Nat)} {w : RegId × DWord} (h : w ∈ atomFills op d ls) :
    ∃ p ∈ ls, ∃ i, w = (.v p.1.gid p.1.lane (d + i), (BitVec.ofNat 32 (p.2 >>> (32 * i))).setWidth 64) := by
  obtain ⟨p, hp, hw⟩ := List.mem_flatMap.mp h
  obtain ⟨i, _, rfl⟩ := List.mem_map.mp hw
  exact ⟨p, hp, i, rfl⟩

/-- A lane that lost no register receives its value. -/
theorem atomFills_mem {op d i : Nat} {ls : List (AtomLane × Nat)} {p : AtomLane × Nat} (hp : p ∈ ls) (hlost : p.1.lost = [])
    (hi : i < if op = 1 then 2 else 1) :
    (.v p.1.gid p.1.lane (d + i), (BitVec.ofNat 32 (p.2 >>> (32 * i))).setWidth 64) ∈ atomFills op d ls := by
  refine List.mem_flatMap.mpr ⟨p, hp, List.mem_map.mpr ⟨i, List.mem_filter.mpr ⟨?_, by simp [hlost]⟩, rfl⟩⟩
  simpa [upFrom] using hi

theorem atomFills_fold (op d : Nat) (ls : List (AtomLane × Nat)) (t : Team) :
    ls.foldl (fun (t : Team) (p : AtomLane × Nat) =>
        (((upFrom 0 (if op = 1 then 2 else 1)).filter fun i => !p.1.lost.contains (d + i)).foldl (fun (t : Team) i =>
          t.fill (.v p.1.gid p.1.lane (d + i), (BitVec.ofNat 32 (p.2 >>> (32 * i))).setWidth 64)) t)) t
      = (atomFills op d ls).foldl Team.fill t := by
  induction ls generalizing t with
  | nil => rfl
  | cons p ls ih =>
    rw [List.foldl_cons, ih]
    simp only [atomFills, List.flatMap_cons, List.foldl_append, List.foldl_map]

theorem mem_zip_range {lanes : List AtomLane} {n : Nat} {x : AtomLane} (hx : lanes[n]? = some x) (f : Nat → Nat) :
    (x, f n) ∈ lanes.zip ((List.range lanes.length).map f) := by
  have hlt : n < lanes.length := (List.getElem?_eq_some_iff.mp hx).1
  refine List.mem_iff_getElem?.mpr ⟨n, List.getElem?_zip_eq_some.mpr ⟨hx, ?_⟩⟩
  rw [List.getElem?_map, List.getElem?_range hlt]
  rfl

theorem nodup_zip_range {lanes : List AtomLane} (h : (lanes.map fun y => (y.gid, y.lane)).Nodup) (f : Nat → Nat) :
    ((lanes.zip ((List.range lanes.length).map f)).map fun q => (q.1.gid, q.1.lane)).Nodup := by
  have hfst : (lanes.zip ((List.range lanes.length).map f)).map Prod.fst = lanes := List.map_fst_zip (by simp)
  rw [← hfst, List.map_map] at h
  exact h

/-- What a lane of a request whose lanes are distinct finds in its register. -/
theorem atomFills_peek {op d i : Nat} {ls : List (AtomLane × Nat)} {p : AtomLane × Nat} {t : Team} (hp : p ∈ ls)
    (hn : (ls.map fun q => (q.1.gid, q.1.lane)).Nodup) (hlost : p.1.lost = []) (hi : i < if op = 1 then 2 else 1)
    (ht : (t.thread? p.1.gid p.1.lane).isSome = true) :
    ((atomFills op d ls).foldl Team.fill t).peek (.v p.1.gid p.1.lane (d + i)) = (BitVec.ofNat 32 (p.2 >>> (32 * i))).setWidth
        64 := by
  refine (foldl_fill_self ?_ (atomFills_mem hp hlost hi) ?_ ht).trans ?_
  · intro w hw
    obtain ⟨q, _, j, rfl⟩ := mem_atomFills hw
    rfl
  · intro w hw hreg
    obtain ⟨q, hq, j, rfl⟩ := mem_atomFills hw
    injection hreg with hg hl hd
    obtain rfl : q = p := List.inj_on_of_nodup_map hn hq hp (Prod.ext hg hl)
    obtain rfl : j = i := by omega
    rfl
  · simp [RegId.trim]

/-! ## The request performed -/

/-- One byte of a request, as it is performed where a chain's writes may meet it. -/
def State.atomByte (s : State) (t : Team) (p : Spot × Byte) : State :=
  let clash := s.chainHits (t.layer t.levels.length) p.1.loc
  let b := if clash then Config.freeByte (s.fresh + 1) p.1.loc.code else p.2
  let s := if clash then s.spoilCopies (t.layer t.levels.length) p.1.loc else s
  match p.1.loc with
  | .scratch k off => s.putScratch t.key k t.levels.length off b
  | .mem pa => (s.dropCopies t.core p.1.grain pa).intoLayer t t.base pa b p.1
  | _ => s

theorem atomByte_eq {s : State} (h : NoChainWrites s) (t : Team) (p : Spot × Byte) : s.atomByte t p = s.putSpot t p := by
  simp only [State.atomByte, State.chainHits_of_noChainWrites h, Bool.false_eq_true, if_false]
  rfl

theorem atomByte_foldl {t : Team} (hb : t.base = none) (ps : List (Spot × Byte)) : ∀ {s : State}, s.AtomPlain t →
    (∀ p ∈ ps, ∀ pa, p.1.loc = .mem pa → s.heldBack none none [p.1.grain] = false) →
    ps.foldl (fun (s : State) p => s.atomByte t p) s = ps.foldl (fun (s : State) p => s.putSpot t p) s := by
  induction ps with
  | nil => exact fun _ _ => rfl
  | cons p ps ih =>
    intro s h hh
    have h1 := spotsPut_one h p hb (hh p List.mem_cons_self)
    rw [List.foldl_cons, List.foldl_cons, atomByte_eq h.chains]
    refine ih h1.plain fun q hq pa hqa => ?_
    rw [heldBack_of_lams h1.lams]
    exact hh q (List.mem_cons_of_mem p hq) pa hqa

/-- The values of a request's destinations, if it has any. -/
def atomDest (op : Nat) (dest : Option Nat) (ls : List (AtomLane × Nat)) (t : Team) : Team := match dest with
  | none => t
  | some d => (atomFills op d ls).foldl Team.fill t

/-- A request of a team outside blocks and worlds, which no chain's write meets and no core's copy: its bytes,
    its destinations, and
the end of its operation. -/
theorem performAtomic_plain {s : State} {o : Op} {t : Team} {locs : List Spot} {op m : Nat} {dest : Option Nat} {lanes : List
    AtomLane}
    (h : s.AtomPlain t) (hheld : s.held = []) (hl : t.levels = []) (hv : t.view = none)
    (hh : ∀ p ∈ locs, ∀ pa, p.loc = .mem pa → s.heldBack none none [p.grain] = false)
    (hm : m = leNat (locs.map fun p => s.homeByte t p)) :
    s.performAtomic o t locs op false dest lanes =
      (((locs.zip (leBytes locs.length (atomValue op lanes m lanes.length))).foldl (fun (s : State) p => s.putSpot t p)
          s).modTeam t.key
        (atomDest op dest (lanes.zip ((List.range lanes.length).map (atomValue op lanes m))))).finishOp o := by
  have hbase : t.base = none := by simp [Team.base, hl, hv]
  have hreads : ∀ sp, s.layerReads t t.levels.length sp = s := fun sp => by simp [State.layerReads, State.readsAt, Team.layer,
      hl, hv]
  have hbytes := atomByte_foldl hbase (locs.zip (leBytes locs.length (atomValue op lanes m lanes.length))) h
    fun p hp pa hpa => hh p.1 (List.of_mem_zip hp).1 pa hpa
  simp only [State.performAtomic, hheld, List.isEmpty_nil, Bool.true_or, if_true, atomicRun_ordered,
    State.chainHits_of_noChainWrites h.chains, Bool.false_eq_true, if_false, ← hm, hreads]
  rw [← hbytes]
  cases dest with
  | none => exact congrArg (State.finishOp · o) (State.modTeam_id _ _).symm
  | some d =>
    simp only [atomFills_fold]
    rfl

/-- Outside blocks and worlds the value of a unit in memory is the last write granted (R212). -/
theorem homeByte_outside (s : State) {t : Team} (hl : t.levels = []) (hv : t.view = none) (p : Spot) :
    s.homeByte t p = match p.loc with
      | .mem pa => s.homeValue pa
      | _ => s.locByte t p := by
  have hb : t.base = none := by simp [Team.base, hl, hv]
  have hc : ∀ n, s.lamChain n none = [none] := fun n => by cases n <;> rfl
  cases hp : p.loc <;> simp [State.homeByte, hp, hb, hc, State.homeByte.look]

/-- A request that is ready is held back at none of its places. -/
theorem heldBack_of_atomicReady {s : State} {o : Op} {locs : List Spot} {lanes : List AtomLane} (h : s.atomicReady o locs lanes
    = true)
    {p : Spot} (hp : p ∈ locs) {pa : Nat} (hpa : p.loc = .mem pa) : s.heldBack none none [p.grain] = false := by
  have hglob : (locs.any fun p => match p.loc with
      | .mem _ => true
      | _ => false) = true := List.any_eq_true.mpr ⟨p, hp, by rw [hpa]⟩
  refine heldBack_of_mem (gs := uniq (locs.map fun x => x.grain)) ?_ (mem_uniq_iff.mpr (List.mem_map_of_mem hp))
  simp only [State.atomicReady, Bool.and_eq_true, Bool.not_eq_true'] at h
  obtain ⟨⟨⟨⟨_, hheld⟩, _⟩, _⟩, _⟩ := h
  rcases Bool.and_eq_false_iff.mp hheld with hg | hg
  · exact Bool.noConfusion (hglob.symm.trans hg)
  · exact hg

theorem Team.fill_scratch (t : Team) (w : RegId × DWord) : (t.fill w).scratch = t.scratch := by
  obtain ⟨r, x⟩ := w
  cases r with
  | s g n => simp only [Team.fill, Team.poke]; split <;> rfl
  | _ => rfl

theorem atomDest_keeps (op : Nat) (dest : Option Nat) (ls : List (AtomLane × Nat)) (t : Team) :
    (atomDest op dest ls t).key = t.key ∧ (atomDest op dest ls t).scratch = t.scratch := by
  cases dest with
  | none => exact ⟨rfl, rfl⟩
  | some d =>
    refine ⟨foldl_team_key (f := Team.fill) (fun t w => Team.poke_key t _ _) _ t, ?_⟩
    exact foldl_unobserved Team.scratch (fun w _ t => Team.fill_scratch t w) t

/-! ## What a performed request leaves -/

theorem spot_zip_getElem? {locs : List Spot} {bs : List Byte} {n : Nat} {p : Spot} (hp : locs[n]? = some p)
    (hlen : bs.length = locs.length) : (locs.zip bs)[n]? = some (p, bs.getD n 0) := by
  have hlt : n < locs.length := (List.getElem?_eq_some_iff.mp hp).1
  refine List.getElem?_zip_eq_some.mpr ⟨hp, ?_⟩
  simp [List.getD, List.getElem?_eq_getElem (hlen ▸ hlt)]

section
variable {locs : List Spot} {bs : List Byte} (hn : (locs.map fun p => p.loc).Nodup) {n : Nat} {p : Spot} (hp : locs[n]? = some p)
include hn hp

/-- No later byte of a request goes to the place of an earlier one. -/
theorem loc_ne_of_later {i : Nat} {q : Spot × Byte} (hi : n < i) (hq : (locs.zip bs)[i]? = some q) : q.1.loc ≠ p.loc := by
  intro heq
  obtain ⟨hq1, _⟩ := List.getElem?_zip_eq_some.mp hq
  have hi1 : (locs.map fun p => p.loc)[i]? = some q.1.loc := by rw [List.getElem?_map, hq1]; rfl
  have hn1 : (locs.map fun p => p.loc)[n]? = some p.loc := by rw [List.getElem?_map, hp]; rfl
  have hlt : n < (locs.map fun p => p.loc).length := (List.getElem?_eq_some_iff.mp hn1).1
  exact hi.ne ((List.getElem?_inj hlt hn).mp (hn1.trans (heq ▸ hi1.symm)))

variable (hlen : bs.length = locs.length)
include hlen

/-- A byte of a request stands in memory at its place. -/
theorem memGet_spotMem {pa : Nat} (hpa : p.loc = .mem pa) (m : List Host.Cell) :
    memGet pa ((locs.zip bs).foldl spotMem m) = bs.getD n 0 := by
  refine foldl_observed (memGet pa) (spot_zip_getElem? hp hlen) (fun m => ?_) (fun i q hi hq m => ?_) m
  · rw [spotMem, hpa]
    exact memGet_memPut_self ..
  · have hne := hpa ▸ loc_ne_of_later hn hp hi hq
    unfold spotMem
    split
    · next b hb => exact memGet_memPut_of_ne (fun e => hne (by rw [hb, e])) ..
    · rfl

/-- A byte of a request stands in the scratchpad at its place. -/
theorem bget_spotScratch {k off : Nat} (hpa : p.loc = .scratch k off) (m : Bytes) :
    bget off ((locs.zip bs).foldl (spotScratch k) m) = some (bs.getD n 0) := by
  refine foldl_observed (bget off) (spot_zip_getElem? hp hlen) (fun m => ?_) (fun i q hi hq m => ?_) m
  · rw [spotScratch, hpa]
    simp only [if_true]
    exact bget_bput_self ..
  · have hne := hpa ▸ loc_ne_of_later hn hp hi hq
    unfold spotScratch
    split
    · next j b hb =>
      split
      · next hj => exact bget_bput_of_ne (fun e => hne (by rw [hb, hj, e])) ..
      · rfl
    · rfl

end

/-- A byte of memory that no place of a request names stays. -/
theorem memGet_spotMem_other {locs : List Spot} {bs : List Byte} {pa : Nat} (h : ∀ p ∈ locs, p.loc ≠ .mem pa)
    (m : List Host.Cell) :
    memGet pa ((locs.zip bs).foldl spotMem m) = memGet pa m := by
  refine foldl_unobserved (memGet pa) (fun q hq m => ?_) m
  have hne := h q.1 (List.of_mem_zip hq).1
  unfold spotMem
  split
  · next b hb => exact memGet_memPut_of_ne (fun e => hne (by rw [hb, e])) ..
  · rfl

theorem leBytes_length (n x : Nat) : (leBytes n x).length = n := by simp [leBytes]

/-- A team after a request: its registers, as the destinations were filled, and its scratchpad. -/
theorem finishOp_team {s : State} (o : Op) {k : Nat} {t : Team} (ht : s.team? k = some t) :
    ∃ u, (s.finishOp o).team? k = some u ∧ u.scratch = t.scratch ∧ t.SameRegisters u := by
  obtain ⟨u, hu, hgroups⟩ := (finishOp_sameButFlags s o).team_eq (k := k) (t := t) ht
  obtain ⟨u', hu', hregs⟩ := (finishOp_done s o).1.team k t ht
  obtain rfl : u = u' := Option.some.inj (hu.symm.trans hu')
  have hscratch := congrArg Team.scratch hgroups
  exact ⟨u, hu, hscratch, hregs⟩

theorem finishOp_keepsMem (s : State) (o : Op) : (s.finishOp o).mem = s.mem := (finishOp_done s o).1.mem

/-- The first half of O28: a request that is ready is performed as one. -/
theorem atomicRequest_performed {s : State} {o : Op} {t : Team} {locs : List Spot} {op m : Nat} {dest : Option Nat} {lanes :
    List AtomLane}
    (ha : s.arg = [o.key]) (ho : s.op? o.key = some o) (ht : s.team? o.team = some t)
        (hk : o.what = .atomic locs op false dest lanes)
    (hready : s.atomicReady o locs lanes = true) (hc : NoChainWrites s) (hl : t.levels = []) (hv : t.view = none)
        (hheld : s.held = [])
    (hw : s.waiting = []) (hm : m = leNat (locs.map fun p => s.homeByte t p)) :
    let bs := leBytes locs.length (atomValue op lanes m lanes.length)
    ∃ s' u, exec .atomicRequestPerform s = .next s' ∧ s'.team? o.team = some u ∧ s'.op? o.key = none
      ∧ s'.mem = (locs.zip bs).foldl spotMem s.mem
      ∧ (∀ k v, s.team? k = some v → ∃ v', s'.team? k = some v' ∧ v'.scratch = (locs.zip bs).foldl (spotScratch k) v.scratch)
      ∧ ∃ t1 : Team, t1.groups = t.groups
        ∧ (atomDest op dest (lanes.zip ((List.range lanes.length).map (atomValue op lanes m))) t1).SameRegisters u := by
  intro bs
  have hkey : t.key = o.team := team?_key ht
  have hplain : s.AtomPlain t := ⟨⟨t, hkey ▸ ht, hl⟩, hc, hw⟩
  have hheldBack : ∀ p ∈ locs, ∀ pa, p.loc = .mem pa → s.heldBack none none [p.grain] = false :=
    fun p hp pa hpa => heldBack_of_atomicReady hready hp hpa
  have hput := spotsPut_all (t := t) (by simp [Team.base, hl, hv]) (locs.zip bs) hplain
    fun p hp pa hpa => hheldBack p.1 (List.of_mem_zip hp).1 pa hpa
  have hexec : exec .atomicRequestPerform s = .next (s.performAtomic o t locs op false dest lanes) := by
    change execAtomicRequestPerform s = _
    simp only [execAtomicRequestPerform, ha, ho, hk, ht, hready, if_true]
  rw [performAtomic_plain hplain hheld hl hv hheldBack hm] at hexec
  obtain ⟨hpmem, hpteam, _, _⟩ := hput
  let fills : Team → Team := atomDest op dest (lanes.zip ((List.range lanes.length).map (atomValue op lanes m)))
  have hfkey : ∀ u, (fills u).key = u.key := fun u => (atomDest_keeps ..).1
  have hteam : ∀ k v, s.team? k = some v → ∃ v1, (((locs.zip bs).foldl (fun (s : State) p => s.putSpot t p) s).modTeam t.key
      fills).team? k
      = some v1 ∧ v1.scratch = (locs.zip bs).foldl (spotScratch k) v.scratch := by
    intro k v hv
    have h1 := hpteam k
    rw [hv, Option.map_some] at h1
    by_cases hj : k = t.key
    · subst hj
      exact ⟨_, State.team?_modTeam_some h1 fills hfkey, (atomDest_keeps ..).2⟩
    · exact ⟨_, (State.team?_modTeam_ne _ fills hj hfkey).trans h1, rfl⟩
  have hown := State.team?_modTeam_some ((hpteam t.key).trans (by rw [hkey, ht]; rfl)) fills hfkey
  obtain ⟨u, hu, _, hregs⟩ := finishOp_team o hown
  refine ⟨_, u, hexec, hkey ▸ hu, (finishOp_done _ o).2, (finishOp_keepsMem ..).trans hpmem, fun k v hv => ?_, _, ?_, hregs⟩
  · obtain ⟨v1, hv1, hs1⟩ := hteam k v hv
    obtain ⟨v', hv', hs', _⟩ := finishOp_team o hv1
    exact ⟨v', hv', hs'.trans hs1⟩
  · rfl

/-! ## The operations (R200) -/

theorem sval_word (x : Word) : sval 32 x.toNat = x.toInt := by rw [sval_toNat, BitVec.ofNat_toNat, BitVec.setWidth_eq]

theorem toNat_ite (p : Prop) [Decidable p] (a b : Word) : (if p then a else b).toNat = if p then a.toNat else b.toNat :=
  apply_ite BitVec.toNat p a b

/-- The operations of R200 on words: sums and comparisons by their format, exchange, compare and swap, the bounded increment. -/
theorem atomicNew_words (m x c : Word) :
    atomicNew 0 m.toNat x.toNat c.toNat = (m + x).toNat
      ∧ atomicNew 2 m.toNat x.toNat c.toNat = (m &&& x).toNat ∧ atomicNew 3 m.toNat x.toNat c.toNat = (m ||| x).toNat
      ∧ atomicNew 4 m.toNat x.toNat c.toNat = (m ^^^ x).toNat
      ∧ atomicNew 5 m.toNat x.toNat c.toNat = (if m.toInt ≤ x.toInt then m else x).toNat
      ∧ atomicNew 6 m.toNat x.toNat c.toNat = (if m.toInt ≤ x.toInt then x else m).toNat
      ∧ atomicNew 7 m.toNat x.toNat c.toNat = (if m.toNat ≤ x.toNat then m else x).toNat
      ∧ atomicNew 8 m.toNat x.toNat c.toNat = (if m.toNat ≤ x.toNat then x else m).toNat
      ∧ atomicNew 9 m.toNat x.toNat c.toNat = x.toNat
      ∧ atomicNew 10 m.toNat x.toNat c.toNat = (if m = c then x else m).toNat
      ∧ atomicNew 14 m.toNat x.toNat c.toNat = if x.toNat ≤ m.toNat then 0 else m.toNat + 1 := by
  refine ⟨(BitVec.toNat_add ..).symm, (BitVec.toNat_and ..).symm, (BitVec.toNat_or ..).symm, (BitVec.toNat_xor ..).symm, ?_,
      ?_, ?_, ?_,
    rfl, ?_, rfl⟩
  · rw [toNat_ite, ← sval_word, ← sval_word]
    rfl
  · rw [toNat_ite, ← sval_word, ← sval_word]
    rfl
  · rw [toNat_ite]
    exact Nat.min_def
  · rw [toNat_ite]
    exact Nat.max_def
  · rw [toNat_ite]
    simp only [atomicNew, BitVec.toNat_inj]

/-- Settles O28: with nothing in its way each byte of the request is written at its place,
    each lane receives the value before its own
operation, and the operations on words are those of R200. -/
theorem atomicsPerformed : Obligations.AtomicsPerformed := by
  unfold Obligations.AtomicsPerformed
  refine ⟨?_, atomicNew_words⟩
  intro s o t locs op dest lanes ha ho ht hk hready hc hl hv hheld hw hn m run
  have hm : m = leNat (locs.map fun p => s.homeByte t p) :=
    congrArg leNat (List.map_congr_left fun p _ => (homeByte_outside s hl hv p).symm)
  obtain ⟨s', u, hexec, hu, hop, hmem, hscratch, t1, hgroups, hregs⟩ :=
    atomicRequest_performed ha ho ht hk hready hc hl hv hheld hw hm
  have hlen := leBytes_length locs.length (run lanes.length)
  refine ⟨s', u, hexec, hu, hop, fun n p pa hp hpa => ?_, fun pa hpa => ?_, fun n p k off hp hpa hteam => ?_,
    fun d n x hd hx hth hlanes hlost => ?_⟩
  · rw [hmem]
    exact memGet_spotMem hn hp hlen hpa s.mem
  · rw [hmem]
    exact memGet_spotMem_other hpa s.mem
  · obtain ⟨v, hv⟩ := Option.isSome_iff_exists.mp hteam
    obtain ⟨v', hv', hs'⟩ := hscratch k v hv
    refine ⟨v', hv', ?_⟩
    rw [hs']
    exact bget_spotScratch hn hp hlen hpa v.scratch
  · subst hd
    have hpair : (x, run n) ∈ lanes.zip ((List.range lanes.length).map (atomValue op lanes m)) := mem_zip_range hx _
    have hdistinct := nodup_zip_range hlanes (atomValue op lanes m)
    have hth1 : (t1.thread? x.gid x.lane).isSome = true := by
      rw [Team.thread?, Team.group?, hgroups]
      exact hth
    have hpos : 0 < if op = 1 then 2 else 1 := by split <;> omega
    refine ⟨?_, ?_, fun h1 => ?_⟩
    · rw [hregs.peek_v]
      exact atomFills_peek hpair hdistinct hlost hpos hth1
    · rw [hregs.isEmpty]
      exact foldl_fill_isEmpty (atomFills_mem hpair hlost hpos) t1
    · rw [hregs.peek_v]
      refine (atomFills_peek (i := 1) hpair hdistinct hlost (by simp [h1]) hth1).trans ?_
      rw [Nat.shiftRight_eq_div_pow]

end Sys2Proof.Machine

/-! O25: a store word, before L1 accepts it (R198, R199, R209, R218). -/

namespace Sys2Proof.Machine

/-! ## What a store word leaves besides its operations -/

/-- A team without the note that it has named the cluster window. -/
def Team.unopened (t : Team) : Team := { t with clusterOpen := false }

theorem Team.peek_unopened (t : Team) (r : RegId) : t.unopened.peek r = t.peek r := by cases r <;> rfl

/-- Two states that differ at most in chunks, keys, flag counts, cached translations, operations, the addresses noted of the word
at issue, and the notes of the cluster window. -/
structure StoreFrame (s s' : State) : Prop where
  rest : ∃ ls k ts tb te os v,
    s' = { s with lams := ls, keys := k, toks := ts, tlb := tb, teams := te, ops := os, cur := { s.cur with vas := v } }
  team : ∀ k, (s'.team? k).map Team.unopened = (s.team? k).map Team.unopened

theorem StoreFrame.refl (s : State) : StoreFrame s s := ⟨⟨_, _, _, _, _, _, _, rfl⟩, fun _ => rfl⟩

theorem StoreFrame.trans {s s' s'' : State} (h : StoreFrame s s') (h' : StoreFrame s' s'') : StoreFrame s s'' := by
  obtain ⟨ls, k, ts, tb, te, os, v, e⟩ := h.rest
  obtain ⟨ls', k', ts', tb', te', os', v', e'⟩ := h'.rest
  exact ⟨⟨ls', k', ts', tb', te', os', v', by rw [e', e]⟩, fun k => (h'.team k).trans (h.team k)⟩

/-- A change that leaves the teams alone. -/
theorem StoreFrame.of_rest {s s' : State} (h : ∃ ls k ts tb os v,
    s' = { s with lams := ls, keys := k, toks := ts, tlb := tb, ops := os, cur := { s.cur with vas := v } }) :
        StoreFrame s s' := by
  obtain ⟨ls, k, ts, tb, os, v, e⟩ := h
  exact ⟨⟨ls, k, ts, tb, s.teams, os, v, e⟩, fun k => by rw [e]; rfl⟩

section
variable {s s' : State} (h : StoreFrame s s')
include h

theorem StoreFrame.mem : s'.mem = s.mem := by
  obtain ⟨_, _, _, _, _, _, _, e⟩ := h.rest
  rw [e]

theorem StoreFrame.curTeamKey : s'.cur.team = s.cur.team := by
  obtain ⟨_, _, _, _, _, _, _, e⟩ := h.rest
  rw [e]

theorem StoreFrame.round : s'.cur.round = s.cur.round := by
  obtain ⟨_, _, _, _, _, _, _, e⟩ := h.rest
  rw [e]

theorem StoreFrame.reg (k : Nat) (r : RegId) : s'.reg k r = s.reg k r := by
  have hreg : ∀ u : State, u.reg k r = (((u.team? k).map Team.unopened).map fun t => t.peek r).getD 0 := fun u => by
    unfold State.reg
    cases u.team? k with
    | none => rfl
    | some t => exact (Team.peek_unopened t r).symm
  rw [hreg, hreg, h.team]

theorem StoreFrame.own (k : Nat) :
    (s'.team? k).map (fun x => (x.scratch, x.priv)) = (s.team? k).map fun x => (x.scratch, x.priv) := by
  have hown : ∀ o : Option Team, o.map (fun x => (x.scratch, x.priv)) = (o.map Team.unopened).map fun x => (x.scratch, x.priv) :=
    fun o => by rw [Option.map_map]; rfl
  rw [hown (s'.team? k), hown (s.team? k), h.team]

theorem StoreFrame.members : s'.members = s.members := by
  have hsquad : ∀ (o : Option Team) (k : Nat), (o.bind fun t => t.squad? k) = (o.map Team.unopened).bind fun t => t.squad? k :=
    fun o k => by rw [Option.bind_map]; rfl
  obtain ⟨_, _, _, _, _, _, _, e⟩ := h.rest
  have hcur : s'.cur.squad = s.cur.squad ∧ s'.cur.members = s.cur.members := by rw [e]; exact ⟨rfl, rfl⟩
  have hq : (s'.curTeam.bind fun t => t.squad? s'.cur.squad) = s.curTeam.bind fun t => t.squad? s.cur.squad := by
    rw [hsquad s'.curTeam, hsquad s.curTeam, State.curTeam, State.curTeam, h.curTeamKey, h.team, hcur.1]
  unfold State.members
  rw [hq, hcur.2]

theorem StoreFrame.curGids : s'.curGids = s.curGids := by rw [State.curGids, h.members, State.curGids]

theorem StoreFrame.lanesOf (g : Nat) : s'.lanesOf g = s.lanesOf g := by rw [State.lanesOf, h.members, State.lanesOf]

theorem StoreFrame.routeOf (t : Team) (l : LaneAcc) : s'.routeOf t l = s.routeOf t l := by
  obtain ⟨_, _, _, _, _, _, _, e⟩ := h.rest
  rw [e]
  rfl

theorem StoreFrame.storeData (t : Team) (g l v w : Nat) : s'.storeData t g l v w = s.storeData t g l v w := by
  obtain ⟨_, _, _, _, _, _, _, e⟩ := h.rest
  rw [e]
  rfl

end

/-! ## Translations and notes of a word (R184) -/

theorem fillTlb_rest (s : State) (core ctx va : Nat) (p : Page) : ∃ tb, s.fillTlb core ctx va p = { s with tlb := tb } := by
  unfold State.fillTlb
  generalize laneTlbs core = us
  induction us generalizing s with
  | nil => exact ⟨_, rfl⟩
  | cons u us ih => exact ih (s.putTlb u ctx va p)

theorem fillPages_rest (s : State) (t : Team) (ls : List LaneAcc) : ∃ tb, s.fillPages t ls = { s with tlb := tb } := by
  unfold State.fillPages
  split
  · exact ⟨_, rfl⟩
  · next c _ =>
    dsimp only
    generalize uniq ((s.lanePlaces t ls).map fun va => va / 65536) = ps
    clear * -
    induction ps generalizing s with
    | nil => exact ⟨_, rfl⟩
    | cons p ps ih =>
      rw [List.foldl_cons]
      split
      · next g _ =>
        obtain ⟨tb, e⟩ := fillTlb_rest s t.core c.num (p * 65536) g
        rw [e]
        exact ih { s with tlb := tb }
      · exact ih s

theorem noteCluster_frame (s : State) (team : Nat) (vas : List Nat) : StoreFrame s (s.noteCluster team vas) := by
  unfold State.noteCluster
  split
  · refine ⟨⟨_, _, _, _, _, _, _, rfl⟩, fun k => ?_⟩
    by_cases hk : k = team
    · subst hk
      rw [State.team?_modTeam s k (fun t => { t with clusterOpen := true }) fun _ => rfl, Option.map_map]
      rfl
    · rw [State.team?_modTeam_ne s (fun t => { t with clusterOpen := true }) hk fun _ => rfl]
  · exact .refl s

/-- The pages of the lanes' addresses are cached and their addresses noted; no operation begins. -/
theorem fillLanes_frame (s : State) (t : Team) (ls : List LaneAcc) :
    StoreFrame s (s.fillLanes t ls) ∧ (s.fillLanes t ls).ops = s.ops
      ∧ (s.fillLanes t ls).cur.round = s.cur.round ∧ (s.fillLanes t ls).cur.word = s.cur.word := by
  have h1 := noteCluster_frame s t.key (ls.map fun l => l.va)
  obtain ⟨tb, e⟩ := fillPages_rest { s.noteCluster t.key (ls.map fun l => l.va) with
    cur := { (s.noteCluster t.key (ls.map fun l => l.va)).cur with vas := ls.map fun l => (l.gid, l.lane, l.va) } } t ls
  have hfill : s.fillLanes t ls = _ := e
  have hops : (s.noteCluster t.key (ls.map fun l => l.va)).ops = s.ops := by
    unfold State.noteCluster
    split <;> rfl
  rw [hfill]
  exact ⟨h1.trans (.of_rest ⟨_, _, _, _, _, _, rfl⟩), hops, by rw [noteCluster_cur], by rw [noteCluster_cur]⟩

/-! ## Operations put in flight -/

/-- Operations put in flight, and nothing else but keys and flag counts. -/
def OpsAdded (s s' : State) (os : List Op) : Prop := ∃ ts k, s' = { s with toks := ts, keys := k, ops := s.ops ++ os }

theorem OpsAdded.refl (s : State) : OpsAdded s s [] := ⟨s.toks, s.keys, by rw [List.append_nil]⟩

theorem OpsAdded.trans {s s' s'' : State} {os os' : List Op} (h : OpsAdded s s' os) (h' : OpsAdded s' s'' os') :
    OpsAdded s s'' (os ++ os') := by
  obtain ⟨ts, k, rfl⟩ := h
  obtain ⟨ts', k', rfl⟩ := h'
  exact ⟨ts', k', by rw [List.append_assoc]⟩

theorem OpsAdded.frame {s s' : State} {os : List Op} (h : OpsAdded s s' os) : StoreFrame s s' := by
  obtain ⟨ts, k, rfl⟩ := h
  exact .of_rest ⟨_, _, _, _, _, _, rfl⟩

theorem OpsAdded.ops {s s' : State} {os : List Op} (h : OpsAdded s s' os) : s'.ops = s.ops ++ os := by
  obtain ⟨_, _, rfl⟩ := h
  rfl

theorem OpsAdded.cur {s s' : State} {os : List Op} (h : OpsAdded s s' os) : s'.cur = s.cur := by
  obtain ⟨_, _, rfl⟩ := h
  rfl

theorem newOp_added (s : State) (team : Nat) (toks : List Nat) (lat : Nat) (what : OpKind) :
    ∃ n, OpsAdded s (s.newOp team toks lat what)
      [{ key := n, team := team, toks := toks, due := s.now + lat, iss := s.cur, what := what }] := by
  obtain ⟨ts, k, n, e⟩ := newOp_eq s team toks lat what
  exact ⟨n, ts, k, e⟩

/-- An operation for each group of a list. -/
theorem groupOps_added (what : Nat → OpKind) (gs : List Nat) (s : State) :
    ∃ os, OpsAdded s (gs.foldl (fun s g => s.groupOp g s.delay (what g)) s) os
      ∧ (∀ o ∈ os, o.team = s.cur.team ∧ o.iss = s.cur ∧ ∃ g ∈ gs, o.what = what g) ∧ ∀ g ∈ gs, ∃ o ∈ os, o.what = what g := by
  induction gs generalizing s with
  | nil => exact ⟨[], .refl s, by simp, by simp⟩
  | cons g gs ih =>
    obtain ⟨n, h1⟩ := newOp_added s s.cur.team (s.curToks g) s.delay (what g)
    obtain ⟨os, h2, hall, hany⟩ := ih (s.groupOp g s.delay (what g))
    rw [show (s.groupOp g s.delay (what g)).cur = s.cur from h1.cur] at hall
    refine ⟨_ :: os, h1.trans h2, fun o ho => ?_, fun j hj => ?_⟩
    · rcases List.mem_cons.mp ho with rfl | ho
      · exact ⟨rfl, rfl, g, List.mem_cons_self, rfl⟩
      · obtain ⟨hteam, hiss, j, hj, hwhat⟩ := hall o ho
        exact ⟨hteam, hiss, j, List.mem_cons_of_mem g hj, hwhat⟩
    · rcases List.mem_cons.mp hj with rfl | hj
      · exact ⟨_, List.mem_cons_self, rfl⟩
      · obtain ⟨o, ho, hwhat⟩ := hany j hj
        exact ⟨o, List.mem_cons_of_mem _ ho, hwhat⟩

/-- The release of a word: a fence for each of its groups. -/
theorem fenceOps_added (s : State) (sc : Nat) :
    ∃ os, OpsAdded s (s.fenceOps 1 sc false) os
      ∧ (∀ o ∈ os, ∃ g lams, o.what = .fence 1 sc g (s.lanesOf g) lams)
      ∧ ∀ g ∈ s.curGids, ∃ o ∈ os, o.team = s.cur.team ∧ ∃ lams, o.what = .fence 1 sc g (s.lanesOf g) lams := by
  unfold State.fenceOps
  generalize s.curGids = gs
  simp only [Bool.false_eq_true, if_false]
  induction gs generalizing s with
  | nil => exact ⟨[], .refl s, by simp, by simp⟩
  | cons g gs ih =>
    obtain ⟨n, h1⟩ := newOp_added s s.cur.team [] 0 (.fence 1 sc g (s.lanesOf g) (s.fenceSets 1 s.cur.team g (s.lanesOf g)))
    obtain ⟨os, h2, hall, hany⟩ := ih (s.newOp s.cur.team [] 0 (.fence 1 sc g (s.lanesOf g)
        (s.fenceSets 1 s.cur.team g (s.lanesOf g))))
    simp only [h1.frame.lanesOf, h1.cur] at hall hany
    refine ⟨_ :: os, h1.trans h2, fun o ho => ?_, fun j hj => ?_⟩
    · rcases List.mem_cons.mp ho with rfl | ho
      · exact ⟨g, _, rfl⟩
      · exact hall o ho
    · rcases List.mem_cons.mp hj with rfl | hj
      · exact ⟨_, List.mem_cons_self, rfl, _, rfl⟩
      · obtain ⟨o, ho, hwhat⟩ := hany j hj
        exact ⟨o, List.mem_cons_of_mem _ ho, hwhat⟩

/-! ## The bytes of a store (R199) -/

/-- The bytes that a lane of a store sends, each to its place. -/
def State.laneBytes (s : State) (t : Team) (v w : Nat) (l : LaneAcc) : List StoreByte :=
  (l.spots.zip (leBytes (widthBytes w) (s.storeData t l.gid l.lane v w))).map fun p =>
    { who := { team := t.key, gid := l.gid, lane := l.lane }, at_ := p.1, byte := p.2,
      direct := p.1.io || (p.1.ds && s.isDet t && t.parent.isNone && t.levels.isEmpty) }

/-- The stores of some lanes: one operation for each of their groups. -/
def State.putLanes (s : State) (t : Team) (v w : Nat) (s0 : State) (nt : Bool) (ls : List LaneAcc) : State :=
  (uniq (ls.map fun l => l.gid)).foldl (fun s g =>
    s.groupOp g s.delay (.store ((ls.filter fun l => l.gid == g).flatMap (s0.laneBytes t v w)) nt)) s

/-- The operations of a store for some lanes. -/
theorem putLanes_added (s s0 : State) (t : Team) (v w : Nat) (nt : Bool) (ls : List LaneAcc) :
    ∃ os, OpsAdded s (s.putLanes t v w s0 nt ls) os
      ∧ (∀ o ∈ os, o.team = s.cur.team ∧ o.iss = s.cur ∧ ∃ ws, o.what = .store ws nt ∧
          ∀ x ∈ ws, ∃ l ∈ ls, x ∈ s0.laneBytes t v w l)
      ∧ ∀ l ∈ ls, ∃ o ∈ os, ∃ ws, o.what = .store ws nt ∧ ∀ x ∈ s0.laneBytes t v w l, x ∈ ws := by
  obtain ⟨os, hadd, hall, hany⟩ := groupOps_added
    (fun g => .store ((ls.filter fun l => l.gid == g).flatMap (s0.laneBytes t v w)) nt) (uniq (ls.map fun l => l.gid)) s
  refine ⟨os, hadd, fun o ho => ?_, fun l hl => ?_⟩
  · obtain ⟨hteam, hiss, g, _, hwhat⟩ := hall o ho
    refine ⟨hteam, hiss, _, hwhat, fun x hx => ?_⟩
    obtain ⟨l, hl, hx⟩ := List.mem_flatMap.mp hx
    exact ⟨l, (List.mem_filter.mp hl).1, hx⟩
  · obtain ⟨o, ho, hwhat⟩ := hany l.gid (mem_uniq_iff.mpr (List.mem_map_of_mem hl))
    exact ⟨o, ho, _, hwhat, fun x hx => List.mem_flatMap.mpr ⟨l, List.mem_filter.mpr ⟨hl, by simp⟩, hx⟩⟩

theorem podRequests_nil (s : State) (t : Team) (n : Nat) (regs : LaneAcc → List (Nat × Nat × Nat))
    (act : List LaneAcc → RemoteAct) :
    s.podRequests t [] n regs act = s := by
  unfold State.podRequests
  split <;> rfl

/-- The state in which the lanes' bytes are on their way to L1, before the highest lane's are chosen. -/
def State.sentLanes (s : State) (t : Team) (v w : Nat) (nt : Bool) (ls : List LaneAcc) : State :=
  let s0 := s.fillLanes t ls
  (s0.putLanes t v w s0 false (ls.filter fun l => !(nt && l.mayNt))).putLanes t v w s0 true (ls.filter fun l => nt && l.mayNt)

/-- With every lane stored here, the lanes' bytes are put in flight and the highest lane's stay. -/
theorem storeLanes_here {s : State} {t : Team} {ls : List LaneAcc} (hr : ∀ l ∈ ls, s.routeOf t l = .here) (v w : Nat)
    (nt : Bool) :
    s.storeLanes t v w nt ls = (s.sentLanes t v w nt ls).highestLane t.key := by
  have hr0 : ∀ l ∈ ls, (s.fillLanes t ls).routeOf t l = .here := fun l hl =>
    ((fillLanes_frame s t ls).1.routeOf t l).trans (hr l hl)
  have hhere : (ls.filter fun l => (s.fillLanes t ls).routeOf t l == .here) = ls :=
    List.filter_eq_self.mpr fun l hl => by rw [hr0 l hl]; rfl
  have hpod : (ls.filter fun l => (s.fillLanes t ls).routeOf t l == .pod) = [] :=
    List.filter_eq_nil_iff.mpr fun l hl => by rw [hr0 l hl]; decide
  unfold State.storeLanes
  dsimp only
  rw [foldl_fixed_of_mem ls]
  · rw [hhere, hpod, List.map_nil, podRequests_nil]
    rfl
  · intro l hl
    rw [hr0 l hl]

/-- What is on its way of a store: an operation for each lane, which holds its bytes, and operations that hold only
lanes' bytes. -/
theorem sentLanes_added (s : State) (t : Team) (v w : Nat) (nt : Bool) (ls : List LaneAcc) :
    StoreFrame s (s.sentLanes t v w nt ls) ∧ ∃ os, (s.sentLanes t v w nt ls).ops = s.ops ++ os
      ∧ (s.sentLanes t v w nt ls).cur.round = s.cur.round ∧ (s.sentLanes t v w nt ls).cur.word = s.cur.word
      ∧ (∀ o ∈ os, o.team = s.cur.team ∧ o.iss.round = s.cur.round ∧ o.iss.word = s.cur.word
        ∧ ∃ ws b, o.what = .store ws b ∧ ∀ x ∈ ws, ∃ l ∈ ls, x ∈ (s.fillLanes t ls).laneBytes t v w l)
      ∧ ∀ l ∈ ls, ∃ o ∈ os, ∃ ws, o.what = .store ws (nt && l.mayNt) ∧ ∀ x ∈ (s.fillLanes t ls).laneBytes t v w l, x ∈ ws := by
  obtain ⟨hframe, hops, hround, hword⟩ := fillLanes_frame s t ls
  obtain ⟨os1, h1, hall1, hany1⟩ :=
    putLanes_added (s.fillLanes t ls) (s.fillLanes t ls) t v w false (ls.filter fun l => !(nt && l.mayNt))
  obtain ⟨os2, h2, hall2, hany2⟩ := putLanes_added _ (s.fillLanes t ls) t v w true (ls.filter fun l => nt && l.mayNt)
  have h := h1.trans h2
  rw [h1.cur] at hall2
  refine ⟨hframe.trans h.frame, os1 ++ os2, h.ops.trans (by rw [hops]), ?_, ?_, fun o ho => ?_, fun l hl => ?_⟩
  · exact (congrArg Issue.round h.cur).trans hround
  · exact (congrArg Issue.word h.cur).trans hword
  · have hstore : ∃ b, o.team = (s.fillLanes t ls).cur.team ∧ o.iss = (s.fillLanes t ls).cur ∧ ∃ ws, o.what = .store ws b
        ∧ ∀ x ∈ ws, ∃ l ∈ ls, x ∈ (s.fillLanes t ls).laneBytes t v w l := by
      rcases List.mem_append.mp ho with ho | ho
      · obtain ⟨hteam, hiss, ws, hwhat, hws⟩ := hall1 o ho
        refine ⟨false, hteam, hiss, ws, hwhat, fun x hx => ?_⟩
        obtain ⟨l, hl, hx⟩ := hws x hx
        exact ⟨l, (List.mem_filter.mp hl).1, hx⟩
      · obtain ⟨hteam, hiss, ws, hwhat, hws⟩ := hall2 o ho
        refine ⟨true, hteam, hiss, ws, hwhat, fun x hx => ?_⟩
        obtain ⟨l, hl, hx⟩ := hws x hx
        exact ⟨l, (List.mem_filter.mp hl).1, hx⟩
    obtain ⟨b, hteam, hiss, ws, hwhat, hws⟩ := hstore
    exact ⟨hteam.trans hframe.curTeamKey, by rw [hiss, hround], by rw [hiss, hword], ws, b, hwhat, hws⟩
  · cases hb : nt && l.mayNt with
    | false =>
      obtain ⟨o, ho, hws⟩ := hany1 l (List.mem_filter.mpr ⟨hl, by rw [hb]; rfl⟩)
      exact ⟨o, List.mem_append_left _ ho, hws⟩
    | true =>
      obtain ⟨o, ho, hws⟩ := hany2 l (List.mem_filter.mpr ⟨hl, hb⟩)
      exact ⟨o, List.mem_append_right _ ho, hws⟩

/-! ## The highest lane's byte stays (R199) -/

/-- Is an operation one of the word at issue, of a team? -/
def State.ofWord (s : State) (team : Nat) (o : Op) : Bool :=
  o.team == team && o.iss.round == s.cur.round && o.iss.word == s.cur.word

/-- Does a higher lane of the word at issue store a byte too? -/
def State.beaten (s : State) (team : Nat) (w : StoreByte) : Bool := s.ops.any fun o => s.ofWord team o && (match o.what with
  | .store ws _ => ws.any fun x => x.who.lane > w.who.lane && x.at_.same w.at_
  | _ => false)

/-- An operation of the word without the bytes that higher lanes store too. -/
def State.cutOp (s : State) (team : Nat) (o : Op) : Op := match o.what with
  | .store ws nt => { o with what := .store (ws.filter fun w => !s.beaten team w) nt }
  | _ => o

theorem highestLane_eq (s : State) (team : Nat) :
    s.highestLane team = { s with ops := updIf (s.ofWord team) (s.cutOp team) s.ops } := rfl

theorem cutOp_team (s : State) (team : Nat) (o : Op) : (s.cutOp team o).team = o.team := by
  unfold State.cutOp
  split <;> rfl

/-- A store keeps the bytes that no higher lane stores, whether or not it is one of the word. -/
theorem highestLane_store {s : State} {team : Nat} {o : Op} {ws : List StoreByte} {nt : Bool} (ho : o ∈ s.ops)
    (hw : o.what = .store ws nt) :
    ∃ o' ∈ (s.highestLane team).ops, o'.team = o.team ∧ ∃ ws', o'.what = .store ws' nt ∧
        ∀ x ∈ ws, s.beaten team x = false → x ∈ ws' := by
  rw [highestLane_eq]
  refine ⟨_, List.mem_map_of_mem ho, ?_⟩
  split
  · refine ⟨cutOp_team s team o, ws.filter fun w => !s.beaten team w, by simp [State.cutOp, hw], fun x hx hb => ?_⟩
    exact List.mem_filter.mpr ⟨hx, by simp [hb]⟩
  · exact ⟨rfl, ws, hw, fun x hx _ => hx⟩

/-- An operation that is no store stays as it is. -/
theorem highestLane_other {s : State} {team : Nat} {o : Op} (ho : o ∈ s.ops) (hw : ∀ ws nt, o.what ≠ .store ws nt) :
    o ∈ (s.highestLane team).ops := by
  rw [highestLane_eq]
  refine List.mem_map.mpr ⟨o, ho, ?_⟩
  split
  · unfold State.cutOp
    split
    · next h => exact absurd h (hw _ _)
    · rfl
  · rfl

theorem highestLane_frame (s : State) (team : Nat) : StoreFrame s (s.highestLane team) := .of_rest ⟨_, _, _, _, _, _, rfl⟩

/-! ## The store word (R198, R209) -/

/-- The low bytes of a number do not depend on what lies above them. -/
theorem leBytes_mod (n x : Nat) : leBytes n (x % 2 ^ (8 * n)) = leBytes n x := by
  refine List.map_congr_left fun i hi => BitVec.eq_of_getLsbD_eq fun j hj => ?_
  have hlt : 8 * i + j < 8 * n := by
    have := List.mem_range.mp hi
    omega
  simp [BitVec.getLsbD_ofNat, Nat.testBit_shiftRight, Nat.testBit_mod_two_pow, hlt]

/-- The bytes of a lane's register data go to the lane's places; a byte of an IO page goes straight out. -/
theorem laneBytes_mem {s s' : State} (h : StoreFrame s s') {t : Team} {l : LaneAcc} {v w : Nat} {p : Spot × Byte}
    (hp : p ∈ l.spots.zip (leBytes (widthBytes w) (leNat ((upFrom v (widthRegs w)).flatMap fun r =>
      leBytes 4 (s.rdV t l.gid l.lane r).toNat)))) :
    ∃ x ∈ s'.laneBytes t v w l, x.who = { team := t.key, gid := l.gid, lane := l.lane } ∧ x.at_ = p.1 ∧ x.byte = p.2
      ∧ (p.1.io = true → x.direct = true) := by
  refine ⟨_, List.mem_map_of_mem ?_, rfl, rfl, rfl, fun hio => by simp [hio]⟩
  rw [h.storeData, State.storeData, leBytes_mod]
  exact hp

theorem laneBytes_who {s : State} {t : Team} {l : LaneAcc} {v w : Nat} {x : StoreByte} (hx : x ∈ s.laneBytes t v w l) :
    x.who.lane = l.lane ∧ x.at_ ∈ l.spots := by
  obtain ⟨p, hp, rfl⟩ := List.mem_map.mp hx
  exact ⟨rfl, (List.of_mem_zip hp).1⟩

/-- What a store has put in flight: `s` is the state at its issue, `s1` the one with the fences `fs` of its release,
if it is one. -/
theorem storeLanes_sends {s s1 : State} {t : Team} {ls : List LaneAcc} {fs : List Op} (v w : Nat) (nt : Bool)
    (h : StoreFrame s s1)
    (hops : s1.ops = s.ops ++ fs) (hfs : ∀ o ∈ fs, ∀ ws b, o.what ≠ .store ws b)
    (hround : ∀ o ∈ s.ops, o.team = t.key → o.iss.round ≠ s.cur.round) (hr : ∀ l ∈ ls, s.routeOf t l = .here) :
    StoreFrame s (s1.storeLanes t v w nt ls) ∧ (∀ o ∈ fs, o ∈ (s1.storeLanes t v w nt ls).ops)
      ∧ ∀ l ∈ ls, InFlight s (s1.storeLanes t v w nt ls) fun o => ∃ ws, o = .store ws (nt && l.mayNt)
        ∧ ∀ p ∈ l.spots.zip (leBytes (widthBytes w) (leNat ((upFrom v (widthRegs w)).flatMap fun r =>
            leBytes 4 (s.rdV t l.gid l.lane r).toNat))),
          (∀ m ∈ ls, l.lane < m.lane → ∀ y ∈ m.spots, y.same p.1 = false) →
          ∃ x ∈ ws, x.who = { team := t.key, gid := l.gid, lane := l.lane } ∧ x.at_ = p.1 ∧ x.byte = p.2
            ∧ (p.1.io = true → x.direct = true) := by
  obtain ⟨hsent, os, hos, hosround, _, hall, hany⟩ := sentLanes_added s1 t v w nt ls
  have hfill := h.trans (fillLanes_frame s1 t ls).1
  rw [storeLanes_here (fun l hl => (h.routeOf t l).trans (hr l hl))]
  rw [hops] at hos
  refine ⟨(h.trans hsent).trans (highestLane_frame _ _), fun o ho => ?_, fun l hl => ?_⟩
  · exact highestLane_other (by rw [hos]; simp [ho]) (hfs o ho)
  · obtain ⟨o, ho, ws, hwhat, hws⟩ := hany l hl
    obtain ⟨o', ho', hteam, ws', hwhat', hkeep⟩ := highestLane_store (team := t.key) (by rw [hos]; simp [ho]) hwhat
    refine ⟨o', ho', (hteam.trans (hall o ho).1).trans h.curTeamKey, ws', hwhat', fun p hp hhigh => ?_⟩
    obtain ⟨x, hx, hwho, hat, hbyte, hdirect⟩ := laneBytes_mem hfill hp
    refine ⟨x, hkeep x (hws x hx) ?_, hwho, hat, hbyte, hdirect⟩
    rw [State.beaten, hos, List.any_eq_false]
    intro b hb hbeats
    obtain ⟨hmine, hstore⟩ := Bool.and_eq_true_iff.mp hbeats
    simp only [State.ofWord, Bool.and_eq_true, beq_iff_eq, hosround, h.round] at hmine
    obtain ⟨⟨hbteam, hbround⟩, _⟩ := hmine
    rcases List.mem_append.mp hb with hb | hb
    · rcases List.mem_append.mp hb with hb | hb
      · exact hround b hb hbteam hbround
      · split at hstore
        · next hbw => exact hfs b hb _ _ hbw
        · exact Bool.noConfusion hstore
    · obtain ⟨_, _, _, bs, c, hbw, hbs⟩ := hall b hb
      rw [hbw] at hstore
      obtain ⟨y, hy, hbeat⟩ := List.any_eq_true.mp hstore
      obtain ⟨hlt, hsame⟩ := Bool.and_eq_true_iff.mp hbeat
      obtain ⟨m, hm, hym⟩ := hbs y hy
      obtain ⟨hlane, hspot⟩ := laneBytes_who hym
      rw [hwho, hlane] at hlt
      rw [hat, hhigh m hm (by simpa using hlt) y.at_ hspot] at hsame
      exact Bool.noConfusion hsame

/-! ## Where chunks do not hold the word back (R221) -/

theorem endingWord_of_unchunked {s : State} (h : s.Unchunked) (k : State → State) : s.endingWord k = k s.turned := by
  have hstores : (s.curGids.any fun g => s.storesPending s.cur.team g) = false :=
    List.any_eq_false.mpr fun g hg => by simp [h.stores g hg]
  unfold State.endingWord State.turned
  simp only [hstores, Bool.and_false, Bool.false_eq_true, if_false]

theorem turned_frame (s : State) : StoreFrame s s.turned ∧ s.turned.ops = s.ops := by
  obtain ⟨ls, k, e⟩ := turned_chunksOnly s
  rw [e]
  exact ⟨.of_rest ⟨_, _, _, _, _, _, rfl⟩, rfl⟩

/-- The lanes of a memory word access their own addresses. -/
theorem laneAccesses_va {s : State} {t : Team} (ht : s.readTeam = some t) (acc : Access) (k : BitVec 5) (i : BitVec 7) (n : Nat) :
    ∀ l ∈ (s.laneAccesses acc k i n).1, l.va = s.addressOf t l.gid l.lane k i := by
  unfold State.laneAccesses
  simp only [ht]
  split
  · simp
  · next c _ =>
    refine List.foldlRecOn s.members _ (motive := fun r : List LaneAcc × List (Nat × Nat × Nat × AFault) =>
      ∀ l ∈ r.1, l.va = s.addressOf t l.gid l.lane k i) (by simp) fun r hr m _ => ?_
    split
    · exact hr
    · split
      · intro l hl
        rcases List.mem_append.mp hl with hl | hl
        · exact hr l hl
        · obtain rfl := List.mem_singleton.mp hl
          rfl
      · exact hr

/-- A store whose lanes neither fault nor wait: its bytes are put in flight, after the fences of a release. -/
theorem execSt_eq {s : State} {t : Team} {ls : List LaneAcc} {v : BitVec 7} {k : BitVec 5} {i : BitVec 7} {w : BitVec 3}
    (h : BitVec 2)
    (ht : s.readTeam = some t) (hfree : s.Unchunked) (hacc : s.laneAccesses .store k i (widthBytes w.toNat) = (ls, []))
    (hdone : s.dsDone t ls = []) (hds : s.dsWaits t false false ls = false)
    (hmove : s.moveWaits t true (s.lanePlaces t ls) = false)
    (hl : ∀ l ∈ ls, s.clusterForbidden t l = false ∧ (l.isIo = true → s.ioPending t.key l.gid = false)) :
    ∃ s1 fs, exec (.st v k i w h) s = .next (s1.storeLanes t v.toNat w.toNat (h == 2) ls) ∧ StoreFrame s s1 ∧ s1.ops = s.ops ++ fs
      ∧ (∀ o ∈ fs, ∀ ws b, o.what ≠ .store ws b)
      ∧ (h = 1 → ∀ g ∈ s.curGids, ∃ o ∈ fs, o.team = s.cur.team ∧ ∃ sc lams, o.what = .fence 1 sc g (s.lanesOf g) lams) := by
  have hall : (ls.filter fun l => !(([] : List LaneAcc).any fun d => d.gid == l.gid && d.lane == l.lane)) = ls :=
    List.filter_eq_self.mpr fun l _ => rfl
  have hforbid : (ls.any fun l => s.clusterForbidden t l) = false := List.any_eq_false.mpr fun l h => by simp [(hl l h).1]
  have hio : (ls.any fun l => l.isIo && s.ioPending t.key l.gid) = false := List.any_eq_false.mpr fun l h => by
    cases e : l.isIo with
    | false => simp
    | true => simp [(hl l h).2 e]
  have hexec : exec (.st v k i w h) s = .next (State.storeLanes (if h = 1 then
        (s.turned).fenceOps 1 (if ls.any fun l => l.isPod then 4 else 3) false
      else if ls.any fun l => l.isIo then s.turned else s) t v.toNat w.toNat (h == 2) ls) := by
    change execSt v k i w h s = _
    unfold execSt
    simp only [ht, hacc, hdone, hall, hforbid, hds, hmove, hio, List.map_nil, List.filter_nil, List.append_nil,
      State.takeTraps_nil,
      accessFaults_nil, Bool.or_false, Bool.and_false, Bool.false_eq_true, if_false, endingWord_of_unchunked hfree,
      irrevocable_of_unchunked hfree, ite_self]
    split
    · rfl
    · split <;> rfl
  obtain ⟨hturned, hops⟩ := turned_frame s
  by_cases h1 : h = 1
  · obtain ⟨fs, hadd, hfs, hany⟩ := fenceOps_added s.turned (if ls.any fun l => l.isPod then 4 else 3)
    rw [if_pos h1] at hexec
    rw [hturned.curTeamKey, hturned.curGids] at hany
    simp only [hturned.lanesOf] at hany
    refine ⟨_, fs, hexec, hturned.trans hadd.frame, by rw [hadd.ops, hops], fun o ho ws b hw => ?_, fun _ g hg => ?_⟩
    · obtain ⟨g, lams, hfence⟩ := hfs o ho
      exact absurd (hfence.symm.trans hw) (by simp)
    · obtain ⟨o, ho, hteam, lams, hwhat⟩ := hany g hg
      exact ⟨o, ho, hteam, _, lams, hwhat⟩
  · rw [if_neg h1] at hexec
    refine ⟨_, [], hexec, ?_, ?_, by simp, fun h => absurd h h1⟩
    · split
      · exact hturned
      · exact .refl s
    · rw [List.append_nil]
      split
      · exact hops
      · rfl

/-- Settles O25: past its checks the word puts its fences, if it is a release, and its lanes' bytes in flight, and changes nothing
else that the statement speaks of. -/
theorem stores : Obligations.Stores := by
  unfold Obligations.Stores
  intro v k i w h s t u ls _ ht _ _ hfree hacc hdone hds hmove hround hl
  obtain ⟨s1, fs, hexec, hframe, hops, hfs, hrel⟩ :=
    execSt_eq h ht hfree hacc hdone hds hmove fun l hm => ⟨(hl l hm).2.1, (hl l hm).2.2⟩
  obtain ⟨hsent, hkept, hstores⟩ :=
    storeLanes_sends v.toNat w.toNat (h == 2) hframe hops hfs hround fun l hm => (hl l hm).1
  refine ⟨_, hexec, hsent.mem, fun l hm => ?_, hstores, fun h1 g hg => ?_, hsent.reg _, hsent.own _⟩
  · exact laneAccesses_va ht .store k i (widthBytes w.toNat) l (by rw [hacc]; exact hm)
  · obtain ⟨o, ho, hteam, hwhat⟩ := hrel h1 g hg
    exact ⟨o, hkept o ho, hteam, hwhat⟩

end Sys2Proof.Machine

/-! Numbers in memory, and records of a context (R182, R393). -/

namespace Sys2Proof.Machine

/-! ## Little-endian numbers (R4) -/

theorem leNat_lt (bs : List Byte) : leNat bs < 2 ^ (8 * bs.length) := by
  induction bs with
  | nil => simp [leNat]
  | cons b bs ih =>
    have hb := b.isLt
    have hp : 2 ^ (8 * (b :: bs).length) = 256 * 2 ^ (8 * bs.length) := by
      rw [List.length_cons, Nat.mul_add, Nat.pow_add]
      omega
    change b.toNat + 256 * leNat bs < _
    rw [hp]
    omega

theorem leBytes_succ (n x : Nat) : leBytes (n + 1) x = BitVec.ofNat 8 x :: leBytes n (x / 256) := by
  simp only [leBytes, List.range_succ_eq_map, List.map_cons, List.map_map, Nat.mul_zero, Nat.shiftRight_zero, List.cons.injEq,
      true_and]
  refine List.map_congr_left fun i _ => ?_
  simp only [Function.comp_apply, Nat.shiftRight_eq_div_pow, Nat.div_div_eq_div_mul]
  congr 2
  rw [show 8 * i.succ = 8 + 8 * i by omega, Nat.pow_add]

/-- A number reads back from its bytes. -/
theorem leNat_leBytes (n x : Nat) : leNat (leBytes n x) = x % 2 ^ (8 * n) := by
  induction n generalizing x with
  | zero => simp [leBytes, leNat, Nat.mod_one]
  | succ n ih =>
    rw [leBytes_succ]
    change (BitVec.ofNat 8 x).toNat + 256 * leNat (leBytes n (x / 256)) = _
    rw [ih, BitVec.toNat_ofNat, show 8 * (n + 1) = 8 + 8 * n by omega, Nat.pow_add, Nat.mod_mul]

/-! ## Bytes written in a row -/

/-- A byte that a write does not reach stays. -/
theorem memGet_memWrite_other {a b : Nat} {bs : List Byte} (h : ∀ i < bs.length, b ≠ a + i) (l : List Host.Cell) :
    memGet b (memWrite a bs l) = memGet b l := by
  refine foldl_unobserved (memGet b) (fun p hp m => memGet_memPut_of_ne (h p.2 ?_) ..) l
  exact (List.mem_zipIdx' hp).1

/-- A byte that a write reaches is as written. -/
theorem memGet_memWrite {a i : Nat} {bs : List Byte} {x : Byte} (h : bs[i]? = some x) (l : List Host.Cell) :
    memGet (a + i) (memWrite a bs l) = x := by
  have hz : bs.zipIdx[i]? = some (x, i) := by rw [List.getElem?_zipIdx, h]; simp
  refine foldl_observed (memGet (a + i)) hz (fun m => memGet_memPut_self ..) (fun j p hj hp m => memGet_memPut_of_ne ?_ ..) l
  rw [List.getElem?_zipIdx] at hp
  obtain ⟨y, _, rfl⟩ := Option.map_eq_some_iff.mp hp
  simp only [Nat.zero_add]
  omega

theorem memBytes_memWrite (a : Nat) (bs : List Byte) (l : List Host.Cell) : memBytes a bs.length (memWrite a bs l) = bs := by
  refine List.ext_getElem? fun i => ?_
  unfold memBytes upFrom
  rw [List.map_map, List.getElem?_map]
  by_cases hi : i < bs.length
  · rw [List.getElem?_range hi, List.getElem?_eq_getElem hi, Option.map_some]
    exact congrArg some (memGet_memWrite (List.getElem?_eq_getElem hi) l)
  · rw [List.getElem?_eq_none (by simpa using hi), List.getElem?_eq_none (by simpa using hi)]
    rfl

/-- A number reads back from memory as it was written. -/
theorem memNat_memWrite (a n x : Nat) (l : List Host.Cell) : memNat a n (memWrite a (leBytes n x) l) = x % 2 ^ (8 * n) := by
  have h := memBytes_memWrite a (leBytes n x) l
  rw [leBytes_length] at h
  rw [memNat, h, leNat_leBytes]

theorem memNat_lt (a n : Nat) (l : List Host.Cell) : memNat a n l < 2 ^ (8 * n) := by
  have h := leNat_lt (memBytes a n l)
  rwa [show (memBytes a n l).length = n by simp [memBytes, upFrom]] at h

/-! ## Bytes moved -/

theorem memGet_filter (q : Nat → Bool) (a : Nat) (l : List Host.Cell) :
    memGet a (l.filter fun c => q c.1) = if q a then memGet a l else 0 := by
  induction l with
  | nil => simp [memGet]
  | cons c l ih =>
    obtain ⟨k, x⟩ := c
    by_cases hk : k = a
    · subst hk
      by_cases hq : q k = true
      · simp [hq, memGet]
      · simp [hq, ih]
    · by_cases hq : q k = true
      · simp [hq, memGet, hk, ih]
      · simp [hq, memGet, hk, ih]

theorem memGet_of_not_listed {a : Nat} {l : List Host.Cell} (h : ∀ c ∈ l, c.1 ≠ a) : memGet a l = 0 := by
  induction l with
  | nil => rfl
  | cons c l ih =>
    obtain ⟨k, x⟩ := c
    rw [memGet, if_neg (h (k, x) List.mem_cons_self), ih fun c hc => h c (List.mem_cons_of_mem _ hc)]

/-- In the canonical form the addresses rise. -/
theorem memWfFrom_rises {lo : Nat} {l : List Host.Cell} (h : memWfFrom lo l = true) :
    (∀ c ∈ l, lo ≤ c.1) ∧ l.Pairwise fun c d => c.1 < d.1 := by
  induction l generalizing lo with
  | nil => simp
  | cons c l ih =>
    simp only [memWfFrom, Bool.and_eq_true, decide_eq_true_eq] at h
    obtain ⟨hlo, hrise⟩ := ih h.2
    refine ⟨fun d hd => ?_, List.pairwise_cons.mpr ⟨fun d hd => hlo d hd, hrise⟩⟩
    rcases List.mem_cons.mp hd with rfl | hd
    · exact h.1.1
    · have := hlo d hd
      omega

theorem memGet_of_listed {c : Host.Cell} {l : List Host.Cell} (h : l.Pairwise fun c d => c.1 < d.1) (hc : c ∈ l) :
    memGet c.1 l = c.2 := by
  induction l with
  | nil => cases hc
  | cons d l ih =>
    obtain ⟨hd, hl⟩ := List.pairwise_cons.mp h
    obtain ⟨k, x⟩ := d
    rcases List.mem_cons.mp hc with rfl | hc
    · simp [memGet]
    · rw [memGet, if_neg (Nat.ne_of_lt (hd c hc)), ih hl hc]

/-- Bytes put at other places, one place for each: a byte reads back at its new place. -/
theorem memGet_moved {f : Nat → Nat} {a : Nat} {l m : List Host.Cell} (h : l.Pairwise fun c d => c.1 < d.1)
    (hinj : ∀ c ∈ l, f c.1 = f a → c.1 = a) (hm : memGet (f a) m = 0) :
    memGet (f a) (l.foldl (fun r c => memPut (f c.1) c.2 r) m) = memGet a l := by
  by_cases ha : ∃ c ∈ l, c.1 = a
  · obtain ⟨c, hc, rfl⟩ := ha
    obtain ⟨n, hn⟩ := List.mem_iff_getElem?.mp hc
    rw [memGet_of_listed h hc]
    refine foldl_observed (memGet (f c.1)) hn (fun m => memGet_memPut_self ..) (fun i d hi hd m => memGet_memPut_of_ne ?_ ..) m
    intro heq
    have hsame := hinj d (List.mem_of_getElem? hd) heq.symm
    obtain ⟨hn', rfl⟩ := List.getElem?_eq_some_iff.mp hn
    obtain ⟨hi', rfl⟩ := List.getElem?_eq_some_iff.mp hd
    have := List.pairwise_iff_getElem.mp h n i hn' hi' hi
    omega
  · rw [memGet_of_not_listed fun c hc hca => ha ⟨c, hc, hca⟩]
    refine (foldl_unobserved (memGet (f a)) (fun c hc m => memGet_memPut_of_ne (fun heq => ?_) ..) m).trans hm
    exact ha ⟨c, hc, hinj c hc heq.symm⟩

theorem memGet_moved_other {f : Nat → Nat} {b : Nat} {l m : List Host.Cell} (h : ∀ c ∈ l, f c.1 ≠ b) :
    memGet b (l.foldl (fun r c => memPut (f c.1) c.2 r) m) = memGet b m :=
  foldl_unobserved (memGet b) (fun c hc _ => memGet_memPut_of_ne (h c hc).symm ..) m

/-! ## Contexts and their records (R393, R394) -/

theorem ctx?_num {s : State} {n : Nat} {c : Context} (h : s.ctx? n = some c) : c.num = n := by simpa using List.find?_some h

theorem State.ctx?_modCtx (s : State) (n : Nat) (f : Context → Context) (hf : ∀ c, (f c).num = c.num) :
    (s.modCtx n f).ctx? n = (s.ctx? n).map f :=
  find?_updIf _ f s.ctxs fun c hc => by simpa [hf c] using hc

theorem faultContext_faulted {s : State} {n : Nat} {c : Context} (h : s.ctx? n = some c) :
    CtxIs (s.faultContext n) n fun x => x.st = .faulted := by
  let stop : Context → Context := fun y =>
    { y with st := .faulted, queues := y.queues.map fun q => if q.st == .disabled then q else { q with st := .halted } }
  have e : (s.faultContext n).ctx? n = (s.modCtx n stop).ctx? n := rfl
  exact ⟨stop c, by rw [e, State.ctx?_modCtx s n stop fun _ => rfl, h]; rfl, rfl⟩

theorem noteRecord_rest (s : State) (cn : Nat) (r : Record) (b : Option Blocked) :
    ∃ cs k, (s.noteRecord cn r b).2 = { s with ctxs := cs, keys := k } := by
  unfold State.noteRecord
  split <;> exact ⟨_, _, rfl⟩

theorem noteRecords_rest (cn : Nat) (rs : List (Record × Option Blocked)) (a : List (Record × Option Nat) × State) :
    ∃ cs k, (rs.foldl (fun (a : List (Record × Option Nat) × State) p =>
      (a.1 ++ [(a.2.noteRecord cn p.1 p.2).1], (a.2.noteRecord cn p.1 p.2).2)) a).2 = { a.2 with ctxs := cs, keys := k } := by
  induction rs generalizing a with
  | nil => exact ⟨_, _, rfl⟩
  | cons p rs ih =>
    obtain ⟨cs, k, e⟩ := noteRecord_rest a.2 cn p.1 p.2
    obtain ⟨cs', k', e'⟩ := ih (a.1 ++ [(a.2.noteRecord cn p.1 p.2).1], (a.2.noteRecord cn p.1 p.2).2)
    exact ⟨cs', k', e'.trans (by rw [e])⟩

/-- Records change contexts, and launches where one is fatal, and nothing else but keys. -/
theorem putRecords_rest (s : State) (cn : Nat) (rs : List (Record × Option Blocked)) :
    ∃ cs k ls, s.putRecords cn rs = { s with ctxs := cs, keys := k, launches := ls } := by
  unfold State.putRecords
  split
  · exact ⟨_, _, _, rfl⟩
  · split
    · exact ⟨_, _, _, rfl⟩
    · obtain ⟨cs, k, e⟩ := noteRecords_rest cn rs ([], s)
      simp only [State.faultContext, State.modCtx]
      rw [e]
      split <;> exact ⟨_, _, _, rfl⟩

theorem raises_of_recording {c : Context} (h : c.recording = true) : c.raises = true := by simp [Context.raises, h]

/-- A replayable record leaves its context as it is and stands among the pending ones. -/
theorem putRecords_replayable {s : State} {n : Nat} {c : Context} (hc : s.ctx? n = some c) (hr : c.recording = true) {r : Record}
    (hfatal : r.fatal = false) (hrep : r.replayable = true) (b : Option Blocked) :
    CtxIs (s.putRecords n [(r, b)]) n fun x => x.st = c.st ∧ ∃ p ∈ x.pending, p.record = r := by
  let p : PendRec := { key := s.keys, idx := none, record := r, blocked := b.getD (.delivery 0) }
  let pend : Context → Context := fun x => { x with pending := x.pending ++ [p] }
  let note : Context → Context := fun x => { x with raised := x.raised ++ [[(r, some s.keys)]] }
  have e : s.putRecords n [(r, b)] = (({ s with keys := s.keys + 1 } : State).modCtx n pend).modCtx n note := by
    simp [State.putRecords, hc, raises_of_recording hr, State.noteRecord, hfatal, hrep, State.newKey, p, pend, note]
  have h1 : (({ s with keys := s.keys + 1 } : State).modCtx n pend).ctx? n = some (pend c) := by
    rw [State.ctx?_modCtx _ n pend fun _ => rfl]
    exact congrArg (Option.map pend) hc
  rw [e]
  have h2 := State.ctx?_modCtx (({ s with keys := s.keys + 1 } : State).modCtx n pend) n note fun _ => rfl
  rw [h1] at h2
  exact ⟨_, h2, rfl, p, List.mem_append_right _ List.mem_cons_self, rfl⟩

/-- A fatal record takes its context to FAULTED. -/
theorem putRecords_fatal {s : State} {n : Nat} {c : Context} (hc : s.ctx? n = some c) (hr : c.recording = true) {r : Record}
    (hfatal : r.fatal = true) (b : Option Blocked) : CtxIs (s.putRecords n [(r, b)]) n fun x => x.st = .faulted := by
  let note : Context → Context := fun x => { x with raised := x.raised ++ [[(r, none)]] }
  have e : s.putRecords n [(r, b)] = (s.modCtx n note).faultContext n := by
    simp [State.putRecords, hc, raises_of_recording hr, State.noteRecord, hfatal, hr, note]
  have h1 : (s.modCtx n note).ctx? n = some (note c) := by rw [State.ctx?_modCtx s n note fun _ => rfl, hc]; rfl
  rw [e]
  exact faultContext_faulted h1

end Sys2Proof.Machine

/-! O52: pages that move, shootdowns and the messages of unified ranges (R184, R190, R191, R193, R194, R390). -/

namespace Sys2Proof.Machine

/-! ## Leaf entries (R180, R181) -/

theorem leafFrom_entry {s : State} {va : Nat} (fuel : Nat) {table lv at_ level e : Nat}
    (h : s.leafFrom va table fuel lv = some (at_, level, e)) : e = memNat at_ 8 s.mem ∧ level < lv + fuel := by
  induction fuel generalizing table lv with
  | zero => cases h
  | succ fuel ih =>
    unfold State.leafFrom at h
    dsimp only at h
    split at h
    · cases h
    · split at h
      · obtain ⟨rfl, rfl, rfl⟩ := h
        exact ⟨rfl, by omega⟩
      · obtain ⟨he, hl⟩ := ih h
        exact ⟨he, by omega⟩

/-- A leaf is the number that stands at its place, on one of four levels. -/
theorem leafOf_entry {s : State} {ctx va at_ level e : Nat} (h : s.leafOf ctx va = some (at_, level, e)) :
    e = memNat at_ 8 s.mem ∧ e < 2 ^ 64 ∧ level ≤ 3 := by
  obtain ⟨c, _, hc⟩ := Option.bind_eq_some_iff.mp h
  obtain ⟨he, hl⟩ := leafFrom_entry 4 hc
  exact ⟨he, he ▸ memNat_lt at_ 8 s.mem, by omega⟩

section
variable (s : State) (at_ v : Nat)

theorem putLeaf_outside : MemOutside s (s.putLeaf at_ v) fun a => at_ ≤ a ∧ a < at_ + 8 := fun a ha =>
  memGet_memWrite_other (fun i hi he => ha (by rw [leBytes_length] at hi; omega)) s.mem

theorem putLeaf_entry (hv : v < 2 ^ 64) : memNat at_ 8 (s.putLeaf at_ v).mem = v :=
  (memNat_memWrite at_ 8 v s.mem).trans (Nat.mod_eq_of_lt hv)

end

theorem leafPa_eq (e : Nat) : leafPa e = e / 65536 % 68719476736 * 65536 := by
  simp [leafPa, bits, Nat.shiftRight_eq_div_pow, Nat.shiftLeft_eq]

/-- A leaf with another home: nothing else of it changes. -/
theorem leafPa_moved {e d : Nat} (he : e < 2 ^ 64) (hd : d < 2 ^ 52) (h16 : d % 65536 = 0) :
    leafPa (e - leafPa e + d) = d ∧ e - leafPa e + d < 2 ^ 64 := by
  rw [leafPa_eq, leafPa_eq]
  omega

theorem paValid_lt {s : State} {pa : Nat} (h : s.paValid pa = true) : pa < 2 ^ 52 := by
  have hh : pa >>> 48 ≤ 2 := by
    unfold State.paValid at h
    split at h
    · next e => omega
    · next e => omega
    · next e => omega
    · cases h
  rw [Nat.shiftRight_eq_div_pow] at hh
  omega

/-- A home that fits is one that a leaf can name. -/
theorem homeFits_names {s : State} {d level : Nat} (hl : level ≤ 3) (h : s.homeFits d level = true) :
    d < 2 ^ 52 ∧ d % 65536 = 0 := by
  simp only [State.homeFits, Bool.and_eq_true, decide_eq_true_eq] at h
  obtain ⟨⟨hsize, hvalid⟩, _⟩ := h
  refine ⟨paValid_lt hvalid, Nat.mod_eq_zero_of_dvd (Dvd.dvd.trans ?_ (Nat.dvd_of_mod_eq_zero hsize))⟩
  rw [show 65536 = 2 ^ 16 from rfl]
  exact Nat.pow_dvd_pow 2 (by omega)

/-! ## A page that moves home (R191) -/

section
variable {s : State} {m : Move} {d at_ e : Nat}

theorem movedPa_of_mem {old new n a : Nat} (h : old ≤ a ∧ a < old + n) : movedPa old new n a = new + (a - old) := by
  simp [movedPa, h]

/-- Memory after the page's bytes have been copied, before its leaf is written. -/
def copiedPage (old d n : Nat) (mem : List Host.Cell) : List Host.Cell :=
  (mem.filter fun c => old ≤ c.1 && c.1 < old + n).foldl (fun r c => memPut (movedPa old d n c.1) c.2 r)
    (mem.filter fun c => !(d ≤ c.1 && c.1 < d + n))

theorem moveHome_mem : (s.moveHome m d at_ e).mem
    = memWrite at_ (leBytes 8 (e - leafPa e + d)) (copiedPage (leafPa e) d (pageSize m.level) s.mem) := rfl

/-- The page's bytes stand at its new home. -/
theorem copiedPage_home {old n : Nat} {mem : List Host.Cell} (hwf : Memory.wf mem = true) {i : Nat} (hi : i < n) :
    memGet (d + i) (copiedPage old d n mem) = memGet (old + i) mem := by
  have hto : movedPa old d n (old + i) = d + i := by
    rw [movedPa_of_mem ⟨by omega, by omega⟩]
    omega
  have hrise := (memWfFrom_rises hwf).2.filter fun c : Host.Cell => old ≤ c.1 && c.1 < old + n
  have hmoved := memGet_moved (f := movedPa old d n) (a := old + i) (m := mem.filter fun c => !(d ≤ c.1 && c.1 < d + n)) hrise
    (fun c hc heq => ?_) ?_
  · rw [hto] at hmoved
    refine hmoved.trans ((memGet_filter (fun a => old ≤ a && a < old + n) (old + i) mem).trans ?_)
    simp [hi]
  · have hin := (List.mem_filter.mp hc).2
    simp only [Bool.and_eq_true, decide_eq_true_eq] at hin
    rw [hto, movedPa_of_mem hin] at heq
    omega
  · rw [hto]
    refine (memGet_filter (fun a => !(d ≤ a && a < d + n)) (d + i) mem).trans ?_
    simp [hi]

/-- Beside the page's new home no byte changes. -/
theorem copiedPage_other {old n : Nat} {mem : List Host.Cell} {a : Nat} (ha : ¬ (d ≤ a ∧ a < d + n)) :
    memGet a (copiedPage old d n mem) = memGet a mem := by
  refine (memGet_moved_other fun c hc heq => ?_).trans ((memGet_filter (fun a => !(d ≤ a && a < d + n)) a mem).trans ?_)
  · have hin := (List.mem_filter.mp hc).2
    simp only [Bool.and_eq_true, decide_eq_true_eq] at hin
    rw [movedPa_of_mem hin] at heq
    omega
  · rw [if_pos]
    simp only [Bool.not_eq_true', Bool.and_eq_false_iff, decide_eq_false_iff_not]
    omega

end

/-! ## Failures (R190) -/

theorem pageFail_rest (s : State) (ctx va : Nat) (fatal : Bool) :
    ∃ cs k ls, s.pageFail ctx va fatal = { s with ctxs := cs, keys := k, launches := ls } := putRecords_rest ..

/-- A correctable failure leaves the context as it is, with a replayable record. -/
theorem pageFail_replayable {s : State} {ctx : Nat} {c : Context} (hc : s.ctx? ctx = some c) (hr : c.recording = true)
    (va : Nat) :
    CtxIs (s.pageFail ctx va false) ctx fun x => x.st = c.st
      ∧ ∃ p ∈ x.pending, p.record.cause = 0x17 ∧ p.record.replayable = true ∧ p.record.fatal = false := by
  obtain ⟨x, hx, hst, p, hp, hrec⟩ := putRecords_replayable hc hr (r := { plainRecord cMigfail with
    replayable := true, fatal := false, addr := BitVec.ofNat 64 va, extra := leBytes 1 0 }) rfl rfl (some (.lanes 0 0 []))
  exact ⟨x, hx, hst, p, hp, by rw [hrec]; rfl, by rw [hrec], by rw [hrec]⟩

theorem pageFail_fatal {s : State} {ctx : Nat} {c : Context} (hc : s.ctx? ctx = some c) (hr : c.recording = true) (va : Nat) :
    CtxIs (s.pageFail ctx va true) ctx fun x => x.st = .faulted := putRecords_fatal hc hr rfl none

/-! ## PAGE_MOVE (R190, R191, R194) -/

/-- The moves of a state without those of one page. -/
def State.withoutMove (s : State) (m : Move) : State :=
  { s with moves := s.moves.filter fun x => !(x.ctx == m.ctx && x.va == m.va) }

theorem not_mem_withoutMove (s : State) (m : Move) : m ∉ (s.withoutMove m).moves := fun h => by
  have := (List.mem_filter.mp h).2
  simp at this

section
variable {s : State} {ctx va at_ level e : Nat} {dst : Option Nat} (h : s.leafOf ctx va = some (at_, level, e))
include h

/-- A move that no other of its page precedes is noted. -/
theorem movePage_noted (hno : ∀ m ∈ s.moves, ¬ (m.ctx = ctx ∧ m.va = pageBase va level))
    (hp : (dst.isSome && e.testBit 59) = false) :
    let s1 : State := { s with
      moves := s.moves ++ [⟨ctx, pageBase va level, level, dst, if e.testBit 11 then s.part.env.agents else []⟩] }
    s.movePage ctx va dst = if e.testBit 11 then s1.emit (.revoke ctx (pageBase va level)) else s1 := by
  have hnone : (s.moves.find? fun m => m.ctx == ctx && m.va == pageBase va level) = none :=
    List.find?_eq_none.mpr fun m hm => by simpa using hno m hm
  unfold State.movePage
  simp only [h, hnone, hp, Bool.false_eq_true, if_false]

/-- A POISONED page is not moved. -/
theorem movePage_poisoned (hno : ∀ m ∈ s.moves, ¬ (m.ctx = ctx ∧ m.va = pageBase va level))
    (hp : (dst.isSome && e.testBit 59) = true) :
    s.movePage ctx va dst = s := by
  have hnone : (s.moves.find? fun m => m.ctx == ctx && m.va == pageBase va level) = none :=
    List.find?_eq_none.mpr fun m hm => by simpa using hno m hm
  unfold State.movePage
  simp only [h, hnone, hp, if_true]

/-- A move under way ends when it may. -/
theorem movePage_underWay {m : Move} (hm : (s.moves.find? fun m => m.ctx == ctx && m.va == pageBase va level) = some m) :
    s.movePage ctx va dst = if s.moveReady m then s.endMove m else s := by
  unfold State.movePage
  simp only [h, hm]

end

section
variable {s : State} {m : Move} {at_ e : Nat} (h : s.leafOf m.ctx m.va = some (at_, m.level, e))
include h

theorem endMove_unmap (hd : m.dst = none) : s.endMove m = (s.withoutMove m).unmapPage at_ e := by
  have hl : (s.withoutMove m).leafOf m.ctx m.va = some (at_, m.level, e) := h
  unfold State.withoutMove at hl
  unfold State.endMove
  simp only [hl, hd, ne_eq, not_true, if_false]
  rfl

theorem endMove_to {d : Nat} (hd : m.dst = some d) : s.endMove m =
    if !s.homeFits d m.level then (s.withoutMove m).pageFail m.ctx m.va false
    else if s.pageBad (leafPa e) (pageSize m.level) then ((s.withoutMove m).poison at_ e).pageFail m.ctx m.va true
    else (s.withoutMove m).moveHome m d at_ e := by
  have hl : (s.withoutMove m).leafOf m.ctx m.va = some (at_, m.level, e) := h
  unfold State.withoutMove at hl
  unfold State.endMove
  simp only [hl, hd, ne_eq, not_true, if_false]
  rfl

/-- The page stands at its new home, which its leaf names, and no old translation is left. -/
theorem endMove_home {d : Nat} (hd : m.dst = some d) (hfit : s.homeFits d m.level = true)
    (hbad : s.pageBad (leafPa e) (pageSize m.level) = false) (hwf : Memory.wf s.mem = true)
    (hout : ∀ i, i < 8 → ¬ (d ≤ at_ + i ∧ at_ + i < d + pageSize m.level)) :
    (∀ i, i < pageSize m.level → memGet (d + i) (s.endMove m).mem = memGet (leafPa e + i) s.mem)
      ∧ (leafPa (memNat at_ 8 (s.endMove m).mem) = d ∧ memNat at_ 8 (s.endMove m).mem = e - leafPa e + d)
      ∧ (MemOutside s (s.endMove m) fun a => (d ≤ a ∧ a < d + pageSize m.level) ∨ (at_ ≤ a ∧ a < at_ + 8))
      ∧ (∀ x ∈ (s.endMove m).tlb, x.leaf.toNat ≠ e) ∧ m ∉ (s.endMove m).moves := by
  obtain ⟨_, hlt, hlevel⟩ := leafOf_entry h
  obtain ⟨hd52, hd16⟩ := homeFits_names hlevel hfit
  obtain ⟨hname, hlt'⟩ := leafPa_moved hlt hd52 hd16
  have hend : s.endMove m = (s.withoutMove m).moveHome m d at_ e := by rw [endMove_to h hd, hfit, hbad]; rfl
  have hmem : (s.endMove m).mem = memWrite at_ (leBytes 8 (e - leafPa e + d))
      (copiedPage (leafPa e) d (pageSize m.level) s.mem) := by
    rw [hend]
    rfl
  have hleaf : memNat at_ 8 (s.endMove m).mem = e - leafPa e + d := by
    rw [hmem, memNat_memWrite]
    exact Nat.mod_eq_of_lt hlt'
  have hother : ∀ a, ¬ (at_ ≤ a ∧ a < at_ + 8) →
      memGet a (s.endMove m).mem = memGet a (copiedPage (leafPa e) d (pageSize m.level) s.mem) := fun a ha => by
    rw [hmem]
    exact memGet_memWrite_other (fun i hi he => ha (by rw [leBytes_length] at hi; omega)) _
  refine ⟨fun i hi => ?_, ⟨by rw [hleaf, hname], hleaf⟩, fun a ha => ?_, fun x hx => ?_, ?_⟩
  · rw [hother, copiedPage_home hwf hi]
    exact fun hin => hout (d + i - at_) (by omega) (by omega)
  · rw [hother a fun hin => ha (.inr hin), copiedPage_other fun hin => ha (.inl hin)]
  · rw [hend] at hx
    simpa using (List.mem_filter.mp hx).2
  · rw [hend]
    exact not_mem_withoutMove s m

/-- Where the new home does not fit the page stays, with a replayable record. -/
theorem endMove_unfit {d : Nat} (hd : m.dst = some d) (hfit : s.homeFits d m.level = false) :
    m ∉ (s.endMove m).moves ∧ (s.endMove m).tlb = s.tlb
      ∧ ∀ c, s.ctx? m.ctx = some c → c.recording = true → CtxIs (s.endMove m) m.ctx fun x => x.st = c.st
        ∧ ∃ p ∈ x.pending, p.record.cause = 0x17 ∧ p.record.replayable = true ∧ p.record.fatal = false := by
  have hend : s.endMove m = (s.withoutMove m).pageFail m.ctx m.va false := by rw [endMove_to h hd, hfit]; rfl
  rw [hend]
  obtain ⟨cs, k, ls, e⟩ := pageFail_rest (s.withoutMove m) m.ctx m.va false
  refine ⟨?_, by rw [e]; rfl, fun c hc hr => pageFail_replayable (s := s.withoutMove m) hc hr m.va⟩
  rw [e]
  exact not_mem_withoutMove s m

/-- Where the page's data has an uncorrectable error the move fails for good. -/
theorem endMove_bad {d : Nat} (hd : m.dst = some d) (hfit : s.homeFits d m.level = true)
    (hbad : s.pageBad (leafPa e) (pageSize m.level) = true) :
    m ∉ (s.endMove m).moves
      ∧ ∀ c, s.ctx? m.ctx = some c → c.recording = true → CtxIs (s.endMove m) m.ctx fun x => x.st = .faulted := by
  have hend : s.endMove m = ((s.withoutMove m).poison at_ e).pageFail m.ctx m.va true := by rw [endMove_to h hd, hfit, hbad]; rfl
  rw [hend]
  obtain ⟨cs, k, ls, e'⟩ := pageFail_rest ((s.withoutMove m).poison at_ e) m.ctx m.va true
  refine ⟨?_, fun c hc hr => pageFail_fatal (s := (s.withoutMove m).poison at_ e) hc hr m.va⟩
  rw [e']
  exact not_mem_withoutMove s m

/-- An unmap clears the leaf. -/
theorem endMove_unmapped (hd : m.dst = none) :
    m ∉ (s.endMove m).moves ∧ memNat at_ 8 (s.endMove m).mem = 0
      ∧ (MemOutside s (s.endMove m) fun a => at_ ≤ a ∧ a < at_ + 8) ∧ ∀ x ∈ (s.endMove m).tlb, x.leaf.toNat ≠ e := by
  rw [endMove_unmap h hd]
  refine ⟨not_mem_withoutMove s m, putLeaf_entry _ at_ 0 (by decide), putLeaf_outside _ at_ 0, fun x hx => ?_⟩
  simpa using (List.mem_filter.mp hx).2

end

/-- A move under way that meets a correctable failure leaves its page where it was. -/
theorem failMove_stays {s : State} {ctx va : Nat} {m : Move}
    (hm : (s.moves.find? fun m => m.ctx == ctx && m.dst.isSome && pageBase va m.level == m.va) = some m) :
    m ∉ (s.failMove ctx va).moves ∧ (s.failMove ctx va).tlb = s.tlb
      ∧ ∀ c, s.ctx? ctx = some c → c.recording = true → CtxIs (s.failMove ctx va) ctx fun x => x.st = c.st
        ∧ ∃ p ∈ x.pending, p.record.cause = 0x17 ∧ p.record.replayable = true ∧ p.record.fatal = false := by
  let s0 : State := { s with moves := s.moves.filter fun x => !(x.ctx == ctx && x.dst.isSome && pageBase va x.level == x.va) }
  have hfail : s.failMove ctx va = s0.pageFail ctx m.va false := by
    unfold State.failMove
    simp only [hm]
    rfl
  rw [hfail]
  obtain ⟨cs, k, ls, e⟩ := pageFail_rest s0 ctx m.va false
  refine ⟨fun hin => ?_, by rw [e], fun c hc hr => pageFail_replayable (s := s0) hc hr m.va⟩
  rw [e] at hin
  have hself := (List.mem_filter.mp hin).2
  rw [List.find?_some hm] at hself
  cases hself

/-! ## ECC_ERROR_REPORT (R190) -/

section
variable {s : State} {ctx va at_ level e : Nat} (harg : s.arg = [ctx, va]) (h : s.leafOf ctx va = some (at_, level, e))
include harg h

/-- The page is POISONED, and stays where no move of it is under way. -/
theorem eccErrorReport_poisons (hno : ∀ m ∈ s.moves, ¬ (m.ctx = ctx ∧ m.va = pageBase va level)) :
    ∃ s', exec .eccErrorReport s = .next s' ∧ (memNat at_ 8 s'.mem).testBit 59 = true
      ∧ (MemOutside s s' fun a => at_ ≤ a ∧ a < at_ + 8) ∧ s'.ctxs = s.ctxs := by
  obtain ⟨_, hlt, _⟩ := leafOf_entry h
  have hmoving : (s.moves.any fun m => m.ctx == ctx && m.va == pageBase va level) = false :=
    List.any_eq_false.mpr fun m hm => by simpa using hno m hm
  refine ⟨State.poison { s with moves := s.moves.filter fun m => !(m.ctx == ctx && m.va == pageBase va level) } at_ e, ?_, ?_,
    ?_, rfl⟩
  · change execEccErrorReport s = _
    unfold execEccErrorReport
    simp only [harg, h, hmoving, Bool.false_eq_true, if_false]
  · rw [State.poison, putLeaf_entry _ at_ _ (Nat.or_lt_two_pow hlt (by decide)), Nat.testBit_or, Nat.testBit_two_pow_self,
      Bool.or_true]
  · exact putLeaf_outside _ at_ _

/-- A page under move fails with a fatal record. -/
theorem eccErrorReport_fails {m : Move} (hm : m ∈ s.moves) (hctx : m.ctx = ctx) (hva : m.va = pageBase va level) :
    ∃ s', exec .eccErrorReport s = .next s' ∧ m ∉ s'.moves
      ∧ ∀ c, s.ctx? ctx = some c → c.recording = true → CtxIs s' ctx fun x => x.st = .faulted := by
  have hmoving : (s.moves.any fun m => m.ctx == ctx && m.va == pageBase va level) = true :=
    List.any_eq_true.mpr ⟨m, hm, by simp [hctx, hva]⟩
  let s0 : State := State.poison { s with moves := s.moves.filter fun m => !(m.ctx == ctx && m.va == pageBase va level) } at_ e
  obtain ⟨cs, k, ls, e'⟩ := pageFail_rest s0 ctx (pageBase va level) true
  refine ⟨s0.pageFail ctx (pageBase va level) true, ?_, fun hin => ?_, fun c hc hr => pageFail_fatal (s := s0) hc hr _⟩
  · change execEccErrorReport s = _
    unfold execEccErrorReport
    simp only [harg, h, hmoving, if_true, s0]
  · rw [e'] at hin
    have := (List.mem_filter.mp hin).2
    simp [hctx, hva] at this

end

/-! ## REVOKE answers, shootdowns, TRANSLATE and PERMIT (R184, R193, R390) -/

/-- A host agent's answer is taken off the moves of its page. -/
theorem revokeAnswer_moves {s : State} {ctx va agent : Nat} (harg : s.arg = [ctx, va, agent]) :
    ∃ s', exec .revokeAnswer s = .next s' ∧ s'.mem = s.mem ∧ s'.moves.length = s.moves.length
      ∧ ∀ (i : Nat) (m : Move), s.moves[i]? = some m → s'.moves[i]? = some
          (if m.ctx = ctx ∧ m.va = pageBase va m.level then { m with revoking := m.revoking.filter fun a => a != agent }
            else m) := by
  let answered : List Move := updIf (fun m : Move => m.ctx == ctx && m.va == pageBase va m.level)
    (fun m => { m with revoking := m.revoking.filter fun a => a != agent }) s.moves
  refine ⟨{ s with moves := answered }, ?_, rfl, List.length_map .., fun i m hm => ?_⟩
  · change execRevokeAnswer s = _
    simp only [execRevokeAnswer, harg, answered]
  · have hmap : answered[i]? = _ := (List.getElem?_map ..).trans (congrArg (Option.map _) hm)
    refine hmap.trans ?_
    simp only [Option.map_some, Bool.and_eq_true, beq_iff_eq]

/-- A context as a write to SDLEN leaves it. -/
def Context.shotDown (len : DWord) (c : Context) : Context :=
  if c.sdbusy then { c with sdwait := c.sdwait ++ [len] } else { c with sdbusy := true, sdlen := len, sdfrom := c.sdaddr }

theorem shootdown_starts {s : State} {n k : Nat} {c : Context} (hc : s.ctx? n = some c) (harg : s.arg = [n, k]) :
    ∃ s', exec .shootdown s = .next s' ∧ s'.mem = s.mem ∧ s'.tlb = s.tlb ∧ s'.teams = s.teams
      ∧ CtxIs s' n fun x => x = c.shotDown (BitVec.ofNat 64 k) := by
  have hnum : ∀ x : Context, (x.shotDown (BitVec.ofNat 64 k)).num = x.num := fun x => by
    unfold Context.shotDown
    split <;> rfl
  refine ⟨s.modCtx n (Context.shotDown (BitVec.ofNat 64 k)), ?_, rfl, rfl, rfl, c.shotDown (BitVec.ofNat 64 k), ?_, rfl⟩
  · change execShootdown s = _
    simp only [execShootdown, harg]
    rfl
  · rw [State.ctx?_modCtx s n _ hnum, hc]
    rfl

/-- A context as the completion of its shootdown leaves it: idle, or with the next one under way. -/
def Context.shootNext (c : Context) : Context := match c.sdwait with
  | [] => { c with sdbusy := false }
  | n :: rest => { c with sdlen := n, sdfrom := c.sdaddr, sdwait := rest }

theorem shootdown_completes {s : State} {n : Nat} {c : Context} (hc : s.ctx? n = some c) (harg : s.arg = [n])
    (hbusy : c.sdbusy = true) :
    ∃ s', exec .shootdownComplete s = .next s' ∧ s'.mem = s.mem
      ∧ (∀ x, x ∈ s'.tlb ↔ x ∈ s.tlb ∧ ¬ (x.ctx = n ∧ x.within c.sdfrom.toNat c.sdlen.toNat = true))
      ∧ CtxIs s' n fun x => x = c.shootNext := by
  have hnum : ∀ x : Context, x.shootNext.num = x.num := fun x => by
    unfold Context.shootNext
    split <;> rfl
  let s0 : State := { s with tlb := s.tlb.filter fun t => !(t.ctx == n && t.within c.sdfrom.toNat c.sdlen.toNat) }
  refine ⟨s0.modCtx n Context.shootNext, ?_, rfl, fun x => ?_, c.shootNext, ?_, rfl⟩
  · change execShootdownComplete s = _
    simp only [execShootdownComplete, harg, hc, hbusy, Bool.not_true, Bool.false_eq_true, if_false, s0]
    rfl
  · refine List.mem_filter.trans (and_congr_right fun _ => ?_)
    rw [Bool.not_eq_true', ← Bool.not_eq_true, Bool.and_eq_true, beq_iff_eq]
  · rw [State.ctx?_modCtx s0 n _ hnum]
    exact congrArg (Option.map _) hc

/-- A range that ends in the page of its first address is answered with that page. -/
theorem rangePages_walked {s : State} {ctx va stop : Nat} {c : Context} (hc : s.ctx? ctx = some c) {p : Page}
    (hp : s.walk c.root va = .ok p) (hlt : va < stop) (hend : stop ≤ pageBase va p.level + pageSize p.level) (fuel : Nat) :
    s.rangePages ctx stop (fuel + 2) va
      = [(pageBase va p.level, if p.uni = true ∧ s.moving ctx va = false then some (p.base, bits p.leaf 3 1) else none)] := by
  rw [State.rangePages, if_neg (by omega)]
  simp only [hc, Option.map_some, hp]
  rw [State.rangePages, if_pos hend]
  simp

theorem rangePages_faulted {s : State} {ctx va stop : Nat} {c : Context} (hc : s.ctx? ctx = some c) {f : AFault}
    (hf : s.walk c.root va = .error f) (hlt : va < stop) (hend : stop ≤ pageBase va 3 + 65536) (fuel : Nat) :
    s.rangePages ctx stop (fuel + 2) va = [(pageBase va 3, none)] := by
  rw [State.rangePages, if_neg (by omega)]
  simp only [hc, Option.map_some, hf]
  rw [State.rangePages, if_pos hend]

theorem bits_3_1 (e : Nat) : bits e 3 1 = e / 2 % 8 := by simp [bits, Nat.shiftRight_eq_div_pow]

/-- A leaf with other rights: its bits 1 to 3 are the rights, and the others stay. -/
theorem permitted_leaf (e r : Nat) : bits (e - bits e 3 1 * 2 + r % 8 * 2) 3 1 = r % 8
    ∧ ∀ i, i ≠ 1 → i ≠ 2 → i ≠ 3 → (e - bits e 3 1 * 2 + r % 8 * 2).testBit i = e.testBit i := by
  rw [bits_3_1, bits_3_1]
  refine ⟨by omega, fun i h1 h2 h3 => ?_⟩
  have hlow : (e - e / 2 % 8 * 2 + r % 8 * 2) % 2 = e % 2 := by omega
  have hhigh : (e - e / 2 % 8 * 2 + r % 8 * 2) / 16 = e / 16 := by omega
  by_cases h0 : i = 0
  · subst h0
    simp only [Nat.testBit_zero, hlow]
  · obtain ⟨j, rfl⟩ : ∃ j, i = j + 4 := ⟨i - 4, by omega⟩
    have hdiv : ∀ x : Nat, x.testBit (j + 4) = (x / 16).testBit j := fun x => by
      rw [show (16 : Nat) = 2 ^ 4 from rfl, Nat.testBit_div_two_pow]
    rw [hdiv, hdiv, hhigh]

theorem permit_changes {s : State} {ctx va rights at_ level e : Nat} (harg : s.arg = [ctx, va, rights])
    (h : s.leafOf ctx va = some (at_, level, e)) (huni : e.testBit 11 = true) :
    ∃ s', exec .permit s = .next s' ∧ s'.out = s.out ++ [.permitDone ctx va] ∧ s'.teams = s.teams
      ∧ bits (memNat at_ 8 s'.mem) 3 1 = rights % 8
      ∧ (∀ i, i < 64 → i ≠ 1 → i ≠ 2 → i ≠ 3 → (memNat at_ 8 s'.mem).testBit i = e.testBit i)
      ∧ (MemOutside s s' fun a => at_ ≤ a ∧ a < at_ + 8) ∧ ∀ x ∈ s'.tlb, x.leaf.toNat ≠ e := by
  obtain ⟨_, hlt, _⟩ := leafOf_entry h
  let s0 : State := { s with tlb := s.tlb.filter fun t => t.leaf.toNat != e }
  have hentry := putLeaf_entry s0 at_ (e - bits e 3 1 * 2 + rights % 8 * 2) (by rw [bits_3_1]; omega)
  obtain ⟨hrights, hrest⟩ := permitted_leaf e rights
  refine ⟨(s0.putLeaf at_ (e - bits e 3 1 * 2 + rights % 8 * 2)).emit (.permitDone ctx va), ?_, rfl, rfl, ?_,
    fun i _ h1 h2 h3 => ?_,
    putLeaf_outside s0 at_ _, fun x hx => by simpa using (List.mem_filter.mp hx).2⟩
  · change execPermit s = _
    simp only [execPermit, harg, h, huni, Bool.not_true, Bool.false_eq_true, if_false, s0]
  · exact (congrArg (fun v => bits v 3 1) hentry).trans hrights
  · exact (congrArg (fun v => v.testBit i) hentry).trans (hrest i h1 h2 h3)

/-! ## The statement -/

section
variable {s : State} {ctx va at_ level e : Nat} (h : s.leafOf ctx va = some (at_, level, e))
include h

/-- What is noted of a move that begins. -/
theorem movePage_notes {dst : Option Nat} (hno : ∀ m ∈ s.moves, ¬ (m.ctx = ctx ∧ m.va = pageBase va level))
    (hp : (dst.isSome && e.testBit 59) = false) (hexec : exec .pageMove s = .next (s.movePage ctx va dst)) :
    ∃ s', exec .pageMove s = .next s' ∧ s'.mem = s.mem ∧ s'.tlb = s.tlb
      ∧ s'.moves = s.moves ++ [⟨ctx, pageBase va level, level, dst, if e.testBit 11 then s.part.env.agents else []⟩]
      ∧ s'.out = s.out ++ (if e.testBit 11 then [.revoke ctx (pageBase va level)] else []) := by
  refine ⟨_, hexec, ?_⟩
  rw [movePage_noted h hno hp]
  cases e.testBit 11 with
  | true => exact ⟨rfl, rfl, rfl, rfl⟩
  | false => exact ⟨rfl, rfl, rfl, (List.append_nil _).symm⟩

/-- A PAGE_MOVE for a move under way ends it when it may. -/
theorem pageMove_underWay {dst : Nat} {m : Move} (harg : s.arg = [ctx, va, dst] ∨ s.arg = [ctx, va])
    (hm : (s.moves.find? fun m => m.ctx == ctx && m.va == pageBase va level) = some m) :
    exec .pageMove s = .next (if s.moveReady m then s.endMove m else s) := by
  change execPageMove s = _
  rcases harg with harg | harg
  · simp only [execPageMove, harg, movePage_underWay h hm]
  · simp only [execPageMove, harg, movePage_underWay h hm]

end

/-- Settles O52: a move begins with a note of it and ends at its new home, its old one, or in a failure; the other events change
the leaf, the cached translations or the context that they name. -/
theorem pageEvents : Obligations.PageEvents := by
  unfold Obligations.PageEvents
  refine ⟨?_, ?_, ?_⟩
  · intro s ctx va dst at_ level e h base old n noted stays
    have hexec3 : s.arg = [ctx, va, dst] → exec .pageMove s = .next (s.movePage ctx va (some dst)) := fun harg => by
      change execPageMove s = _
      simp only [execPageMove, harg]
    have hexec2 : s.arg = [ctx, va] → exec .pageMove s = .next (s.movePage ctx va none) := fun harg => by
      change execPageMove s = _
      simp only [execPageMove, harg]
    refine ⟨fun hno => ⟨fun harg => ⟨fun hp => ?_, fun hp => ?_⟩, fun harg => ?_⟩, fun m harg hm => ?_, fun x y m harg hm => ?_,
      fun harg => ⟨eccErrorReport_poisons harg h, fun m hm hctx hva => eccErrorReport_fails harg h hm hctx hva⟩,
      fun agent harg => revokeAnswer_moves harg⟩
    · rw [hexec3 harg, movePage_poisoned h hno (by simp [hp])]
    · exact movePage_notes h hno (by simp [hp]) (hexec3 harg)
    · exact movePage_notes h hno (by simp) (hexec2 harg)
    · have hexec := pageMove_underWay h harg hm
      have hself := List.find?_some hm
      simp only [Bool.and_eq_true, beq_iff_eq] at hself
      obtain ⟨hctx, hva⟩ := hself
      refine ⟨fun hr => by rw [hexec, hr]; rfl, fun hr hbase hlevel => ?_⟩
      rw [hr] at hexec
      have hleaf : s.leafOf m.ctx m.va = some (at_, m.level, e) := by rw [hctx, hva, hlevel]; exact hbase
      subst hctx hlevel
      refine ⟨fun d hd => ⟨fun hfit hbad hwf hout => ⟨_, hexec, endMove_home hleaf hd hfit hbad hwf hout⟩,
        fun hfit => ⟨_, hexec, endMove_unfit hleaf hd hfit⟩, fun hfit hbad => ⟨_, hexec, endMove_bad hleaf hd hfit hbad⟩⟩,
        fun hd => ⟨_, hexec, endMove_unmapped hleaf hd⟩⟩
    · refine ⟨s.failMove ctx va, ?_, failMove_stays hm⟩
      change execPageMove s = _
      simp only [execPageMove, harg]
  · intro s c n k hc
    refine ⟨fun harg => shootdown_starts hc harg, fun harg => ⟨fun hidle => ?_, fun hbusy => ?_⟩⟩
    · change execShootdownComplete s = _
      simp only [execShootdownComplete, harg, hc, hidle, Bool.not_false, if_true]
    · obtain ⟨s', hexec, hmem, htlb, x, hx, rfl⟩ := shootdown_completes hc harg hbusy
      exact ⟨s', hexec, hmem, htlb, _, hx, fun hw => by simp only [Context.shootNext, hw], fun w ws hw => by
        simp only [Context.shootNext, hw]⟩
  · intro s ctx va n rights
    refine ⟨fun harg hpos c hc => ⟨fun p hp hend => ?_, fun f hf hend => ?_⟩, fun harg at_ level e h =>
      ⟨fun huni => ?_, fun huni => permit_changes harg h huni⟩⟩
    · change execTranslate s = _
      simp only [execTranslate, harg]
      rw [rangePages_walked hc hp (by omega) hend]
    · change execTranslate s = _
      simp only [execTranslate, harg]
      rw [rangePages_faulted hc hf (by omega) hend]
    · change execPermit s = _
      simp only [execPermit, harg, h, huni, Bool.not_false, if_true]

end Sys2Proof.Machine

/-! O50: aging, reclaims, saves and restores (R179, R361, R384, R386, R400 to R403). -/

namespace Sys2Proof.Machine

/-! ## Parts of the state that a step leaves as they are -/

/-- A change that a view does not see leaves a list's views as they are. -/
theorem map_updIf {α β : Type} {g : α → β} {f : α → α} (h : ∀ x, g (f x) = g x) (p : α → Bool) (l : List α) :
    (updIf p f l).map g = l.map g := by
  simp only [updIf, List.map_map]
  refine List.map_congr_left fun x _ => ?_
  by_cases hp : p x = true <;> simp [hp, h]

/-- A change of a team that a view does not see leaves the teams' views as they are. -/
theorem modTeam_view {α : Type} {g : Team → α} (s : State) (k : Nat) {f : Team → Team} (h : ∀ u, g (f u) = g u) :
    (s.modTeam k f).teams.map g = s.teams.map g :=
  map_updIf h _ _

/-- Teams seen alike by a view that shows their keys are found alike. -/
theorem team?_of_teams_map {α : Type} {g : Team → α} (hg : ∀ u v, g u = g v → u.key = v.key) {s s' : State} {k : Nat} {t : Team}
    (h : s'.teams.map g = s.teams.map g) (ht : s.team? k = some t) : ∃ u, s'.team? k = some u ∧ g u = g t := by
  suffices key : ∀ l' l : List Team, l'.map g = l.map g → l.find? (fun x => x.key == k) = some t →
      ∃ u, l'.find? (fun x => x.key == k) = some u ∧ g u = g t from key _ _ h ht
  intro l' l
  induction l generalizing l' with
  | nil => intro _ h0; simp at h0
  | cons x r ih =>
    intro hl hx
    cases l' with
    | nil => simp at hl
    | cons y r' =>
      obtain ⟨hyx, hr⟩ := List.cons.inj hl
      by_cases hk : x.key = k
      · have hy : y.key = k := (hg y x hyx).trans hk
        obtain rfl : x = t := by simpa [hk] using hx
        exact ⟨y, by simp [hy], hyx⟩
      · have hy : y.key ≠ k := fun e => hk ((hg y x hyx).symm.trans e)
        simpa [hy] using ih r' hr (by simpa [hk] using hx)

@[simp] theorem State.chargeGrant_teams (s : State) (l : Launch) (reached : List (Nat × Nat)) (cost : Nat) :
    (s.chargeGrant l reached cost).teams = s.teams := by
  unfold State.chargeGrant
  split
  · exact foldl_unobserved (put := fun (s : State) (r : Nat × Nat) =>
      s.modQueue r.1 r.2 fun x => { x with deficit := x.deficit + (x.quantum : Int) }) State.teams (fun _ _ _ => rfl) s
  · rfl

@[simp] theorem State.clearDeficits_teams (s : State) : s.clearDeficits.teams = s.teams := rfl

@[simp] theorem State.preempt_teams (s : State) (cn : Nat) : (s.preempt cn).teams = s.teams := by
  unfold State.preempt
  simp only []
  split <;> rfl

@[simp] theorem State.preempt_reclaims (s : State) (cn : Nat) : (s.preempt cn).reclaims = s.reclaims := by
  unfold State.preempt
  simp only []
  split <;> rfl

@[simp] theorem State.stopTeams_reclaims (s : State) (r : Reclaim) : (s.stopTeams r).reclaims = s.reclaims := rfl

theorem State.settleContexts_teams {s : State} (h : s.reclaims = []) : s.settleContexts.teams = s.teams := by
  simp [State.settleContexts, h]

/-! ## Aging -/

theorem priorityAging_spec {s : State} {c : Context} {q : Queue} (harg : s.arg = [c.num, q.num]) (hc : s.ctx? c.num = some c)
    (hq : c.queue? q.num = some q) :
    ∃ s', exec .priorityAging s = .next s' ∧ s'.mem = s.mem
      ∧ QueueIs s' c.num q.num fun x => x = { q with eff := s.agedPrio c q } := by
  let f : Queue → Queue := fun x => { x with eff := s.agedPrio c q }
  have hctx : (s.modQueue c.num q.num f).ctx? c.num = some { c with queues := updIf (fun y => y.num == q.num) f c.queues } := by
    refine (State.ctx?_modCtx s c.num (fun x => { x with queues := updIf (fun y => y.num == q.num) f x.queues })
      fun _ => rfl).trans ?_
    rw [hc, Option.map_some]
  have hqueue : (updIf (fun y : Queue => y.num == q.num) f c.queues).find? (fun y => y.num == q.num) = some (f q) := by
    have hq' : c.queues.find? (fun y => y.num == q.num) = some q := hq
    rw [find?_updIf _ f _ fun x hx => by simpa [f] using hx, hq', Option.map_some]
  refine ⟨s.modQueue c.num q.num f, ?_, rfl, f q, ?_, rfl⟩
  · show execPriorityAging s = _
    simp [execPriorityAging, harg, hc, hq, f]
  · rw [State.queue?, hctx]
    exact hqueue

/-! ## Reclaims -/

/-- A reclaim never takes more cores than it is to take. -/
theorem reclaimSet_length_le (s : State) (cn n : Nat) (cores : List Nat) : (s.reclaimSet cn n cores).length ≤ n := by
  unfold State.reclaimSet
  refine List.foldlRecOn cores _ (motive := fun (got : List Nat) => got.length ≤ n) (Nat.zero_le n) fun got hgot k _ => ?_
  dsimp only
  split
  · assumption
  · exact hgot

theorem uniq_eq_self {α : Type} [BEq α] [LawfulBEq α] {l : List α} (h : l.Nodup) : uniq l = l := by
  have key : ∀ (l acc : List α), (acc ++ l).Nodup →
      l.foldl (fun acc x => if acc.contains x then acc else acc ++ [x]) acc = acc ++ l := by
    intro l
    induction l with
    | nil => simp
    | cons x r ih =>
      intro acc hn
      have hx : x ∉ acc := fun hm => (List.nodup_append.mp hn).2.2 x hm x (by simp) rfl
      rw [List.foldl_cons, if_neg (by simpa using hx), ih _ (by simpa using hn)]
      simp
  exact key l [] (by simpa using h)

/-- Where every core's cluster is the core alone, a reclaim takes the first cores. -/
theorem reclaimSet_eq_take {s : State} {cn n : Nat} {cores : List Nat} (h1 : ∀ k ∈ cores, s.withClusters cn [k] = [k])
    (hn : cores.Nodup) : s.reclaimSet cn n cores = cores.take n := by
  have key : ∀ (rest pre : List Nat), (pre ++ rest).Nodup → (∀ k ∈ rest, s.withClusters cn [k] = [k]) →
      rest.foldl (fun got k => let more := uniq (got ++ s.withClusters cn [k]); if more.length ≤ n then more else got)
          (pre.take n)
        = (pre ++ rest).take n := by
    intro rest
    induction rest with
    | nil => simp
    | cons k r ih =>
      intro pre hnd hk
      have hnd' : (pre ++ [k]).Nodup := (List.nodup_append.mp (by simpa using hnd : (pre ++ [k] ++ r).Nodup)).1
      have hmore : uniq (pre.take n ++ s.withClusters cn [k]) = pre.take n ++ [k] := by
        rw [hk k (by simp)]
        exact uniq_eq_self (hnd'.sublist ((List.take_sublist n pre).append_right [k]))
      have hstep : (if (pre.take n ++ [k]).length ≤ n then pre.take n ++ [k] else pre.take n) = (pre ++ [k]).take n := by
        by_cases hlt : pre.length < n
        · rw [List.take_of_length_le (by omega : pre.length ≤ n), if_pos (by simpa using hlt),
            List.take_of_length_le (by simpa using hlt)]
        · rw [if_neg (by simp; omega), List.take_append_of_le_length (by omega)]
      rw [List.foldl_cons]
      simp only [hmore, hstep]
      rw [ih (pre ++ [k]) (by simpa using hnd) fun x hx => hk x (by simp [hx])]
      simp
  simpa [State.reclaimSet] using key cores [] (by simpa using hn) h1

theorem le_foldl_max {l : List Nat} {x : Nat} (h : x ∈ l) (b : Nat) : x ≤ l.foldl max b := by
  rw [List.foldl_max]
  exact (List.le_max?_getD_of_mem h).trans (le_max_right _ _)

/-- The reclaim that the CP plans: its cores, DRAIN from now at the earliest and MINSLICE after the grants (R386, R400). -/
def State.plannedReclaim (s : State) (c : Context) (cn : Nat) (mine : List Nat) : Reclaim :=
  { ctx := cn, cores := mine,
    tend := max (s.now + c.drain * Config.cyclesPerUs)
      (((c.granted.filter fun g => mine.contains g.1).map fun g => g.2).foldl max 0
        + (c.minslice - min c.charge c.minslice) * Config.cyclesPerUs),
    sent := false }

theorem grant_le_tend (s : State) {c : Context} (cn : Nat) {mine : List Nat} {g : Nat × Nat} (hg : g ∈ c.granted)
    (hm : g.1 ∈ mine) :
    g.2 + (c.minslice - min c.charge c.minslice) * Config.cyclesPerUs ≤ (s.plannedReclaim c cn mine).tend := by
  have hmem : g.2 ∈ (c.granted.filter fun g => mine.contains g.1).map fun g => g.2 :=
    List.mem_map.mpr ⟨g, List.mem_filter.mpr ⟨hg, by simpa using hm⟩, rfl⟩
  exact (Nat.add_le_add_right (le_foldl_max hmem 0) _).trans (le_max_right _ _)

theorem execCoreReclaim_eq {s : State} {cn count : Nat} {l : Launch} {w : Tenant} {cs : List (Context × List Nat)} {c : Context}
    {cores : List Nat} (harg : s.arg = [cn, count]) (hv : s.victims = some (l, w, cs))
    (hf : cs.find? (fun x => x.1.num == cn) = some (c, cores)) :
    let mine := s.reclaimSet cn (min count (s.wanted l)) cores
    execCoreReclaim s = if mine.isEmpty then .next s else
      .next (({ s with reclaims := s.reclaims ++ [s.plannedReclaim c cn mine] } : State).modCtx cn fun x =>
        { x with charge := x.charge - min x.charge x.minslice }) := by
  simp only [execCoreReclaim, harg, hv, hf]
  rfl

/-! ## Stop requests -/

/-- A state with a reclaim's stop requests noted as sent. -/
def State.noteSent (s : State) (r : Reclaim) : State :=
  { s with reclaims := s.reclaims.map fun x => if x == r then { x with sent := true } else x }

theorem sent_mem_noteSent {s : State} {r : Reclaim} (h : r ∈ s.reclaims) : { r with sent := true } ∈ (s.noteSent r).reclaims :=
  List.mem_map.mpr ⟨r, h, by simp⟩

theorem execPreemptStopRequest_eq {s : State} {core : Nat} {r : Reclaim} (harg : s.arg = [core])
    (hr : s.reclaims.find? (fun r => r.cores.contains core && s.stopDue r) = some r) :
    execPreemptStopRequest s = .next (((s.noteSent r).stopTeams r).preempt r.ctx) := by
  simp only [execPreemptStopRequest, harg, hr, State.noteSent]

/-- The teams that run on the cores of a reclaim stop. -/
theorem team?_stopTeams {s : State} {r : Reclaim} {t : Team} (ht : s.team? t.key = some t) (hctx : t.ctx = r.ctx)
    (hst : t.st = .running) (hcore : r.cores.contains t.core = true) :
    (s.stopTeams r).team? t.key = some { t with st := .stopping } := by
  have hmem : t ∈ s.teams.filter fun t => t.ctx == r.ctx && t.onCore && r.cores.contains t.core :=
    List.mem_filter.mpr ⟨List.mem_of_find?_eq_some ht, by simp only [hctx, Team.onCore, hst, hcore]; simp⟩
  unfold State.stopTeams
  generalize s.teams.filter (fun t => t.ctx == r.ctx && t.onCore && r.cores.contains t.core) = ts at hmem
  let keys := uniq ((ts.flatMap s.clusterTeams ++ ts).map fun t => t.key)
  let stop : Team → Team := fun t => if t.st == .running then { t with st := .stopping } else t
  have hkey : keys.contains t.key = true := by
    simp only [keys, List.contains_iff_mem, mem_uniq_iff, List.mem_map]
    exact ⟨t, List.mem_append_right _ hmem, rfl⟩
  have hstop : ∀ x : Team, (if keys.contains x.key then stop x else x).key = x.key := fun x => by
    dsimp only [stop]
    split
    · split <;> rfl
    · rfl
  have hfind : (updIf (fun t : Team => keys.contains t.key) stop s.teams).find? (fun x => x.key == t.key)
      = (s.team? t.key).map fun x => if keys.contains x.key then stop x else x := by
    simp only [updIf, List.find?_map, Function.comp_def, hstop]
    rfl
  exact hfind.trans (by simp only [ht, Option.map_some, hkey, if_true]; simp [stop, hst])

/-! ## Saves -/

/-- A team without its barrier token and the note of its cluster's phase, which alone the completion of a phase changes. -/
def Team.tokenless (t : Team) : Team := { t with token := none, turnOver := false, clusterOpen := false }

theorem tokenless_key {u v : Team} (h : u.tokenless = v.tokenless) : u.key = v.key :=
  (congrArg Team.key h :)

theorem completePhase_tokenless (s : State) (b : Bar) (here : Bool) :
    (s.completePhase b here).teams.map Team.tokenless = s.teams.map Team.tokenless := by
  unfold State.completePhase
  simp only []
  split
  · split
    · rfl
    · exact map_updIf (f := fun (t : Team) => { t with clusterOpen := false }) (fun _ => rfl) _ _
  · split
    · refine modTeam_view _ _ fun u => ?_
      split <;> rfl
    · rfl
  · rfl

theorem completePhase_reclaims (s : State) (b : Bar) (here : Bool) : (s.completePhase b here).reclaims = s.reclaims := by
  unfold State.completePhase
  simp only []
  split
  · split <;> rfl
  · split <;> rfl
  · rfl

/-- Whatever a check of a barrier keeps if the completion of a phase does. -/
theorem checkBar_keeps {α : Type} {g : State → α} (h : ∀ s b, g (s.completePhase b) = g s) (s : State) (k : Nat) :
    g (s.checkBar k) = g s := by
  unfold State.checkBar
  split
  · rfl
  · exact (apply_ite g _ _ _).trans (by rw [h]; exact ite_self _)

/-- Checking all barriers keeps it as well. -/
theorem checkBars_keeps {α : Type} {g : State → α} (h : ∀ s b, g (s.completePhase b) = g s) (s : State) (bars : List Bar) :
    g (bars.foldl (fun (s : State) (b : Bar) => if b.arrived.isEmpty then s else s.checkBar b.key) s) = g s :=
  foldl_unobserved g (fun b _ u => (apply_ite g _ _ _).trans (by rw [checkBar_keeps h]; exact ite_self _)) s

/-- What a save leaves of a team (R401): all but its squads, windows and migration, which nothing here speaks of. -/
structure Team.SavedAs (t u : Team) : Prop where
  key : u.key = t.key
  st : u.st = .saved
  scratch : u.scratch = t.scratch
  tags : u.tags = t.tags
  accs : u.accs = t.accs
  slots : u.slots = t.slots
  trays : u.trays = []
  threads : ∀ g l, u.thread? g l = t.thread? g l
  chains : ∀ c ∈ u.chains, c.st = .saved ∨ c.st = .stopping
  privOut : t.writesBack → u.priv = []
  privKept : ¬ t.writesBack → u.priv = t.priv

/-- A team without its squads, void tokens and place, which alone its leaving a die and a core changes. -/
def Team.placeless (t : Team) : Team := { t with squads := [], voids := [], place := none }

theorem placeless_key {u v : Team} (h : u.placeless = v.placeless) : u.key = v.key :=
  (congrArg Team.key h :)

theorem vacate_placeless (s : State) (k : Nat) : (s.vacate k).teams.map Team.placeless = s.teams.map Team.placeless := by
  unfold State.vacate
  split
  · rfl
  · split
    · rfl
    · exact modTeam_view _ k fun _ => rfl

theorem leaveDie_placeless (s : State) (t : Team) : (s.leaveDie t).teams.map Team.placeless = s.teams.map Team.placeless := by
  unfold State.leaveDie
  exact modTeam_view _ t.key fun _ => rfl

theorem vacate_reclaims (s : State) (k : Nat) : (s.vacate k).reclaims = s.reclaims := by
  unfold State.vacate
  split
  · rfl
  · split <;> rfl

/-- What a save makes of a team at a cycle. -/
def Team.stopped (now : Nat) (u : Team) : Team :=
  { u with
    st := .saved, squads := u.squads.filter (fun q => q.wait.isSome), trays := [],
    windows := u.windows.filter fun w => w.ready.isSome,
    chains := u.chains.map fun c => match c.st with
      | .stopping => { c with toks := [] }
      | _ => { c with st := .saved, toks := [] },
    groups := u.groups.map fun g => { g with flags := [] },
    levels := u.levels.map fun l => { l with start := now - l.start },
    migr := u.migr.map fun (m : Migr) => { m with since := now - m.since } }

theorem stopped_chains (now : Nat) (u : Team) : ∀ c ∈ (u.stopped now).chains, c.st = .saved ∨ c.st = .stopping := by
  intro c hc
  obtain ⟨c0, _, rfl⟩ := List.mem_map.mp hc
  split
  · exact .inr ‹_›
  · exact .inl rfl

theorem stopped_thread? (now : Nat) (u : Team) (g l : Nat) : (u.stopped now).thread? g l = u.thread? g l := by
  simp only [Team.thread?, Team.group?, Team.stopped, List.find?_map, Function.comp_def]
  cases u.groups.find? (fun x => x.gid == g) <;> rfl

/-- A save, by its steps: the team leaves its die and its core, is stopped, its own bytes are written; of the rest only
barriers that its leaving completes concern a team. -/
theorem saveTeam_steps (s : State) (t : Team) :
    let left := (s.leaveDie t).vacate t.key
    ∃ r : State, r.teams = ((left.modTeam t.key (Team.stopped left.now)).writePrivate t).teams
      ∧ r.mem = ((left.modTeam t.key (Team.stopped left.now)).writePrivate t).mem
      ∧ r.reclaims = ((left.modTeam t.key (Team.stopped left.now)).writePrivate t).reclaims
      ∧ s.saveTeam t = r.bars.foldl (fun (s : State) (b : Bar) => if b.arrived.isEmpty then s else s.checkBar b.key) r := by
  refine ⟨_, ?_, ?_, ?_, rfl⟩ <;> rfl

theorem writePrivate_of_writesBack {s : State} {t : Team} (h : t.writesBack) :
    s.writePrivate t = ({ s with mem := s.privBack t } : State).modTeam t.key fun u => { u with priv := [] } := by
  obtain ⟨hp, hl, hf⟩ := h
  simp [State.writePrivate, hp, hl, hf, State.privBack]

theorem writePrivate_of_not_writesBack {s : State} {t : Team} (h : ¬ t.writesBack) : s.writePrivate t = s := by
  have hc : (t.parent.isSome || !t.levels.isEmpty || t.fork.isSome) = true := by
    by_contra hc
    simp only [Bool.not_eq_true, Bool.or_eq_false_iff, Option.isSome_eq_false_iff, Option.isNone_iff_eq_none, Bool.not_eq_false',
      List.isEmpty_iff] at hc
    exact h ⟨hc.1.1, hc.1.2, hc.2⟩
  rw [State.writePrivate, if_pos hc]

/-- What a save does to the team's own bytes and to memory (R179). -/
theorem writePrivate_spec {s : State} {t u : Team} (hu : s.team? t.key = some u) :
    (s.writePrivate t).reclaims = s.reclaims
    ∧ (t.writesBack → (s.writePrivate t).mem = s.privBack t ∧ (s.writePrivate t).team? t.key = some { u with priv := [] })
    ∧ (¬ t.writesBack → (s.writePrivate t).mem = s.mem ∧ (s.writePrivate t).team? t.key = some u) := by
  by_cases h : t.writesBack
  · rw [writePrivate_of_writesBack h]
    exact ⟨rfl, fun _ => ⟨rfl, State.team?_modTeam_some hu _ fun _ => rfl⟩, fun hn => (hn h).elim⟩
  · rw [writePrivate_of_not_writesBack h]
    exact ⟨rfl, fun hy => (h hy).elim, fun _ => ⟨rfl, hu⟩⟩

/-- A stopped team of which only the place, the squads and the token have changed is saved as R401 says. -/
theorem savedAs_stopped {t u v : Team} {now : Nat} {p : List (Nat × Byte)} (hu : u.placeless = t.placeless)
    (hv : v.tokenless = ({ u.stopped now with priv := p } : Team).tokenless)
    (hout : t.writesBack → p = []) (hkept : ¬ t.writesBack → p = t.priv) : t.SavedAs v := by
  have hg : v.groups = (u.stopped now).groups := (congrArg Team.groups hv :)
  have hc : v.chains = (u.stopped now).chains := (congrArg Team.chains hv :)
  have ht : u.groups = t.groups := (congrArg Team.groups hu :)
  have hp : v.priv = p := (congrArg Team.priv hv :)
  exact
    { key := (congrArg Team.key hv :).trans (congrArg Team.key hu :)
      st := (congrArg Team.st hv :)
      scratch := (congrArg Team.scratch hv :).trans (congrArg Team.scratch hu :)
      tags := (congrArg Team.tags hv :).trans (congrArg Team.tags hu :)
      accs := (congrArg Team.accs hv :).trans (congrArg Team.accs hu :)
      slots := (congrArg Team.slots hv :).trans (congrArg Team.slots hu :)
      trays := (congrArg Team.trays hv :)
      threads := fun g l => by
        have h1 : v.thread? g l = (u.stopped now).thread? g l := by rw [Team.thread?, Team.group?, hg]; rfl
        have h2 : u.thread? g l = t.thread? g l := by rw [Team.thread?, Team.group?, ht]; rfl
        rw [h1, stopped_thread?, h2]
      chains := by rw [hc]; exact stopped_chains now u
      privOut := fun h => hp.trans (hout h)
      privKept := fun h => hp.trans (hkept h) }

theorem saveTeam_spec {s : State} {t : Team} (ht : s.team? t.key = some t) :
    (s.saveTeam t).reclaims = s.reclaims ∧ (∃ u, (s.saveTeam t).team? t.key = some u ∧ t.SavedAs u)
    ∧ (t.writesBack → (s.saveTeam t).mem = s.privBack t) ∧ (¬ t.writesBack → (s.saveTeam t).mem = s.mem) := by
  obtain ⟨r, hteams, hmem, hrec, heq⟩ := saveTeam_steps s t
  generalize hl : (s.leaveDie t).vacate t.key = left at hteams hmem hrec
  have hview : left.teams.map Team.placeless = s.teams.map Team.placeless := by
    rw [← hl, vacate_placeless, leaveDie_placeless]
  have hlmem : left.mem = s.mem := by rw [← hl]; simp
  have hlrec : left.reclaims = s.reclaims := by rw [← hl, vacate_reclaims]; rfl
  obtain ⟨u, hu, hup⟩ := team?_of_teams_map (fun _ _ => placeless_key) hview ht
  have hstop := State.team?_modTeam_some hu (Team.stopped left.now) fun _ => rfl
  obtain ⟨hwrec, hback, hstay⟩ := writePrivate_spec hstop
  have hchecked : ∀ {v : Team}, r.team? t.key = some v → ∃ w, (s.saveTeam t).team? t.key = some w ∧ w.tokenless = v.tokenless :=
    fun hv => by
      rw [heq]
      exact team?_of_teams_map (fun _ _ => tokenless_key)
        (checkBars_keeps (g := fun s => s.teams.map Team.tokenless) (fun s b => completePhase_tokenless s b true) r r.bars) hv
  have hmem' : (s.saveTeam t).mem = r.mem := by
    rw [heq]
    exact checkBars_keeps (g := State.mem) (fun s b => State.completePhase_mem s b true) r r.bars
  have hrec' : (s.saveTeam t).reclaims = r.reclaims := by
    rw [heq]
    exact checkBars_keeps (g := State.reclaims) (fun s b => completePhase_reclaims s b true) r r.bars
  have hfound : r.team? t.key = ((left.modTeam t.key (Team.stopped left.now)).writePrivate t).team? t.key := by
    rw [State.team?, hteams]; rfl
  refine ⟨hrec'.trans (hrec.trans (hwrec.trans hlrec)), ?_, fun h => ?_, fun h => ?_⟩
  · by_cases h : t.writesBack
    · obtain ⟨w, hw, hwv⟩ := hchecked (hfound.trans (hback h).2)
      exact ⟨w, hw, savedAs_stopped hup hwv (fun _ => rfl) fun hn => (hn h).elim⟩
    · obtain ⟨w, hw, hwv⟩ := hchecked (hfound.trans (hstay h).2)
      exact ⟨w, hw, savedAs_stopped (p := (u.stopped left.now).priv) hup hwv (fun hy => (h hy).elim)
        fun _ => (congrArg Team.priv hup :)⟩
  · rw [hmem', hmem, (hback h).1, State.privBack, State.privBack, State.modTeam_mem, hlmem]
  · rw [hmem', hmem, (hstay h).1, State.modTeam_mem, hlmem]

theorem execTeamSaveComplete_of_canSave {s : State} {t : Team} (harg : s.arg = [t.key]) (ht : s.team? t.key = some t)
    (hc : s.canSave t = true) (hp : t.parent = none) : execTeamSaveComplete s = .next (s.saveTeam t).settleContexts := by
  simp [execTeamSaveComplete, harg, ht, hc, hp]

/-! ## Restores -/

/-- A team without its squads, trays, place and slots, which its return to a core fills again. -/
def Team.unfiled (t : Team) : Team := { t with squads := [], trays := [], place := none, slots := [] }

theorem unfiled_key {u v : Team} (h : u.unfiled = v.unfiled) : u.key = v.key :=
  (congrArg Team.key h :)

theorem file_unfiled {s s' : State} {k g l : Nat} {b y : Bool} (h : s.file k g l b y = some s') :
    s'.teams.map Team.unfiled = s.teams.map Team.unfiled := by
  unfold State.file at h
  split at h
  · cases h; rfl
  · split at h
    · cases h; rfl
    · simp only [] at h
      split at h
      · cases h
        exact modTeam_view s k fun _ => rfl
      · split at h
        · cases h
        · cases h
          exact modTeam_view s k fun _ => rfl

theorem addSquad_unfiled (s : State) (k : Nat) (ms : List (Nat × Nat)) (t0 tlast : Nat) (p : Option DWord) (line : List Word) :
    (s.addSquad k ms t0 tlast p line).teams.map Team.unfiled = s.teams.map Team.unfiled := by
  unfold State.addSquad
  split
  · rfl
  · exact modTeam_view _ k fun _ => rfl

theorem squadsAt_unfiled (s : State) (k : Nat) (ms : List (Nat × Nat)) (t0 tlast : Nat) (p : Option DWord) (line : List Word) :
    (s.squadsAt k ms t0 tlast p line).teams.map Team.unfiled = s.teams.map Team.unfiled := by
  unfold State.squadsAt
  split
  · rfl
  · exact foldl_unobserved (fun (s : State) => s.teams.map Team.unfiled) (fun _ _ s => addSquad_unfiled s ..) s

theorem refile_unfiled (s : State) (k : Nat) (ms : List (Nat × Nat)) :
    (s.refile k ms).teams.map Team.unfiled = s.teams.map Team.unfiled := by
  have hfiled : ∀ p : State × List (Nat × Nat),
      (ms.foldl (fun (p : State × List (Nat × Nat)) m => match p.1.file k m.1 m.2 true false with
        | some s' => (s', p.2)
        | none => (p.1, p.2 ++ [m])) p).1.teams.map Team.unfiled = p.1.teams.map Team.unfiled :=
    foldl_unobserved (fun (p : State × List (Nat × Nat)) => p.1.teams.map Team.unfiled) fun m _ p => by
      split
      · exact file_unfiled ‹_›
      · rfl
  exact (foldl_unobserved (fun (s : State) => s.teams.map Team.unfiled)
      (fun _ _ s => squadsAt_unfiled s ..) _).trans (hfiled (s, []))

theorem occupy_unfiled (s : State) (k : Nat) : (s.occupy k false).teams.map Team.unfiled = s.teams.map Team.unfiled := by
  unfold State.occupy
  split
  · rfl
  · exact modTeam_view _ k fun _ => rfl

/-- A woken context changes the waits of its teams' squads alone. -/
theorem wakeContext_unfiled (s : State) (cn : Nat) (cores : List Nat) :
    (s.wakeContext cn cores).teams.map Team.unfiled = s.teams.map Team.unfiled := by
  unfold State.wakeContext
  split
  · rfl
  · refine (apply_ite (fun (s : State) => s.teams.map Team.unfiled) _ _ _).trans ?_
    refine (congrArg (ite _ _) ?_).trans (ite_self _)
    refine map_updIf ?_ (fun t => t.ctx == cn && !s.waitsTurn t) s.teams
    exact fun _ => rfl

/-- What a restore leaves of a saved team (R403): what runs on is on the core chosen, and the registers and the data stay. -/
structure Team.RestoredOn (t : Team) (core : Nat) (u : Team) : Prop where
  st : u.st = .running
  kind : u.kind = kindOf core
  core : u.core = core
  scratch : u.scratch = t.scratch
  priv : u.priv = t.priv
  tags : u.tags = t.tags
  groups : u.groups = t.groups

/-- A team differs from another only in what its return to a core fills again. -/
theorem Team.RestoredOn.of_unfiled {t u v : Team} {core : Nat} (h : t.RestoredOn core u) (hv : v.unfiled = u.unfiled) :
    t.RestoredOn core v where
  st := (congrArg Team.st hv :).trans h.st
  core := (congrArg Team.core hv :).trans h.core
  kind := (congrArg Team.kind hv :).trans h.kind
  scratch := (congrArg Team.scratch hv :).trans h.scratch
  priv := (congrArg Team.priv hv :).trans h.priv
  tags := (congrArg Team.tags hv :).trans h.tags
  groups := (congrArg Team.groups hv :).trans h.groups

/-- A restore, by its steps: the team goes on on the core, its squads run, it takes a place, and its other threads are filed. -/
theorem restoreTeam_steps {s : State} {u : Team} {core : Nat} (hu : s.team? u.key = some u) :
    ∃ (r : State) (v : Team) (ms : List (Nat × Nat)), r.team? u.key = some v ∧ u.RestoredOn core v
      ∧ s.restoreTeam u core = (r.occupy u.key false).refile u.key ms := by
  unfold State.restoreTeam
  simp only []
  split
  · next h =>
    rw [State.team?_modTeam (h := ?hkey), Option.map_eq_none_iff] at h
    case hkey => exact fun _ => rfl
    exact absurd (hu.symm.trans h) (by simp)
  · next v h =>
    have hv := h
    rw [State.team?_modTeam (h := ?hkey)] at h
    case hkey => exact fun _ => rfl
    obtain ⟨w, hw, rfl⟩ := Option.map_eq_some_iff.mp h
    obtain rfl : u = w := Option.some.inj (hu.symm.trans hw)
    refine ⟨_, ?v, _, ?found, ?same, rfl⟩
    case found => exact hv
    case same => exact ⟨rfl, rfl, rfl, rfl, rfl, rfl, rfl⟩

theorem restoreTeam_spec {s : State} {t u : Team} {core : Nat} (hu : s.team? t.key = some u) (hut : u.unfiled = t.unfiled) :
    ∃ v, (s.restoreTeam u core).team? t.key = some v ∧ t.RestoredOn core v := by
  have hkey : u.key = t.key := unfiled_key hut
  obtain ⟨r, v, ms, hr, hv, heq⟩ := restoreTeam_steps (core := core) (hkey ▸ hu)
  obtain ⟨w, hw, hwv⟩ := team?_of_teams_map (fun _ _ => unfiled_key) ((refile_unfiled _ _ ms).trans (occupy_unfiled r u.key)) hr
  have hvt : t.RestoredOn core v :=
    { hv with
      scratch := hv.scratch.trans (congrArg Team.scratch hut :)
      priv := hv.priv.trans (congrArg Team.priv hut :)
      tags := hv.tags.trans (congrArg Team.tags hut :)
      groups := hv.groups.trans (congrArg Team.groups hut :) }
  exact ⟨w, by rw [heq, ← hkey, hw], .of_unfiled hvt hwv⟩

theorem clusterTeams_eq_singleton {s : State} {t : Team} (h : s.clusterSize t ≤ 1) : s.clusterTeams t = [t] := by
  simp [State.clusterTeams, h]

theorem execTeamRestore_eq {s : State} {t u : Team} {core k : Nat} {l : Launch} {reached : List (Nat × Nat)}
    (harg : s.arg = [t.key, core]) (ht : s.team? t.key = some t) (hc : s.coreChoice core = some (l, (some t.key, [k]), reached))
    (hcl : s.clusterSize t ≤ 1) (hu : ((s.chargeGrant l reached 0).wakeContext l.ctx [k]).team? t.key = some u) :
    execTeamRestore s = .next ((((s.chargeGrant l reached 0).wakeContext l.ctx [k]).restoreTeam u k).clearDeficits) := by
  have hsort : sortBy (fun (a b : Team) => decide (a.index ≤ b.index)) (s.clusterTeams t) = [t] := by
    rw [clusterTeams_eq_singleton hcl]; rfl
  unfold execTeamRestore
  simp only [harg, hc, ht, hsort, bne_self_eq_false, Bool.false_eq_true, if_false, List.zip_cons_cons, List.zip_nil_left,
      List.foldl_cons, List.foldl_nil, hu]

/-- Settles O50: aging, the plan of a reclaim, its stop requests, the save of a stopped team and the restore of a saved one. -/
theorem preemption : Obligations.Preemption := by
  refine ⟨?aging, ?reclaim, ?stop, ?save, ?restore⟩
  case aging =>
    intro s c q harg hc hq
    obtain ⟨s', hs', hmem, x, hx, hxq⟩ := priorityAging_spec harg hc hq
    exact ⟨s', hs', hmem, x, hx, by rw [hxq], by rw [hxq]; rfl⟩
  case reclaim =>
    intro s cn count l w cs c cores harg hv hf n
    have hexec : exec .coreReclaim s = _ := execCoreReclaim_eq harg hv hf
    refine ⟨fun hnone => hexec.trans (if_pos (List.isEmpty_iff.mpr hnone)),
      fun hsome => ⟨_, s.plannedReclaim c cn (s.reclaimSet cn n cores), hexec.trans (if_neg (by simpa using hsome)), rfl, rfl,
        rfl, rfl, rfl, le_max_left _ _, reclaimSet_length_le s cn n cores, reclaimSet_eq_take, fun g hg hm => grant_le_tend s cn hg hm⟩⟩
  case stop =>
    intro s core r harg hr
    refine ⟨_, execPreemptStopRequest_eq harg hr, by simp [State.noteSent], ?_, fun t _ ht hctx hst hcore => ⟨_, ?_, rfl⟩⟩
    · rw [State.preempt_reclaims, State.stopTeams_reclaims]
      exact sent_mem_noteSent (List.mem_of_find?_eq_some hr)
    · rw [State.team?, State.preempt_teams]
      exact team?_stopTeams (s := s.noteSent r) ht hctx hst hcore
  case save =>
    intro s t harg ht
    refine ⟨fun hc => ?_, fun hc hrec hp => ?_⟩
    · show execTeamSaveComplete s = _
      simp [execTeamSaveComplete, harg, ht, hc]
    · obtain ⟨hsrec, ⟨u, hu, hsaved⟩, hout, hkept⟩ := saveTeam_spec ht
      have hfound : (s.saveTeam t).settleContexts.team? t.key = some u := by
        rw [State.team?, State.settleContexts_teams (hsrec.trans hrec)]
        exact hu
      refine ⟨_, u, execTeamSaveComplete_of_canSave harg ht hc hp, ⟨fun h => ⟨?_, u, hfound, hsaved.privOut h⟩,
        fun h => ⟨?_, u, hfound, hsaved.privKept h⟩⟩, hfound, hsaved.st, hsaved.scratch, hsaved.tags, hsaved.accs, hsaved.slots,
        hsaved.trays, hsaved.threads, hsaved.chains⟩
      · rw [State.settleContexts_mem, hout h]
      · rw [State.settleContexts_mem, hkept h]
  case restore =>
    intro s t core k l reached harg ht hc hcl
    have hview : ((s.chargeGrant l reached 0).wakeContext l.ctx [k]).teams.map Team.unfiled = s.teams.map Team.unfiled := by
      rw [wakeContext_unfiled, State.chargeGrant_teams]
    obtain ⟨u, hu, hut⟩ := team?_of_teams_map (fun _ _ => unfiled_key) hview ht
    obtain ⟨v, hv, hres⟩ := restoreTeam_spec (core := k) hu hut
    refine ⟨_, v, execTeamRestore_eq harg ht hc hcl hu, by simp, hv, hres.st, hres.core, hres.kind, hres.scratch, hres.priv,
        hres.tags,
      fun g l => ?_⟩
    rw [Team.thread?, Team.group?, hres.groups]
    rfl

end Sys2Proof.Machine
